-- ==== Sys2Proof/Word.lean ====
section
/-! DEFINITION. The word types of the model (R6, R36, R101): a 64-bit register word, a 32-bit vector lane and a byte. -/

namespace Sys2Proof

/-- A 64-bit word: a configuration register (R6), a scalar register (R92) or a 64-bit memory word. -/
abbrev Word := BitVec 64

/-- A 32-bit lane: one F32 value or two B16 elements (R101). -/
abbrev Lane := BitVec 32

/-- One byte. -/
abbrev Byte := BitVec 8

end Sys2Proof
end

