-- ==== Sys2Proof/Types.lean ====
section
/-! DEFINITION. The operand types of the commands: moments, statuses, packets, frames, flits, descriptors of what the
surroundings present to the package. Sys2Proof/Syntax.lean holds the one inductive of commands over these types. -/

namespace Sys2Proof

/-- The moment at which a command happens: `tick` counts the ticks of the device's own 1 GHz clock since State.reset (R5),
`cyc` the contract-clock cycles of the tower that the command concerns (R125, R200); a command that concerns no tower
carries any `cyc`. Time is brought in by the commands (DESIGN CHOICE, assumption 1). -/
structure At where
  tick : Nat
  cyc : Nat
deriving DecidableEq, Repr, Inhabited

/-- The governing core and predicate of a slot instruction (R130). -/
structure Gate where
  core : Nat
  pred : BitVec 3
  pn : Bool
deriving DecidableEq, Repr, Inhabited

/-- The four slots of a bundle, from the highest bits down (R129, R488). -/
inductive Slot where
  | control | matrix | vector | stream
deriving DecidableEq, Repr, Inhabited

/-- The device states of R13. -/
inductive DevState where
  | off | boot | bringup | load | join | run | hold | halted | tripped
deriving DecidableEq, Repr, Inhabited

/-- The operation statuses of R16, in that table's order. -/
inductive Status where
  | notReady | denied | pathReset | pathFenced | timeout | unknown | poison | partialDone | ok
deriving DecidableEq, Repr, Inhabited

/-- The steppings of R1. -/
inductive Stepping where
  | a0 | a1 | b0
deriving DecidableEq, Repr, Inhabited

/-- A ring-plane packet: the header fields of R327 and the data flits of 64 bytes; beside them when it reached the queue in which it waits, a cycle or
a tick (R334, R340), which no field carries. -/
structure Packet where
  cls : Nat := 0
  op : Nat := 0
  hopDst : Nat := 0
  hopSrc : Nat := 0
  dstPkg : Nat := 0
  dstEp : Nat := 0
  originPkg : Nat := 0
  originCore : Nat := 0
  job : Nat := 0
  tag : Nat := 0
  epoch : Nat := 0
  poison : Bool := false
  addr : Nat := 0
  rxMap : Nat := 0
  ptr : Nat := 0
  tokens : Nat := 0
  incarnation : Nat := 0
  status : Nat := 0
  retry : Nat := 0
  aux : Word := 0
  data : List Byte := []
  reached : Nat := 0
deriving DecidableEq, Repr, Inhabited

/-- A lattice frame: the header fields of R230 and its data; beside them its number within its transfer and the cycle in which it reached its lane
(R231), which no field carries. -/
structure Frame where
  kind : Nat := 0
  src : Nat := 0
  dst : Nat := 0
  phase : Nat := 0
  job : Nat := 0
  tag : Nat := 0
  epoch : Nat := 0
  poison : Bool := false
  addr : Nat := 0
  members : Nat := 0
  originPkg : Nat := 0
  originCore : Nat := 0
  data : List Byte := []
  index : Nat := 0
  reached : Nat := 0
deriving DecidableEq, Repr, Inhabited

/-- A worm of the layer mesh: the header fields of R183 and its data flits' bytes; `carried` is the plane packet of a carrier. -/
structure Worm where
  kind : Nat := 0
  order : Bool := false
  dx : Int := 0
  dy : Int := 0
  exit : Nat := 0
  poison : Bool := false
  src : Nat := 0
  dst : Nat := 0
  flits : Nat := 0
  engine : Nat := 0
  seq : Nat := 0
  line : Nat := 0
  data : List Byte := []
  badWords : List Nat := []
  carried : Option Packet := none
deriving DecidableEq, Repr, Inhabited

/-- The optical links of R207: a ring-plane transmitter, a lane of a lattice endpoint, one direction of a fibre (as seen from
the transmitting end: `fibreOut`, or from the receiving end: `fibreIn`). -/
inductive Link where
  | ring (r : Nat)
  | lane (e j : Nat)
  | fibreOut (x : Nat)
  | fibreIn (x : Nat)
deriving DecidableEq, Repr, Inhabited

/-- A flit of R208, as its fields. -/
structure Flit where
  crc : Nat := 0
  seq : Nat := 0
  type : Nat := 0
  body : Nat := 0
deriving DecidableEq, Repr, Inhabited

/-- What a receiver's wavelengths saw of a flit: the symbols in error of each wavelength's codeword (R210) and the channel
number each wavelength carried (R213), 0 where none could be read. -/
structure FlitSight where
  symErrors : List Nat := []
  channels : List Nat := []
deriving DecidableEq, Repr, Inhabited

/-- One entry of a link-control flit (R214). -/
structure CtlEntry where
  kind : Nat
  plane : Nat
  peer : Nat
  lane : Nat
  value : Nat
deriving DecidableEq, Repr, Inhabited

/-- A D2D frame (R275): the fields of its 64 control bits and the bytes of its data flits. -/
structure D2dFrame where
  width : Nat := 0
  type : Nat := 0
  vc : Nat := 0
  count : Nat := 0
  seq : Nat := 0
  ack : Nat := 0
  nak : Bool := false
  credit : List Nat := []
  quarters : Nat := 0
  crc : Nat := 0
  data : List Byte := []
deriving DecidableEq, Repr, Inhabited

/-- What the nine training steps of R279 met: the physical outcome of one training of one group. -/
structure TrainSight where
  clockUp : Bool := true
  clockDown : Bool := true
  peerCap : Nat := 0x2FF
  badData : List Nat := []
  badCtl : List Nat := []
  badSpare : List Nat := []
  echoOk : Bool := true
  windows : List (Nat × Nat × Nat × Nat) := []
  frameLock : Bool := true
  overrun : Bool := false
deriving DecidableEq, Repr, Inhabited

/-- A crossing of a layer boundary that a bond group carries (R204). -/
inductive Crossing where
  | vault (core : Nat)
  | door (core : Nat)
  | riser (layer p : Nat)
  | wires
deriving DecidableEq, Repr, Inhabited

/-- A ring that a lock engine holds (R245). -/
inductive RingId where
  | ringMod (r t q : Nat)
  | ringDrop (r t i : Nat)
  | latMod (lane e k : Nat)
  | latDmx (lane e k : Nat)
deriving DecidableEq, Repr, Inhabited

/-- A link of the margin test (R265): a ring-plane wavelength of source `s` at receiver `r`, a lane from source `s` to receiver `r`, a fibre. -/
inductive MarginLink where
  | ring (r s k : Nat)
  | lane (lane s r : Nat)
  | fibre (x : Nat)
deriving DecidableEq, Repr, Inhabited

/-- What the monitor slicer finds of one wavelength (R266): the eye's width in UI/1,000 and height in mV, μ1 − μ0 and σ1 + σ0 of the level histograms in one
unit, and the symbols that FEC corrected and decoded over the span that R266 names. -/
structure Quality where
  eyeWidth : Nat := 0
  eyeHeight : Nat := 0
  swing : Nat := 0
  noise : Nat := 1
  corrected : Nat := 0
  decoded : Nat := 0
deriving DecidableEq, Repr, Inhabited

/-- What the laser supply answers at the laser check (R271, R272): STATUS as it is read within 50 ms, and the MAX registers in the order of the laser line
items of R257, tile by tile. -/
structure LaserSight where
  status : List Nat := []
  maxes : List Nat := []
deriving DecidableEq, Repr, Inhabited

/-- A step of a D2D training (R279): its number, and the tick at which it began. -/
structure TrainStep where
  no : Nat
  began : Nat
deriving DecidableEq, Repr, Inhabited

/-- What an access met in the stored code of a word or line since the last access: a correctable upset, an uncorrectable one,
a pattern that reads as poison (R117, R352), or a correctable upset in a line whose poison mark is set (R352). -/
inductive Mark where
  | good | ce | ue | poison | cePoison
deriving DecidableEq, Repr, Inhabited

/-- A request waiting at a port or channel arbiter: the requester's code, whether it writes, its lines from `addr` on and any lines elsewhere
(`also`), the data a write carries, the stream engine that asks through a door, and the slot in which it arrived (R187, R190, R338, R342). -/
structure PortReq where
  code : Nat := 0
  write : Bool := false
  addr : Nat := 0
  lines : Nat := 1
  data : List Byte := []
  poison : Bool := false
  also : List Nat := []
  engine : Nat := 0
  since : Nat := 0
deriving DecidableEq, Repr, Inhabited

/-- The arbiters whose freeze and map registers R192, R193 and R338 define. -/
inductive Arbiter where
  | vault (core : Nat)
  | tx (r : Nat)
  | channel (k c : Nat)
deriving DecidableEq, Repr, Inhabited

/-- The trailer of a signed management request (R467). -/
structure Trailer where
  keyIndex : Nat := 0
  publicKey : List Byte := []
  signature : List Byte := []
deriving DecidableEq, Repr, Inhabited

/-- The 40-byte message header of R455, as its fields; `checkOk` is the outcome of the CRC-32C over the payload. -/
structure MsgHead where
  magic : Nat := 0x5446
  version : Nat := 1
  type : Nat := 0
  pkg : Nat := 0
  status : Nat := 0
  incarnation : Nat := 0
  streamId : Nat := 0
  number : Nat := 0
  offset : Nat := 0
  checkOk : Bool := true
deriving DecidableEq, Repr, Inhabited

/-- Why a frame or message is discarded (R453, R455). -/
inductive FrameKind where
  | other
  | control
  | fragment
  | badMessage (h : MsgHead)
deriving DecidableEq, Repr, Inhabited

/-- The event a housekeeping conversion met: a value, of a thermistor its resistance in Ω, or an open, shorted or out-of-range front end (R425, R477). -/
structure HkSample where
  value : Int := 0
  open_ : Bool := false
  laser : List Int := []
deriving DecidableEq, Repr, Inhabited

/-- The instructions of the test access port (R472). -/
inductive Tap where
  | idcode | bypass | samplePreload | extest | other
deriving DecidableEq, Repr, Inhabited

/-- How the target takes a dynamic address (R471). -/
inductive AddrAssign where
  | entdaa (addr : BitVec 7)
  | setdasa (static addr : BitVec 7)
deriving DecidableEq, Repr, Inhabited

/-- How a reference input is lost or errs (R294). -/
inductive RefKind where
  | refclk | sync | tod
deriving DecidableEq, Repr, Inhabited

/-- The calibration data of a tile that a physical characterisation finds: item class (R263), index and value. -/
structure CalItem where
  cls : Nat
  index : Nat
  value : Int
deriving DecidableEq, Repr, Inhabited

/-- What BOOT meets outside the package: the size of each store device (R388), the places of which a read fails (device 0 or 1, device address), and the
lock engines (tile, engine) whose self-test fails (R248). -/
structure BootSight where
  size0 : Nat := 0x80000000
  size1 : Nat := 0x80000000
  readErrors : List (Nat × Nat) := []
  badEngines : List (Nat × Nat) := []
deriving DecidableEq, Repr, Inhabited

/-- A signed management request as it arrives (R455, R467): its header's request number and incarnation, its trailer and the
bytes that the signature covers. -/
structure Signed where
  number : Nat := 0
  incarnation : Nat := 0
  trailer : Trailer := {}
  covered : List Byte := []
deriving DecidableEq, Repr, Inhabited

/-- Where a ring shows a response (R251): the code at which its loop locks from the start value, the point of the search, the points of the full sweep. -/
structure LockSight where
  direct : Option Nat := none
  search : Option Nat := none
  sweep : List Nat := []
deriving DecidableEq, Repr, Inhabited

/-- A value that calibration adapts in RUN (R258): the decision threshold of a received wavelength, or the deskew tap of a
wire of a D2D group. -/
inductive AdaptItem where
  | threshold (tile index : Nat)
  | deskew (tower g d wire : Nat)
deriving DecidableEq, Repr, Inhabited

/-- The direction of a D2D group: tower to base or base to tower (R296). -/
inductive Dir where
  | up | down
deriving DecidableEq, Repr, Inhabited

end Sys2Proof
end

