-- ==== Sys2Proof/Machine/Bits.lean ====
section
/-! DEFINITION. Bits, bytes and checks: fields of words (R6), little-endian byte strings (R36, R46), saturating counts (R68), the
CRC-16 of R211 and the CRC-32C that the manual names (PRESUMED, assumption 10). -/

namespace Sys2Proof.Machine

/-- A bit field [hi:lo] of a 64-bit register. -/
structure Fld where
  hi : Nat
  lo : Nat
deriving DecidableEq, Repr

/-- The width of a field. -/
def Fld.width (f : Fld) : Nat := f.hi + 1 - f.lo
/-- The largest value a field holds. -/
def Fld.max (f : Fld) : Nat := 2 ^ f.width - 1
/-- Read a field. -/
def Fld.get (f : Fld) (w : Word) : Nat := w.toNat / 2 ^ f.lo % 2 ^ f.width
/-- Read a one-bit field. -/
def Fld.bit (f : Fld) (w : Word) : Bool := w.getLsbD f.lo
/-- Ones at the field's place. -/
def Fld.mask (f : Fld) : Word := BitVec.ofNat 64 (f.max * 2 ^ f.lo)
/-- Write a field, dropping what does not fit. -/
def Fld.put (f : Fld) (w : Word) (v : Nat) : Word :=
  (w &&& ~~~f.mask) ||| BitVec.ofNat 64 (v % 2 ^ f.width * 2 ^ f.lo)

/-- Bits [hi:lo] of a number. -/
def bits (n hi lo : Nat) : Nat := n / 2 ^ lo % 2 ^ (hi + 1 - lo)
/-- Bit i of a number. -/
def bit (n i : Nat) : Bool := n / 2 ^ i % 2 = 1
/-- A Bool as a number. -/
def b2n (b : Bool) : Nat := if b then 1 else 0
/-- A two's-complement number of n bits. -/
def signed (w n : Nat) : Int := if n % 2 ^ w < 2 ^ (w - 1) then (n % 2 ^ w : Nat) else ((n % 2 ^ w : Nat) : Int) - (2 ^ w : Nat)
/-- An integer as n bits of two's complement. -/
def unsigned (w : Nat) (i : Int) : Nat := (i % ((2 ^ w : Nat) : Int)).toNat
/-- Add, stopping at a largest value. -/
def satAdd (limit a b : Nat) : Nat := min limit (a + b)

/-- The little-endian bytes of a number. -/
def bytesOf (n : Nat) : Nat → List Byte
  | 0 => []
  | k + 1 => BitVec.ofNat 8 n :: bytesOf (n / 256) k
/-- The number of little-endian bytes. -/
def natOf : List Byte → Nat
  | [] => 0
  | b :: r => b.toNat + 256 * natOf r
/-- The little-endian number of n bytes at an offset of a byte string; bytes beyond its end read 0. -/
def fieldAt (l : List Byte) (off n : Nat) : Nat := natOf ((l.drop off).take n)
/-- Bytes padded with zeros to a length. -/
def padTo (n : Nat) (l : List Byte) : List Byte := l.take n ++ List.replicate (n - l.length) 0

/-- One bit of the CRC-16 of R211, most significant bit first. -/
def crc16Bit (c : Nat) (b : Bool) : Nat :=
  let c2 := c * 2 % 65536
  if (bit c 15) != b then c2 ^^^ 0x1021 else c2
/-- The CRC-16 of R211 over bits n − 1 down to 0 of a number. -/
def crc16 (v : Nat) : Nat → Nat → Nat
  | 0, c => c
  | n + 1, c => crc16 v n (crc16Bit c (bit v n))

/-- One bit step of the reflected CRC-32C (polynomial 0x1EDC6F41). -/
def crc32cBit (c : Nat) : Nat := if c % 2 = 1 then (c / 2) ^^^ 0x82F63B78 else c / 2
/-- CRC-32C of a byte string: reflected, all-ones start and final inversion (PRESUMED, assumption 10). -/
def crc32cRun : List Byte → Nat → Nat
  | [], c => c
  | b :: r, c => crc32cRun r (Nat.repeat crc32cBit 8 (c ^^^ b.toNat))
/-- CRC-32C of a byte string. -/
def crc32c (l : List Byte) : Nat := crc32cRun l 0xFFFFFFFF ^^^ 0xFFFFFFFF

/-- The floor of the square root, bit by bit. -/
def isqrtFrom (n : Nat) : Nat → Nat → Nat
  | 0, r => r
  | b + 1, r => if (r + 2 ^ b) * (r + 2 ^ b) ≤ n then isqrtFrom n b (r + 2 ^ b) else isqrtFrom n b r
/-- The floor of the square root. -/
def isqrt (n : Nat) : Nat := isqrtFrom n (n.log2 / 2 + 1) 0

/-- The ceiling of a quotient. -/
def ceilDiv (a b : Nat) : Nat := (a + (b - 1)) / b

end Sys2Proof.Machine
end

