-- ==== Sys2Proof/Syntax.lean ====
section
/-! DEFINITION. The commands of the block: one constructor per row of spec/opcode_table.json, in the table's order, with the
row's operands. Every command carries the moment of its happening (DESIGN CHOICE, assumption 1). -/

namespace Sys2Proof

/-- The commands. Each docstring names the row's mnemonic and its governing rule. -/
inductive Instr where
  /-- POWER_ON (R479). -/
  | powerOn (t : At)
  /-- POWER_REMOVAL (R480). -/
  | powerRemoval (t : At)
  /-- RESET_N_ASSERT (R480). -/
  | resetNAssert (t : At)
  /-- RESET_N_RELEASE (R13). -/
  | resetNRelease (t : At) (straps : BitVec 6) (sight : BootSight)
  /-- BRINGUP_ENTRY (R431). -/
  | bringupEntry (t : At)
  /-- COLD_CALIBRATION (R260). -/
  | coldCalibration (t : At) (tile : Nat) (items : List CalItem)
  /-- HBM_INITIALIZATION (R353). -/
  | hbmInitialization (t : At) (k : Nat)
  /-- DISCIPLINE_TIMEOUT (R292). -/
  | disciplineTimeout (t : At)
  /-- D2D_TRAINING (R279). -/
  | d2dTraining (t : At) (tower : Nat) (g : Nat) (sight : TrainSight)
  /-- TRAINING_STEP_TIMEOUT (R279). -/
  | trainingStepTimeout (t : At) (tower : Nat) (g : Nat) (step : TrainStep)
  /-- CAPABILITY_WORD_FIXED (R282). -/
  | capabilityWordFixed (t : At)
  /-- BOND_TEST (R204). -/
  | bondTest (t : At) (tower : Nat) (failing : List (Crossing × Nat))
  /-- LASER_CHECK (R272). -/
  | laserCheck (t : At) (sight : LaserSight) (measured : List Int)
  /-- RING_ACQUISITION (R251). -/
  | ringAcquisition (t : At) (ring : RingId) (sight : LockSight)
  /-- MARGIN_TEST (R265). -/
  | marginTest (t : At) (link : MarginLink) (found : List Quality) (locked : Bool) (raised : List (List Quality))
  /-- KEPT_SET_PERIODIC_WRITE (R262). -/
  | keptSetPeriodicWrite (t : At) (tile : Nat)
  /-- TRAINING_BEACON (R411). -/
  | trainingBeacon (t : At)
  /-- FIBRE_TRAINING (R240). -/
  | fibreTraining (t : At) (x : Nat) (delay : Nat) (farPkg : Nat) (farFibre : Nat)
  /-- LOAD_ENTRY (R408). -/
  | loadEntry (t : At) (badBlocks : List Nat)
  /-- JOIN_ENTRY (R412). -/
  | joinEntry (t : At)
  /-- JOIN_MESSAGE_SEND (R412). -/
  | joinMessageSend (t : At)
  /-- JOIN_MESSAGE (R412). -/
  | joinMessage (t : At) (digest : List Byte) (proposal : Nat) (incarnation : BitVec 32) (pkg : Nat)
  /-- JOIN_TIMEOUT (R413). -/
  | joinTimeout (t : At)
  /-- RUN_ENTRY (R299). -/
  | runEntry (t : At)
  /-- BUNDLE_FETCH (R93). -/
  | bundleFetch (t : At) (core : Nat) (found : Mark)
  /-- SAMPLE_SEND (R445). -/
  | sampleSend (t : At) (core : Nat)
  /-- NOP (R138). -/
  | nop (t : At) (g : Gate) (slot : Slot)
  /-- ADD (R138). -/
  | add (t : At) (g : Gate) (d : BitVec 5) (a : BitVec 5) (b : BitVec 5)
  /-- SUB (R138). -/
  | sub (t : At) (g : Gate) (d : BitVec 5) (a : BitVec 5) (b : BitVec 5)
  /-- AND (R138). -/
  | and (t : At) (g : Gate) (d : BitVec 5) (a : BitVec 5) (b : BitVec 5)
  /-- OR (R138). -/
  | or (t : At) (g : Gate) (d : BitVec 5) (a : BitVec 5) (b : BitVec 5)
  /-- XOR (R138). -/
  | xor (t : At) (g : Gate) (d : BitVec 5) (a : BitVec 5) (b : BitVec 5)
  /-- SHL (R138). -/
  | shl (t : At) (g : Gate) (d : BitVec 5) (a : BitVec 5) (b : BitVec 5)
  /-- SHR (R138). -/
  | shr (t : At) (g : Gate) (d : BitVec 5) (a : BitVec 5) (b : BitVec 5)
  /-- SAR (R138). -/
  | sar (t : At) (g : Gate) (d : BitVec 5) (a : BitVec 5) (b : BitVec 5)
  /-- MUL (R138). -/
  | mul (t : At) (g : Gate) (d : BitVec 5) (a : BitVec 5) (b : BitVec 5)
  /-- MIN (R138). -/
  | min (t : At) (g : Gate) (d : BitVec 5) (a : BitVec 5) (b : BitVec 5)
  /-- MAX (R138). -/
  | max (t : At) (g : Gate) (d : BitVec 5) (a : BitVec 5) (b : BitVec 5)
  /-- ADDI (R138). -/
  | addi (t : At) (g : Gate) (d : BitVec 5) (a : BitVec 5) (imm : BitVec 12)
  /-- ANDI (R138). -/
  | andi (t : At) (g : Gate) (d : BitVec 5) (a : BitVec 5) (imm : BitVec 12)
  /-- ORI (R138). -/
  | ori (t : At) (g : Gate) (d : BitVec 5) (a : BitVec 5) (imm : BitVec 12)
  /-- XORI (R138). -/
  | xori (t : At) (g : Gate) (d : BitVec 5) (a : BitVec 5) (imm : BitVec 12)
  /-- SHLI (R138). -/
  | shli (t : At) (g : Gate) (d : BitVec 5) (a : BitVec 5) (imm : BitVec 12)
  /-- SHRI (R138). -/
  | shri (t : At) (g : Gate) (d : BitVec 5) (a : BitVec 5) (imm : BitVec 12)
  /-- SARI (R138). -/
  | sari (t : At) (g : Gate) (d : BitVec 5) (a : BitVec 5) (imm : BitVec 12)
  /-- MOVI (R138). -/
  | movi (t : At) (g : Gate) (d : BitVec 5) (imm : BitVec 17)
  /-- INSL (R138). -/
  | insl (t : At) (g : Gate) (d : BitVec 5) (q : Bool) (imm : BitVec 16)
  /-- INSH (R138). -/
  | insh (t : At) (g : Gate) (d : BitVec 5) (q : Bool) (imm : BitVec 16)
  /-- CMP (R138). -/
  | cmp (t : At) (g : Gate) (pd : BitVec 3) (cond : BitVec 3) (a : BitVec 5) (b : BitVec 5)
  /-- CMPI (R138). -/
  | cmpi (t : At) (g : Gate) (pd : BitVec 3) (cond : BitVec 3) (a : BitVec 5) (imm : BitVec 11)
  /-- PLOG (R138). -/
  | plog (t : At) (g : Gate) (pd : BitVec 3) (pa : BitVec 3) (pb : BitVec 3) (op : BitVec 2)
  /-- SLD (R138). -/
  | sld (t : At) (g : Gate) (d : BitVec 5) (a : BitVec 5) (imm : BitVec 12)
  /-- SST (R138). -/
  | sst (t : At) (g : Gate) (d : BitVec 5) (a : BitVec 5) (imm : BitVec 12)
  /-- SRD (R150). -/
  | srd (t : At) (g : Gate) (d : BitVec 5) (sel : BitVec 8)
  /-- VSEL (R151). -/
  | vsel (t : At) (g : Gate) (d : BitVec 5) (sel : BitVec 8)
  /-- CAPC (R87). -/
  | capc (t : At) (g : Gate) (a : BitVec 5) (b : BitVec 5)
  /-- BR (R140). -/
  | br (t : At) (core : Nat) (target : BitVec 14)
  /-- BNZ (R140). -/
  | bnz (t : At) (core : Nat) (a : BitVec 5) (target : BitVec 14)
  /-- BZ (R140). -/
  | bz (t : At) (core : Nat) (a : BitVec 5) (target : BitVec 14)
  /-- JR (R138). -/
  | jr (t : At) (core : Nat) (a : BitVec 5)
  /-- LOOP (R141). -/
  | loop (t : At) (core : Nat) (lv : BitVec 2) (last : BitVec 14) (a : BitVec 5)
  /-- LOOPI (R141). -/
  | loopi (t : At) (core : Nat) (lv : BitVec 2) (last : BitVec 14) (imm : BitVec 6)
  /-- WAITT (R143). -/
  | waitt (t : At) (core : Nat) (a : BitVec 5) (imm : BitVec 17)
  /-- WAITT_RELEASE (R124). -/
  | waittRelease (t : At) (core : Nat)
  /-- WAITSE (R144). -/
  | waitse (t : At) (core : Nat) (mask : BitVec 4) (n : BitVec 2)
  /-- BAR (R145). -/
  | bar (t : At) (core : Nat) (mode : BitVec 2) (scope : BitVec 2) (id : BitVec 4)
  /-- BARRIER_TREE_RELEASE (R196). -/
  | barrierTreeRelease (t : At) (tower : Nat) (id : BitVec 4)
  /-- BARRIER_ARRIVAL (R311). -/
  | barrierArrival (t : At) (r : Nat) (p : Packet)
  /-- PACKAGE_BARRIER_RELEASE (R311). -/
  | packageBarrierRelease (t : At) (tower : Nat) (id : BitVec 4)
  /-- FSET (R146). -/
  | fset (t : At) (g : Gate) (f : BitVec 8) (a : BitVec 5)
  /-- FLAG_LAND (R199). -/
  | flagLand (t : At) (core : Nat)
  /-- FCLR (R138). -/
  | fclr (t : At) (g : Gate) (f : BitVec 8)
  /-- FWAIT (R146). -/
  | fwait (t : At) (core : Nat) (f : BitVec 8) (clr : Bool)
  /-- FTEST (R138). -/
  | ftest (t : At) (g : Gate) (f : BitVec 8) (pd : BitVec 3)
  /-- FENCE (R147). -/
  | fence (t : At) (core : Nat)
  /-- LATR (R148). -/
  | latr (t : At) (g : Gate) (a : BitVec 5) (b : BitVec 5)
  /-- STEP (R149). -/
  | step (t : At) (core : Nat) (h : Bool)
  /-- HALT (R149). -/
  | halt (t : At) (core : Nat)
  /-- MMA (R153). -/
  | mma (t : At) (g : Gate) (pair : BitVec 4) (acc : Bool) (init : Bool) (ah : Bool) (atHi : Bool) (bh : Bool) (kb : BitVec 6)
  /-- GOVERNOR_ISSUE (R203). -/
  | governorIssue (t : At) (core : Nat)
  /-- ARRAY_FOLD_WRITE (R106). -/
  | arrayFoldWrite (t : At) (core : Nat)
  /-- MMAC (R154). -/
  | mmac (t : At) (g : Gate) (pair : BitVec 4) (acc : Bool) (init : Bool) (ah : Bool) (bh : Bool) (kb : BitVec 6) (pd : BitVec 3) (a : BitVec 5)
  /-- CHECKSUM_RESULT (R80). -/
  | checksumResult (t : At) (core : Nat)
  /-- ACCRD (R155). -/
  | accrd (t : At) (g : Gate) (vd : BitVec 6) (acc : Bool) (r : Bool) (row : BitVec 6) (a : BitVec 5)
  /-- ACCWR (R155). -/
  | accwr (t : At) (g : Gate) (va : BitVec 6) (acc : Bool) (r : Bool) (row : BitVec 6) (a : BitVec 5)
  /-- ACCCLR (R155). -/
  | accclr (t : At) (g : Gate) (acc : Bool)
  /-- VADD (R156). -/
  | vadd (t : At) (g : Gate) (vd : BitVec 6) (va : BitVec 6) (vb : BitVec 6) (half : Bool)
  /-- VSUB (R156). -/
  | vsub (t : At) (g : Gate) (vd : BitVec 6) (va : BitVec 6) (vb : BitVec 6) (half : Bool)
  /-- VMUL (R156). -/
  | vmul (t : At) (g : Gate) (vd : BitVec 6) (va : BitVec 6) (vb : BitVec 6) (half : Bool)
  /-- VFMA (R156). -/
  | vfma (t : At) (g : Gate) (vd : BitVec 6) (va : BitVec 6) (vb : BitVec 6) (half : Bool)
  /-- VMIN (R156). -/
  | vmin (t : At) (g : Gate) (vd : BitVec 6) (va : BitVec 6) (vb : BitVec 6) (half : Bool)
  /-- VMAX (R156). -/
  | vmax (t : At) (g : Gate) (vd : BitVec 6) (va : BitVec 6) (vb : BitVec 6) (half : Bool)
  /-- VCMP (R157). -/
  | vcmp (t : At) (g : Gate) (vd : BitVec 6) (va : BitVec 6) (vb : BitVec 6) (cond : BitVec 3)
  /-- VSELM (R157). -/
  | vselm (t : At) (g : Gate) (vd : BitVec 6) (va : BitVec 6) (vb : BitVec 6)
  /-- VEXP2 (R158). -/
  | vexp2 (t : At) (g : Gate) (vd : BitVec 6) (va : BitVec 6)
  /-- VLOG2 (R158). -/
  | vlog2 (t : At) (g : Gate) (vd : BitVec 6) (va : BitVec 6)
  /-- VRCP (R158). -/
  | vrcp (t : At) (g : Gate) (vd : BitVec 6) (va : BitVec 6)
  /-- VRSQ (R158). -/
  | vrsq (t : At) (g : Gate) (vd : BitVec 6) (va : BitVec 6)
  /-- VRSUM (R159). -/
  | vrsum (t : At) (g : Gate) (vd : BitVec 6) (va : BitVec 6)
  /-- VRMAX (R159). -/
  | vrmax (t : At) (g : Gate) (vd : BitVec 6) (va : BitVec 6)
  /-- VBCL (R160). -/
  | vbcl (t : At) (g : Gate) (vd : BitVec 6) (va : BitVec 6) (x : BitVec 6)
  /-- VBCS (R160). -/
  | vbcs (t : At) (g : Gate) (vd : BitVec 6) (a : BitVec 5)
  /-- VEXT (R160). -/
  | vext (t : At) (g : Gate) (d : BitVec 5) (va : BitVec 6) (x : BitVec 6)
  /-- VPACK (R161). -/
  | vpack (t : At) (g : Gate) (vd : BitVec 6) (va : BitVec 6) (vb : BitVec 6)
  /-- VUNPK (R161). -/
  | vunpk (t : At) (g : Gate) (vd : BitVec 6) (va : BitVec 6) (hi : Bool)
  /-- VLD (R156). -/
  | vld (t : At) (g : Gate) (d : BitVec 6) (a : BitVec 5) (imm : BitVec 11)
  /-- VST (R156). -/
  | vst (t : At) (g : Gate) (d : BitVec 6) (a : BitVec 5) (imm : BitVec 11)
  /-- VDQ (R163). -/
  | vdq (t : At) (g : Gate) (vd : BitVec 6) (k : BitVec 3) (p : Bool)
  /-- VQ (R164). -/
  | vq (t : At) (g : Gate) (vs : BitVec 6) (k : BitVec 3) (a : BitVec 5) (dst : BitVec 3) (sr : Bool) (ef : Bool) (p : Bool) (h : Bool)
  /-- SCOPY (R167). -/
  | scopy (t : At) (g : Gate) (e : BitVec 2) (dk : BitVec 3) (pl : BitVec 2) (d : BitVec 5) (a : BitVec 5) (b : BitVec 5)
  /-- STILE (R169). -/
  | stile (t : At) (g : Gate) (e : BitVec 2) (dst : BitVec 2) (hi : Bool) (k : BitVec 3) (kb : BitVec 6) (pl : BitVec 2)
  /-- SFLAG (R170). -/
  | sflag (t : At) (g : Gate) (e : BitVec 2) (a : BitVec 5)
  /-- SFLAG_RELEASE (R370). -/
  | sflagRelease (t : At) (core : Nat) (e : BitVec 2)
  /-- SATOM (R170). -/
  | satom (t : At) (g : Gate) (e : BitVec 2) (op : BitVec 4) (w : Bool) (d : BitVec 5) (a : BitVec 5) (b : BitVec 5)
  /-- SINV (R170). -/
  | sinv (t : At) (g : Gate) (e : BitVec 2) (a : BitVec 5)
  /-- SMCAST (R383). -/
  | smcast (t : At) (g : Gate) (e : BitVec 2) (c : BitVec 5) (d : BitVec 5) (a : BitVec 5) (b : BitVec 5)
  /-- RECST (R171). -/
  | recst (t : At) (g : Gate) (e : BitVec 2) (a : BitVec 5) (b : BitVec 5)
  /-- RECORD_FORM (R73). -/
  | recordForm (t : At) (core : Nat)
  /-- RECMG (R74). -/
  | recmg (t : At) (g : Gate) (e : BitVec 2) (d : BitVec 5) (a : BitVec 5) (b : BitVec 5)
  /-- DESCRIPTOR_START (R168). -/
  | descriptorStart (t : At) (core : Nat) (e : BitVec 2)
  /-- TAG_ACQUIRE (R121). -/
  | tagAcquire (t : At) (core : Nat) (e : BitVec 2) (slot : BitVec 5)
  /-- TRANSFER_COMPLETE (R120). -/
  | transferComplete (t : At) (core : Nat) (e : BitVec 2)
  /-- DROOP_DETECT (R200). -/
  | droopDetect (t : At) (tower : Nat)
  /-- VAULT_PORT_GRANT (R190). -/
  | vaultPortGrant (t : At) (core : Nat) (reqs : List PortReq) (withdraws : Bool) (upsets : List (Nat × Mark))
  /-- MERGED_READ (R194). -/
  | mergedRead (t : At) (core : Nat) (req : PortReq)
  /-- WORM_EXIT (R185). -/
  | wormExit (t : At) (core : Nat) (w : Worm) (headerBad : Bool)
  /-- WORM_TIMEOUT (R185). -/
  | wormTimeout (t : At) (core : Nat) (e : BitVec 2) (seq : BitVec 7)
  /-- PORT_BLOCK_REWRITE (R186). -/
  | portBlockRewrite (t : At) (tower : Nat) (p : BitVec 4) (layer : BitVec 2) (w : Worm) (plane : BitVec 2)
  /-- LAYER_FLIT_CRC (R205). -/
  | layerFlitCrc (t : At) (tower : Nat) (crossing : Crossing) (dead : Bool)
  /-- WIRE_PAIR_DISAGREE (R205). -/
  | wirePairDisagree (t : At) (tower : Nat) (again : Bool)
  /-- RING_SERVICE (R250). -/
  | ringService (t : At) (ring : RingId) (photo : Nat) (ref : Nat) (trim : Int)
  /-- REACQUIRE_RETRY (R254). -/
  | reacquireRetry (t : At) (ring : RingId) (sight : LockSight)
  /-- FLIT_RECEIVE (R215). -/
  | flitReceive (t : At) (link : Link) (rx : Nat) (flit : Flit) (sight : FlitSight)
  /-- LINK_CONTROL_SEND (R212). -/
  | linkControlSend (t : At) (link : Link)
  /-- LINK_CONTROL_RECEIVE (R214). -/
  | linkControlReceive (t : At) (link : Link) (rx : Nat) (entries : List CtlEntry)
  /-- ACK_TIMEOUT (R216). -/
  | ackTimeout (t : At) (link : Link) (silent : List Nat)
  /-- WEIGHT_STEP (R259). -/
  | weightStep (t : At) (src : Nat)
  /-- TX_ARB_GRANT (R338). -/
  | txArbGrant (t : At) (r : Nat) (ready : Bool)
  /-- LATR_FORWARD (R232). -/
  | latrForward (t : At) (tile : Nat) (cmd : BitVec 64) (at_ : Nat)
  /-- REQUEST_BOUNDARY (R233). -/
  | requestBoundary (t : At) (tile : Nat)
  /-- START_BOUNDARY (R234). -/
  | startBoundary (t : At) (tile : Nat)
  /-- SHIFTERS_SETTLED (R234). -/
  | shiftersSettled (t : At) (tile : Nat) (heard : List (Nat × Nat × List Nat))
  /-- LANE_REOPEN (R234). -/
  | laneReopen (t : At) (tile : Nat) (relocked : List Nat)
  /-- LANE_LATE_RELOCK (R235). -/
  | laneLateRelock (t : At) (lane : BitVec 5)
  /-- LANE_FENCE_TIMEOUT (R235). -/
  | laneFenceTimeout (t : At) (lane : BitVec 5)
  /-- FRAME_RECEIVE (R229). -/
  | frameReceive (t : At) (lane : BitVec 5) (e : Nat) (f : Frame)
  /-- D2D_FRAME_RECEIVE (R277). -/
  | d2dFrameReceive (t : At) (tower : Nat) (g : Nat) (dir : Dir) (f : D2dFrame)
  /-- D2D_REPLAY_TIMEOUT (R277). -/
  | d2dReplayTimeout (t : At) (tower : Nat) (g : Nat) (dir : Dir)
  /-- D2D_RETRAIN (R283). -/
  | d2dRetrain (t : At) (tower : Nat) (g : Nat) (sight : TrainSight)
  /-- TILE_RESET (R285). -/
  | tileReset (t : At) (tile : Nat)
  /-- SYNC_EDGE (R292). -/
  | syncEdge (t : At)
  /-- TIME_MARK (R292). -/
  | timeMark (t : At) (tower : Nat) (mark : BitVec 64)
  /-- TOD_MESSAGE (R291). -/
  | todMessage (t : At) (preamble : BitVec 8) (flags : BitVec 8) (nextSync : BitVec 64) (check : BitVec 16) (stopBit : Bool)
  /-- REFCLK_LOSS (R294). -/
  | refclkLoss (t : At)
  /-- FLIP_CARAT_WRITE (R336). -/
  | flipCaratWrite (t : At) (value : BitVec 64)
  /-- ROUTE_FLIP (R336). -/
  | routeFlip (t : At)
  /-- BANK_LOCK_END (R336). -/
  | bankLockEnd (t : At)
  /-- ROUTE_TABLE_WRITE (R336). -/
  | routeTableWrite (t : At) (r : Nat) (b : Bool) (d : Nat) (value : BitVec 64)
  /-- ARB_FREEZE_SET (R192). -/
  | arbFreezeSet (t : At) (arb : Arbiter)
  /-- ARB_FREEZE_CLEAR (R192). -/
  | arbFreezeClear (t : At) (arb : Arbiter)
  /-- ARB_MAP_WRITE (R193). -/
  | arbMapWrite (t : At) (arb : Arbiter) (value : BitVec 64)
  /-- ARB_MAP_APPLY (R193). -/
  | arbMapApply (t : At) (arb : Arbiter)
  /-- HBM_CHANNEL_GRANT (R342). -/
  | hbmChannelGrant (t : At) (k : Nat) (c : Nat) (reqs : List PortReq) (withdraws : Bool) (upset : Mark)
  /-- HBM_MERGE (R356). -/
  | hbmMerge (t : At) (k : Nat) (c : Nat) (req : PortReq)
  /-- HBM_REFRESH (R354). -/
  | hbmRefresh (t : At) (k : Nat) (c : Nat) (group : BitVec 2)
  /-- HBM_TEMP_READ (R354). -/
  | hbmTempRead (t : At) (k : Nat) (temp : Nat)
  /-- SCRUB_READ (R355). -/
  | scrubRead (t : At) (k : Nat) (upset : Mark)
  /-- LOAD (R363). -/
  | load (t : At) (r : Nat) (p : Packet)
  /-- STORE (R368). -/
  | store (t : At) (r : Nat) (p : Packet)
  /-- MSTORE (R383). -/
  | mstore (t : At) (r : Nat) (p : Packet)
  /-- INV (R381). -/
  | inv (t : At) (r : Nat) (p : Packet)
  /-- INVH (R381). -/
  | invh (t : At) (r : Nat) (p : Packet)
  /-- COPYLD (R380). -/
  | copyld (t : At) (r : Nat) (p : Packet)
  /-- ATOMIC (R371). -/
  | atomic (t : At) (r : Nat) (p : Packet)
  /-- FLAG_PACKET (R364). -/
  | flagPacket (t : At) (r : Nat) (p : Packet)
  /-- RESPONSE (R367). -/
  | response (t : At) (r : Nat) (p : Packet)
  /-- ATTEMPT_TIMEOUT (R366). -/
  | attemptTimeout (t : At) (r : Nat) (tag : Nat)
  /-- TAG_RELEASE (R367). -/
  | tagRelease (t : At) (r : Nat) (tag : Nat)
  /-- REFETCH (R380). -/
  | refetch (t : At) (k : Nat) (e : Nat)
  /-- TOWER_STEP_TREE_COMPLETE (R319). -/
  | towerStepTreeComplete (t : At) (tower : Nat)
  /-- TOWER_ARRIVAL (R319). -/
  | towerArrival (t : At) (tower : Nat) (stamp : BitVec 64)
  /-- BOUNDARY_MESSAGE (R319). -/
  | boundaryMessage (t : At) (pkg : Nat) (stamp : BitVec 64) (hold : Nat) (request : Bool) (d : Nat) (digest : BitVec 32)
  /-- STEP_RELEASE (R319). -/
  | stepRelease (t : At)
  /-- STEP_TIMEOUT (R322). -/
  | stepTimeout (t : At)
  /-- VARIANT_EVALUATION (R83). -/
  | variantEvaluation (t : At) (poisoned : List Nat)
  /-- SHARD_DATA (R459). -/
  | shardData (t : At) (stream : Nat) (shard : Nat) (offset : Nat) (data : List Byte) (incarnation : BitVec 32)
  /-- INGEST_STORE_ISSUE (R461). -/
  | ingestStoreIssue (t : At) (stream : Nat) (shard : Nat) (tag : Nat)
  /-- SHARD_RETRANSMIT (R459). -/
  | shardRetransmit (t : At) (stream : Nat) (shard : Nat)
  /-- SHARD_ABANDON (R460). -/
  | shardAbandon (t : At) (stream : Nat) (shard : Nat)
  /-- EGRESS_LOAD_ISSUE (R461). -/
  | egressLoadIssue (t : At) (e : Nat) (tag : Nat)
  /-- EGR_ACK (R464). -/
  | egrAck (t : At) (e : Nat) (inst : Nat) (bytes : Nat) (incarnation : BitVec 32)
  /-- EGRESS_RETRANSMIT (R464). -/
  | egressRetransmit (t : At) (e : Nat)
  /-- EGRESS_TIMEOUT (R464). -/
  | egressTimeout (t : At) (e : Nat)
  /-- ARP_REQUEST (R453). -/
  | arpRequest (t : At) (ip : BitVec 32) (fromMac : BitVec 48) (fromIp : BitVec 32)
  /-- NEIGHBOUR_SOLICITATION (R453). -/
  | neighbourSolicitation (t : At) (target : BitVec 128) (fromMac : BitVec 48) (fromIp : BitVec 128)
  /-- ECHO_REQUEST (R453). -/
  | echoRequest (t : At) (v6 : Bool) (target : BitVec 128) (fromIp : BitVec 128) (body : List Byte)
  /-- FRAME_DISCARD (R453). -/
  | frameDiscard (t : At) (kind : FrameKind)
  /-- READ (R469). -/
  | read (t : At) (number : Nat) (addr : BitVec 64) (count : Nat)
  /-- WRITE (R466). -/
  | write (t : At) (req : Signed) (pairs : List (BitVec 64 × BitVec 64))
  /-- UPD_BEGIN (R415). -/
  | updBegin (t : At) (req : Signed) (header : List Byte) (eraseOk : Bool)
  /-- UPD_DATA (R466). -/
  | updData (t : At) (number : Nat) (session : Nat) (block : Nat) (offset : Nat) (data : List Byte) (flashOk : Bool)
  /-- UPD_END (R415). -/
  | updEnd (t : At) (req : Signed) (session : Nat)
  /-- UPDATE_FINISH (R415). -/
  | updateFinish (t : At) (flashOk : Bool)
  /-- UPD_ABANDON (R416). -/
  | updAbandon (t : At) (req : Signed) (session : Nat)
  /-- RESTART (R466). -/
  | restart (t : At) (req : Signed) (flags : BitVec 32)
  /-- QUOTE (R451). -/
  | quote (t : At) (number : Nat) (nonce : List Byte)
  /-- LOG_RECORD_WRITE (R437). -/
  | logRecordWrite (t : At) (code : BitVec 16) (source : BitVec 32) (args : List (BitVec 64))
  /-- LOG_MERGE_FLUSH (R438). -/
  | logMergeFlush (t : At) (code : BitVec 16) (source : BitVec 32)
  /-- PERSISTENT_LOG_WRITE (R437). -/
  | persistentLogWrite (t : At)
  /-- WATCHDOG_EXPIRY (R419). -/
  | watchdogExpiry (t : At)
  /-- HOUSEKEEPING_SLOT (R422). -/
  | housekeepingSlot (t : At) (ch : BitVec 8) (sample : HkSample)
  /-- LASER_FAULT_N (R270). -/
  | laserFaultN (t : At)
  /-- UNIT_ENABLE (R434). -/
  | unitEnable (t : At) (u : Nat)
  /-- UNIT_DISABLE (R434). -/
  | unitDisable (t : At) (u : Nat)
  /-- UNIT_TRANSITION_END (R433). -/
  | unitTransitionEnd (t : At) (u : Nat)
  /-- RATIO_WRITE (R290). -/
  | ratioWrite (t : At) (n : Nat) (value : BitVec 64)
  /-- PMC_COUNT (R441). -/
  | pmcCount (t : At)
  /-- PMC_WINDOW (R441). -/
  | pmcWindow (t : At)
  /-- PMC_FREEZE (R441). -/
  | pmcFreeze (t : At)
  /-- PMC_WINDOW_EDGE (R441). -/
  | pmcWindowEdge (t : At)
  /-- TELEMETRY_SNAPSHOT (R446). -/
  | telemetrySnapshot (t : At)
  /-- SNAPSHOT_COMPLETE (R448). -/
  | snapshotComplete (t : At)
  /-- I3C_PRIVATE_WRITE (R471). -/
  | i3cPrivateWrite (t : At) (bytes : List Byte)
  /-- I3C_PRIVATE_READ (R471). -/
  | i3cPrivateRead (t : At) (count : Nat)
  /-- DYNAMIC_ADDRESS_ASSIGN (R471). -/
  | dynamicAddressAssign (t : At) (assign : AddrAssign)
  /-- JTAG_INSTRUCTION (R472). -/
  | jtagInstruction (t : At) (tap : Tap)
  /-- CONFIG_WRITE (R8). -/
  | configWrite (t : At) (addr : Nat) (size : Nat) (value : BitVec 64)
  /-- SYNC_MISSED (R294). -/
  | syncMissed (t : At)
  /-- WORM_HOP (R182). -/
  | wormHop (t : At) (core : Nat) (port : Nat) (waiting : List (Nat × Worm)) (credits : List Nat) (headerBad : Bool)
  /-- D2D_FRAME_SEND (R276). -/
  | d2dFrameSend (t : At) (tower : Nat) (g : Nat) (dir : Dir)
  /-- LANE_FRAME_START (R231). -/
  | laneFrameStart (t : At) (lane : BitVec 5) (e : Nat)
  /-- HOST_PORT_LINK_UP (R470). -/
  | hostPortLinkUp (t : At) (up : Bool)
  /-- RATIO_CHANGE_COMPLETE (R290). -/
  | ratioChangeComplete (t : At)
  /-- QUALITY_MEASUREMENT (R266). -/
  | qualityMeasurement (t : At) (link : MarginLink) (k : Nat) (q : Quality)
  /-- CALIBRATION_ADAPTATION (R258). -/
  | calibrationAdaptation (t : At) (item : AdaptItem) (target : Int)
deriving DecidableEq, Repr

end Sys2Proof
end

