-- ==== Sys2Proof/Decode.lean ====
section
/-! DEFINITION. The table's rows give no bits, so no word spells a command. The decoders here are those of the machine's own program:
the four slots of a bundle as BUNDLE_FETCH reads them (R129 to R132, R138, R139, R152, R156, R157, R166). -/

namespace Sys2Proof

open Machine (bits bit b2n)

/-- The command that a word spells by the table's bits: none, since no row of spec/opcode_table.json gives bits. -/
def decodeTableWord (_nbits _w : Nat) : Option Instr := none

/-- A field of a slot's 32 bits as a bit vector. -/
def slotField (w hi lo : Nat) : BitVec (hi + 1 - lo) := BitVec.ofNat _ (bits w hi lo)
/-- The governing predicate of a slot (R130). -/
def slotGate (core w : Nat) : Gate := ⟨core, slotField w 25 23, bit w 22⟩

/-- The control slot (R138, R139): none where the encoding is reserved (R131, R132). Bits that a format does not name change nothing (DEDUCED, assumption 29). -/
def decodeControl (t : At) (core w : Nat) : Option Instr :=
  let g := slotGate core w
  let d := slotField w 21 17
  let a := slotField w 16 12
  let b := slotField w 11 7
  let plain (f : Instr) : Option Instr := if bits w 25 22 = 0 then some f else none
  let imm12 : BitVec 12 := slotField w 11 0
  match bits w 31 26 with
  | 0x00 => some (.nop t g .control)
  | 0x01 => some (.add t g d a b) | 0x02 => some (.sub t g d a b) | 0x03 => some (.and t g d a b) | 0x04 => some (.or t g d a b)
  | 0x05 => some (.xor t g d a b) | 0x06 => some (.shl t g d a b) | 0x07 => some (.shr t g d a b) | 0x08 => some (.sar t g d a b)
  | 0x09 => some (.mul t g d a b) | 0x0A => some (.min t g d a b) | 0x0B => some (.max t g d a b)
  | 0x10 => some (.addi t g d a imm12) | 0x11 => some (.andi t g d a imm12) | 0x12 => some (.ori t g d a imm12)
  | 0x13 => some (.xori t g d a imm12)
  | 0x14 => some (.shli t g d a imm12) | 0x15 => some (.shri t g d a imm12) | 0x16 => some (.sari t g d a imm12)
  | 0x18 => some (.movi t g d (slotField w 16 0))
  | 0x19 => some (.insl t g d (bit w 16) (slotField w 15 0)) | 0x1A => some (.insh t g d (bit w 16) (slotField w 15 0))
  | 0x1C => if bits w 18 16 < 6 then some (.cmp t g (slotField w 21 19) (slotField w 18 16) (slotField w 15 11) (slotField w 10 6)) else none
  | 0x1D => if bits w 18 16 < 6 then some (.cmpi t g (slotField w 21 19) (slotField w 18 16) (slotField w 15 11) (slotField w 10 0)) else none
  | 0x1E => some (.plog t g (slotField w 21 19) (slotField w 18 16) (slotField w 15 13) (slotField w 12 11))
  | 0x20 => some (.sld t g d a imm12) | 0x21 => some (.sst t g d a imm12)
  | 0x22 => some (.srd t g d (slotField w 16 9)) | 0x23 => some (.vsel t g d (slotField w 16 9))
  | 0x24 => some (.capc t g a b)
  | 0x28 => plain (.br t core (slotField w 13 0))
  | 0x29 => plain (.bnz t core (slotField w 18 14) (slotField w 13 0))
  | 0x2A => plain (.bz t core (slotField w 18 14) (slotField w 13 0))
  | 0x2B => plain (.jr t core a)
  | 0x2C => plain (.loop t core (slotField w 21 20) (slotField w 19 6) (slotField w 5 1))
  | 0x2D => plain (.loopi t core (slotField w 21 20) (slotField w 19 6) (slotField w 5 0))
  | 0x30 => plain (.waitt t core d (slotField w 16 0))
  | 0x31 => plain (.waitse t core (slotField w 21 18) (slotField w 17 16))
  | 0x32 => if bits w 21 20 < 3 ∧ bits w 19 18 < 3 then plain (.bar t core (slotField w 21 20) (slotField w 19 18) (slotField w 17 14)) else none
  | 0x33 => some (.fset t g (slotField w 21 14) (slotField w 13 9))
  | 0x34 => some (.fclr t g (slotField w 21 14))
  | 0x35 => plain (.fwait t core (slotField w 21 14) (bit w 13))
  | 0x36 => some (.ftest t g (slotField w 21 14) (slotField w 13 11))
  | 0x37 => plain (.fence t core)
  | 0x38 => some (.latr t g a b)
  | 0x3C => plain (.step t core (bit w 21))
  | 0x3D => plain (.halt t core)
  | _ => none

/-- The matrix slot (R152 to R154). -/
def decodeMatrix (t : At) (core w : Nat) : Option Instr :=
  let g := slotGate core w
  match bits w 31 26 with
  | 0x00 => some (.nop t g .matrix)
  | 0x01 => if bits w 21 18 < 10 then
      some (.mma t g (slotField w 21 18) (bit w 17) (bit w 16) (bit w 15) (bit w 14) (bit w 13) (slotField w 12 7)) else none
  | 0x02 => if bits w 21 18 < 5 then
      some (.mmac t g (slotField w 21 18) (bit w 17) (bit w 16) (bit w 15) (bit w 14) (slotField w 13 8) (slotField w 7 5) (slotField w 4 0)) else none
  | 0x04 => some (.accrd t g (slotField w 21 16) (bit w 15) (bit w 14) (slotField w 13 8) (slotField w 7 3))
  | 0x05 => some (.accwr t g (slotField w 21 16) (bit w 15) (bit w 14) (slotField w 13 8) (slotField w 7 3))
  | 0x06 => some (.accclr t g (bit w 21))
  | _ => none

/-- The vector slot (R156, R157, R161, R164). -/
def decodeVector (t : At) (core w : Nat) : Option Instr :=
  let g := slotGate core w
  let vd : BitVec 6 := slotField w 21 16
  let va : BitVec 6 := slotField w 15 10
  let vb : BitVec 6 := slotField w 9 4
  let half := bit w 3
  let single (f : Instr) : Option Instr := if half then none else some f
  match bits w 31 26 with
  | 0x00 => some (.nop t g .vector)
  | 0x01 => some (.vadd t g vd va vb half) | 0x02 => some (.vsub t g vd va vb half) | 0x03 => some (.vmul t g vd va vb half)
  | 0x04 => some (.vfma t g vd va vb half) | 0x05 => some (.vmin t g vd va vb half) | 0x06 => some (.vmax t g vd va vb half)
  | 0x07 => if bits w 2 0 < 4 then single (.vcmp t g vd va vb (slotField w 2 0)) else none
  | 0x08 => single (.vselm t g vd va vb)
  | 0x10 => some (.vexp2 t g vd va) | 0x11 => some (.vlog2 t g vd va) | 0x12 => some (.vrcp t g vd va) | 0x13 => some (.vrsq t g vd va)
  | 0x14 => some (.vrsum t g vd va) | 0x15 => some (.vrmax t g vd va)
  | 0x16 => some (.vbcl t g vd va (slotField w 9 4))
  | 0x17 => some (.vbcs t g vd (slotField w 15 11))
  | 0x18 => some (.vext t g (slotField w 21 17) va (slotField w 9 4))
  | 0x19 => single (.vpack t g vd va vb)
  | 0x1A => some (.vunpk t g vd va half)
  | 0x20 => some (.vld t g vd (slotField w 15 11) (slotField w 10 0)) | 0x21 => some (.vst t g vd (slotField w 15 11) (slotField w 10 0))
  | 0x22 => if 0 < bits w 15 13 then some (.vdq t g vd (slotField w 15 13) (bit w 12)) else none
  | 0x23 =>
    let dst := bits w 7 5
    let a := bits w 12 8
    if (dst = 0 ∨ (2 ≤ dst ∧ dst ≤ 5)) ∧ 0 < bits w 15 13 ∧ (half = false ∨ (a % 2 = 0 ∧ a ≤ 30)) then
      some (.vq t g vd (slotField w 15 13) (slotField w 12 8) (slotField w 7 5) (bit w 4) half (bit w 2) (bit w 1)) else none
  | _ => none

/-- The stream slot (R166 to R172). -/
def decodeStream (t : At) (core w : Nat) : Option Instr :=
  let g := slotGate core w
  let e : BitVec 2 := slotField w 21 20
  let d : BitVec 5 := slotField w 14 10
  let a : BitVec 5 := slotField w 9 5
  let b : BitVec 5 := slotField w 4 0
  match bits w 31 26 with
  | 0x00 => some (.nop t g .stream)
  | 0x01 =>
    let dk := bits w 19 17
    if (dk = 0 ∨ (2 ≤ dk ∧ dk ≤ 6)) ∧ bits w 16 15 < 3 ∧ bits w 0 0 = 0 then
      some (.scopy t g e (slotField w 19 17) (slotField w 16 15) d a b) else none
  | 0x02 => if bits w 7 6 < 3 ∧ 0 < bits w 16 14 ∧ (bit w 17 = false ∨ bits w 19 18 < 2) then
      some (.stile t g e (slotField w 19 18) (bit w 17) (slotField w 16 14) (slotField w 13 8) (slotField w 7 6)) else none
  | 0x04 => some (.sflag t g e a)
  | 0x05 =>
    let op := bits w 19 16
    if op < 10 ∧ (op ≠ 1 ∨ bit w 15 = false) ∧ (op ≠ 2 ∨ bits w 0 0 = 0) then some (.satom t g e (slotField w 19 16) (bit w 15) d a b) else none
  | 0x06 => some (.sinv t g e a)
  | 0x07 => some (.smcast t g e (slotField w 19 15) d a b)
  | 0x08 => some (.recst t g e a b)
  | 0x09 => some (.recmg t g e d a b)
  | _ => none

/-! The encodings, written from the same tables (R130, R138, R139, R152, R156, R157, R166). -/

/-- A slot's word: opcode, governing predicate, operand bits (R130). -/
def slotWord (op : Nat) (g : Gate) (operands : Nat) : Nat := op * 2 ^ 26 + g.pred.toNat * 2 ^ 23 + b2n g.pn * 2 ^ 22 + operands
/-- An instruction that a predicate governs: its moment, its core, its word. -/
def gated (t : At) (g : Gate) (op operands : Nat) : Option (At × Nat × Nat) := some (t, g.core, slotWord op g operands)
/-- An instruction that always executes (R131). -/
def ungated (t : At) (core op operands : Nat) : Option (At × Nat × Nat) := some (t, core, op * 2 ^ 26 + operands)
/-- Formats CR and CI: registers d and a, and the bits below them (R139). -/
def fmtDA (d a : BitVec 5) (low : Nat) : Nat := d.toNat * 2 ^ 17 + a.toNat * 2 ^ 12 + low

/-- The word of a control-slot instruction; none for any other command. -/
def encodeControl : Instr → Option (At × Nat × Nat)
  | .nop t g .control => gated t g 0x00 0
  | .add t g d a b => gated t g 0x01 (fmtDA d a (b.toNat * 2 ^ 7))
  | .sub t g d a b => gated t g 0x02 (fmtDA d a (b.toNat * 2 ^ 7))
  | .and t g d a b => gated t g 0x03 (fmtDA d a (b.toNat * 2 ^ 7))
  | .or t g d a b => gated t g 0x04 (fmtDA d a (b.toNat * 2 ^ 7))
  | .xor t g d a b => gated t g 0x05 (fmtDA d a (b.toNat * 2 ^ 7))
  | .shl t g d a b => gated t g 0x06 (fmtDA d a (b.toNat * 2 ^ 7))
  | .shr t g d a b => gated t g 0x07 (fmtDA d a (b.toNat * 2 ^ 7))
  | .sar t g d a b => gated t g 0x08 (fmtDA d a (b.toNat * 2 ^ 7))
  | .mul t g d a b => gated t g 0x09 (fmtDA d a (b.toNat * 2 ^ 7))
  | .min t g d a b => gated t g 0x0A (fmtDA d a (b.toNat * 2 ^ 7))
  | .max t g d a b => gated t g 0x0B (fmtDA d a (b.toNat * 2 ^ 7))
  | .addi t g d a imm => gated t g 0x10 (fmtDA d a imm.toNat)
  | .andi t g d a imm => gated t g 0x11 (fmtDA d a imm.toNat)
  | .ori t g d a imm => gated t g 0x12 (fmtDA d a imm.toNat)
  | .xori t g d a imm => gated t g 0x13 (fmtDA d a imm.toNat)
  | .shli t g d a imm => gated t g 0x14 (fmtDA d a imm.toNat)
  | .shri t g d a imm => gated t g 0x15 (fmtDA d a imm.toNat)
  | .sari t g d a imm => gated t g 0x16 (fmtDA d a imm.toNat)
  | .movi t g d imm => gated t g 0x18 (d.toNat * 2 ^ 17 + imm.toNat)
  | .insl t g d q imm => gated t g 0x19 (d.toNat * 2 ^ 17 + b2n q * 2 ^ 16 + imm.toNat)
  | .insh t g d q imm => gated t g 0x1A (d.toNat * 2 ^ 17 + b2n q * 2 ^ 16 + imm.toNat)
  | .cmp t g pd cond a b => gated t g 0x1C (pd.toNat * 2 ^ 19 + cond.toNat * 2 ^ 16 + a.toNat * 2 ^ 11 + b.toNat * 2 ^ 6)
  | .cmpi t g pd cond a imm => gated t g 0x1D (pd.toNat * 2 ^ 19 + cond.toNat * 2 ^ 16 + a.toNat * 2 ^ 11 + imm.toNat)
  | .plog t g pd pa pb op => gated t g 0x1E (pd.toNat * 2 ^ 19 + pa.toNat * 2 ^ 16 + pb.toNat * 2 ^ 13 + op.toNat * 2 ^ 11)
  | .sld t g d a imm => gated t g 0x20 (fmtDA d a imm.toNat)
  | .sst t g d a imm => gated t g 0x21 (fmtDA d a imm.toNat)
  | .srd t g d sel => gated t g 0x22 (d.toNat * 2 ^ 17 + sel.toNat * 2 ^ 9)
  | .vsel t g d sel => gated t g 0x23 (d.toNat * 2 ^ 17 + sel.toNat * 2 ^ 9)
  | .capc t g a b => gated t g 0x24 (fmtDA 0 a (b.toNat * 2 ^ 7))
  | .br t c target => ungated t c 0x28 target.toNat
  | .bnz t c a target => ungated t c 0x29 (a.toNat * 2 ^ 14 + target.toNat)
  | .bz t c a target => ungated t c 0x2A (a.toNat * 2 ^ 14 + target.toNat)
  | .jr t c a => ungated t c 0x2B (a.toNat * 2 ^ 12)
  | .loop t c lv last a => ungated t c 0x2C (lv.toNat * 2 ^ 20 + last.toNat * 2 ^ 6 + a.toNat * 2)
  | .loopi t c lv last imm => ungated t c 0x2D (lv.toNat * 2 ^ 20 + last.toNat * 2 ^ 6 + imm.toNat)
  | .waitt t c a imm => ungated t c 0x30 (a.toNat * 2 ^ 17 + imm.toNat)
  | .waitse t c mask n => ungated t c 0x31 (mask.toNat * 2 ^ 18 + n.toNat * 2 ^ 16)
  | .bar t c mode scope id => ungated t c 0x32 (mode.toNat * 2 ^ 20 + scope.toNat * 2 ^ 18 + id.toNat * 2 ^ 14)
  | .fset t g f a => gated t g 0x33 (f.toNat * 2 ^ 14 + a.toNat * 2 ^ 9)
  | .fclr t g f => gated t g 0x34 (f.toNat * 2 ^ 14)
  | .fwait t c f clr => ungated t c 0x35 (f.toNat * 2 ^ 14 + b2n clr * 2 ^ 13)
  | .ftest t g f pd => gated t g 0x36 (f.toNat * 2 ^ 14 + pd.toNat * 2 ^ 11)
  | .fence t c => ungated t c 0x37 0
  | .latr t g a b => gated t g 0x38 (fmtDA 0 a (b.toNat * 2 ^ 7))
  | .step t c h => ungated t c 0x3C (b2n h * 2 ^ 21)
  | .halt t c => ungated t c 0x3D 0
  | _ => none

/-- The word of a matrix-slot instruction; none for any other command. -/
def encodeMatrix : Instr → Option (At × Nat × Nat)
  | .nop t g .matrix => gated t g 0x00 0
  | .mma t g pair acc init ah hi bh kb => gated t g 0x01 (pair.toNat * 2 ^ 18 + b2n acc * 2 ^ 17 + b2n init * 2 ^ 16 + b2n ah * 2 ^ 15 + b2n hi * 2 ^ 14 + b2n bh * 2 ^ 13 + kb.toNat * 2 ^ 7)
  | .mmac t g pair acc init ah bh kb pd a =>
    gated t g 0x02 (pair.toNat * 2 ^ 18 + b2n acc * 2 ^ 17 + b2n init * 2 ^ 16 + b2n ah * 2 ^ 15 + b2n bh * 2 ^ 14 + kb.toNat * 2 ^ 8 + pd.toNat * 2 ^ 5 + a.toNat)
  | .accrd t g vd acc r row a => gated t g 0x04 (vd.toNat * 2 ^ 16 + b2n acc * 2 ^ 15 + b2n r * 2 ^ 14 + row.toNat * 2 ^ 8 + a.toNat * 2 ^ 3)
  | .accwr t g va acc r row a => gated t g 0x05 (va.toNat * 2 ^ 16 + b2n acc * 2 ^ 15 + b2n r * 2 ^ 14 + row.toNat * 2 ^ 8 + a.toNat * 2 ^ 3)
  | .accclr t g acc => gated t g 0x06 (b2n acc * 2 ^ 21)
  | _ => none

/-- Format VR (R157). -/
def fmtVR (vd va vb : BitVec 6) (low : Nat) : Nat := vd.toNat * 2 ^ 16 + va.toNat * 2 ^ 10 + vb.toNat * 2 ^ 4 + low

/-- The word of a vector-slot instruction; none for any other command. -/
def encodeVector : Instr → Option (At × Nat × Nat)
  | .nop t g .vector => gated t g 0x00 0
  | .vadd t g vd va vb half => gated t g 0x01 (fmtVR vd va vb (b2n half * 2 ^ 3))
  | .vsub t g vd va vb half => gated t g 0x02 (fmtVR vd va vb (b2n half * 2 ^ 3))
  | .vmul t g vd va vb half => gated t g 0x03 (fmtVR vd va vb (b2n half * 2 ^ 3))
  | .vfma t g vd va vb half => gated t g 0x04 (fmtVR vd va vb (b2n half * 2 ^ 3))
  | .vmin t g vd va vb half => gated t g 0x05 (fmtVR vd va vb (b2n half * 2 ^ 3))
  | .vmax t g vd va vb half => gated t g 0x06 (fmtVR vd va vb (b2n half * 2 ^ 3))
  | .vcmp t g vd va vb cond => gated t g 0x07 (fmtVR vd va vb cond.toNat)
  | .vselm t g vd va vb => gated t g 0x08 (fmtVR vd va vb 0)
  | .vexp2 t g vd va => gated t g 0x10 (fmtVR vd va 0 0)
  | .vlog2 t g vd va => gated t g 0x11 (fmtVR vd va 0 0)
  | .vrcp t g vd va => gated t g 0x12 (fmtVR vd va 0 0)
  | .vrsq t g vd va => gated t g 0x13 (fmtVR vd va 0 0)
  | .vrsum t g vd va => gated t g 0x14 (fmtVR vd va 0 0)
  | .vrmax t g vd va => gated t g 0x15 (fmtVR vd va 0 0)
  | .vbcl t g vd va x => gated t g 0x16 (fmtVR vd va x 0)
  | .vbcs t g vd a => gated t g 0x17 (vd.toNat * 2 ^ 16 + a.toNat * 2 ^ 11)
  | .vext t g d va x => gated t g 0x18 (d.toNat * 2 ^ 17 + va.toNat * 2 ^ 10 + x.toNat * 2 ^ 4)
  | .vpack t g vd va vb => gated t g 0x19 (fmtVR vd va vb 0)
  | .vunpk t g vd va hi => gated t g 0x1A (fmtVR vd va 0 (b2n hi * 2 ^ 3))
  | .vld t g d a imm => gated t g 0x20 (d.toNat * 2 ^ 16 + a.toNat * 2 ^ 11 + imm.toNat)
  | .vst t g d a imm => gated t g 0x21 (d.toNat * 2 ^ 16 + a.toNat * 2 ^ 11 + imm.toNat)
  | .vdq t g vd k p => gated t g 0x22 (vd.toNat * 2 ^ 16 + k.toNat * 2 ^ 13 + b2n p * 2 ^ 12)
  | .vq t g vs k a dst sr ef p h =>
    gated t g 0x23 (vs.toNat * 2 ^ 16 + k.toNat * 2 ^ 13 + a.toNat * 2 ^ 8 + dst.toNat * 2 ^ 5 + b2n sr * 2 ^ 4 + b2n ef * 2 ^ 3 + b2n p * 2 ^ 2 + b2n h * 2)
  | _ => none

/-- The low bits of a stream slot: registers d, a and b (R166). -/
def fmtDAB (d a b : BitVec 5) : Nat := d.toNat * 2 ^ 10 + a.toNat * 2 ^ 5 + b.toNat

/-- The word of a stream-slot instruction; none for any other command. -/
def encodeStream : Instr → Option (At × Nat × Nat)
  | .nop t g .stream => gated t g 0x00 0
  | .scopy t g e dk pl d a b => gated t g 0x01 (e.toNat * 2 ^ 20 + dk.toNat * 2 ^ 17 + pl.toNat * 2 ^ 15 + fmtDAB d a b)
  | .stile t g e dst hi k kb pl => gated t g 0x02 (e.toNat * 2 ^ 20 + dst.toNat * 2 ^ 18 + b2n hi * 2 ^ 17 + k.toNat * 2 ^ 14 + kb.toNat * 2 ^ 8 + pl.toNat * 2 ^ 6)
  | .sflag t g e a => gated t g 0x04 (e.toNat * 2 ^ 20 + fmtDAB 0 a 0)
  | .satom t g e op w d a b => gated t g 0x05 (e.toNat * 2 ^ 20 + op.toNat * 2 ^ 16 + b2n w * 2 ^ 15 + fmtDAB d a b)
  | .sinv t g e a => gated t g 0x06 (e.toNat * 2 ^ 20 + fmtDAB 0 a 0)
  | .smcast t g e c d a b => gated t g 0x07 (e.toNat * 2 ^ 20 + c.toNat * 2 ^ 15 + fmtDAB d a b)
  | .recst t g e a b => gated t g 0x08 (e.toNat * 2 ^ 20 + fmtDAB 0 a b)
  | .recmg t g e d a b => gated t g 0x09 (e.toNat * 2 ^ 20 + fmtDAB d a b)
  | _ => none

/-- A slot instruction holds no reserved field value (R132, R138 to R140, R152, R156, R164, R166 to R170). -/
def reservedFree : Instr → Bool
  | .cmp _ _ _ cond _ _ | .cmpi _ _ _ cond _ _ => decide (cond.toNat < 6)
  | .bar _ _ mode scope _ => decide (mode.toNat < 3 ∧ scope.toNat < 3)
  | .mma _ _ pair _ _ _ _ _ _ => decide (pair.toNat < 10)
  | .mmac _ _ pair _ _ _ _ _ _ _ => decide (pair.toNat < 5)
  | .vcmp _ _ _ _ _ cond => decide (cond.toNat < 4)
  | .vdq _ _ _ k _ => decide (k ≠ 0)
  | .vq _ _ _ k a dst _ ef _ _ => decide (k ≠ 0 ∧ (dst = 0 ∨ (2 ≤ dst.toNat ∧ dst.toNat ≤ 5)) ∧ (ef = false ∨ (a.toNat % 2 = 0 ∧ a.toNat ≤ 30)))
  | .scopy _ _ _ dk pl _ _ b => decide ((dk = 0 ∨ (2 ≤ dk.toNat ∧ dk.toNat ≤ 6)) ∧ pl.toNat < 3 ∧ b.toNat % 2 = 0)
  | .stile _ _ _ dst hi k _ pl => decide (k ≠ 0 ∧ pl.toNat < 3 ∧ (hi = false ∨ dst.toNat < 2))
  | .satom _ _ _ op w _ _ b => decide (op.toNat < 10 ∧ (op.toNat ≠ 1 ∨ w = false) ∧ (op.toNat ≠ 2 ∨ b.toNat % 2 = 0))
  | _ => true

end Sys2Proof
end

