-- ==== Sys2Proof/Machine/MeshOptics.lean ====
section
/-! DEFINITION. The interferometer mesh of a lane plane (R224 to R227): port pairs and indices, the transfer matrix of one interferometer, columns and their
product U, the words of a setting, and where the light of a source arrives. -/

namespace Sys2Proof.Machine

/-! Columns and indices (R225). -/

/-- Column c of an N-port mesh has an interferometer on ports a and a + 1. -/
def inColumn (n c a : Nat) : Bool := decide (c < n ∧ a % 2 = c % 2 ∧ a + 2 ≤ n)
/-- The index of the interferometer on ports a and a + 1 of column c (R225). -/
def mziIndex (n c a : Nat) : Nat := (n - 1) * (c / 2) + (if c % 2 = 0 then a / 2 else n / 2 + (a - 1) / 2)
/-- The ports a of a column's interferometers. -/
def columnPorts (n c : Nat) : List Nat := (List.range n).filter fun a => inColumn n c a
/-- Column and port of every interferometer of a mesh, in the order of their indices. -/
def mziPlaces (n : Nat) : List (Nat × Nat) := ((List.range n).map fun c => (columnPorts n c).map fun a => (c, a)).flatten

/-! Codes (R224, R227). -/

/-- The codes of an interferometer: θ in 13 bits, φ in 12. -/
structure Mzi where
  theta : Nat := 0
  phi : Nat := 0
deriving DecidableEq, Repr, Inhabited

/-- The codes of an explicit setting word (R227). -/
def mziOfWord (w : Nat) : Mzi := { theta := bits w 28 16, phi := bits w 11 0 }
/-- The states that have a name (R224): bar, cross, even split. -/
def Mzi.isBar (m : Mzi) : Bool := decide (m.theta = 0)
/-- Cross state: θ = π/2. -/
def Mzi.isCross (m : Mzi) : Bool := decide (m.theta = 4096)
/-- The even split: θ = π/4. -/
def Mzi.isSplit (m : Mzi) : Bool := decide (m.theta = 2048)

/-! Fields (R224, R225). -/

/-- What the field amplitudes are computed with: the cosine and sine of the angle that a θ code names and the phase factor of a φ code. -/
structure Amplitudes (R : Type) where
  cos : Nat → R
  sin : Nat → R
  phase : Nat → R

/-- The fields after one interferometer: its 2 × 2 transfer matrix on ports a and a + 1 (R224). -/
def mziApply {R : Type} [Add R] [Mul R] [Neg R] (k : Amplitudes R) (m : Mzi) (a : Nat) (x : Nat → R) : Nat → R :=
  fun p =>
    if p = a then k.phase m.phi * k.cos m.theta * x a + -(k.sin m.theta) * x (a + 1)
    else if p = a + 1 then k.phase m.phi * k.sin m.theta * x a + k.cos m.theta * x (a + 1)
    else x p
/-- The fields after one column: its interferometers act on disjoint ports (R225). -/
def columnApply {R : Type} [Add R] [Mul R] [Neg R] (k : Amplitudes R) (n : Nat) (codes : Nat → Mzi) (c : Nat) (x : Nat → R) : Nat → R :=
  (columnPorts n c).foldl (fun x a => mziApply k (codes (mziIndex n c a)) a x) x
/-- The output fields of a mesh: U, the product of its columns, column 0 first (R224, R225). -/
def meshApply {R : Type} [Add R] [Mul R] [Neg R] (k : Amplitudes R) (n : Nat) (codes : Nat → Mzi) (x : Nat → R) : Nat → R :=
  (List.range n).foldl (fun x c => columnApply k n codes c x) x
/-- The element of U in the row of an output and the column of an input (R224). -/
def meshEntry {R : Type} [Add R] [Mul R] [Neg R] [OfNat R 0] [OfNat R 1] (k : Amplitudes R) (n : Nat) (codes : Nat → Mzi) (out input : Nat) : R :=
  meshApply k n codes (fun p => if p = input then 1 else 0) out
/-- The amplitudes of the bar and cross states, which are exact: cos 0 = 1, sin π/2 = 1; another θ code has none here. -/
def exactAmplitudes : Amplitudes Int where
  cos := fun t => if t = 0 then 1 else 0
  sin := fun t => if t = 4096 then 1 else 0
  phase := fun p => if p = 2048 then -1 else 1

/-! Where light arrives. -/

/-- The ports that light at a port may leave one interferometer by. -/
def mziReach (m : Mzi) (a p : Nat) : List Nat :=
  if p ≠ a ∧ p ≠ a + 1 then [p] else if m.isBar then [p] else if m.isCross then [2 * a + 1 - p] else [a, a + 1]
/-- The outputs that light from an input may arrive at through a mesh: every path that no bar or cross state closes (R224, R225). -/
def meshReach (n : Nat) (codes : Nat → Mzi) (input : Nat) : List Nat :=
  (List.range n).foldl (fun l c =>
    (l.map fun p =>
      match (columnPorts n c).find? fun a => decide (p = a ∨ p = a + 1) with
      | some a => mziReach (codes (mziIndex n c a)) a p
      | none => [p]).flatten.eraseDups) [input]

end Sys2Proof.Machine
end

