-- ==== Sys2Proof/Config.lean ====
section
/-! DEFINITION. What an implementation fixes and what the spec leaves open: opaque constants without a body, so that no proof can
see their values, and the fixed counts of the package (R17, R25, R92). -/

namespace Sys2Proof.Config

/-- Cores of the package (R17). -/
def cores : Nat := 3072
/-- Towers of the package (R17). -/
def towers : Nat := 12
/-- Base tiles (R17). -/
def tiles : Nat := 4
/-- HBM stacks (R17). -/
def hbmStacks : Nat := 16
/-- Ring-plane endpoints (R25). -/
def rings : Nat := 21
/-- Lattice endpoints (R25). -/
def lattices : Nat := 20
/-- Fibre pairs (R17). -/
def fibres : Nat := 32
/-- Units that Onyx switches (R432). -/
def units : Nat := 36

/-- A fresh value that the spec does not fix, by the model's own counter (DESIGN CHOICE, assumption 6). -/
opaque freeValue : Nat → Nat
/-- The codes θ and φ that the device chooses for interferometer k of a lane whose setting's map is given, where the setting leaves them to it (R227;
DESIGN CHOICE, assumption 105). -/
opaque meshCodes : (map : List Nat) → (k : Nat) → Nat × Nat
/-- The taps that move a ring by one 100 GHz spacing, by the address of its state register, where no calibration has measured its tuning efficiency (R246;
DESIGN CHOICE, assumption 107). -/
opaque tuning : (ring : Nat) → Nat
/-- The flank on which a drop ring is held at its weight, which the manual does not name: true for the red one (R249, R250; DESIGN CHOICE, assumption 108). -/
opaque dropRed : Bool
/-- SHA-384 of a byte string, 48 bytes, big-endian (R393, R451; UNVERIFIED, assumption 7). -/
opaque sha384 : List Byte → List Byte
/-- Whether an uncompressed point lies on brainpoolP384r1 (R393; UNVERIFIED, assumption 7). -/
opaque onCurve : List Byte → Bool
/-- Whether an ECDSA signature verifies over bytes under a public key (R393; UNVERIFIED, assumption 7). -/
opaque ecdsaVerify : (key msg signature : List Byte) → Bool
/-- The identity key's ECDSA signature over bytes, 96 bytes (R451; UNVERIFIED, assumption 7). -/
opaque identitySign : (serial : Nat) → List Byte → List Byte
/-- The 97-byte public identity key of the package with a serial number (R449; UNVERIFIED, assumption 7). -/
opaque identityKey : (serial : Nat) → List Byte
/-- The bytes of the public fuse array, whose layout the manual does not give (R451; UNVERIFIED, assumption 7). -/
opaque fuseArray : (serial : Nat) → (keys : List (List Byte)) → (revoked : List Nat) → (patches : List (Nat × Nat)) → (trims : List Int) → List Byte
/-- The ROM version of R421, which the manual does not state (DESIGN CHOICE, assumption 8). -/
opaque romVersion : BitVec 16
/-- The op code of the management packet that carries a join message, which the manual does not state (R412; UNVERIFIED, assumption 27). -/
opaque joinOp : BitVec 6
end Sys2Proof.Config
end

