-- ==== Sys2Proof/Machine/Arith.lean ====
section
/-! DEFINITION. F32 and B16 arithmetic (R41 to R43, R156 to R159): exact results over integers and one rounding to nearest even. -/

namespace Sys2Proof.Machine

/-- A binary floating-point format: precision, exponent of the smallest subnormal, the code of +∞ and of the sign bit. -/
structure Fmt where
  sig : Nat
  emin : Int
  inf : Nat
  sign : Nat
deriving DecidableEq, Repr

/-- IEEE 754 binary32 (R36). -/
def f32 : Fmt := ⟨24, -149, 0x7F800000, 0x80000000⟩
/-- B16, the upper half of a binary32 (R36). -/
def b16 : Fmt := ⟨8, -133, 0x7F80, 0x8000⟩

/-- The poison NaN a format writes (R42). -/
def Fmt.poison (f : Fmt) : Nat := f.sign - 1
/-- The canonical NaN a format writes (R42). -/
def Fmt.canon (f : Fmt) : Nat := f.inf + 2 ^ (f.sig - 2)
/-- The magnitude bits of a code. -/
def Fmt.mag (f : Fmt) (x : Nat) : Nat := x % f.sign
/-- The sign of a code. -/
def Fmt.neg (f : Fmt) (x : Nat) : Bool := decide (f.sign ≤ x)
/-- A code is a NaN. -/
def Fmt.isNaN (f : Fmt) (x : Nat) : Bool := decide (f.inf < f.mag x)
/-- A code is an infinity. -/
def Fmt.isInf (f : Fmt) (x : Nat) : Bool := decide (f.mag x = f.inf)
/-- A code is a poison NaN: a NaN whose fraction bits below the highest are all ones (R42). -/
def Fmt.isPoison (f : Fmt) (x : Nat) : Bool := f.isNaN x && decide (x % 2 ^ (f.sig - 2) = 2 ^ (f.sig - 2) - 1)
/-- Put a sign on magnitude bits. -/
def Fmt.withSign (f : Fmt) (n : Bool) (m : Nat) : Nat := if n then f.sign + m else m

/-- A finite code as (mantissa, exponent of two). -/
def Fmt.dyadic (f : Fmt) (x : Nat) : Int × Int :=
  let m := f.mag x
  let e := m / 2 ^ (f.sig - 1)
  let n : Nat := if e = 0 then m else m % 2 ^ (f.sig - 1) + 2 ^ (f.sig - 1)
  (if f.neg x then -(n : Int) else (n : Int), if e = 0 then f.emin else f.emin + ((e : Nat) : Int) - 1)

/-- Round n × 2^e, plus a positive part below its last bit when `sticky`, to nearest even, as magnitude bits (R41). -/
def Fmt.roundMag (f : Fmt) (n : Nat) (e : Int) (sticky : Bool) : Nat :=
  if n = 0 then 0
  else
    let q : Int := max f.emin (e + (n.log2 : Int) + 1 - (f.sig : Int))
    let m : Nat :=
      if q ≤ e then n * 2 ^ (e - q).toNat
      else
        let s := (q - e).toNat
        let t := n / 2 ^ s
        let r := n % 2 ^ s
        let h := 2 ^ (s - 1)
        if h < r ∨ (r = h ∧ (sticky ∨ t % 2 = 1)) then t + 1 else t
    min f.inf ((q - f.emin).toNat * 2 ^ (f.sig - 1) + m)

/-- Round the exact value m × 2^e; an exact zero takes the sign `zneg`. -/
def Fmt.round (f : Fmt) (m e : Int) (zneg : Bool := false) : Nat :=
  if m = 0 then f.withSign zneg 0 else f.withSign (decide (m < 0)) (f.roundMag m.natAbs e false)

/-- The exact sum of two dyadic values. -/
def dyAdd (a b : Int × Int) : Int × Int :=
  let e := min a.2 b.2
  (a.1 * ((2 ^ (a.2 - e).toNat : Nat) : Int) + b.1 * ((2 ^ (b.2 - e).toNat : Nat) : Int), e)
/-- The exact product of two dyadic values. -/
def dyMul (a b : Int × Int) : Int × Int := (a.1 * b.1, a.2 + b.2)
/-- Exact comparison a < b of dyadic values. -/
def dyLt (a b : Int × Int) : Bool := decide ((dyAdd a (-b.1, b.2)).1 < 0)

/-- The NaN rule of R43 over a list of operands: the NaN to return, if any. -/
def Fmt.nanOf (f : Fmt) (l : List Nat) : Option Nat :=
  if l.any f.isPoison then some f.poison else if l.any f.isNaN then some f.canon else none

/-- a + b, rounded to nearest even (R41, R43). -/
def Fmt.add (f : Fmt) (a b : Nat) : Nat :=
  match f.nanOf [a, b] with
  | some n => n
  | none =>
    if f.isInf a then (if f.isInf b && (f.neg a != f.neg b) then f.canon else a)
    else if f.isInf b then b
    else let s := dyAdd (f.dyadic a) (f.dyadic b); f.round s.1 s.2 (f.neg a && f.neg b && decide (f.mag a = 0 ∧ f.mag b = 0))

/-- Flip the sign of a code. -/
def Fmt.negate (f : Fmt) (a : Nat) : Nat := if f.neg a then a - f.sign else a + f.sign
/-- a − b; a NaN keeps its kind. -/
def Fmt.sub (f : Fmt) (a b : Nat) : Nat := f.add a (f.negate b)

/-- a × b, rounded to nearest even (R41, R43). -/
def Fmt.mul (f : Fmt) (a b : Nat) : Nat :=
  match f.nanOf [a, b] with
  | some n => n
  | none =>
    let s := f.neg a != f.neg b
    if f.isInf a || f.isInf b then
      (if f.mag a = 0 ∨ f.mag b = 0 then f.canon else f.withSign s f.inf)
    else let p := dyMul (f.dyadic a) (f.dyadic b); f.round p.1 p.2 s

/-- a × b + c with one rounding (R156). -/
def Fmt.fma (f : Fmt) (a b c : Nat) : Nat :=
  match f.nanOf [a, b, c] with
  | some n => n
  | none =>
    let s := f.neg a != f.neg b
    if f.isInf a || f.isInf b then
      (if f.mag a = 0 ∨ f.mag b = 0 then f.canon
       else if f.isInf c && (f.neg c != s) then f.canon else f.withSign s f.inf)
    else if f.isInf c then c
    else
      let p := dyMul (f.dyadic a) (f.dyadic b)
      let r := dyAdd p (f.dyadic c)
      f.round r.1 r.2 (s && f.neg c && decide (p.1 = 0 ∧ f.mag c = 0))

/-- The order key of a code that is no NaN: −0 and +0 differ by one so that a minimum prefers −0 (DESIGN CHOICE, assumption 11). -/
def Fmt.key (f : Fmt) (a : Nat) : Int := if f.neg a then -(f.mag a : Int) - 1 else (f.mag a : Int)

/-- The minimum (R156, R43; a NaN operand gives a NaN, and −0 lies below +0: DESIGN CHOICE, assumption 11). -/
def Fmt.min (f : Fmt) (a b : Nat) : Nat :=
  match f.nanOf [a, b] with
  | some n => n
  | none => if f.key b < f.key a then b else a
/-- The maximum (R156, R43). -/
def Fmt.max (f : Fmt) (a b : Nat) : Nat :=
  match f.nanOf [a, b] with
  | some n => n
  | none => if f.key a < f.key b then b else a

/-- a < b of codes that are no NaN, with −0 = +0. -/
def Fmt.lt (f : Fmt) (a b : Nat) : Bool := dyLt (if f.isInf a then (if f.neg a then -1 else 1, 300) else f.dyadic a)
  (if f.isInf b then (if f.neg b then -1 else 1, 300) else f.dyadic b)
/-- a = b of codes that are no NaN, with −0 = +0. -/
def Fmt.eq (f : Fmt) (a b : Nat) : Bool := decide (a = b ∨ (f.mag a = 0 ∧ f.mag b = 0))

/-- B16 to F32 (R65). -/
def b16ToF32 (x : Nat) : Nat := if b16.isPoison x then f32.poison else x % 65536 * 65536
/-- F32 to B16, rounded to nearest even (R65). -/
def f32ToB16 (x : Nat) : Nat :=
  match f32.nanOf [x] with
  | some _ => if f32.isPoison x then b16.poison else b16.canon
  | none =>
    if f32.isInf x then b16.withSign (f32.neg x) b16.inf
    else let d := f32.dyadic x; b16.round d.1 d.2 (f32.neg x)

/-- 1 / x, correctly rounded (R158). -/
def recip (x : Nat) : Nat :=
  match f32.nanOf [x] with
  | some n => n
  | none =>
    if f32.mag x = 0 then f32.withSign (f32.neg x) f32.inf
    else if f32.isInf x then f32.withSign (f32.neg x) 0
    else
      let d := f32.dyadic x
      let n := 2 ^ 80 / d.1.natAbs
      f32.withSign (f32.neg x) (f32.roundMag n (-80 - d.2) (decide (2 ^ 80 % d.1.natAbs ≠ 0)))

/-- 1 / √x, correctly rounded (R158). -/
def rsqrt (x : Nat) : Nat :=
  match f32.nanOf [x] with
  | some n => n
  | none =>
    if f32.mag x = 0 then f32.withSign (f32.neg x) f32.inf
    else if f32.neg x then f32.canon
    else if f32.isInf x then 0
    else
      let d := f32.dyadic x
      let even := d.2 % 2 = 0
      let m : Nat := if even then d.1.natAbs else 2 * d.1.natAbs
      let e : Int := if even then d.2 else d.2 - 1
      let r := isqrt (2 ^ 160 / m)
      f32.roundMag r (-80 - e / 2) (decide (r * r * m ≠ 2 ^ 160))

/-- 2^(2^−i) for i = 1, 2, …, in units of 2^−256, by repeated square roots; the product over the set bits of a 50-bit
fraction f, most significant first. -/
def exp2Frac (f : Nat) : Nat → Nat → Nat → Nat
  | 0, _, p => p
  | k + 1, r, p =>
    let r' := isqrt (r * 2 ^ 256)
    exp2Frac f k r' (if bit f k then p * r' / 2 ^ 256 else p)

/-- 2^x, correctly rounded (R158; precision: DEDUCED, assumption 12). -/
def exp2 (x : Nat) : Nat :=
  match f32.nanOf [x] with
  | some n => n
  | none =>
    if f32.isInf x then (if f32.neg x then 0 else f32.inf)
    else
      let d := f32.dyadic x
      if dyLt (d.1.natAbs, d.2) (1, -26) then 0x3F800000
      else if !(dyLt (d.1.natAbs, d.2) (1, 9)) then (if f32.neg x then 0 else f32.inf)
      else
        -- here 2^−26 ≤ |x| < 2^9, so x is a whole number of 2^−50
        let v : Int := if 0 ≤ d.2 + 50 then d.1 * ((2 ^ (d.2 + 50).toNat : Nat) : Int) else d.1 / ((2 ^ (-(d.2 + 50)).toNat : Nat) : Int)
        let n : Int := v / ((2 ^ 50 : Nat) : Int)
        let f : Nat := (v % ((2 ^ 50 : Nat) : Int)).toNat
        f32.roundMag (exp2Frac f 50 (2 ^ 257) (2 ^ 256)) (n - 256) (decide (f ≠ 0))

/-- 160 fraction bits of log2 of y × 2^−320, for 1 ≤ y × 2^−320 < 2, by repeated squaring. -/
def log2Frac : Nat → Nat → Nat → Nat
  | 0, _, r => r
  | k + 1, y, r =>
    let z := y * y / 2 ^ 320
    if 2 ^ 321 ≤ z then log2Frac k (z / 2) (2 * r + 1) else log2Frac k z (2 * r)

/-- log2 x, correctly rounded (R158; precision: DEDUCED, assumption 12). -/
def log2F (x : Nat) : Nat :=
  match f32.nanOf [x] with
  | some n => n
  | none =>
    if f32.mag x = 0 then f32.withSign true f32.inf
    else if f32.neg x then f32.canon
    else if f32.isInf x then f32.inf
    else
      let d := f32.dyadic x
      let m := d.1.natAbs
      let k := m.log2
      let e : Int := d.2 + (k : Int)
      let y := m * 2 ^ (320 - k)
      if y = 2 ^ 320 then f32.round e 0
      else
        let v : Int := e * ((2 ^ 160 : Nat) : Int) + (log2Frac 160 y 0 : Int)
        if 0 ≤ v then f32.roundMag v.natAbs (-160) true
        else f32.withSign true (f32.roundMag (v.natAbs - 1) (-160) true)

/-- The fixed tree of R159: neighbours combined, halving, until one value remains. -/
def pairUp (op : Nat → Nat → Nat) : List Nat → List Nat
  | a :: b :: r => op a b :: pairUp op r
  | l => l
/-- Six halvings of 64 lanes (R159). -/
def treeOf (op : Nat → Nat → Nat) (l : List Nat) : Nat := (Nat.repeat (pairUp op) 6 l).headD 0

end Sys2Proof.Machine
end

