-- ==== Sys2Proof/Machine/Narrow.lean ====
section
/-! DEFINITION. The narrow formats, blocks, exact block accumulation, quantization and draws of chapter 02. -/

namespace Sys2Proof.Machine

/-- The element formats of R36. -/
inductive Elem where
  | f4 | f3 | t2 | f8a | f8b | b16 | f32
deriving DecidableEq, Repr, Inhabited

/-- The format field of a tensor descriptor (R136). -/
def Elem.ofCode : Nat → Option Elem
  | 0 => some .f4 | 1 => some .f3 | 2 => some .t2 | 3 => some .f8a | 4 => some .f8b | 8 => some .b16 | 9 => some .f32 | _ => none
/-- The narrow formats (R36). -/
def Elem.narrow : Elem → Bool
  | .b16 | .f32 => false | _ => true
/-- The bits of an element (R36). -/
def Elem.width : Elem → Nat
  | .f4 => 4 | .f3 => 3 | .t2 => 2 | .f8a | .f8b => 8 | .b16 => 16 | .f32 => 32
/-- The bytes of a block (R46); 32 for sixteen B16 elements. -/
def Elem.blockSize (f : Elem) : Nat := 2 * f.width
/-- The exponent of two of the unit in which `Elem.value` counts. -/
def Elem.unit : Elem → Int
  | .f4 => -1 | .f3 | .t2 => 0 | .f8a => -9 | .f8b => -16 | _ => 0

/-- An F8 code's magnitude: exponent e and mantissa m of b bits, in units of the smallest value. -/
def f8Mag (b : Nat) (code : Nat) : Nat :=
  let e := code / 2 ^ b
  let m := code % 2 ^ b
  if e = 0 then m else (2 ^ b + m) * 2 ^ (e - 1)

/-- The value of a code in units of 2^unit (R37 to R40), or none for an F8 NaN or infinity code. A reserved T2 code reads 0. -/
def Elem.value (f : Elem) (code : Nat) : Option Int :=
  match f with
  | .f4 =>
    let m := ([0, 1, 2, 3, 4, 6, 8, 12] : List Nat).getD (code % 8) 0
    some (if 8 ≤ code then -(m : Int) else m)
  | .f3 =>
    let m := ([0, 1, 2, 4] : List Nat).getD (code % 4) 0
    some (if 4 ≤ code then -(m : Int) else m)
  | .t2 => some (match code with | 1 => 1 | 3 => -1 | _ => 0)
  | .f8a =>
    if code % 128 = 127 then none
    else some (if 128 ≤ code then -(f8Mag 3 (code % 128) : Int) else f8Mag 3 (code % 128))
  | .f8b =>
    if 0x7C ≤ code % 128 then none
    else some (if 128 ≤ code then -(f8Mag 2 (code % 128) : Int) else f8Mag 2 (code % 128))
  | _ => some 0

/-- The codes of the 16 elements of a block, element 0 first (R47). -/
def Elem.codes (f : Elem) (block : List Byte) : List Nat :=
  let n := natOf block
  (List.range 16).map fun j => n / 2 ^ (f.width * j) % 2 ^ f.width

/-- The K8 value as (mantissa, exponent): (4 + m) × 2^(e − 33) (R44). -/
def k8Val (k : Nat) : Nat × Int := (4 + k % 4, ((k / 4 : Nat) : Int) - 33)

/-- A block as a unit takes it: its codes, its K8, and whether R49 treats it as poisoned. -/
structure Block where
  codes : List Nat := []
  k8 : Nat := 0
  poisoned : Bool := false
deriving DecidableEq, Repr, Inhabited

/-- A zero block (R45). -/
def Block.zero (b : Block) : Bool := decide (b.k8 = 0) && !b.poisoned
/-- A block whose results are poisoned: poisoned itself, treated so, or holding an F8 NaN or infinity code (R45, R56). -/
def Block.bad (f : Elem) (b : Block) : Bool :=
  b.poisoned || decide (b.k8 = 255) || (!b.zero && b.codes.any fun c => (f.value c).isNone)
/-- Reserved T2 codes of a block that is read as values (R38). -/
def Block.reserved (f : Elem) (b : Block) : Nat :=
  if f = .t2 ∧ b.k8 ≠ 0 ∧ b.k8 ≠ 255 ∧ b.poisoned = false then (b.codes.filter (· = 2)).length else 0
/-- The element values of a block. -/
def Block.values (f : Elem) (b : Block) : List Int :=
  if b.zero then List.replicate 16 0 else b.codes.map fun c => (f.value c).getD 0

/-- What one block pair adds to an accumulator element (R53, R54, R56). -/
inductive Contrib where
  | poison
  | canon
  | inf (neg : Bool)
  | val (m e : Int)
deriving DecidableEq, Repr, Inhabited

/-- Sum of the products of two lists, exact. -/
def dot (a b : List Int) : Int := (List.zipWith (· * ·) a b).foldl (· + ·) 0

/-- The contribution of a narrow block pair: S × ka × kb, exact (R53). -/
def pairContrib (fa fb : Elem) (a b : Block) : Contrib :=
  if a.bad fa || b.bad fb then .poison
  else
    let ka := k8Val a.k8
    let kb := k8Val b.k8
    .val (dot (a.values fa) (b.values fb) * ka.1 * kb.1) (ka.2 + kb.2 + fa.unit + fb.unit)

/-- One B16 product as a contribution (R54, IEEE 754). -/
def b16Product (x y : Nat) : Contrib :=
  match b16.nanOf [x, y] with
  | some n => if n = b16.poison then .poison else .canon
  | none =>
    if b16.isInf x || b16.isInf y then
      (if b16.mag x = 0 ∨ b16.mag y = 0 then .canon else .inf (b16.neg x != b16.neg y))
    else let p := dyMul (b16.dyadic x) (b16.dyadic y); .val p.1 p.2
/-- The exact sum of contributions. -/
def Contrib.plus : Contrib → Contrib → Contrib
  | .poison, _ | _, .poison => .poison
  | .canon, _ | _, .canon => .canon
  | .inf s, .inf t => if s = t then .inf s else .canon
  | .inf s, _ | _, .inf s => .inf s
  | .val m e, .val n k => let r := dyAdd (m, e) (n, k); .val r.1 r.2
/-- The contribution of a group of 16 B16 element pairs (R54). -/
def b16Contrib (a b : List Nat) : Contrib := (List.zipWith b16Product a b).foldl Contrib.plus (.val 0 0)

/-- Fold a contribution into an F32 accumulator element with one rounding (R53, R54, R56). -/
def foldAcc (acc : Nat) (c : Contrib) : Nat :=
  match c with
  | .poison => f32.poison
  | c =>
    if f32.isPoison acc then f32.poison
    else match c with
      | .val m e =>
        if m = 0 then acc
        else if f32.isNaN acc then f32.canon
        else if f32.isInf acc then acc
        else let r := dyAdd (f32.dyadic acc) (m, e); f32.round r.1 r.2
      | .inf s => if f32.isNaN acc then f32.canon else if f32.isInf acc && (f32.neg acc != s) then f32.canon else f32.withSign s f32.inf
      | _ => f32.canon

/-- mix of R61. -/
def drawMix (z : Word) : Word :=
  let z := (z ^^^ (z >>> 31)) * 0x9F2C4A17D3B56E8B#64
  let z := (z ^^^ (z >>> 29)) * 0xC51E83A92D7FB467#64
  z ^^^ (z >>> 32)
/-- The 16-bit draw of an element (R61). -/
def draw (seed : Word) (step tid : Nat) (i : Nat) : Nat :=
  let g := 0x6A3DF2C915B847E3#64
  let h := drawMix (seed ^^^ g)
  let h := drawMix (h ^^^ BitVec.ofNat 64 (step % 2 ^ 32 * 2 ^ 32 + tid % 2 ^ 32))
  let w := drawMix (h + BitVec.ofNat 64 (i / 4) * g)
  w.toNat / 2 ^ (16 * (i % 4)) % 65536

/-- The magnitudes of a narrow format in units of 2^unit, by increasing code without the sign bit (R37 to R40); NaN, infinity and
reserved codes are left out. -/
def Elem.mags (f : Elem) : List Nat :=
  match f with
  | .f4 => [0, 1, 2, 3, 4, 6, 8, 12]
  | .f3 => [0, 1, 2, 4]
  | .t2 => [0, 1]
  | .f8a => (List.range 127).map (f8Mag 3)
  | .f8b => (List.range 124).map (f8Mag 2)
  | _ => []
/-- The largest magnitude of a format in units of 2^unit (R36). -/
def Elem.emax (f : Elem) : Nat := f.mags.getLastD 0
/-- The sign bit of a code. -/
def Elem.signBit (f : Elem) : Nat := if f = .t2 then 2 else 2 ^ (f.width - 1)

/-- The smallest K8 code from c on whose Emax × value reaches amax, else 0xFE (R58). -/
def k8From (f : Elem) (amax : Int × Int) : Nat → Nat → Nat
  | 0, _ => 0xFE
  | n + 1, c =>
    let k := k8Val c
    if dyLt ((f.emax : Int) * k.1, f.unit + k.2) amax then k8From f amax n (c + 1) else c
/-- The K8 of a block of F32 values (R58). -/
def selectK8 (f : Elem) (ys : List Nat) : Nat :=
  if ys.any fun y => f32.isNaN y || f32.isInf y then 0xFF
  else
    let a := ys.foldl (fun m y => max m (f32.mag y)) 0
    if a = 0 then 0 else k8From f (f32.dyadic a) 0xFE 1

/-- How t lies between the magnitudes: saturated, or the code below and whether it is exact. -/
def belowCode (t : Int × Int) (unit : Int) : List Nat → Nat → Nat
  | [], i => i - 1
  | m :: r, i => if dyLt t ((m : Int), unit) then i - 1 else belowCode t unit r (i + 1)

/-- Encode one element: its code, whether it saturated and whether it was flushed (R59, R60). t = |y| / s is compared without
division: |y| against magnitude × s. -/
def encodeElem (f : Elem) (k8 : Nat) (rnd : Option Nat) (y : Nat) : Nat × Bool × Bool :=
  let s := k8Val k8
  let d := f32.dyadic (f32.mag y)
  let at_ (m : Nat) : Int × Int := ((m : Int) * s.1, f.unit + s.2)
  let done (c : Nat) (sat : Bool) : Nat × Bool × Bool :=
    let mag := f.mags.getD c 0
    (if mag = 0 then 0 else if f32.neg y then c + f.signBit else c, sat, decide (mag = 0 ∧ f32.mag y ≠ 0))
  if dyLt (at_ f.emax) d then done (f.mags.length - 1) true
  else
    -- |y| in units of s × 2^unit: compare against the magnitudes scaled by s
    let lo := belowCode (d.1, d.2) (f.unit + s.2) (f.mags.map (· * s.1)) 0
    let mlo := f.mags.getD lo 0
    if !(dyLt (at_ mlo) d) then done lo false
    else
      let mhi := f.mags.getD (lo + 1) 0
      let up :=
        match rnd with
        | none =>
          -- twice |y| against (lo + hi) × s: nearest, a tie to the code with its low bit clear
          let twice : Int × Int := (2 * d.1, d.2)
          let mid := at_ (mlo + mhi)
          if dyLt mid twice then true else if dyLt twice mid then false else decide (lo % 2 = 1)
        | some r =>
          -- r × (hi − lo) < 65,536 × (t − lo)
          let lhs : Int × Int := ((r : Int) * ((mhi : Int) - mlo) * s.1, f.unit + s.2)
          let rhs := dyAdd (65536 * d.1, d.2) (-(65536 * (mlo : Int) * s.1), f.unit + s.2)
          dyLt lhs rhs
      done (if up then lo + 1 else lo) false

/-- What quantizing one block writes and reports (R58 to R64). -/
structure Quantized where
  codes : List Nat := []
  k8 : Nat := 0
  sat : Nat := 0
  flushed : Nat := 0
  poisoned : Nat := 0
  maxMag : Nat := 0
deriving DecidableEq, Repr, Inhabited

/-- Quantize 16 F32 values; `rnd` gives the draws under stochastic rounding (R58 to R60). -/
def quantize (f : Elem) (rnd : Option (List Nat)) (ys : List Nat) : Quantized :=
  let k8 := selectK8 f ys
  let mm := (ys.filter fun y => !(f32.isNaN y || f32.isInf y)).foldl (fun m y => max m (f32.mag y)) 0
  if k8 = 0xFF then { codes := List.replicate 16 0, k8 := k8, poisoned := 1, maxMag := mm }
  else if k8 = 0 then { codes := List.replicate 16 0, k8 := k8, maxMag := mm }
  else
    let es := (List.range 16).map fun j => encodeElem f k8 (rnd.map fun l => l.getD j 0) (ys.getD j 0)
    { codes := es.map (·.1), k8 := k8, sat := (es.filter (·.2.1)).length, flushed := (es.filter (·.2.2)).length, maxMag := mm }

/-- The bytes of 16 codes (R47). -/
def Elem.pack (f : Elem) (codes : List Nat) : List Byte :=
  bytesOf (codes.foldr (fun c n => n * 2 ^ f.width + c) 0) f.blockSize

/-- Dequantize a block to 16 F32 codes under a tensor scale (R65). -/
def dequantize (f : Elem) (ts : Nat) (b : Block) : List Nat :=
  if b.bad f then List.replicate 16 f32.poison
  else if b.zero then List.replicate 16 0
  else
    let k := k8Val b.k8
    (b.values f).map fun v => f32.mul (f32.round (v * k.1) (f.unit + k.2)) ts

/-- The residual of an element: y′ − s × v rounded once to B16, for a code written with K8 k8 (R75). An exact difference of zero is written as +0, also for
y′ = −0 (DESIGN CHOICE, assumption 117). -/
def residual (f : Elem) (k8 : Nat) (y code : Nat) : Nat :=
  let k := k8Val k8
  let v := (f.value code).getD 0
  let r := dyAdd (f32.dyadic y) (-(v * k.1), f.unit + k.2)
  b16.round r.1 r.2

end Sys2Proof.Machine
end

