-- ==== Sys2Proof/Machine/RegMap.lean ====
section
/-! DEFINITION. The register map: the address of every configuration register (R487 and the register tables of the chapters), its
fields, their access codes (R8) and their reset values. Ring-plane endpoint registers exist only in the window of the tile
that carries the endpoint (R242). -/

namespace Sys2Proof.Machine

/-- The access codes of R8 that the register tables use. -/
inductive Acc where
  | ro | rw | rwh | w1c
deriving DecidableEq, Repr

/-- A field of a register table: place, access, reset. -/
structure FieldRow where
  fld : Fld
  acc : Acc
  reset : Nat
deriving DecidableEq, Repr

/-- A register class: base address, (stride, count) of each index, whether its first index is a ring index (R242), fields. -/
structure RegRow where
  base : Nat
  dims : List (Nat × Nat)
  ring : Bool
  fields : List FieldRow
deriving DecidableEq, Repr

/-- The tile that carries the ring-plane endpoint of a ring index (R18, R218). -/
def ringTile (r : Nat) : Nat := if r ≤ 5 then 0 else if r ≤ 10 then 1 else if r ≤ 15 then 3 else 2

/-! The addresses. -/

namespace Reg

/-- CORE_ID (R128). -/
def coreId (c : Nat) : Nat := 0x100000000 + c * 0x10000
/-- CORE_CTRL (R128). -/
def coreCtrl (c : Nat) : Nat := 0x100000008 + c * 0x10000
/-- CORE_STATUS (R128). -/
def coreStatus (c : Nat) : Nat := 0x100000010 + c * 0x10000
/-- CORE_FAULT (R128). -/
def coreFault (c : Nat) : Nat := 0x100000018 + c * 0x10000
/-- CORE_LATE (R128). -/
def coreLate (c : Nat) : Nat := 0x100000020 + c * 0x10000
/-- CORE_STRETCH (R128). -/
def coreStretch (c : Nat) : Nat := 0x100000028 + c * 0x10000
/-- CORE_STALL (R128). -/
def coreStall (c : Nat) : Nat := 0x100000030 + c * 0x10000
/-- CORE_VAULT_ECC (R128). -/
def coreVaultEcc (c : Nat) : Nat := 0x100000038 + c * 0x10000
/-- CORE_TC (R128). -/
def coreTc (c : Nat) : Nat := 0x100000040 + c * 0x10000
/-- CORE_STEP (R128). -/
def coreStep (c : Nat) : Nat := 0x100000048 + c * 0x10000
/-- CORE_SEED (R128). -/
def coreSeed (c : Nat) : Nat := 0x100000050 + c * 0x10000
/-- CORE_JOB (R128). -/
def coreJob (c : Nat) : Nat := 0x100000058 + c * 0x10000
/-- CORE_GOV (R128). -/
def coreGov (c : Nat) : Nat := 0x100000060 + c * 0x10000
/-- CORE_INCL_ELEM (R69). -/
def coreInclElem (c : Nat) : Nat := 0x100000400 + c * 0x10000
/-- CORE_INCL_SAT (R69). -/
def coreInclSat (c : Nat) : Nat := 0x100000408 + c * 0x10000
/-- CORE_INCL_FLUSH (R69). -/
def coreInclFlush (c : Nat) : Nat := 0x100000410 + c * 0x10000
/-- CORE_INCL_POISB (R69). -/
def coreInclPoisb (c : Nat) : Nat := 0x100000418 + c * 0x10000
/-- CORE_INCL_RSVD (R69). -/
def coreInclRsvd (c : Nat) : Nat := 0x100000420 + c * 0x10000
/-- CORE_INCL_PPAIR (R69). -/
def coreInclPpair (c : Nat) : Nat := 0x100000428 + c * 0x10000
/-- CORE_INCL_CAPDROP (R69). -/
def coreInclCapdrop (c : Nat) : Nat := 0x100000430 + c * 0x10000
/-- CORE_INCL_CAPDEF (R69). -/
def coreInclCapdef (c : Nat) : Nat := 0x100000438 + c * 0x10000
/-- CORE_INCL_MAXMAG (R70). -/
def coreInclMaxmag (c : Nat) : Nat := 0x100000440 + c * 0x10000
/-- CORE_INCL_STATUS (R70). -/
def coreInclStatus (c : Nat) : Nat := 0x100000448 + c * 0x10000
/-- CORE_PMC_SELi (even i) (R443). -/
def corePmcSelEven (c : Nat) (i : Nat) : Nat := 0x100000800 + c * 0x10000 + i * 0x10
/-- CORE_PMC_SELi (odd i) (R443). -/
def corePmcSelOdd (c : Nat) (i : Nat) : Nat := 0x100000808 + c * 0x10000 + i * 0x10
/-- CORE_PMCi (R443). -/
def corePmc (c : Nat) (i : Nat) : Nat := 0x100000840 + c * 0x10000 + i * 0x8
/-- CORE_SAMPLE (R445). -/
def coreSample (c : Nat) : Nat := 0x100000880 + c * 0x10000
/-- s0-s31 (R128). -/
def coreS (c : Nat) (i : Nat) : Nat := 0x100001000 + c * 0x10000 + i * 0x8
/-- CORE_PRED (R128). -/
def corePred (c : Nat) : Nat := 0x100001100 + c * 0x10000
/-- Loop level j word 0 (R128). -/
def coreLoopStart (c : Nat) (j : Nat) : Nat := 0x100001200 + c * 0x10000 + j * 0x18
/-- Loop level j word 1 (R128). -/
def coreLoopEnd (c : Nat) (j : Nat) : Nat := 0x100001208 + c * 0x10000 + j * 0x18
/-- Loop level j word 2 (R128). -/
def coreLoopCount (c : Nat) (j : Nat) : Nat := 0x100001210 + c * 0x10000 + j * 0x18
/-- v0-v63 (32 words of two lanes each) (R128). -/
def coreV (c : Nat) (i : Nat) (w : Nat) : Nat := 0x100002000 + c * 0x10000 + i * 0x100 + w * 0x8
/-- acc0, acc1 (64 rows of 32 words of two F32 each) (R128). -/
def coreAcc (c : Nat) (a : Nat) (m : Nat) (w : Nat) : Nat := 0x100008000 + c * 0x10000 + a * 0x4000 + m * 0x100 + w * 0x8
/-- TWR_BOND_STATUS (R205). -/
def twrBond (t : Nat) : Nat := 0x180000100 + t * 0x100000
/-- TWR_SAMPLE_CTRL (R445). -/
def twrSampleCtrl (t : Nat) : Nat := 0x180000200 + t * 0x100000
/-- TWR_BAR_MEMBERi_w (R180). -/
def twrBarMember (t : Nat) (i : Nat) (w : Nat) : Nat := 0x180001000 + t * 0x100000 + i * 0x100 + w * 0x8
/-- TWR_BAR_STATEi (R198). -/
def twrBarState (t : Nat) (i : Nat) : Nat := 0x180001020 + t * 0x100000 + i * 0x100
/-- TWR_FLAGSc_w (R199). -/
def twrFlags (t : Nat) (c : Nat) (w : Nat) : Nat := 0x180010000 + t * 0x100000 + c * 0x40 + w * 0x8
/-- TWR_VARB_CTRLc (R193). -/
def twrVarbCtrl (t : Nat) (c : Nat) : Nat := 0x180010020 + t * 0x100000 + c * 0x40
/-- TWR_VARB_MAPc (R193). -/
def twrVarbMap (t : Nat) (c : Nat) : Nat := 0x180010028 + t * 0x100000 + c * 0x40
/-- TWR_VARB_WAITc (R443). -/
def twrVarbWait (t : Nat) (c : Nat) : Nat := 0x180010030 + t * 0x100000 + c * 0x40
/-- TWR_GOVcol (R203). -/
def twrGov (t : Nat) (col : Nat) : Nat := 0x180020000 + t * 0x100000 + col * 0x8
/-- TWR_RPMC_SELc_i (even i) (R443). -/
def twrRpmcSelEven (t : Nat) (c : Nat) (i : Nat) : Nat := 0x180030000 + t * 0x100000 + c * 0x40 + i * 0x10
/-- TWR_RPMC_SELc_i (odd i) (R443). -/
def twrRpmcSelOdd (t : Nat) (c : Nat) (i : Nat) : Nat := 0x180030008 + t * 0x100000 + c * 0x40 + i * 0x10
/-- TWR_RPMCc_i (R443). -/
def twrRpmc (t : Nat) (c : Nat) (i : Nat) : Nat := 0x180030020 + t * 0x100000 + c * 0x40 + i * 0x8
/-- ONX_ID (R421). -/
def onxId : Nat := 0x0
/-- ONX_SERIAL (R421). -/
def onxSerial : Nat := 0x8
/-- ONX_STATE (R421). -/
def onxState : Nat := 0x10
/-- ONX_HOLD_CAUSE (R421). -/
def onxHoldCause : Nat := 0x18
/-- ONX_VAR_STATUS (R86). -/
def onxVarStatus : Nat := 0x2000
/-- ONX_VAR_SELk (R86). -/
def onxVarSel (k : Nat) : Nat := 0x2100 + k * 0x8
/-- ONX_VAR_RUNr (R86). -/
def onxVarRun (r : Nat) : Nat := 0xA000 + r * 0x8
/-- ONX_LIGHT_POLICY (R264). -/
def onxLightPolicy : Nat := 0x4000
/-- ONX_CAL_STATUS (R268). -/
def onxCalStatus : Nat := 0x4008
/-- ONX_LOCK_COUNTS (R268). -/
def onxLockCounts : Nat := 0x4010
/-- ONX_MARGIN_SUMMARY (R268). -/
def onxMarginSummary : Nat := 0x4018
/-- ONX_LASER_Pf (R268). -/
def onxLaserP (f : Nat) : Nat := 0x4100 + f * 0x8
/-- ONX_SCHED_CFG (R325). -/
def onxSchedCfg : Nat := 0x5000
/-- ONX_SCHED_STATUS (R325). -/
def onxSchedStatus : Nat := 0x5008
/-- ONX_SCHED_LATE (R325). -/
def onxSchedLate : Nat := 0x5010
/-- ONX_SCHED_HOLD (R325). -/
def onxSchedHold : Nat := 0x5018
/-- ONX_SCHED_BASE (R325). -/
def onxSchedBase : Nat := 0x5020
/-- ONX_SCHED_ARRIVE (R325). -/
def onxSchedArrive : Nat := 0x5028
/-- ONX_IMG_STATUS (R417). -/
def onxImgStatus : Nat := 0x6000
/-- ONX_IMG_SEQ (R417). -/
def onxImgSeq : Nat := 0x6008
/-- ONX_UPD_STATUS (R417). -/
def onxUpdStatus : Nat := 0x6010
/-- ONX_JOIN_HEARD (R417). -/
def onxJoinHeard : Nat := 0x6018
/-- ONX_JOIN_CARAT (R417). -/
def onxJoinCarat : Nat := 0x6020
/-- ONX_THERM (R431). -/
def onxTherm : Nat := 0x7000
/-- ONX_THERM_CFG (R431). -/
def onxThermCfg : Nat := 0x7008
/-- ONX_THERM_TRIP (R431). -/
def onxThermTrip : Nat := 0x7010
/-- ONX_UNITu (R435). -/
def onxUnit (u : Nat) : Nat := 0x7100 + u * 0x8
/-- ONX_LOG_STATUS (R489). -/
def onxLogStatus : Nat := 0x7300
/-- ONX_LOG_CFG (R489). -/
def onxLogCfg : Nat := 0x7308
/-- ONX_PMC_CTRL (R441). -/
def onxPmcCtrl : Nat := 0x7400
/-- ONX_PMC_START (R441). -/
def onxPmcStart : Nat := 0x7408
/-- ONX_PMC_STOP (R441). -/
def onxPmcStop : Nat := 0x7410
/-- ONX_TELEM_STATUS (R448). -/
def onxTelemStatus : Nat := 0x7500
/-- ONX_ATT_STATUS (R450). -/
def onxAttStatus : Nat := 0x7600
/-- ONX_HKc (R425). -/
def onxHk (c : Nat) : Nat := 0x8000 + c * 0x8
/-- FLR_CAP (R296). -/
def flrCap (n : Nat) : Nat := 0x1000000 + n * 0x100000
/-- FLR_CLK (R296). -/
def flrClk (n : Nat) : Nat := 0x1000008 + n * 0x100000
/-- FLR_D2D_POLICY (R296). -/
def flrPolicy (n : Nat) : Nat := 0x1000010 + n * 0x100000
/-- FLR_GRPt_g (R296). -/
def flrGrp (n : Nat) (t : Nat) (g : Nat) : Nat := 0x1001000 + n * 0x100000 + t * 0x200 + g * 0x8
/-- FLR_GERRt_g (R296). -/
def flrGerr (n : Nat) (t : Nat) (g : Nat) : Nat := 0x1002000 + n * 0x100000 + t * 0x200 + g * 0x8
/-- FLR_DSKt_g_d_q (q = 0-32) (R296). -/
def flrDsk (n : Nat) (t : Nat) (g : Nat) (d : Nat) (q : Nat) : Nat := 0x1040000 + n * 0x100000 + t * 0x10000 + g * 0x400 + d * 0x200 + q * 0x8
/-- FLR_DSKt_g_d_33 (R296). -/
def flrDskCtl (n : Nat) (t : Nat) (g : Nat) (d : Nat) : Nat := 0x1040108 + n * 0x100000 + t * 0x10000 + g * 0x400 + d * 0x200
/-- TC_STATUS (R296). -/
def tcStatus (n : Nat) : Nat := 0x1080000 + n * 0x100000
/-- TC_VALUE (R296). -/
def tcValue (n : Nat) : Nat := 0x1080008 + n * 0x100000
/-- TC_SYNC_COMP (R296). -/
def tcSyncComp (n : Nat) : Nat := 0x1080010 + n * 0x100000
/-- TC_LAST_SYNC (R296). -/
def tcLastSync (n : Nat) : Nat := 0x1080018 + n * 0x100000
/-- TC_HOLDOVER (R296). -/
def tcHoldover (n : Nat) : Nat := 0x1080020 + n * 0x100000
/-- RPL_FENCE (R242). -/
def rplFence (n : Nat) : Nat := 0x2000000 + n * 0x100000
/-- RPL_REBAL (R242). -/
def rplRebal (n : Nat) : Nat := 0x2000008 + n * 0x100000
/-- RPL_TX_STATUSr (R242). -/
def rplTxStatus (r : Nat) : Nat := 0x2001000 + ringTile r * 0x100000 + r * 0x100
/-- RPL_TX_ERRr (R242). -/
def rplTxErr (r : Nat) : Nat := 0x2001008 + ringTile r * 0x100000 + r * 0x100
/-- RPL_RX_ERRr (R242). -/
def rplRxErr (r : Nat) : Nat := 0x2001010 + ringTile r * 0x100000 + r * 0x100
/-- RPL_RX_INGESTr (R242). -/
def rplRxIngest (r : Nat) : Nat := 0x2001018 + ringTile r * 0x100000 + r * 0x100
/-- RPL_WGTr_t_i (R242). -/
def rplWgt (r : Nat) (t : Nat) (i : Nat) : Nat := 0x2010000 + ringTile r * 0x100000 + r * 0x1000 + t * 0x200 + i * 0x8
/-- RPL_MODr_t_q (R267). -/
def rplMod (r : Nat) (t : Nat) (q : Nat) : Nat := 0x2030000 + ringTile r * 0x100000 + r * 0x100 + t * 0x10 + q * 0x8
/-- RPL_QUALr_s_k (R267). -/
def rplQual (r : Nat) (s : Nat) (k : Nat) : Nat := 0x2040000 + ringTile r * 0x100000 + r * 0x1000 + s * 0x80 + k * 0x8
/-- RPL_DROPr_t_i (R267). -/
def rplDrop (r : Nat) (t : Nat) (i : Nat) : Nat := 0x2060000 + ringTile r * 0x100000 + r * 0x1000 + t * 0x200 + i * 0x8
/-- LPL_STATUS (R243). -/
def lplStatus (n : Nat) : Nat := 0x3000000 + n * 0x100000
/-- LPL_COUNTS (R243). -/
def lplCounts (n : Nat) : Nat := 0x3000008 + n * 0x100000
/-- LPL_LANEj (R243). -/
def lplLane (n : Nat) (j : Nat) : Nat := 0x3000100 + n * 0x100000 + j * 0x8
/-- LPL_DISCe (R243). -/
def lplDisc (n : Nat) (e : Nat) : Nat := 0x3000200 + n * 0x100000 + e * 0x8
/-- LPL_FALLBACKe (R243). -/
def lplFallback (n : Nat) (e : Nat) : Nat := 0x3000400 + n * 0x100000 + e * 0x8
/-- LPL_PHASEp_w (R243). -/
def lplPhase (n : Nat) (p : Nat) (w : Nat) : Nat := 0x3010000 + n * 0x100000 + p * 0x10 + w * 0x8
/-- Lane setting s, kind (R227). -/
def lplSetKind (n : Nat) (s : Nat) : Nat := 0x3020000 + n * 0x100000 + s * 0x400
/-- Lane setting s, src_of_out 0-15 (R227). -/
def lplSetSrc (n : Nat) (s : Nat) (w : Nat) : Nat := 0x3020008 + n * 0x100000 + s * 0x400 + w * 0x8
/-- Lane setting s, src_of_out 16-19 (R227). -/
def lplSetSrc2 (n : Nat) (s : Nat) : Nat := 0x3020018 + n * 0x100000 + s * 0x400
/-- Lane setting s, mzi 2w and 2w + 1 (R227). -/
def lplSetMzi (n : Nat) (s : Nat) (w : Nat) : Nat := 0x3020040 + n * 0x100000 + s * 0x400 + w * 0x8
/-- LPL_QUALj_e_k (R267). -/
def lplQual (n : Nat) (j : Nat) (e : Nat) (k : Nat) : Nat := 0x3060000 + n * 0x100000 + j * 0x1000 + e * 0x80 + k * 0x8
/-- LPL_MODj_e_k (R267). -/
def lplMod (n : Nat) (j : Nat) (e : Nat) (k : Nat) : Nat := 0x3070000 + n * 0x100000 + j * 0x1000 + e * 0x80 + k * 0x8
/-- LPL_DMXj_e_k (R267). -/
def lplDmx (n : Nat) (j : Nat) (e : Nat) (k : Nat) : Nat := 0x3080000 + n * 0x100000 + j * 0x1000 + e * 0x80 + k * 0x8
/-- LPL_ROTj_e (R267). -/
def lplRot (n : Nat) (j : Nat) (e : Nat) : Nat := 0x3090000 + n * 0x100000 + j * 0x100 + e * 0x8
/-- FIB_CTRLx (R244). -/
def fibCtrl (n : Nat) (x : Nat) : Nat := 0x5000100 + n * 0x100000 + x * 0x40
/-- FIB_STATUSx (R244). -/
def fibStatus (n : Nat) (x : Nat) : Nat := 0x5000108 + n * 0x100000 + x * 0x40
/-- FIB_ERRx (R244). -/
def fibErr (n : Nat) (x : Nat) : Nat := 0x5000110 + n * 0x100000 + x * 0x40
/-- FIB_QUALx_k (R267). -/
def fibQual (n : Nat) (x : Nat) (k : Nat) : Nat := 0x5001000 + n * 0x100000 + x * 0x80 + k * 0x8
/-- HBM_ECC (R387). -/
def hbmEcc (k : Nat) : Nat := 0x4000000 + k * 0x10000
/-- HBM_SCRUB (R387). -/
def hbmScrub (k : Nat) : Nat := 0x4000008 + k * 0x10000
/-- HBM_STATUS (R387). -/
def hbmStatus (k : Nat) : Nat := 0x4000010 + k * 0x10000
/-- HBM_COPYe_0 (R387). -/
def hbmCopy0 (k : Nat) (e : Nat) : Nat := 0x4004000 + k * 0x10000 + e * 0x20
/-- HBM_COPYe_1 (R387). -/
def hbmCopy1 (k : Nat) (e : Nat) : Nat := 0x4004008 + k * 0x10000 + e * 0x20
/-- HBM_COPYe_2 (R387). -/
def hbmCopy2 (k : Nat) (e : Nat) : Nat := 0x4004010 + k * 0x10000 + e * 0x20
/-- HBM_ARB_CTRLc (R346). -/
def hbmArbCtrl (k : Nat) (c : Nat) : Nat := 0x4008000 + k * 0x10000 + c * 0x10
/-- HBM_ARB_MAPc (R346). -/
def hbmArbMap (k : Nat) (c : Nat) : Nat := 0x4008008 + k * 0x10000 + c * 0x10
/-- FAB_RT_CTRL (R345). -/
def fabRtCtrl : Nat := 0x7000000
/-- FAB_RT_STAT (R345). -/
def fabRtStat : Nat := 0x7000008
/-- FAB_RTr_b_d (R345). -/
def fabRt (r : Nat) (b : Nat) (d : Nat) : Nat := 0x7010000 + r * 0x10000 + b * 0x200 + d * 0x8
/-- FAB_TXARB_CTRLr (R345). -/
def fabTxArbCtrl (r : Nat) : Nat := 0x7010800 + r * 0x10000
/-- FAB_TXARB_MAPr (R345). -/
def fabTxArbMap (r : Nat) : Nat := 0x7010808 + r * 0x10000
/-- FAB_GMAPt_w (R345). -/
def fabGmap (t : Nat) (w : Nat) : Nat := 0x7180000 + t * 0x100 + w * 0x8
/-- FAB_TIMEOUT (R386). -/
def fabTimeout : Nat := 0x7200000
/-- FAB_INCARNATION (R386). -/
def fabIncarnation : Nat := 0x7200008
/-- FAB_OP_STAT (R386). -/
def fabOpStat : Nat := 0x7200010
/-- FAB_PEER_INCp (R386). -/
def fabPeerInc (p : Nat) : Nat := 0x7200100 + p * 0x8
/-- FAB_JOBj_CTRL (R386). -/
def fabJobCtrl (j : Nat) : Nat := 0x7300000 + j * 0x20
/-- FAB_JOBj_SRC (R386). -/
def fabJobSrc (j : Nat) : Nat := 0x7300008 + j * 0x20
/-- FAB_JOBj_SEED (R386). -/
def fabJobSeed (j : Nat) : Nat := 0x7300010 + j * 0x20
/-- FAB_WINj_w_0 (R386). -/
def fabWin0 (j : Nat) (w : Nat) : Nat := 0x7400000 + j * 0x400 + w * 0x10
/-- FAB_WINj_w_1 (R386). -/
def fabWin1 (j : Nat) (w : Nat) : Nat := 0x7400008 + j * 0x400 + w * 0x10
/-- FAB_REGi_0 (R386). -/
def fabReg0 (i : Nat) : Nat := 0x7600000 + i * 0x20
/-- FAB_REGi_1 (R386). -/
def fabReg1 (i : Nat) : Nat := 0x7600008 + i * 0x20
/-- FAB_REGi_TILEh (R386). -/
def fabRegTile (i : Nat) (h : Nat) : Nat := 0x7600010 + i * 0x20 + h * 0x8
/-- FAB_EPMC_SELr_i (even i) (R443). -/
def fabEpmcSelEven (r : Nat) (i : Nat) : Nat := 0x7700000 + r * 0x200 + i * 0x10
/-- FAB_EPMC_SELr_i (odd i) (R443). -/
def fabEpmcSelOdd (r : Nat) (i : Nat) : Nat := 0x7700008 + r * 0x200 + i * 0x10
/-- FAB_EPMCr_i (R443). -/
def fabEpmc (r : Nat) (i : Nat) : Nat := 0x7700080 + r * 0x200 + i * 0x8
/-- HST_STATUS (R470). -/
def hstStatus : Nat := 0x6000000
/-- HST_MAC (R470). -/
def hstMac : Nat := 0x6000008
/-- HST_IPV4 (R470). -/
def hstIpv4 : Nat := 0x6000010
/-- HST_IPV6_0, HST_IPV6_1 (R470). -/
def hstIpv6 (i : Nat) : Nat := 0x6000018 + i * 0x8
/-- HST_PORTS (R470). -/
def hstPorts : Nat := 0x6000028
/-- HST_MGMT_KEYS (R470). -/
def hstMgmtKeys : Nat := 0x6000030
/-- HST_SHARE (R470). -/
def hstShare : Nat := 0x6000038
/-- HST_COUNTS (R470). -/
def hstCounts : Nat := 0x6000040
/-- Server entry v, IPv6 address (R457). -/
def srvIp (v : Nat) (w : Nat) : Nat := 0x6001000 + v * 0x40 + w * 0x8
/-- Server entry v, MAC and port (R457). -/
def srvMac (v : Nat) : Nat := 0x6001010 + v * 0x40
/-- Server entry v, flags (R457). -/
def srvFlags (v : Nat) : Nat := 0x6001018 + v * 0x40
/-- Ingest stream s, word 0 (R458). -/
def ing0 (s : Nat) : Nat := 0x6002000 + s * 0x40
/-- Ingest stream s, word 1 (R458). -/
def ing1 (s : Nat) : Nat := 0x6002008 + s * 0x40
/-- Ingest stream s, buffer_base (R458). -/
def ing2 (s : Nat) : Nat := 0x6002010 + s * 0x40
/-- Ingest stream s, window and grace (R458). -/
def ing3 (s : Nat) : Nat := 0x6002018 + s * 0x40
/-- Ingest stream s, stream_id and retransmit (R458). -/
def ing4 (s : Nat) : Nat := 0x6002020 + s * 0x40
/-- Egress stream e, word 0 (R463). -/
def egr0 (e : Nat) : Nat := 0x6006000 + e * 0x40
/-- Egress stream e, every and phase (R463). -/
def egr1 (e : Nat) : Nat := 0x6006008 + e * 0x40
/-- Egress stream e, source_base (R463). -/
def egr2 (e : Nat) : Nat := 0x6006010 + e * 0x40
/-- Egress stream e, length (R463). -/
def egr3 (e : Nat) : Nat := 0x6006018 + e * 0x40
/-- Egress stream e, stream_id and retransmit (R463). -/
def egr4 (e : Nat) : Nat := 0x6006020 + e * 0x40
/-- Egress stream e, timeout (R463). -/
def egr5 (e : Nat) : Nat := 0x6006028 + e * 0x40
/-- HST_INGSTs (R470). -/
def hstIngst (s : Nat) : Nat := 0x6007000 + s * 0x8
/-- HST_EGRSTe (R470). -/
def hstEgrst (e : Nat) : Nat := 0x6007800 + e * 0x8

end Reg

/-! The fields. -/

namespace F

/-- coreId of CORE_ID (R128). -/
def coreIdCoreId : Fld := ⟨11, 0⟩
/-- startPc of CORE_CTRL (R128). -/
def coreCtrlStartPc : Fld := ⟨29, 16⟩
/-- fenced of CORE_CTRL (R128). -/
def coreCtrlFenced : Fld := ⟨1, 1⟩
/-- enable of CORE_CTRL (R128). -/
def coreCtrlEnable : Fld := ⟨0, 0⟩
/-- pc of CORE_STATUS (R128). -/
def coreStatusPc : Fld := ⟨45, 32⟩
/-- state of CORE_STATUS (R128). -/
def coreStatusState : Fld := ⟨3, 0⟩
/-- remoteStatus of CORE_FAULT (R128). -/
def coreFaultRemoteStatus : Fld := ⟨4, 4⟩
/-- matrixRange of CORE_FAULT (R128). -/
def coreFaultMatrixRange : Fld := ⟨3, 3⟩
/-- accessDenied of CORE_FAULT (R128). -/
def coreFaultAccessDenied : Fld := ⟨2, 2⟩
/-- vaultUe of CORE_FAULT (R128). -/
def coreFaultVaultUe : Fld := ⟨1, 1⟩
/-- imemUe of CORE_FAULT (R128). -/
def coreFaultImemUe : Fld := ⟨0, 0⟩
/-- lateMax of CORE_LATE (R128). -/
def coreLateLateMax : Fld := ⟨63, 32⟩
/-- lateCount of CORE_LATE (R128). -/
def coreLateLateCount : Fld := ⟨31, 0⟩
/-- count of CORE_STRETCH (R128). -/
def coreStretchCount : Fld := ⟨47, 0⟩
/-- count of CORE_STALL (R128). -/
def coreStallCount : Fld := ⟨47, 0⟩
/-- wbDropped of CORE_VAULT_ECC (R128). -/
def coreVaultEccWbDropped : Fld := ⟨63, 48⟩
/-- ueCount of CORE_VAULT_ECC (R128). -/
def coreVaultEccUeCount : Fld := ⟨47, 32⟩
/-- ceCount of CORE_VAULT_ECC (R128). -/
def coreVaultEccCeCount : Fld := ⟨31, 0⟩
/-- tc of CORE_TC (R128). -/
def coreTcTc : Fld := ⟨63, 0⟩
/-- step of CORE_STEP (R128). -/
def coreStepStep : Fld := ⟨63, 0⟩
/-- seed of CORE_SEED (R128). -/
def coreSeedSeed : Fld := ⟨63, 0⟩
/-- job of CORE_JOB (R128). -/
def coreJobJob : Fld := ⟨9, 0⟩
/-- count of CORE_GOV (R128). -/
def coreGovCount : Fld := ⟨47, 0⟩
/-- count of CORE_INCL_ELEM (R69). -/
def coreInclElemCount : Fld := ⟨47, 0⟩
/-- count of CORE_INCL_SAT (R69). -/
def coreInclSatCount : Fld := ⟨47, 0⟩
/-- count of CORE_INCL_FLUSH (R69). -/
def coreInclFlushCount : Fld := ⟨47, 0⟩
/-- count of CORE_INCL_POISB (R69). -/
def coreInclPoisbCount : Fld := ⟨31, 0⟩
/-- count of CORE_INCL_RSVD (R69). -/
def coreInclRsvdCount : Fld := ⟨31, 0⟩
/-- count of CORE_INCL_PPAIR (R69). -/
def coreInclPpairCount : Fld := ⟨31, 0⟩
/-- count of CORE_INCL_CAPDROP (R69). -/
def coreInclCapdropCount : Fld := ⟨31, 0⟩
/-- count of CORE_INCL_CAPDEF (R69). -/
def coreInclCapdefCount : Fld := ⟨31, 0⟩
/-- maxMag of CORE_INCL_MAXMAG (R70). -/
def coreInclMaxmagMaxMag : Fld := ⟨31, 0⟩
/-- arithFaults of CORE_INCL_STATUS (R70). -/
def coreInclStatusArithFaults : Fld := ⟨47, 32⟩
/-- residualUsed of CORE_INCL_STATUS (R70). -/
def coreInclStatusResidualUsed : Fld := ⟨3, 3⟩
/-- counterSaturated of CORE_INCL_STATUS (R70). -/
def coreInclStatusCounterSaturated : Fld := ⟨2, 2⟩
/-- arithFaultSticky of CORE_INCL_STATUS (R70). -/
def coreInclStatusArithFaultSticky : Fld := ⟨1, 1⟩
/-- enable of CORE_PMC_SELi (even i) (R443). -/
def corePmcSelEvenEnable : Fld := ⟨12, 12⟩
/-- event of CORE_PMC_SELi (even i) (R443). -/
def corePmcSelEvenEvent : Fld := ⟨9, 0⟩
/-- chain of CORE_PMC_SELi (odd i) (R443). -/
def corePmcSelOddChain : Fld := ⟨13, 13⟩
/-- enable of CORE_PMC_SELi (odd i) (R443). -/
def corePmcSelOddEnable : Fld := ⟨12, 12⟩
/-- event of CORE_PMC_SELi (odd i) (R443). -/
def corePmcSelOddEvent : Fld := ⟨9, 0⟩
/-- overflow of CORE_PMCi (R443). -/
def corePmcOverflow : Fld := ⟨48, 48⟩
/-- count of CORE_PMCi (R443). -/
def corePmcCount : Fld := ⟨47, 0⟩
/-- lfsr of CORE_SAMPLE (R445). -/
def coreSampleLfsr : Fld := ⟨63, 32⟩
/-- skipped of CORE_SAMPLE (R445). -/
def coreSampleSkipped : Fld := ⟨31, 16⟩
/-- enable of CORE_SAMPLE (R445). -/
def coreSampleEnable : Fld := ⟨0, 0⟩
/-- value of s0-s31 (R128). -/
def coreSValue : Fld := ⟨63, 0⟩
/-- p of CORE_PRED (R128). -/
def corePredP : Fld := ⟨7, 0⟩
/-- start of Loop level j word 0 (R128). -/
def coreLoopStartStart : Fld := ⟨13, 0⟩
/-- end of Loop level j word 1 (R128). -/
def coreLoopEndEnd : Fld := ⟨13, 0⟩
/-- count of Loop level j word 2 (R128). -/
def coreLoopCountCount : Fld := ⟨31, 0⟩
/-- lanes of v0-v63 (32 words of two lanes each) (R128). -/
def coreVLanes : Fld := ⟨63, 0⟩
/-- lanes of acc0, acc1 (64 rows of 32 words of two F32 each) (R128). -/
def coreAccLanes : Fld := ⟨63, 0⟩
/-- groupsFull of TWR_BOND_STATUS (R205). -/
def twrBondGroupsFull : Fld := ⟨55, 48⟩
/-- sparesUsed of TWR_BOND_STATUS (R205). -/
def twrBondSparesUsed : Fld := ⟨47, 32⟩
/-- crcErrors of TWR_BOND_STATUS (R205). -/
def twrBondCrcErrors : Fld := ⟨31, 16⟩
/-- failed of TWR_BOND_STATUS (R205). -/
def twrBondFailed : Fld := ⟨7, 0⟩
/-- dropped of TWR_SAMPLE_CTRL (R445). -/
def twrSampleCtrlDropped : Fld := ⟨63, 48⟩
/-- count of TWR_SAMPLE_CTRL (R445). -/
def twrSampleCtrlCount : Fld := ⟨40, 32⟩
/-- next of TWR_SAMPLE_CTRL (R445). -/
def twrSampleCtrlNext : Fld := ⟨31, 24⟩
/-- wrap of TWR_SAMPLE_CTRL (R445). -/
def twrSampleCtrlWrap : Fld := ⟨8, 8⟩
/-- k of TWR_SAMPLE_CTRL (R445). -/
def twrSampleCtrlK : Fld := ⟨4, 0⟩
/-- members of TWR_BAR_MEMBERi_w (R180). -/
def twrBarMemberMembers : Fld := ⟨63, 0⟩
/-- arrived of TWR_BAR_STATEi (R198). -/
def twrBarStateArrived : Fld := ⟨40, 32⟩
/-- members of TWR_BAR_STATEi (R198). -/
def twrBarStateMembers : Fld := ⟨24, 16⟩
/-- phase of TWR_BAR_STATEi (R198). -/
def twrBarStatePhase : Fld := ⟨0, 0⟩
/-- flags of TWR_FLAGSc_w (R199). -/
def twrFlagsFlags : Fld := ⟨63, 0⟩
/-- deadCycles of TWR_VARB_CTRLc (R193). -/
def twrVarbCtrlDeadCycles : Fld := ⟨63, 48⟩
/-- mapPending of TWR_VARB_CTRLc (R193). -/
def twrVarbCtrlMapPending : Fld := ⟨2, 2⟩
/-- drained of TWR_VARB_CTRLc (R193). -/
def twrVarbCtrlDrained : Fld := ⟨1, 1⟩
/-- freeze of TWR_VARB_CTRLc (R193). -/
def twrVarbCtrlFreeze : Fld := ⟨0, 0⟩
/-- in12 of TWR_VARB_MAPc (R193). -/
def twrVarbMapIn12 : Fld := ⟨51, 48⟩
/-- in11 of TWR_VARB_MAPc (R193). -/
def twrVarbMapIn11 : Fld := ⟨47, 44⟩
/-- in10 of TWR_VARB_MAPc (R193). -/
def twrVarbMapIn10 : Fld := ⟨43, 40⟩
/-- in9 of TWR_VARB_MAPc (R193). -/
def twrVarbMapIn9 : Fld := ⟨39, 36⟩
/-- in8 of TWR_VARB_MAPc (R193). -/
def twrVarbMapIn8 : Fld := ⟨35, 32⟩
/-- in7 of TWR_VARB_MAPc (R193). -/
def twrVarbMapIn7 : Fld := ⟨31, 28⟩
/-- in6 of TWR_VARB_MAPc (R193). -/
def twrVarbMapIn6 : Fld := ⟨27, 24⟩
/-- in5 of TWR_VARB_MAPc (R193). -/
def twrVarbMapIn5 : Fld := ⟨23, 20⟩
/-- in4 of TWR_VARB_MAPc (R193). -/
def twrVarbMapIn4 : Fld := ⟨19, 16⟩
/-- in3 of TWR_VARB_MAPc (R193). -/
def twrVarbMapIn3 : Fld := ⟨15, 12⟩
/-- in2 of TWR_VARB_MAPc (R193). -/
def twrVarbMapIn2 : Fld := ⟨11, 8⟩
/-- in1 of TWR_VARB_MAPc (R193). -/
def twrVarbMapIn1 : Fld := ⟨7, 4⟩
/-- in0 of TWR_VARB_MAPc (R193). -/
def twrVarbMapIn0 : Fld := ⟨3, 0⟩
/-- readWait of TWR_VARB_WAITc (R443). -/
def twrVarbWaitReadWait : Fld := ⟨63, 32⟩
/-- writeWait of TWR_VARB_WAITc (R443). -/
def twrVarbWaitWriteWait : Fld := ⟨31, 0⟩
/-- events of TWR_GOVcol (R203). -/
def twrGovEvents : Fld := ⟨63, 32⟩
/-- windowSum of TWR_GOVcol (R203). -/
def twrGovWindowSum : Fld := ⟨18, 0⟩
/-- enable of TWR_RPMC_SELc_i (even i) (R443). -/
def twrRpmcSelEvenEnable : Fld := ⟨12, 12⟩
/-- event of TWR_RPMC_SELc_i (even i) (R443). -/
def twrRpmcSelEvenEvent : Fld := ⟨9, 0⟩
/-- chain of TWR_RPMC_SELc_i (odd i) (R443). -/
def twrRpmcSelOddChain : Fld := ⟨13, 13⟩
/-- enable of TWR_RPMC_SELc_i (odd i) (R443). -/
def twrRpmcSelOddEnable : Fld := ⟨12, 12⟩
/-- event of TWR_RPMC_SELc_i (odd i) (R443). -/
def twrRpmcSelOddEvent : Fld := ⟨9, 0⟩
/-- overflow of TWR_RPMCc_i (R443). -/
def twrRpmcOverflow : Fld := ⟨48, 48⟩
/-- count of TWR_RPMCc_i (R443). -/
def twrRpmcCount : Fld := ⟨47, 0⟩
/-- part of ONX_ID (R421). -/
def onxIdPart : Fld := ⟨63, 48⟩
/-- stepping of ONX_ID (R421). -/
def onxIdStepping : Fld := ⟨39, 32⟩
/-- romVersion of ONX_ID (R421). -/
def onxIdRomVersion : Fld := ⟨31, 16⟩
/-- patchEntries of ONX_ID (R421). -/
def onxIdPatchEntries : Fld := ⟨15, 8⟩
/-- serial of ONX_SERIAL (R421). -/
def onxSerialSerial : Fld := ⟨63, 0⟩
/-- haltCause of ONX_STATE (R421). -/
def onxStateHaltCause : Fld := ⟨39, 32⟩
/-- watchdogRestarted of ONX_STATE (R421). -/
def onxStateWatchdogRestarted : Fld := ⟨7, 7⟩
/-- state of ONX_STATE (R421). -/
def onxStateState : Fld := ⟨3, 0⟩
/-- causes of ONX_HOLD_CAUSE (R421). -/
def onxHoldCauseCauses : Fld := ⟨12, 0⟩
/-- lastStep of ONX_VAR_STATUS (R86). -/
def onxVarStatusLastStep : Fld := ⟨63, 32⟩
/-- switches of ONX_VAR_STATUS (R86). -/
def onxVarStatusSwitches : Fld := ⟨31, 16⟩
/-- missingRecords of ONX_VAR_STATUS (R86). -/
def onxVarStatusMissingRecords : Fld := ⟨15, 2⟩
/-- digestMismatch of ONX_VAR_STATUS (R86). -/
def onxVarStatusDigestMismatch : Fld := ⟨1, 1⟩
/-- faultHold of ONX_VAR_STATUS (R86). -/
def onxVarStatusFaultHold : Fld := ⟨0, 0⟩
/-- sel15 of ONX_VAR_SELk (R86). -/
def onxVarSelSel15 : Fld := ⟨62, 60⟩
/-- sel14 of ONX_VAR_SELk (R86). -/
def onxVarSelSel14 : Fld := ⟨58, 56⟩
/-- sel13 of ONX_VAR_SELk (R86). -/
def onxVarSelSel13 : Fld := ⟨54, 52⟩
/-- sel12 of ONX_VAR_SELk (R86). -/
def onxVarSelSel12 : Fld := ⟨50, 48⟩
/-- sel11 of ONX_VAR_SELk (R86). -/
def onxVarSelSel11 : Fld := ⟨46, 44⟩
/-- sel10 of ONX_VAR_SELk (R86). -/
def onxVarSelSel10 : Fld := ⟨42, 40⟩
/-- sel9 of ONX_VAR_SELk (R86). -/
def onxVarSelSel9 : Fld := ⟨38, 36⟩
/-- sel8 of ONX_VAR_SELk (R86). -/
def onxVarSelSel8 : Fld := ⟨34, 32⟩
/-- sel7 of ONX_VAR_SELk (R86). -/
def onxVarSelSel7 : Fld := ⟨30, 28⟩
/-- sel6 of ONX_VAR_SELk (R86). -/
def onxVarSelSel6 : Fld := ⟨26, 24⟩
/-- sel5 of ONX_VAR_SELk (R86). -/
def onxVarSelSel5 : Fld := ⟨22, 20⟩
/-- sel4 of ONX_VAR_SELk (R86). -/
def onxVarSelSel4 : Fld := ⟨18, 16⟩
/-- sel3 of ONX_VAR_SELk (R86). -/
def onxVarSelSel3 : Fld := ⟨14, 12⟩
/-- sel2 of ONX_VAR_SELk (R86). -/
def onxVarSelSel2 : Fld := ⟨10, 8⟩
/-- sel1 of ONX_VAR_SELk (R86). -/
def onxVarSelSel1 : Fld := ⟨6, 4⟩
/-- sel0 of ONX_VAR_SELk (R86). -/
def onxVarSelSel0 : Fld := ⟨2, 0⟩
/-- run of ONX_VAR_RUNr (R86). -/
def onxVarRunRun : Fld := ⟨7, 0⟩
/-- forceCold of ONX_LIGHT_POLICY (R264). -/
def onxLightPolicyForceCold : Fld := ⟨5, 5⟩
/-- noCold of ONX_LIGHT_POLICY (R264). -/
def onxLightPolicyNoCold : Fld := ⟨4, 4⟩
/-- degradedAsFailed of ONX_LIGHT_POLICY (R264). -/
def onxLightPolicyDegradedAsFailed : Fld := ⟨3, 3⟩
/-- halfWidthPolicy of ONX_LIGHT_POLICY (R264). -/
def onxLightPolicyHalfWidthPolicy : Fld := ⟨2, 2⟩
/-- fibrePolicy of ONX_LIGHT_POLICY (R264). -/
def onxLightPolicyFibrePolicy : Fld := ⟨1, 1⟩
/-- lanePolicy of ONX_LIGHT_POLICY (R264). -/
def onxLightPolicyLanePolicy : Fld := ⟨0, 0⟩
/-- source3 of ONX_CAL_STATUS (R268). -/
def onxCalStatusSource3 : Fld := ⟨63, 62⟩
/-- temp3 of ONX_CAL_STATUS (R268). -/
def onxCalStatusTemp3 : Fld := ⟨59, 48⟩
/-- source2 of ONX_CAL_STATUS (R268). -/
def onxCalStatusSource2 : Fld := ⟨47, 46⟩
/-- temp2 of ONX_CAL_STATUS (R268). -/
def onxCalStatusTemp2 : Fld := ⟨43, 32⟩
/-- source1 of ONX_CAL_STATUS (R268). -/
def onxCalStatusSource1 : Fld := ⟨31, 30⟩
/-- temp1 of ONX_CAL_STATUS (R268). -/
def onxCalStatusTemp1 : Fld := ⟨27, 16⟩
/-- source0 of ONX_CAL_STATUS (R268). -/
def onxCalStatusSource0 : Fld := ⟨15, 14⟩
/-- temp0 of ONX_CAL_STATUS (R268). -/
def onxCalStatusTemp0 : Fld := ⟨11, 0⟩
/-- rotations of ONX_LOCK_COUNTS (R268). -/
def onxLockCountsRotations : Fld := ⟨63, 48⟩
/-- hops of ONX_LOCK_COUNTS (R268). -/
def onxLockCountsHops : Fld := ⟨47, 32⟩
/-- reacquisitions of ONX_LOCK_COUNTS (R268). -/
def onxLockCountsReacquisitions : Fld := ⟨31, 16⟩
/-- parked of ONX_LOCK_COUNTS (R268). -/
def onxLockCountsParked : Fld := ⟨15, 0⟩
/-- ringMin of ONX_MARGIN_SUMMARY (R268). -/
def onxMarginSummaryRingMin : Fld := ⟨63, 48⟩
/-- latticeMin of ONX_MARGIN_SUMMARY (R268). -/
def onxMarginSummaryLatticeMin : Fld := ⟨47, 32⟩
/-- fibreMin of ONX_MARGIN_SUMMARY (R268). -/
def onxMarginSummaryFibreMin : Fld := ⟨31, 16⟩
/-- degraded of ONX_MARGIN_SUMMARY (R268). -/
def onxMarginSummaryDegraded : Fld := ⟨15, 8⟩
/-- failed of ONX_MARGIN_SUMMARY (R268). -/
def onxMarginSummaryFailed : Fld := ⟨7, 0⟩
/-- measured of ONX_LASER_Pf (R268). -/
def onxLaserPMeasured : Fld := ⟨47, 32⟩
/-- expected of ONX_LASER_Pf (R268). -/
def onxLaserPExpected : Fld := ⟨31, 16⟩
/-- low of ONX_LASER_Pf (R268). -/
def onxLaserPLow : Fld := ⟨1, 1⟩
/-- failed of ONX_LASER_Pf (R268). -/
def onxLaserPFailed : Fld := ⟨0, 0⟩
/-- stepTimeout of ONX_SCHED_CFG (R325). -/
def onxSchedCfgStepTimeout : Fld := ⟨63, 48⟩
/-- wRack of ONX_SCHED_CFG (R325). -/
def onxSchedCfgWRack : Fld := ⟨47, 32⟩
/-- wStep of ONX_SCHED_CFG (R325). -/
def onxSchedCfgWStep : Fld := ⟨31, 16⟩
/-- planned of ONX_SCHED_CFG (R325). -/
def onxSchedCfgPlanned : Fld := ⟨15, 0⟩
/-- steps of ONX_SCHED_STATUS (R325). -/
def onxSchedStatusSteps : Fld := ⟨63, 32⟩
/-- lateSteps of ONX_SCHED_STATUS (R325). -/
def onxSchedStatusLateSteps : Fld := ⟨31, 16⟩
/-- timeout of ONX_SCHED_STATUS (R325). -/
def onxSchedStatusTimeout : Fld := ⟨2, 2⟩
/-- holdRequested of ONX_SCHED_STATUS (R325). -/
def onxSchedStatusHoldRequested : Fld := ⟨1, 1⟩
/-- inBoundary of ONX_SCHED_STATUS (R325). -/
def onxSchedStatusInBoundary : Fld := ⟨0, 0⟩
/-- lateMax of ONX_SCHED_LATE (R325). -/
def onxSchedLateLateMax : Fld := ⟨63, 32⟩
/-- lateCarats of ONX_SCHED_LATE (R325). -/
def onxSchedLateLateCarats : Fld := ⟨31, 0⟩
/-- holdCarats of ONX_SCHED_HOLD (R325). -/
def onxSchedHoldHoldCarats : Fld := ⟨63, 32⟩
/-- dilApplied of ONX_SCHED_HOLD (R325). -/
def onxSchedHoldDilApplied : Fld := ⟨31, 24⟩
/-- dilRequested of ONX_SCHED_HOLD (R325). -/
def onxSchedHoldDilRequested : Fld := ⟨23, 16⟩
/-- hLast of ONX_SCHED_HOLD (R325). -/
def onxSchedHoldHLast : Fld := ⟨15, 0⟩
/-- base of ONX_SCHED_BASE (R325). -/
def onxSchedBaseBase : Fld := ⟨63, 0⟩
/-- arrive of ONX_SCHED_ARRIVE (R325). -/
def onxSchedArriveArrive : Fld := ⟨63, 0⟩
/-- startCause of ONX_IMG_STATUS (R417). -/
def onxImgStatusStartCause : Fld := ⟨39, 32⟩
/-- startPhase of ONX_IMG_STATUS (R417). -/
def onxImgStatusStartPhase : Fld := ⟨31, 24⟩
/-- keyIndex of ONX_IMG_STATUS (R417). -/
def onxImgStatusKeyIndex : Fld := ⟨18, 16⟩
/-- forced of ONX_IMG_STATUS (R417). -/
def onxImgStatusForced : Fld := ⟨9, 9⟩
/-- bootedBank of ONX_IMG_STATUS (R417). -/
def onxImgStatusBootedBank : Fld := ⟨8, 8⟩
/-- bankB of ONX_IMG_STATUS (R417). -/
def onxImgStatusBankB : Fld := ⟨7, 4⟩
/-- bankA of ONX_IMG_STATUS (R417). -/
def onxImgStatusBankA : Fld := ⟨3, 0⟩
/-- sequence of ONX_IMG_SEQ (R417). -/
def onxImgSeqSequence : Fld := ⟨63, 0⟩
/-- blocksWritten of ONX_UPD_STATUS (R417). -/
def onxUpdStatusBlocksWritten : Fld := ⟨63, 32⟩
/-- result of ONX_UPD_STATUS (R417). -/
def onxUpdStatusResult : Fld := ⟨7, 4⟩
/-- restartHeld of ONX_UPD_STATUS (R417). -/
def onxUpdStatusRestartHeld : Fld := ⟨1, 1⟩
/-- busy of ONX_UPD_STATUS (R417). -/
def onxUpdStatusBusy : Fld := ⟨0, 0⟩
/-- heard of ONX_JOIN_HEARD (R417). -/
def onxJoinHeardHeard : Fld := ⟨63, 0⟩
/-- carat of ONX_JOIN_CARAT (R417). -/
def onxJoinCaratCarat : Fld := ⟨52, 0⟩
/-- d of ONX_THERM (R431). -/
def onxThermD : Fld := ⟨63, 56⟩
/-- dc of ONX_THERM (R431). -/
def onxThermDc : Fld := ⟨55, 48⟩
/-- hotSource of ONX_THERM (R431). -/
def onxThermHotSource : Fld := ⟨47, 40⟩
/-- towerMax of ONX_THERM (R431). -/
def onxThermTowerMax : Fld := ⟨31, 16⟩
/-- tileMax of ONX_THERM (R431). -/
def onxThermTileMax : Fld := ⟨15, 0⟩
/-- hbmThrottle of ONX_THERM_CFG (R431). -/
def onxThermCfgHbmThrottle : Fld := ⟨23, 16⟩
/-- tileThrottle of ONX_THERM_CFG (R431). -/
def onxThermCfgTileThrottle : Fld := ⟨15, 8⟩
/-- towerThrottle of ONX_THERM_CFG (R431). -/
def onxThermCfgTowerThrottle : Fld := ⟨7, 0⟩
/-- source of ONX_THERM_TRIP (R431). -/
def onxThermTripSource : Fld := ⟨63, 56⟩
/-- reading of ONX_THERM_TRIP (R431). -/
def onxThermTripReading : Fld := ⟨47, 32⟩
/-- round of ONX_THERM_TRIP (R431). -/
def onxThermTripRound : Fld := ⟨31, 0⟩
/-- transitions of ONX_UNITu (R435). -/
def onxUnitTransitions : Fld := ⟨63, 32⟩
/-- fenced of ONX_UNITu (R435). -/
def onxUnitFenced : Fld := ⟨12, 12⟩
/-- pending of ONX_UNITu (R435). -/
def onxUnitPending : Fld := ⟨9, 8⟩
/-- state of ONX_UNITu (R435). -/
def onxUnitState : Fld := ⟨5, 4⟩
/-- request of ONX_UNITu (R435). -/
def onxUnitRequest : Fld := ⟨1, 0⟩
/-- nextSequence of ONX_LOG_STATUS (R489). -/
def onxLogStatusNextSequence : Fld := ⟨63, 32⟩
/-- lost of ONX_LOG_STATUS (R489). -/
def onxLogStatusLost : Fld := ⟨31, 16⟩
/-- writeIndex of ONX_LOG_STATUS (R489). -/
def onxLogStatusWriteIndex : Fld := ⟨13, 0⟩
/-- minPersist of ONX_LOG_CFG (R489). -/
def onxLogCfgMinPersist : Fld := ⟨2, 0⟩
/-- mode of ONX_PMC_CTRL (R441). -/
def onxPmcCtrlMode : Fld := ⟨1, 0⟩
/-- carat of ONX_PMC_START (R441). -/
def onxPmcStartCarat : Fld := ⟨52, 0⟩
/-- carat of ONX_PMC_STOP (R441). -/
def onxPmcStopCarat : Fld := ⟨52, 0⟩
/-- sequence of ONX_TELEM_STATUS (R448). -/
def onxTelemStatusSequence : Fld := ⟨63, 32⟩
/-- busy of ONX_TELEM_STATUS (R448). -/
def onxTelemStatusBusy : Fld := ⟨1, 1⟩
/-- latestHalf of ONX_TELEM_STATUS (R448). -/
def onxTelemStatusLatestHalf : Fld := ⟨0, 0⟩
/-- signed of ONX_ATT_STATUS (R450). -/
def onxAttStatusSigned : Fld := ⟨63, 32⟩
/-- refused of ONX_ATT_STATUS (R450). -/
def onxAttStatusRefused : Fld := ⟨31, 16⟩
/-- busy of ONX_ATT_STATUS (R450). -/
def onxAttStatusBusy : Fld := ⟨0, 0⟩
/-- round of ONX_HKc (R425). -/
def onxHkRound : Fld := ⟨63, 32⟩
/-- valid of ONX_HKc (R425). -/
def onxHkValid : Fld := ⟨31, 31⟩
/-- excluded of ONX_HKc (R425). -/
def onxHkExcluded : Fld := ⟨30, 30⟩
/-- value of ONX_HKc (R425). -/
def onxHkValue : Fld := ⟨15, 0⟩
/-- packageCap of FLR_CAP (R296). -/
def flrCapPackageCap : Fld := ⟨63, 32⟩
/-- tileCap of FLR_CAP (R296). -/
def flrCapTileCap : Fld := ⟨31, 0⟩
/-- mode of FLR_CLK (R296). -/
def flrClkMode : Fld := ⟨7, 7⟩
/-- ratioPending of FLR_CLK (R296). -/
def flrClkRatioPending : Fld := ⟨6, 6⟩
/-- ratioE of FLR_CLK (R296). -/
def flrClkRatioE : Fld := ⟨3, 2⟩
/-- ratioW of FLR_CLK (R296). -/
def flrClkRatioW : Fld := ⟨1, 0⟩
/-- reducedWidth of FLR_D2D_POLICY (R296). -/
def flrPolicyReducedWidth : Fld := ⟨0, 0⟩
/-- peerCap of FLR_GRPt_g (R296). -/
def flrGrpPeerCap : Fld := ⟨63, 32⟩
/-- retrains of FLR_GRPt_g (R296). -/
def flrGrpRetrains : Fld := ⟨31, 24⟩
/-- quarters of FLR_GRPt_g (R296). -/
def flrGrpQuarters : Fld := ⟨23, 20⟩
/-- sparesUsed of FLR_GRPt_g (R296). -/
def flrGrpSparesUsed : Fld := ⟨19, 16⟩
/-- width of FLR_GRPt_g (R296). -/
def flrGrpWidth : Fld := ⟨15, 14⟩
/-- failRun of FLR_GRPt_g (R296). -/
def flrGrpFailRun : Fld := ⟨9, 8⟩
/-- state of FLR_GRPt_g (R296). -/
def flrGrpState : Fld := ⟨3, 0⟩
/-- replays of FLR_GERRt_g (R296). -/
def flrGerrReplays : Fld := ⟨63, 32⟩
/-- elasticFull of FLR_GERRt_g (R296). -/
def flrGerrElasticFull : Fld := ⟨31, 0⟩
/-- tap7 of FLR_DSKt_g_d_q (q = 0-32) (R296). -/
def flrDskTap7 : Fld := ⟨61, 56⟩
/-- tap6 of FLR_DSKt_g_d_q (q = 0-32) (R296). -/
def flrDskTap6 : Fld := ⟨53, 48⟩
/-- tap5 of FLR_DSKt_g_d_q (q = 0-32) (R296). -/
def flrDskTap5 : Fld := ⟨45, 40⟩
/-- tap4 of FLR_DSKt_g_d_q (q = 0-32) (R296). -/
def flrDskTap4 : Fld := ⟨37, 32⟩
/-- tap3 of FLR_DSKt_g_d_q (q = 0-32) (R296). -/
def flrDskTap3 : Fld := ⟨29, 24⟩
/-- tap2 of FLR_DSKt_g_d_q (q = 0-32) (R296). -/
def flrDskTap2 : Fld := ⟨21, 16⟩
/-- tap1 of FLR_DSKt_g_d_q (q = 0-32) (R296). -/
def flrDskTap1 : Fld := ⟨13, 8⟩
/-- tap0 of FLR_DSKt_g_d_q (q = 0-32) (R296). -/
def flrDskTap0 : Fld := ⟨5, 0⟩
/-- tap3 of FLR_DSKt_g_d_33 (R296). -/
def flrDskCtlTap3 : Fld := ⟨29, 24⟩
/-- tap2 of FLR_DSKt_g_d_33 (R296). -/
def flrDskCtlTap2 : Fld := ⟨21, 16⟩
/-- tap1 of FLR_DSKt_g_d_33 (R296). -/
def flrDskCtlTap1 : Fld := ⟨13, 8⟩
/-- tap0 of FLR_DSKt_g_d_33 (R296). -/
def flrDskCtlTap0 : Fld := ⟨5, 0⟩
/-- syncMisses of TC_STATUS (R296). -/
def tcStatusSyncMisses : Fld := ⟨63, 48⟩
/-- todErrors of TC_STATUS (R296). -/
def tcStatusTodErrors : Fld := ⟨47, 32⟩
/-- todLost of TC_STATUS (R296). -/
def tcStatusTodLost : Fld := ⟨7, 7⟩
/-- syncLost of TC_STATUS (R296). -/
def tcStatusSyncLost : Fld := ⟨6, 6⟩
/-- refclkLost of TC_STATUS (R296). -/
def tcStatusRefclkLost : Fld := ⟨5, 5⟩
/-- holdover of TC_STATUS (R296). -/
def tcStatusHoldover : Fld := ⟨1, 1⟩
/-- locked of TC_STATUS (R296). -/
def tcStatusLocked : Fld := ⟨0, 0⟩
/-- value of TC_VALUE (R296). -/
def tcValueValue : Fld := ⟨63, 0⟩
/-- syncComp of TC_SYNC_COMP (R296). -/
def tcSyncCompSyncComp : Fld := ⟨15, 0⟩
/-- value of TC_LAST_SYNC (R296). -/
def tcLastSyncValue : Fld := ⟨63, 0⟩
/-- value of TC_HOLDOVER (R296). -/
def tcHoldoverValue : Fld := ⟨63, 0⟩
/-- fenced of RPL_FENCE (R242). -/
def rplFenceFenced : Fld := ⟨20, 0⟩
/-- rebalances of RPL_REBAL (R242). -/
def rplRebalRebalances : Fld := ⟨47, 32⟩
/-- inProgress of RPL_REBAL (R242). -/
def rplRebalInProgress : Fld := ⟨0, 0⟩
/-- width of RPL_TX_STATUSr (R242). -/
def rplTxStatusWidth : Fld := ⟨17, 16⟩
/-- wlFailed of RPL_TX_STATUSr (R242). -/
def rplTxStatusWlFailed : Fld := ⟨15, 0⟩
/-- replays of RPL_TX_ERRr (R242). -/
def rplTxErrReplays : Fld := ⟨63, 32⟩
/-- timeoutReplays of RPL_TX_ERRr (R242). -/
def rplTxErrTimeoutReplays : Fld := ⟨31, 16⟩
/-- linkFailures of RPL_TX_ERRr (R242). -/
def rplTxErrLinkFailures : Fld := ⟨15, 0⟩
/-- corrected of RPL_RX_ERRr (R242). -/
def rplRxErrCorrected : Fld := ⟨63, 32⟩
/-- uncorrectable of RPL_RX_ERRr (R242). -/
def rplRxErrUncorrectable : Fld := ⟨31, 0⟩
/-- fullTicks of RPL_RX_INGESTr (R242). -/
def rplRxIngestFullTicks : Fld := ⟨31, 0⟩
/-- applied of RPL_WGTr_t_i (R242). -/
def rplWgtApplied : Fld := ⟨47, 32⟩
/-- target of RPL_WGTr_t_i (R242). -/
def rplWgtTarget : Fld := ⟨15, 0⟩
/-- hops of RPL_MODr_t_q (R267). -/
def rplModHops : Fld := ⟨63, 56⟩
/-- reacquisitions of RPL_MODr_t_q (R267). -/
def rplModReacquisitions : Fld := ⟨55, 48⟩
/-- bias of RPL_MODr_t_q (R267). -/
def rplModBias : Fld := ⟨45, 32⟩
/-- heater of RPL_MODr_t_q (R267). -/
def rplModHeater : Fld := ⟨29, 16⟩
/-- state of RPL_MODr_t_q (R267). -/
def rplModState : Fld := ⟨3, 0⟩
/-- eyeWidth of RPL_QUALr_s_k (R267). -/
def rplQualEyeWidth : Fld := ⟨63, 54⟩
/-- eyeHeight of RPL_QUALr_s_k (R267). -/
def rplQualEyeHeight : Fld := ⟨53, 44⟩
/-- margin of RPL_QUALr_s_k (R267). -/
def rplQualMargin : Fld := ⟨43, 32⟩
/-- ser of RPL_QUALr_s_k (R267). -/
def rplQualSer : Fld := ⟨31, 0⟩
/-- hops of RPL_DROPr_t_i (R267). -/
def rplDropHops : Fld := ⟨63, 56⟩
/-- reacquisitions of RPL_DROPr_t_i (R267). -/
def rplDropReacquisitions : Fld := ⟨55, 48⟩
/-- bias of RPL_DROPr_t_i (R267). -/
def rplDropBias : Fld := ⟨45, 32⟩
/-- heater of RPL_DROPr_t_i (R267). -/
def rplDropHeater : Fld := ⟨29, 16⟩
/-- state of RPL_DROPr_t_i (R267). -/
def rplDropState : Fld := ⟨3, 0⟩
/-- queued of LPL_STATUS (R243). -/
def lplStatusQueued : Fld := ⟨36, 32⟩
/-- busy of LPL_STATUS (R243). -/
def lplStatusBusy : Fld := ⟨0, 0⟩
/-- lateRequests of LPL_COUNTS (R243). -/
def lplCountsLateRequests : Fld := ⟨63, 48⟩
/-- conflicts of LPL_COUNTS (R243). -/
def lplCountsConflicts : Fld := ⟨47, 32⟩
/-- discardedRequests of LPL_COUNTS (R243). -/
def lplCountsDiscardedRequests : Fld := ⟨31, 16⟩
/-- relockOverruns of LPL_COUNTS (R243). -/
def lplCountsRelockOverruns : Fld := ⟨15, 0⟩
/-- phase of LPL_LANEj (R243). -/
def lplLanePhase : Fld := ⟨63, 56⟩
/-- setting of LPL_LANEj (R243). -/
def lplLaneSetting : Fld := ⟨55, 48⟩
/-- state of LPL_LANEj (R243). -/
def lplLaneState : Fld := ⟨3, 0⟩
/-- wrongPhase of LPL_DISCe (R243). -/
def lplDiscWrongPhase : Fld := ⟨63, 32⟩
/-- wrongSource of LPL_DISCe (R243). -/
def lplDiscWrongSource : Fld := ⟨31, 0⟩
/-- ringFallbacks of LPL_FALLBACKe (R243). -/
def lplFallbackRingFallbacks : Fld := ⟨31, 0⟩
/-- keep3 of LPL_PHASEp_w (R243). -/
def lplPhaseKeep3 : Fld := ⟨63, 63⟩
/-- setting3 of LPL_PHASEp_w (R243). -/
def lplPhaseSetting3 : Fld := ⟨55, 48⟩
/-- keep2 of LPL_PHASEp_w (R243). -/
def lplPhaseKeep2 : Fld := ⟨47, 47⟩
/-- setting2 of LPL_PHASEp_w (R243). -/
def lplPhaseSetting2 : Fld := ⟨39, 32⟩
/-- keep1 of LPL_PHASEp_w (R243). -/
def lplPhaseKeep1 : Fld := ⟨31, 31⟩
/-- setting1 of LPL_PHASEp_w (R243). -/
def lplPhaseSetting1 : Fld := ⟨23, 16⟩
/-- keep0 of LPL_PHASEp_w (R243). -/
def lplPhaseKeep0 : Fld := ⟨15, 15⟩
/-- setting0 of LPL_PHASEp_w (R243). -/
def lplPhaseSetting0 : Fld := ⟨7, 0⟩
/-- kind of Lane setting s, kind (R227). -/
def lplSetKindKind : Fld := ⟨7, 0⟩
/-- src of Lane setting s, src_of_out 0-15 (R227). -/
def lplSetSrcSrc : Fld := ⟨63, 0⟩
/-- src of Lane setting s, src_of_out 16-19 (R227). -/
def lplSetSrc2Src : Fld := ⟨31, 0⟩
/-- theta1 of Lane setting s, mzi 2w and 2w + 1 (R227). -/
def lplSetMziTheta1 : Fld := ⟨60, 48⟩
/-- phi1 of Lane setting s, mzi 2w and 2w + 1 (R227). -/
def lplSetMziPhi1 : Fld := ⟨43, 32⟩
/-- theta0 of Lane setting s, mzi 2w and 2w + 1 (R227). -/
def lplSetMziTheta0 : Fld := ⟨28, 16⟩
/-- phi0 of Lane setting s, mzi 2w and 2w + 1 (R227). -/
def lplSetMziPhi0 : Fld := ⟨11, 0⟩
/-- eyeWidth of LPL_QUALj_e_k (R267). -/
def lplQualEyeWidth : Fld := ⟨63, 54⟩
/-- eyeHeight of LPL_QUALj_e_k (R267). -/
def lplQualEyeHeight : Fld := ⟨53, 44⟩
/-- margin of LPL_QUALj_e_k (R267). -/
def lplQualMargin : Fld := ⟨43, 32⟩
/-- ser of LPL_QUALj_e_k (R267). -/
def lplQualSer : Fld := ⟨31, 0⟩
/-- hops of LPL_MODj_e_k (R267). -/
def lplModHops : Fld := ⟨63, 56⟩
/-- reacquisitions of LPL_MODj_e_k (R267). -/
def lplModReacquisitions : Fld := ⟨55, 48⟩
/-- bias of LPL_MODj_e_k (R267). -/
def lplModBias : Fld := ⟨45, 32⟩
/-- heater of LPL_MODj_e_k (R267). -/
def lplModHeater : Fld := ⟨29, 16⟩
/-- state of LPL_MODj_e_k (R267). -/
def lplModState : Fld := ⟨3, 0⟩
/-- hops of LPL_DMXj_e_k (R267). -/
def lplDmxHops : Fld := ⟨63, 56⟩
/-- reacquisitions of LPL_DMXj_e_k (R267). -/
def lplDmxReacquisitions : Fld := ⟨55, 48⟩
/-- bias of LPL_DMXj_e_k (R267). -/
def lplDmxBias : Fld := ⟨45, 32⟩
/-- heater of LPL_DMXj_e_k (R267). -/
def lplDmxHeater : Fld := ⟨29, 16⟩
/-- state of LPL_DMXj_e_k (R267). -/
def lplDmxState : Fld := ⟨3, 0⟩
/-- txRot of LPL_ROTj_e (R267). -/
def lplRotTxRot : Fld := ⟨11, 8⟩
/-- rxRot of LPL_ROTj_e (R267). -/
def lplRotRxRot : Fld := ⟨3, 0⟩
/-- delayTarget of FIB_CTRLx (R244). -/
def fibCtrlDelayTarget : Fld := ⟨47, 32⟩
/-- farFibre of FIB_CTRLx (R244). -/
def fibCtrlFarFibre : Fld := ⟨20, 16⟩
/-- farPackage of FIB_CTRLx (R244). -/
def fibCtrlFarPackage : Fld := ⟨13, 8⟩
/-- patchedSpare of FIB_CTRLx (R244). -/
def fibCtrlPatchedSpare : Fld := ⟨1, 1⟩
/-- enable of FIB_CTRLx (R244). -/
def fibCtrlEnable : Fld := ⟨0, 0⟩
/-- measuredDelay of FIB_STATUSx (R244). -/
def fibStatusMeasuredDelay : Fld := ⟨47, 32⟩
/-- farFibreSeen of FIB_STATUSx (R244). -/
def fibStatusFarFibreSeen : Fld := ⟨20, 16⟩
/-- farPackageSeen of FIB_STATUSx (R244). -/
def fibStatusFarPackageSeen : Fld := ⟨13, 8⟩
/-- state of FIB_STATUSx (R244). -/
def fibStatusState : Fld := ⟨3, 0⟩
/-- replays of FIB_ERRx (R244). -/
def fibErrReplays : Fld := ⟨63, 32⟩
/-- uncorrectable of FIB_ERRx (R244). -/
def fibErrUncorrectable : Fld := ⟨31, 16⟩
/-- timeoutReplays of FIB_ERRx (R244). -/
def fibErrTimeoutReplays : Fld := ⟨15, 0⟩
/-- eyeWidth of FIB_QUALx_k (R267). -/
def fibQualEyeWidth : Fld := ⟨63, 54⟩
/-- eyeHeight of FIB_QUALx_k (R267). -/
def fibQualEyeHeight : Fld := ⟨53, 44⟩
/-- margin of FIB_QUALx_k (R267). -/
def fibQualMargin : Fld := ⟨43, 32⟩
/-- ser of FIB_QUALx_k (R267). -/
def fibQualSer : Fld := ⟨31, 0⟩
/-- ueLines of HBM_ECC (R387). -/
def hbmEccUeLines : Fld := ⟨63, 48⟩
/-- wbDropped of HBM_ECC (R387). -/
def hbmEccWbDropped : Fld := ⟨47, 32⟩
/-- ceLines of HBM_ECC (R387). -/
def hbmEccCeLines : Fld := ⟨31, 0⟩
/-- passes of HBM_SCRUB (R387). -/
def hbmScrubPasses : Fld := ⟨63, 48⟩
/-- position of HBM_SCRUB (R387). -/
def hbmScrubPosition : Fld := ⟨36, 0⟩
/-- merges of HBM_STATUS (R387). -/
def hbmStatusMerges : Fld := ⟨63, 32⟩
/-- temp of HBM_STATUS (R387). -/
def hbmStatusTemp : Fld := ⟨15, 8⟩
/-- fastRefresh of HBM_STATUS (R387). -/
def hbmStatusFastRefresh : Fld := ⟨1, 1⟩
/-- ready of HBM_STATUS (R387). -/
def hbmStatusReady : Fld := ⟨0, 0⟩
/-- valid of HBM_COPYe_0 (R387). -/
def hbmCopy0Valid : Fld := ⟨63, 63⟩
/-- fetching of HBM_COPYe_0 (R387). -/
def hbmCopy0Fetching : Fld := ⟨62, 62⟩
/-- size of HBM_COPYe_0 (R387). -/
def hbmCopy0Size : Fld := ⟨61, 56⟩
/-- enable of HBM_COPYe_0 (R387). -/
def hbmCopy0Enable : Fld := ⟨55, 55⟩
/-- localBase of HBM_COPYe_0 (R387). -/
def hbmCopy0LocalBase : Fld := ⟨44, 0⟩
/-- source of HBM_COPYe_1 (R387). -/
def hbmCopy1Source : Fld := ⟨50, 0⟩
/-- refetches of HBM_COPYe_2 (R387). -/
def hbmCopy2Refetches : Fld := ⟨63, 48⟩
/-- job of HBM_COPYe_2 (R387). -/
def hbmCopy2Job : Fld := ⟨9, 0⟩
/-- deadSlots of HBM_ARB_CTRLc (R346). -/
def hbmArbCtrlDeadSlots : Fld := ⟨63, 48⟩
/-- bgWaitSlots of HBM_ARB_CTRLc (R346). -/
def hbmArbCtrlBgWaitSlots : Fld := ⟨47, 32⟩
/-- waitSlots of HBM_ARB_CTRLc (R346). -/
def hbmArbCtrlWaitSlots : Fld := ⟨31, 8⟩
/-- mapPending of HBM_ARB_CTRLc (R346). -/
def hbmArbCtrlMapPending : Fld := ⟨2, 2⟩
/-- drained of HBM_ARB_CTRLc (R346). -/
def hbmArbCtrlDrained : Fld := ⟨1, 1⟩
/-- freeze of HBM_ARB_CTRLc (R346). -/
def hbmArbCtrlFreeze : Fld := ⟨0, 0⟩
/-- in7 of HBM_ARB_MAPc (R346). -/
def hbmArbMapIn7 : Fld := ⟨31, 28⟩
/-- in6 of HBM_ARB_MAPc (R346). -/
def hbmArbMapIn6 : Fld := ⟨27, 24⟩
/-- in5 of HBM_ARB_MAPc (R346). -/
def hbmArbMapIn5 : Fld := ⟨23, 20⟩
/-- in4 of HBM_ARB_MAPc (R346). -/
def hbmArbMapIn4 : Fld := ⟨19, 16⟩
/-- in3 of HBM_ARB_MAPc (R346). -/
def hbmArbMapIn3 : Fld := ⟨15, 12⟩
/-- in2 of HBM_ARB_MAPc (R346). -/
def hbmArbMapIn2 : Fld := ⟨11, 8⟩
/-- in1 of HBM_ARB_MAPc (R346). -/
def hbmArbMapIn1 : Fld := ⟨7, 4⟩
/-- in0 of HBM_ARB_MAPc (R346). -/
def hbmArbMapIn0 : Fld := ⟨3, 0⟩
/-- nextEpoch of FAB_RT_CTRL (R345). -/
def fabRtCtrlNextEpoch : Fld := ⟨63, 60⟩
/-- curEpoch of FAB_RT_CTRL (R345). -/
def fabRtCtrlCurEpoch : Fld := ⟨59, 56⟩
/-- pending of FAB_RT_CTRL (R345). -/
def fabRtCtrlPending : Fld := ⟨55, 55⟩
/-- prevLocked of FAB_RT_CTRL (R345). -/
def fabRtCtrlPrevLocked : Fld := ⟨54, 54⟩
/-- currentBank of FAB_RT_CTRL (R345). -/
def fabRtCtrlCurrentBank : Fld := ⟨53, 53⟩
/-- flipCarat of FAB_RT_CTRL (R345). -/
def fabRtCtrlFlipCarat : Fld := ⟨52, 0⟩
/-- fencedDrops of FAB_RT_STAT (R345). -/
def fabRtStatFencedDrops : Fld := ⟨63, 32⟩
/-- staleDrops of FAB_RT_STAT (R345). -/
def fabRtStatStaleDrops : Fld := ⟨31, 16⟩
/-- noRoute of FAB_RT_STAT (R345). -/
def fabRtStatNoRoute : Fld := ⟨15, 0⟩
/-- valid of FAB_RTr_b_d (R345). -/
def fabRtValid : Fld := ⟨63, 63⟩
/-- plane of FAB_RTr_b_d (R345). -/
def fabRtPlane : Fld := ⟨62, 61⟩
/-- hops of FAB_RTr_b_d (R345). -/
def fabRtHops : Fld := ⟨60, 59⟩
/-- tokens of FAB_RTr_b_d (R345). -/
def fabRtTokens : Fld := ⟨53, 36⟩
/-- deadSlots of FAB_TXARB_CTRLr (R345). -/
def fabTxArbCtrlDeadSlots : Fld := ⟨63, 48⟩
/-- bgWaitSlots of FAB_TXARB_CTRLr (R345). -/
def fabTxArbCtrlBgWaitSlots : Fld := ⟨47, 32⟩
/-- waitSlots of FAB_TXARB_CTRLr (R345). -/
def fabTxArbCtrlWaitSlots : Fld := ⟨31, 8⟩
/-- mapPending of FAB_TXARB_CTRLr (R345). -/
def fabTxArbCtrlMapPending : Fld := ⟨2, 2⟩
/-- drained of FAB_TXARB_CTRLr (R345). -/
def fabTxArbCtrlDrained : Fld := ⟨1, 1⟩
/-- freeze of FAB_TXARB_CTRLr (R345). -/
def fabTxArbCtrlFreeze : Fld := ⟨0, 0⟩
/-- in15 of FAB_TXARB_MAPr (R345). -/
def fabTxArbMapIn15 : Fld := ⟨63, 60⟩
/-- in14 of FAB_TXARB_MAPr (R345). -/
def fabTxArbMapIn14 : Fld := ⟨59, 56⟩
/-- in13 of FAB_TXARB_MAPr (R345). -/
def fabTxArbMapIn13 : Fld := ⟨55, 52⟩
/-- in12 of FAB_TXARB_MAPr (R345). -/
def fabTxArbMapIn12 : Fld := ⟨51, 48⟩
/-- in11 of FAB_TXARB_MAPr (R345). -/
def fabTxArbMapIn11 : Fld := ⟨47, 44⟩
/-- in10 of FAB_TXARB_MAPr (R345). -/
def fabTxArbMapIn10 : Fld := ⟨43, 40⟩
/-- in9 of FAB_TXARB_MAPr (R345). -/
def fabTxArbMapIn9 : Fld := ⟨39, 36⟩
/-- in8 of FAB_TXARB_MAPr (R345). -/
def fabTxArbMapIn8 : Fld := ⟨35, 32⟩
/-- in7 of FAB_TXARB_MAPr (R345). -/
def fabTxArbMapIn7 : Fld := ⟨31, 28⟩
/-- in6 of FAB_TXARB_MAPr (R345). -/
def fabTxArbMapIn6 : Fld := ⟨27, 24⟩
/-- in5 of FAB_TXARB_MAPr (R345). -/
def fabTxArbMapIn5 : Fld := ⟨23, 20⟩
/-- in4 of FAB_TXARB_MAPr (R345). -/
def fabTxArbMapIn4 : Fld := ⟨19, 16⟩
/-- in3 of FAB_TXARB_MAPr (R345). -/
def fabTxArbMapIn3 : Fld := ⟨15, 12⟩
/-- in2 of FAB_TXARB_MAPr (R345). -/
def fabTxArbMapIn2 : Fld := ⟨11, 8⟩
/-- in1 of FAB_TXARB_MAPr (R345). -/
def fabTxArbMapIn1 : Fld := ⟨7, 4⟩
/-- in0 of FAB_TXARB_MAPr (R345). -/
def fabTxArbMapIn0 : Fld := ⟨3, 0⟩
/-- g7 of FAB_GMAPt_w (R345). -/
def fabGmapG7 : Fld := ⟨61, 56⟩
/-- g6 of FAB_GMAPt_w (R345). -/
def fabGmapG6 : Fld := ⟨53, 48⟩
/-- g5 of FAB_GMAPt_w (R345). -/
def fabGmapG5 : Fld := ⟨45, 40⟩
/-- g4 of FAB_GMAPt_w (R345). -/
def fabGmapG4 : Fld := ⟨37, 32⟩
/-- g3 of FAB_GMAPt_w (R345). -/
def fabGmapG3 : Fld := ⟨29, 24⟩
/-- g2 of FAB_GMAPt_w (R345). -/
def fabGmapG2 : Fld := ⟨21, 16⟩
/-- g1 of FAB_GMAPt_w (R345). -/
def fabGmapG1 : Fld := ⟨13, 8⟩
/-- g0 of FAB_GMAPt_w (R345). -/
def fabGmapG0 : Fld := ⟨5, 0⟩
/-- rackTimeout of FAB_TIMEOUT (R386). -/
def fabTimeoutRackTimeout : Fld := ⟨63, 32⟩
/-- pkgTimeout of FAB_TIMEOUT (R386). -/
def fabTimeoutPkgTimeout : Fld := ⟨31, 0⟩
/-- incarnation of FAB_INCARNATION (R386). -/
def fabIncarnationIncarnation : Fld := ⟨31, 0⟩
/-- retries of FAB_OP_STAT (R386). -/
def fabOpStatRetries : Fld := ⟨63, 40⟩
/-- denied of FAB_OP_STAT (R386). -/
def fabOpStatDenied : Fld := ⟨39, 24⟩
/-- timeouts of FAB_OP_STAT (R386). -/
def fabOpStatTimeouts : Fld := ⟨23, 8⟩
/-- staleResponses of FAB_OP_STAT (R386). -/
def fabOpStatStaleResponses : Fld := ⟨7, 0⟩
/-- incarnation of FAB_PEER_INCp (R386). -/
def fabPeerIncIncarnation : Fld := ⟨31, 0⟩
/-- valid of FAB_JOBj_CTRL (R386). -/
def fabJobCtrlValid : Fld := ⟨63, 63⟩
/-- sources of FAB_JOBj_SRC (R386). -/
def fabJobSrcSources : Fld := ⟨63, 0⟩
/-- seed of FAB_JOBj_SEED (R386). -/
def fabJobSeedSeed : Fld := ⟨63, 0⟩
/-- valid of FAB_WINj_w_0 (R386). -/
def fabWin0Valid : Fld := ⟨63, 63⟩
/-- rd of FAB_WINj_w_0 (R386). -/
def fabWin0Rd : Fld := ⟨62, 62⟩
/-- wr of FAB_WINj_w_0 (R386). -/
def fabWin0Wr : Fld := ⟨61, 61⟩
/-- at of FAB_WINj_w_0 (R386). -/
def fabWin0At : Fld := ⟨60, 60⟩
/-- size of FAB_WINj_w_0 (R386). -/
def fabWin0Size : Fld := ⟨59, 54⟩
/-- matchBase of FAB_WINj_w_0 (R386). -/
def fabWin0MatchBase : Fld := ⟨44, 0⟩
/-- localBase of FAB_WINj_w_1 (R386). -/
def fabWin1LocalBase : Fld := ⟨44, 0⟩
/-- valid of FAB_REGi_0 (R386). -/
def fabReg0Valid : Fld := ⟨63, 63⟩
/-- size of FAB_REGi_0 (R386). -/
def fabReg0Size : Fld := ⟨62, 57⟩
/-- invBusy of FAB_REGi_0 (R386). -/
def fabReg0InvBusy : Fld := ⟨56, 56⟩
/-- base of FAB_REGi_0 (R386). -/
def fabReg0Base : Fld := ⟨44, 0⟩
/-- holders of FAB_REGi_1 (R386). -/
def fabReg1Holders : Fld := ⟨63, 0⟩
/-- tiles of FAB_REGi_TILEh (R386). -/
def fabRegTileTiles : Fld := ⟨63, 0⟩
/-- enable of FAB_EPMC_SELr_i (even i) (R443). -/
def fabEpmcSelEvenEnable : Fld := ⟨12, 12⟩
/-- event of FAB_EPMC_SELr_i (even i) (R443). -/
def fabEpmcSelEvenEvent : Fld := ⟨9, 0⟩
/-- chain of FAB_EPMC_SELr_i (odd i) (R443). -/
def fabEpmcSelOddChain : Fld := ⟨13, 13⟩
/-- enable of FAB_EPMC_SELr_i (odd i) (R443). -/
def fabEpmcSelOddEnable : Fld := ⟨12, 12⟩
/-- event of FAB_EPMC_SELr_i (odd i) (R443). -/
def fabEpmcSelOddEvent : Fld := ⟨9, 0⟩
/-- overflow of FAB_EPMCr_i (R443). -/
def fabEpmcOverflow : Fld := ⟨48, 48⟩
/-- count of FAB_EPMCr_i (R443). -/
def fabEpmcCount : Fld := ⟨47, 0⟩
/-- rxDropped of HST_STATUS (R470). -/
def hstStatusRxDropped : Fld := ⟨63, 32⟩
/-- linkUp of HST_STATUS (R470). -/
def hstStatusLinkUp : Fld := ⟨0, 0⟩
/-- mac of HST_MAC (R470). -/
def hstMacMac : Fld := ⟨47, 0⟩
/-- enable of HST_IPV4 (R470). -/
def hstIpv4Enable : Fld := ⟨32, 32⟩
/-- addr of HST_IPV4 (R470). -/
def hstIpv4Addr : Fld := ⟨31, 0⟩
/-- addr of HST_IPV6_0, HST_IPV6_1 (R470). -/
def hstIpv6Addr : Fld := ⟨63, 0⟩
/-- vlanEn of HST_PORTS (R470). -/
def hstPortsVlanEn : Fld := ⟨63, 63⟩
/-- pcp of HST_PORTS (R470). -/
def hstPortsPcp : Fld := ⟨62, 60⟩
/-- vid of HST_PORTS (R470). -/
def hstPortsVid : Fld := ⟨59, 48⟩
/-- mgmtPort of HST_PORTS (R470). -/
def hstPortsMgmtPort : Fld := ⟨47, 32⟩
/-- ingestPort of HST_PORTS (R470). -/
def hstPortsIngestPort : Fld := ⟨31, 16⟩
/-- logServer of HST_PORTS (R470). -/
def hstPortsLogServer : Fld := ⟨15, 8⟩
/-- mgmtKeys of HST_MGMT_KEYS (R470). -/
def hstMgmtKeysMgmtKeys : Fld := ⟨7, 0⟩
/-- egressTicks of HST_SHARE (R470). -/
def hstShareEgressTicks : Fld := ⟨26, 16⟩
/-- ingestTicks of HST_SHARE (R470). -/
def hstShareIngestTicks : Fld := ⟨10, 0⟩
/-- shardsLate of HST_COUNTS (R470). -/
def hstCountsShardsLate : Fld := ⟨63, 48⟩
/-- shardsAbandoned of HST_COUNTS (R470). -/
def hstCountsShardsAbandoned : Fld := ⟨47, 32⟩
/-- egressSkipped of HST_COUNTS (R470). -/
def hstCountsEgressSkipped : Fld := ⟨31, 16⟩
/-- egressAbandoned of HST_COUNTS (R470). -/
def hstCountsEgressAbandoned : Fld := ⟨15, 0⟩
/-- addr of Server entry v, IPv6 address (R457). -/
def srvIpAddr : Fld := ⟨63, 0⟩
/-- port of Server entry v, MAC and port (R457). -/
def srvMacPort : Fld := ⟨63, 48⟩
/-- mac of Server entry v, MAC and port (R457). -/
def srvMacMac : Fld := ⟨47, 0⟩
/-- ipv4 of Server entry v, flags (R457). -/
def srvFlagsIpv4 : Fld := ⟨1, 1⟩
/-- valid of Server entry v, flags (R457). -/
def srvFlagsValid : Fld := ⟨0, 0⟩
/-- core of Ingest stream s, word 0 (R458). -/
def ing0Core : Fld := ⟨63, 48⟩
/-- job of Ingest stream s, word 0 (R458). -/
def ing0Job : Fld := ⟨47, 32⟩
/-- buffers of Ingest stream s, word 0 (R458). -/
def ing0Buffers : Fld := ⟨31, 24⟩
/-- advance of Ingest stream s, word 0 (R458). -/
def ing0Advance : Fld := ⟨23, 16⟩
/-- server of Ingest stream s, word 0 (R458). -/
def ing0Server : Fld := ⟨15, 8⟩
/-- valid of Ingest stream s, word 0 (R458). -/
def ing0Valid : Fld := ⟨0, 0⟩
/-- shardBytes of Ingest stream s, word 1 (R458). -/
def ing1ShardBytes : Fld := ⟨63, 32⟩
/-- flag of Ingest stream s, word 1 (R458). -/
def ing1Flag : Fld := ⟨7, 0⟩
/-- bufferBase of Ingest stream s, buffer_base (R458). -/
def ing2BufferBase : Fld := ⟨63, 0⟩
/-- grace of Ingest stream s, window and grace (R458). -/
def ing3Grace : Fld := ⟨63, 32⟩
/-- window of Ingest stream s, window and grace (R458). -/
def ing3Window : Fld := ⟨31, 0⟩
/-- retransmit of Ingest stream s, stream_id and retransmit (R458). -/
def ing4Retransmit : Fld := ⟨63, 32⟩
/-- streamId of Ingest stream s, stream_id and retransmit (R458). -/
def ing4StreamId : Fld := ⟨31, 0⟩
/-- flag of Egress stream e, word 0 (R463). -/
def egr0Flag : Fld := ⟨55, 48⟩
/-- core of Egress stream e, word 0 (R463). -/
def egr0Core : Fld := ⟨47, 32⟩
/-- job of Egress stream e, word 0 (R463). -/
def egr0Job : Fld := ⟨31, 16⟩
/-- server of Egress stream e, word 0 (R463). -/
def egr0Server : Fld := ⟨15, 8⟩
/-- valid of Egress stream e, word 0 (R463). -/
def egr0Valid : Fld := ⟨0, 0⟩
/-- phase of Egress stream e, every and phase (R463). -/
def egr1Phase : Fld := ⟨63, 32⟩
/-- every of Egress stream e, every and phase (R463). -/
def egr1Every : Fld := ⟨31, 0⟩
/-- sourceBase of Egress stream e, source_base (R463). -/
def egr2SourceBase : Fld := ⟨63, 0⟩
/-- length of Egress stream e, length (R463). -/
def egr3Length : Fld := ⟨63, 0⟩
/-- retransmit of Egress stream e, stream_id and retransmit (R463). -/
def egr4Retransmit : Fld := ⟨63, 32⟩
/-- streamId of Egress stream e, stream_id and retransmit (R463). -/
def egr4StreamId : Fld := ⟨31, 0⟩
/-- timeout of Egress stream e, timeout (R463). -/
def egr5Timeout : Fld := ⟨31, 0⟩
/-- shard of HST_INGSTs (R470). -/
def hstIngstShard : Fld := ⟨63, 0⟩
/-- instance of HST_EGRSTe (R470). -/
def hstEgrstInstance : Fld := ⟨63, 0⟩

end F

/-! The tables, one list per window. -/

/-- Part of the register classes of the Core windows. -/
def rowsCore0 : List RegRow := [
  ⟨0x100000000, [(0x10000, 3072)], false, [⟨F.coreIdCoreId, .ro, 0⟩]⟩,
  ⟨0x100000008, [(0x10000, 3072)], false, [⟨F.coreCtrlStartPc, .rwh, 0⟩, ⟨F.coreCtrlFenced, .rwh, 0⟩, ⟨F.coreCtrlEnable, .rwh, 0⟩]⟩,
  ⟨0x100000010, [(0x10000, 3072)], false, [⟨F.coreStatusPc, .ro, 0⟩, ⟨F.coreStatusState, .ro, 0⟩]⟩,
  ⟨0x100000018, [(0x10000, 3072)], false, [⟨F.coreFaultRemoteStatus, .w1c, 0⟩, ⟨F.coreFaultMatrixRange, .w1c, 0⟩, ⟨F.coreFaultAccessDenied, .w1c, 0⟩, ⟨F.coreFaultVaultUe, .w1c, 0⟩, ⟨F.coreFaultImemUe, .w1c, 0⟩]⟩,
  ⟨0x100000020, [(0x10000, 3072)], false, [⟨F.coreLateLateMax, .rwh, 0⟩, ⟨F.coreLateLateCount, .rwh, 0⟩]⟩,
  ⟨0x100000028, [(0x10000, 3072)], false, [⟨F.coreStretchCount, .rwh, 0⟩]⟩,
  ⟨0x100000030, [(0x10000, 3072)], false, [⟨F.coreStallCount, .rwh, 0⟩]⟩,
  ⟨0x100000038, [(0x10000, 3072)], false, [⟨F.coreVaultEccWbDropped, .rwh, 0⟩, ⟨F.coreVaultEccUeCount, .rwh, 0⟩, ⟨F.coreVaultEccCeCount, .rwh, 0⟩]⟩,
  ⟨0x100000040, [(0x10000, 3072)], false, [⟨F.coreTcTc, .ro, 0⟩]⟩,
  ⟨0x100000048, [(0x10000, 3072)], false, [⟨F.coreStepStep, .rwh, 0⟩]⟩,
  ⟨0x100000050, [(0x10000, 3072)], false, [⟨F.coreSeedSeed, .rwh, 0⟩]⟩,
  ⟨0x100000058, [(0x10000, 3072)], false, [⟨F.coreJobJob, .rwh, 0⟩]⟩]
/-- Part of the register classes of the Core windows. -/
def rowsCore1 : List RegRow := [
  ⟨0x100000060, [(0x10000, 3072)], false, [⟨F.coreGovCount, .rwh, 0⟩]⟩,
  ⟨0x100000400, [(0x10000, 3072)], false, [⟨F.coreInclElemCount, .rwh, 0⟩]⟩,
  ⟨0x100000408, [(0x10000, 3072)], false, [⟨F.coreInclSatCount, .rwh, 0⟩]⟩,
  ⟨0x100000410, [(0x10000, 3072)], false, [⟨F.coreInclFlushCount, .rwh, 0⟩]⟩,
  ⟨0x100000418, [(0x10000, 3072)], false, [⟨F.coreInclPoisbCount, .rwh, 0⟩]⟩,
  ⟨0x100000420, [(0x10000, 3072)], false, [⟨F.coreInclRsvdCount, .rwh, 0⟩]⟩,
  ⟨0x100000428, [(0x10000, 3072)], false, [⟨F.coreInclPpairCount, .rwh, 0⟩]⟩,
  ⟨0x100000430, [(0x10000, 3072)], false, [⟨F.coreInclCapdropCount, .rwh, 0⟩]⟩,
  ⟨0x100000438, [(0x10000, 3072)], false, [⟨F.coreInclCapdefCount, .rwh, 0⟩]⟩,
  ⟨0x100000440, [(0x10000, 3072)], false, [⟨F.coreInclMaxmagMaxMag, .rwh, 0⟩]⟩,
  ⟨0x100000448, [(0x10000, 3072)], false, [⟨F.coreInclStatusArithFaults, .rwh, 0⟩, ⟨F.coreInclStatusResidualUsed, .rwh, 0⟩, ⟨F.coreInclStatusCounterSaturated, .rwh, 0⟩, ⟨F.coreInclStatusArithFaultSticky, .w1c, 0⟩]⟩,
  ⟨0x100000800, [(0x10000, 3072), (0x10, 4)], false, [⟨F.corePmcSelEvenEnable, .rw, 0⟩, ⟨F.corePmcSelEvenEvent, .rw, 0⟩]⟩]
/-- Part of the register classes of the Core windows. -/
def rowsCore2 : List RegRow := [
  ⟨0x100000808, [(0x10000, 3072), (0x10, 4)], false, [⟨F.corePmcSelOddChain, .rw, 0⟩, ⟨F.corePmcSelOddEnable, .rw, 0⟩, ⟨F.corePmcSelOddEvent, .rw, 0⟩]⟩,
  ⟨0x100000840, [(0x10000, 3072), (0x8, 8)], false, [⟨F.corePmcOverflow, .w1c, 0⟩, ⟨F.corePmcCount, .rw, 0⟩]⟩,
  ⟨0x100000880, [(0x10000, 3072)], false, [⟨F.coreSampleLfsr, .rw, 1⟩, ⟨F.coreSampleSkipped, .rw, 0⟩, ⟨F.coreSampleEnable, .rw, 0⟩]⟩,
  ⟨0x100001000, [(0x10000, 3072), (0x8, 32)], false, [⟨F.coreSValue, .rwh, 0⟩]⟩,
  ⟨0x100001100, [(0x10000, 3072)], false, [⟨F.corePredP, .rwh, 1⟩]⟩,
  ⟨0x100001200, [(0x10000, 3072), (0x18, 4)], false, [⟨F.coreLoopStartStart, .rwh, 0⟩]⟩,
  ⟨0x100001208, [(0x10000, 3072), (0x18, 4)], false, [⟨F.coreLoopEndEnd, .rwh, 0⟩]⟩,
  ⟨0x100001210, [(0x10000, 3072), (0x18, 4)], false, [⟨F.coreLoopCountCount, .rwh, 0⟩]⟩,
  ⟨0x100002000, [(0x10000, 3072), (0x100, 64), (0x8, 32)], false, [⟨F.coreVLanes, .rwh, 0⟩]⟩,
  ⟨0x100008000, [(0x10000, 3072), (0x4000, 2), (0x100, 64), (0x8, 32)], false, [⟨F.coreAccLanes, .rwh, 0⟩]⟩]
/-- The register classes of the Core windows. -/
def rowsCore : List RegRow := rowsCore0 ++ rowsCore1 ++ rowsCore2

/-- Part of the register classes of the Tower windows. -/
def rowsTower0 : List RegRow := [
  ⟨0x180000100, [(0x100000, 12)], false, [⟨F.twrBondGroupsFull, .ro, 0⟩, ⟨F.twrBondSparesUsed, .ro, 0⟩, ⟨F.twrBondCrcErrors, .rwh, 0⟩, ⟨F.twrBondFailed, .ro, 0⟩]⟩,
  ⟨0x180000200, [(0x100000, 12)], false, [⟨F.twrSampleCtrlDropped, .rw, 0⟩, ⟨F.twrSampleCtrlCount, .ro, 0⟩, ⟨F.twrSampleCtrlNext, .ro, 0⟩, ⟨F.twrSampleCtrlWrap, .rw, 0⟩, ⟨F.twrSampleCtrlK, .rw, 0⟩]⟩,
  ⟨0x180001000, [(0x100000, 12), (0x100, 16), (0x8, 4)], false, [⟨F.twrBarMemberMembers, .rwh, 0⟩]⟩,
  ⟨0x180001020, [(0x100000, 12), (0x100, 16)], false, [⟨F.twrBarStateArrived, .ro, 0⟩, ⟨F.twrBarStateMembers, .ro, 0⟩, ⟨F.twrBarStatePhase, .ro, 0⟩]⟩,
  ⟨0x180010000, [(0x100000, 12), (0x40, 256), (0x8, 4)], false, [⟨F.twrFlagsFlags, .rwh, 0⟩]⟩,
  ⟨0x180010020, [(0x100000, 12), (0x40, 256)], false, [⟨F.twrVarbCtrlDeadCycles, .rwh, 0⟩, ⟨F.twrVarbCtrlMapPending, .ro, 0⟩, ⟨F.twrVarbCtrlDrained, .ro, 0⟩, ⟨F.twrVarbCtrlFreeze, .rw, 0⟩]⟩,
  ⟨0x180010028, [(0x100000, 12), (0x40, 256)], false, [⟨F.twrVarbMapIn12, .rw, 12⟩, ⟨F.twrVarbMapIn11, .rw, 11⟩, ⟨F.twrVarbMapIn10, .rw, 10⟩, ⟨F.twrVarbMapIn9, .rw, 9⟩, ⟨F.twrVarbMapIn8, .rw, 8⟩, ⟨F.twrVarbMapIn7, .rw, 7⟩, ⟨F.twrVarbMapIn6, .rw, 6⟩, ⟨F.twrVarbMapIn5, .rw, 5⟩, ⟨F.twrVarbMapIn4, .rw, 4⟩, ⟨F.twrVarbMapIn3, .rw, 3⟩, ⟨F.twrVarbMapIn2, .rw, 2⟩, ⟨F.twrVarbMapIn1, .rw, 1⟩, ⟨F.twrVarbMapIn0, .rw, 0⟩]⟩,
  ⟨0x180010030, [(0x100000, 12), (0x40, 256)], false, [⟨F.twrVarbWaitReadWait, .rwh, 0⟩, ⟨F.twrVarbWaitWriteWait, .rwh, 0⟩]⟩,
  ⟨0x180020000, [(0x100000, 12), (0x8, 64)], false, [⟨F.twrGovEvents, .rwh, 0⟩, ⟨F.twrGovWindowSum, .ro, 0⟩]⟩,
  ⟨0x180030000, [(0x100000, 12), (0x40, 256), (0x10, 2)], false, [⟨F.twrRpmcSelEvenEnable, .rw, 0⟩, ⟨F.twrRpmcSelEvenEvent, .rw, 0⟩]⟩,
  ⟨0x180030008, [(0x100000, 12), (0x40, 256), (0x10, 2)], false, [⟨F.twrRpmcSelOddChain, .rw, 0⟩, ⟨F.twrRpmcSelOddEnable, .rw, 0⟩, ⟨F.twrRpmcSelOddEvent, .rw, 0⟩]⟩,
  ⟨0x180030020, [(0x100000, 12), (0x40, 256), (0x8, 4)], false, [⟨F.twrRpmcOverflow, .w1c, 0⟩, ⟨F.twrRpmcCount, .rw, 0⟩]⟩]
/-- The register classes of the Tower windows. -/
def rowsTower : List RegRow := rowsTower0

/-- Part of the register classes of the Onyx windows. -/
def rowsOnyx0 : List RegRow := [
  ⟨0x0, [], false, [⟨F.onxIdPart, .ro, 4630⟩, ⟨F.onxIdStepping, .ro, 0⟩, ⟨F.onxIdRomVersion, .ro, 0⟩, ⟨F.onxIdPatchEntries, .ro, 0⟩]⟩,
  ⟨0x8, [], false, [⟨F.onxSerialSerial, .ro, 0⟩]⟩,
  ⟨0x10, [], false, [⟨F.onxStateHaltCause, .ro, 0⟩, ⟨F.onxStateWatchdogRestarted, .ro, 0⟩, ⟨F.onxStateState, .ro, 1⟩]⟩,
  ⟨0x18, [], false, [⟨F.onxHoldCauseCauses, .ro, 0⟩]⟩,
  ⟨0x2000, [], false, [⟨F.onxVarStatusLastStep, .ro, 0⟩, ⟨F.onxVarStatusSwitches, .ro, 0⟩, ⟨F.onxVarStatusMissingRecords, .ro, 0⟩, ⟨F.onxVarStatusDigestMismatch, .w1c, 0⟩, ⟨F.onxVarStatusFaultHold, .w1c, 0⟩]⟩,
  ⟨0x2100, [(0x8, 16)], false, [⟨F.onxVarSelSel15, .rwh, 0⟩, ⟨F.onxVarSelSel14, .rwh, 0⟩, ⟨F.onxVarSelSel13, .rwh, 0⟩, ⟨F.onxVarSelSel12, .rwh, 0⟩, ⟨F.onxVarSelSel11, .rwh, 0⟩, ⟨F.onxVarSelSel10, .rwh, 0⟩, ⟨F.onxVarSelSel9, .rwh, 0⟩, ⟨F.onxVarSelSel8, .rwh, 0⟩, ⟨F.onxVarSelSel7, .rwh, 0⟩, ⟨F.onxVarSelSel6, .rwh, 0⟩, ⟨F.onxVarSelSel5, .rwh, 0⟩, ⟨F.onxVarSelSel4, .rwh, 0⟩, ⟨F.onxVarSelSel3, .rwh, 0⟩, ⟨F.onxVarSelSel2, .rwh, 0⟩, ⟨F.onxVarSelSel1, .rwh, 0⟩, ⟨F.onxVarSelSel0, .rwh, 0⟩]⟩,
  ⟨0xA000, [(0x8, 1024)], false, [⟨F.onxVarRunRun, .rwh, 0⟩]⟩,
  ⟨0x4000, [], false, [⟨F.onxLightPolicyForceCold, .rwh, 0⟩, ⟨F.onxLightPolicyNoCold, .rwh, 0⟩, ⟨F.onxLightPolicyDegradedAsFailed, .rwh, 0⟩, ⟨F.onxLightPolicyHalfWidthPolicy, .rwh, 0⟩, ⟨F.onxLightPolicyFibrePolicy, .rwh, 0⟩, ⟨F.onxLightPolicyLanePolicy, .rwh, 0⟩]⟩,
  ⟨0x4008, [], false, [⟨F.onxCalStatusSource3, .ro, 3⟩, ⟨F.onxCalStatusTemp3, .ro, 0⟩, ⟨F.onxCalStatusSource2, .ro, 3⟩, ⟨F.onxCalStatusTemp2, .ro, 0⟩, ⟨F.onxCalStatusSource1, .ro, 3⟩, ⟨F.onxCalStatusTemp1, .ro, 0⟩, ⟨F.onxCalStatusSource0, .ro, 3⟩, ⟨F.onxCalStatusTemp0, .ro, 0⟩]⟩,
  ⟨0x4010, [], false, [⟨F.onxLockCountsRotations, .rwh, 0⟩, ⟨F.onxLockCountsHops, .rwh, 0⟩, ⟨F.onxLockCountsReacquisitions, .rwh, 0⟩, ⟨F.onxLockCountsParked, .ro, 0⟩]⟩,
  ⟨0x4018, [], false, [⟨F.onxMarginSummaryRingMin, .ro, 0⟩, ⟨F.onxMarginSummaryLatticeMin, .ro, 0⟩, ⟨F.onxMarginSummaryFibreMin, .ro, 0⟩, ⟨F.onxMarginSummaryDegraded, .ro, 0⟩, ⟨F.onxMarginSummaryFailed, .ro, 0⟩]⟩,
  ⟨0x4100, [(0x8, 32)], false, [⟨F.onxLaserPMeasured, .ro, 0⟩, ⟨F.onxLaserPExpected, .ro, 0⟩, ⟨F.onxLaserPLow, .w1c, 0⟩, ⟨F.onxLaserPFailed, .ro, 0⟩]⟩]
/-- Part of the register classes of the Onyx windows. -/
def rowsOnyx1 : List RegRow := [
  ⟨0x5000, [], false, [⟨F.onxSchedCfgStepTimeout, .rwh, 0⟩, ⟨F.onxSchedCfgWRack, .rwh, 0⟩, ⟨F.onxSchedCfgWStep, .rwh, 0⟩, ⟨F.onxSchedCfgPlanned, .rwh, 0⟩]⟩,
  ⟨0x5008, [], false, [⟨F.onxSchedStatusSteps, .rwh, 0⟩, ⟨F.onxSchedStatusLateSteps, .rwh, 0⟩, ⟨F.onxSchedStatusTimeout, .w1c, 0⟩, ⟨F.onxSchedStatusHoldRequested, .ro, 0⟩, ⟨F.onxSchedStatusInBoundary, .ro, 0⟩]⟩,
  ⟨0x5010, [], false, [⟨F.onxSchedLateLateMax, .rwh, 0⟩, ⟨F.onxSchedLateLateCarats, .rwh, 0⟩]⟩,
  ⟨0x5018, [], false, [⟨F.onxSchedHoldHoldCarats, .rwh, 0⟩, ⟨F.onxSchedHoldDilApplied, .ro, 0⟩, ⟨F.onxSchedHoldDilRequested, .ro, 0⟩, ⟨F.onxSchedHoldHLast, .ro, 0⟩]⟩,
  ⟨0x5020, [], false, [⟨F.onxSchedBaseBase, .ro, 0⟩]⟩,
  ⟨0x5028, [], false, [⟨F.onxSchedArriveArrive, .ro, 0⟩]⟩,
  ⟨0x6000, [], false, [⟨F.onxImgStatusStartCause, .ro, 0⟩, ⟨F.onxImgStatusStartPhase, .ro, 0⟩, ⟨F.onxImgStatusKeyIndex, .ro, 0⟩, ⟨F.onxImgStatusForced, .ro, 0⟩, ⟨F.onxImgStatusBootedBank, .ro, 0⟩, ⟨F.onxImgStatusBankB, .ro, 0⟩, ⟨F.onxImgStatusBankA, .ro, 0⟩]⟩,
  ⟨0x6008, [], false, [⟨F.onxImgSeqSequence, .ro, 0⟩]⟩,
  ⟨0x6010, [], false, [⟨F.onxUpdStatusBlocksWritten, .ro, 0⟩, ⟨F.onxUpdStatusResult, .ro, 0⟩, ⟨F.onxUpdStatusRestartHeld, .ro, 0⟩, ⟨F.onxUpdStatusBusy, .ro, 0⟩]⟩,
  ⟨0x6018, [], false, [⟨F.onxJoinHeardHeard, .ro, 0⟩]⟩,
  ⟨0x6020, [], false, [⟨F.onxJoinCaratCarat, .ro, 0⟩]⟩,
  ⟨0x7000, [], false, [⟨F.onxThermD, .ro, 0⟩, ⟨F.onxThermDc, .ro, 0⟩, ⟨F.onxThermHotSource, .ro, 0⟩, ⟨F.onxThermTowerMax, .ro, 0⟩, ⟨F.onxThermTileMax, .ro, 0⟩]⟩]
/-- Part of the register classes of the Onyx windows. -/
def rowsOnyx2 : List RegRow := [
  ⟨0x7008, [], false, [⟨F.onxThermCfgHbmThrottle, .rwh, 90⟩, ⟨F.onxThermCfgTileThrottle, .rwh, 90⟩, ⟨F.onxThermCfgTowerThrottle, .rwh, 95⟩]⟩,
  ⟨0x7010, [], false, [⟨F.onxThermTripSource, .ro, 0⟩, ⟨F.onxThermTripReading, .ro, 0⟩, ⟨F.onxThermTripRound, .ro, 0⟩]⟩,
  ⟨0x7100, [(0x8, 36)], false, [⟨F.onxUnitTransitions, .ro, 0⟩, ⟨F.onxUnitFenced, .ro, 0⟩, ⟨F.onxUnitPending, .ro, 0⟩, ⟨F.onxUnitState, .ro, 0⟩, ⟨F.onxUnitRequest, .rwh, 0⟩]⟩,
  ⟨0x7300, [], false, [⟨F.onxLogStatusNextSequence, .ro, 0⟩, ⟨F.onxLogStatusLost, .ro, 0⟩, ⟨F.onxLogStatusWriteIndex, .ro, 0⟩]⟩,
  ⟨0x7308, [], false, [⟨F.onxLogCfgMinPersist, .rwh, 2⟩]⟩,
  ⟨0x7400, [], false, [⟨F.onxPmcCtrlMode, .rw, 0⟩]⟩,
  ⟨0x7408, [], false, [⟨F.onxPmcStartCarat, .rw, 0⟩]⟩,
  ⟨0x7410, [], false, [⟨F.onxPmcStopCarat, .rw, 0⟩]⟩,
  ⟨0x7500, [], false, [⟨F.onxTelemStatusSequence, .ro, 0⟩, ⟨F.onxTelemStatusBusy, .ro, 0⟩, ⟨F.onxTelemStatusLatestHalf, .ro, 0⟩]⟩,
  ⟨0x7600, [], false, [⟨F.onxAttStatusSigned, .ro, 0⟩, ⟨F.onxAttStatusRefused, .ro, 0⟩, ⟨F.onxAttStatusBusy, .ro, 0⟩]⟩,
  ⟨0x8000, [(0x8, 256)], false, [⟨F.onxHkRound, .ro, 0⟩, ⟨F.onxHkValid, .ro, 0⟩, ⟨F.onxHkExcluded, .ro, 0⟩, ⟨F.onxHkValue, .ro, 0⟩]⟩]
/-- The register classes of the Onyx windows. -/
def rowsOnyx : List RegRow := rowsOnyx0 ++ rowsOnyx1 ++ rowsOnyx2

/-- Part of the register classes of the Floor windows. -/
def rowsFloor0 : List RegRow := [
  ⟨0x1000000, [(0x100000, 4)], false, [⟨F.flrCapPackageCap, .ro, 0⟩, ⟨F.flrCapTileCap, .ro, 0⟩]⟩,
  ⟨0x1000008, [(0x100000, 4)], false, [⟨F.flrClkMode, .ro, 0⟩, ⟨F.flrClkRatioPending, .ro, 0⟩, ⟨F.flrClkRatioE, .rw, 0⟩, ⟨F.flrClkRatioW, .rw, 0⟩]⟩,
  ⟨0x1000010, [(0x100000, 4)], false, [⟨F.flrPolicyReducedWidth, .rwh, 0⟩]⟩,
  ⟨0x1001000, [(0x100000, 4), (0x200, 3), (0x8, 64)], false, [⟨F.flrGrpPeerCap, .ro, 0⟩, ⟨F.flrGrpRetrains, .rwh, 0⟩, ⟨F.flrGrpQuarters, .ro, 0⟩, ⟨F.flrGrpSparesUsed, .ro, 0⟩, ⟨F.flrGrpWidth, .ro, 0⟩, ⟨F.flrGrpFailRun, .ro, 0⟩, ⟨F.flrGrpState, .ro, 0⟩]⟩,
  ⟨0x1002000, [(0x100000, 4), (0x200, 3), (0x8, 64)], false, [⟨F.flrGerrReplays, .rwh, 0⟩, ⟨F.flrGerrElasticFull, .rwh, 0⟩]⟩,
  ⟨0x1040000, [(0x100000, 4), (0x10000, 3), (0x400, 64), (0x200, 2), (0x8, 33)], false, [⟨F.flrDskTap7, .rwh, 0⟩, ⟨F.flrDskTap6, .rwh, 0⟩, ⟨F.flrDskTap5, .rwh, 0⟩, ⟨F.flrDskTap4, .rwh, 0⟩, ⟨F.flrDskTap3, .rwh, 0⟩, ⟨F.flrDskTap2, .rwh, 0⟩, ⟨F.flrDskTap1, .rwh, 0⟩, ⟨F.flrDskTap0, .rwh, 0⟩]⟩,
  ⟨0x1040108, [(0x100000, 4), (0x10000, 3), (0x400, 64), (0x200, 2)], false, [⟨F.flrDskCtlTap3, .rwh, 0⟩, ⟨F.flrDskCtlTap2, .rwh, 0⟩, ⟨F.flrDskCtlTap1, .rwh, 0⟩, ⟨F.flrDskCtlTap0, .rwh, 0⟩]⟩,
  ⟨0x1080000, [(0x100000, 4)], false, [⟨F.tcStatusSyncMisses, .rwh, 0⟩, ⟨F.tcStatusTodErrors, .rwh, 0⟩, ⟨F.tcStatusTodLost, .w1c, 0⟩, ⟨F.tcStatusSyncLost, .w1c, 0⟩, ⟨F.tcStatusRefclkLost, .w1c, 0⟩, ⟨F.tcStatusHoldover, .ro, 0⟩, ⟨F.tcStatusLocked, .ro, 0⟩]⟩,
  ⟨0x1080008, [(0x100000, 4)], false, [⟨F.tcValueValue, .ro, 0⟩]⟩,
  ⟨0x1080010, [(0x100000, 4)], false, [⟨F.tcSyncCompSyncComp, .rwh, 0⟩]⟩,
  ⟨0x1080018, [(0x100000, 4)], false, [⟨F.tcLastSyncValue, .ro, 0⟩]⟩,
  ⟨0x1080020, [(0x100000, 4)], false, [⟨F.tcHoldoverValue, .ro, 0⟩]⟩]
/-- The register classes of the Floor windows. -/
def rowsFloor : List RegRow := rowsFloor0

/-- Part of the register classes of the Ring windows. -/
def rowsRing0 : List RegRow := [
  ⟨0x2000000, [(0x100000, 4)], false, [⟨F.rplFenceFenced, .ro, 0⟩]⟩,
  ⟨0x2000008, [(0x100000, 4)], false, [⟨F.rplRebalRebalances, .ro, 0⟩, ⟨F.rplRebalInProgress, .ro, 0⟩]⟩,
  ⟨0x2001000, [(0x100, 21)], true, [⟨F.rplTxStatusWidth, .ro, 0⟩, ⟨F.rplTxStatusWlFailed, .ro, 0⟩]⟩,
  ⟨0x2001008, [(0x100, 21)], true, [⟨F.rplTxErrReplays, .rwh, 0⟩, ⟨F.rplTxErrTimeoutReplays, .rwh, 0⟩, ⟨F.rplTxErrLinkFailures, .rwh, 0⟩]⟩,
  ⟨0x2001010, [(0x100, 21)], true, [⟨F.rplRxErrCorrected, .rwh, 0⟩, ⟨F.rplRxErrUncorrectable, .rwh, 0⟩]⟩,
  ⟨0x2001018, [(0x100, 21)], true, [⟨F.rplRxIngestFullTicks, .rwh, 0⟩]⟩,
  ⟨0x2010000, [(0x1000, 21), (0x200, 8), (0x8, 40)], true, [⟨F.rplWgtApplied, .ro, 0⟩, ⟨F.rplWgtTarget, .ro, 0⟩]⟩,
  ⟨0x2030000, [(0x100, 21), (0x10, 8), (0x8, 2)], true, [⟨F.rplModHops, .rwh, 0⟩, ⟨F.rplModReacquisitions, .rwh, 0⟩, ⟨F.rplModBias, .ro, 0⟩, ⟨F.rplModHeater, .ro, 0⟩, ⟨F.rplModState, .ro, 0⟩]⟩,
  ⟨0x2040000, [(0x1000, 21), (0x80, 21), (0x8, 16)], true, [⟨F.rplQualEyeWidth, .ro, 0⟩, ⟨F.rplQualEyeHeight, .ro, 0⟩, ⟨F.rplQualMargin, .ro, 0⟩, ⟨F.rplQualSer, .ro, 0⟩]⟩,
  ⟨0x2060000, [(0x1000, 21), (0x200, 8), (0x8, 40)], true, [⟨F.rplDropHops, .rwh, 0⟩, ⟨F.rplDropReacquisitions, .rwh, 0⟩, ⟨F.rplDropBias, .ro, 0⟩, ⟨F.rplDropHeater, .ro, 0⟩, ⟨F.rplDropState, .ro, 0⟩]⟩]
/-- The register classes of the Ring windows. -/
def rowsRing : List RegRow := rowsRing0

/-- Part of the register classes of the Lattice windows. -/
def rowsLattice0 : List RegRow := [
  ⟨0x3000000, [(0x100000, 4)], false, [⟨F.lplStatusQueued, .ro, 0⟩, ⟨F.lplStatusBusy, .ro, 0⟩]⟩,
  ⟨0x3000008, [(0x100000, 4)], false, [⟨F.lplCountsLateRequests, .rwh, 0⟩, ⟨F.lplCountsConflicts, .rwh, 0⟩, ⟨F.lplCountsDiscardedRequests, .rwh, 0⟩, ⟨F.lplCountsRelockOverruns, .rwh, 0⟩]⟩,
  ⟨0x3000100, [(0x100000, 4), (0x8, 8)], false, [⟨F.lplLanePhase, .ro, 0⟩, ⟨F.lplLaneSetting, .ro, 0⟩, ⟨F.lplLaneState, .ro, 0⟩]⟩,
  ⟨0x3000200, [(0x100000, 4), (0x8, 20)], false, [⟨F.lplDiscWrongPhase, .rwh, 0⟩, ⟨F.lplDiscWrongSource, .rwh, 0⟩]⟩,
  ⟨0x3000400, [(0x100000, 4), (0x8, 20)], false, [⟨F.lplFallbackRingFallbacks, .rwh, 0⟩]⟩,
  ⟨0x3010000, [(0x100000, 4), (0x10, 256), (0x8, 2)], false, [⟨F.lplPhaseKeep3, .rwh, 0⟩, ⟨F.lplPhaseSetting3, .rwh, 0⟩, ⟨F.lplPhaseKeep2, .rwh, 0⟩, ⟨F.lplPhaseSetting2, .rwh, 0⟩, ⟨F.lplPhaseKeep1, .rwh, 0⟩, ⟨F.lplPhaseSetting1, .rwh, 0⟩, ⟨F.lplPhaseKeep0, .rwh, 0⟩, ⟨F.lplPhaseSetting0, .rwh, 0⟩]⟩,
  ⟨0x3020000, [(0x100000, 4), (0x400, 256)], false, [⟨F.lplSetKindKind, .rwh, 0⟩]⟩,
  ⟨0x3020008, [(0x100000, 4), (0x400, 256), (0x8, 2)], false, [⟨F.lplSetSrcSrc, .rwh, 0⟩]⟩,
  ⟨0x3020018, [(0x100000, 4), (0x400, 256)], false, [⟨F.lplSetSrc2Src, .rwh, 0⟩]⟩,
  ⟨0x3020040, [(0x100000, 4), (0x400, 256), (0x8, 95)], false, [⟨F.lplSetMziTheta1, .rwh, 0⟩, ⟨F.lplSetMziPhi1, .rwh, 0⟩, ⟨F.lplSetMziTheta0, .rwh, 0⟩, ⟨F.lplSetMziPhi0, .rwh, 0⟩]⟩,
  ⟨0x3060000, [(0x100000, 4), (0x1000, 8), (0x80, 20), (0x8, 16)], false, [⟨F.lplQualEyeWidth, .ro, 0⟩, ⟨F.lplQualEyeHeight, .ro, 0⟩, ⟨F.lplQualMargin, .ro, 0⟩, ⟨F.lplQualSer, .ro, 0⟩]⟩,
  ⟨0x3070000, [(0x100000, 4), (0x1000, 8), (0x80, 20), (0x8, 16)], false, [⟨F.lplModHops, .rwh, 0⟩, ⟨F.lplModReacquisitions, .rwh, 0⟩, ⟨F.lplModBias, .ro, 0⟩, ⟨F.lplModHeater, .ro, 0⟩, ⟨F.lplModState, .ro, 0⟩]⟩]
/-- Part of the register classes of the Lattice windows. -/
def rowsLattice1 : List RegRow := [
  ⟨0x3080000, [(0x100000, 4), (0x1000, 8), (0x80, 20), (0x8, 16)], false, [⟨F.lplDmxHops, .rwh, 0⟩, ⟨F.lplDmxReacquisitions, .rwh, 0⟩, ⟨F.lplDmxBias, .ro, 0⟩, ⟨F.lplDmxHeater, .ro, 0⟩, ⟨F.lplDmxState, .ro, 0⟩]⟩,
  ⟨0x3090000, [(0x100000, 4), (0x100, 8), (0x8, 20)], false, [⟨F.lplRotTxRot, .ro, 0⟩, ⟨F.lplRotRxRot, .ro, 0⟩]⟩]
/-- The register classes of the Lattice windows. -/
def rowsLattice : List RegRow := rowsLattice0 ++ rowsLattice1

/-- Part of the register classes of the Fibre windows. -/
def rowsFibre0 : List RegRow := [
  ⟨0x5000100, [(0x100000, 4), (0x40, 8)], false, [⟨F.fibCtrlDelayTarget, .rwh, 0⟩, ⟨F.fibCtrlFarFibre, .rwh, 0⟩, ⟨F.fibCtrlFarPackage, .rwh, 0⟩, ⟨F.fibCtrlPatchedSpare, .rwh, 0⟩, ⟨F.fibCtrlEnable, .rwh, 0⟩]⟩,
  ⟨0x5000108, [(0x100000, 4), (0x40, 8)], false, [⟨F.fibStatusMeasuredDelay, .ro, 0⟩, ⟨F.fibStatusFarFibreSeen, .ro, 0⟩, ⟨F.fibStatusFarPackageSeen, .ro, 0⟩, ⟨F.fibStatusState, .ro, 0⟩]⟩,
  ⟨0x5000110, [(0x100000, 4), (0x40, 8)], false, [⟨F.fibErrReplays, .rwh, 0⟩, ⟨F.fibErrUncorrectable, .rwh, 0⟩, ⟨F.fibErrTimeoutReplays, .rwh, 0⟩]⟩,
  ⟨0x5001000, [(0x100000, 4), (0x80, 8), (0x8, 16)], false, [⟨F.fibQualEyeWidth, .ro, 0⟩, ⟨F.fibQualEyeHeight, .ro, 0⟩, ⟨F.fibQualMargin, .ro, 0⟩, ⟨F.fibQualSer, .ro, 0⟩]⟩]
/-- The register classes of the Fibre windows. -/
def rowsFibre : List RegRow := rowsFibre0

/-- Part of the register classes of the Hbm windows. -/
def rowsHbm0 : List RegRow := [
  ⟨0x4000000, [(0x10000, 16)], false, [⟨F.hbmEccUeLines, .rwh, 0⟩, ⟨F.hbmEccWbDropped, .rwh, 0⟩, ⟨F.hbmEccCeLines, .rwh, 0⟩]⟩,
  ⟨0x4000008, [(0x10000, 16)], false, [⟨F.hbmScrubPasses, .ro, 0⟩, ⟨F.hbmScrubPosition, .ro, 0⟩]⟩,
  ⟨0x4000010, [(0x10000, 16)], false, [⟨F.hbmStatusMerges, .ro, 0⟩, ⟨F.hbmStatusTemp, .ro, 0⟩, ⟨F.hbmStatusFastRefresh, .ro, 0⟩, ⟨F.hbmStatusReady, .ro, 0⟩]⟩,
  ⟨0x4004000, [(0x10000, 16), (0x20, 256)], false, [⟨F.hbmCopy0Valid, .ro, 0⟩, ⟨F.hbmCopy0Fetching, .ro, 0⟩, ⟨F.hbmCopy0Size, .rwh, 0⟩, ⟨F.hbmCopy0Enable, .rwh, 0⟩, ⟨F.hbmCopy0LocalBase, .rwh, 0⟩]⟩,
  ⟨0x4004008, [(0x10000, 16), (0x20, 256)], false, [⟨F.hbmCopy1Source, .rwh, 0⟩]⟩,
  ⟨0x4004010, [(0x10000, 16), (0x20, 256)], false, [⟨F.hbmCopy2Refetches, .rwh, 0⟩, ⟨F.hbmCopy2Job, .rwh, 0⟩]⟩,
  ⟨0x4008000, [(0x10000, 16), (0x10, 32)], false, [⟨F.hbmArbCtrlDeadSlots, .rwh, 0⟩, ⟨F.hbmArbCtrlBgWaitSlots, .rwh, 0⟩, ⟨F.hbmArbCtrlWaitSlots, .rwh, 0⟩, ⟨F.hbmArbCtrlMapPending, .ro, 0⟩, ⟨F.hbmArbCtrlDrained, .ro, 0⟩, ⟨F.hbmArbCtrlFreeze, .rw, 0⟩]⟩,
  ⟨0x4008008, [(0x10000, 16), (0x10, 32)], false, [⟨F.hbmArbMapIn7, .rw, 7⟩, ⟨F.hbmArbMapIn6, .rw, 6⟩, ⟨F.hbmArbMapIn5, .rw, 5⟩, ⟨F.hbmArbMapIn4, .rw, 4⟩, ⟨F.hbmArbMapIn3, .rw, 3⟩, ⟨F.hbmArbMapIn2, .rw, 2⟩, ⟨F.hbmArbMapIn1, .rw, 1⟩, ⟨F.hbmArbMapIn0, .rw, 0⟩]⟩]
/-- The register classes of the Hbm windows. -/
def rowsHbm : List RegRow := rowsHbm0

/-- Part of the register classes of the Fabric windows. -/
def rowsFabric0 : List RegRow := [
  ⟨0x7000000, [], false, [⟨F.fabRtCtrlNextEpoch, .rw, 0⟩, ⟨F.fabRtCtrlCurEpoch, .ro, 0⟩, ⟨F.fabRtCtrlPending, .ro, 0⟩, ⟨F.fabRtCtrlPrevLocked, .ro, 0⟩, ⟨F.fabRtCtrlCurrentBank, .ro, 0⟩, ⟨F.fabRtCtrlFlipCarat, .rw, 0⟩]⟩,
  ⟨0x7000008, [], false, [⟨F.fabRtStatFencedDrops, .rwh, 0⟩, ⟨F.fabRtStatStaleDrops, .rwh, 0⟩, ⟨F.fabRtStatNoRoute, .rwh, 0⟩]⟩,
  ⟨0x7010000, [(0x10000, 21), (0x200, 2), (0x8, 64)], false, [⟨F.fabRtValid, .rw, 0⟩, ⟨F.fabRtPlane, .rw, 0⟩, ⟨F.fabRtHops, .rw, 0⟩, ⟨F.fabRtTokens, .rw, 0⟩]⟩,
  ⟨0x7010800, [(0x10000, 21)], false, [⟨F.fabTxArbCtrlDeadSlots, .rwh, 0⟩, ⟨F.fabTxArbCtrlBgWaitSlots, .rwh, 0⟩, ⟨F.fabTxArbCtrlWaitSlots, .rwh, 0⟩, ⟨F.fabTxArbCtrlMapPending, .ro, 0⟩, ⟨F.fabTxArbCtrlDrained, .ro, 0⟩, ⟨F.fabTxArbCtrlFreeze, .rw, 0⟩]⟩,
  ⟨0x7010808, [(0x10000, 21)], false, [⟨F.fabTxArbMapIn15, .rw, 15⟩, ⟨F.fabTxArbMapIn14, .rw, 14⟩, ⟨F.fabTxArbMapIn13, .rw, 13⟩, ⟨F.fabTxArbMapIn12, .rw, 12⟩, ⟨F.fabTxArbMapIn11, .rw, 11⟩, ⟨F.fabTxArbMapIn10, .rw, 10⟩, ⟨F.fabTxArbMapIn9, .rw, 9⟩, ⟨F.fabTxArbMapIn8, .rw, 8⟩, ⟨F.fabTxArbMapIn7, .rw, 7⟩, ⟨F.fabTxArbMapIn6, .rw, 6⟩, ⟨F.fabTxArbMapIn5, .rw, 5⟩, ⟨F.fabTxArbMapIn4, .rw, 4⟩, ⟨F.fabTxArbMapIn3, .rw, 3⟩, ⟨F.fabTxArbMapIn2, .rw, 2⟩, ⟨F.fabTxArbMapIn1, .rw, 1⟩, ⟨F.fabTxArbMapIn0, .rw, 0⟩]⟩,
  ⟨0x7180000, [(0x100, 12), (0x8, 8)], false, [⟨F.fabGmapG7, .ro, 0⟩, ⟨F.fabGmapG6, .ro, 0⟩, ⟨F.fabGmapG5, .ro, 0⟩, ⟨F.fabGmapG4, .ro, 0⟩, ⟨F.fabGmapG3, .ro, 0⟩, ⟨F.fabGmapG2, .ro, 0⟩, ⟨F.fabGmapG1, .ro, 0⟩, ⟨F.fabGmapG0, .ro, 0⟩]⟩,
  ⟨0x7200000, [], false, [⟨F.fabTimeoutRackTimeout, .rwh, 100000⟩, ⟨F.fabTimeoutPkgTimeout, .rwh, 10000⟩]⟩,
  ⟨0x7200008, [], false, [⟨F.fabIncarnationIncarnation, .ro, 0⟩]⟩,
  ⟨0x7200010, [], false, [⟨F.fabOpStatRetries, .rwh, 0⟩, ⟨F.fabOpStatDenied, .rwh, 0⟩, ⟨F.fabOpStatTimeouts, .rwh, 0⟩, ⟨F.fabOpStatStaleResponses, .rwh, 0⟩]⟩,
  ⟨0x7200100, [(0x8, 64)], false, [⟨F.fabPeerIncIncarnation, .ro, 0⟩]⟩,
  ⟨0x7300000, [(0x20, 1024)], false, [⟨F.fabJobCtrlValid, .rwh, 0⟩]⟩,
  ⟨0x7300008, [(0x20, 1024)], false, [⟨F.fabJobSrcSources, .rwh, 0⟩]⟩]
/-- Part of the register classes of the Fabric windows. -/
def rowsFabric1 : List RegRow := [
  ⟨0x7300010, [(0x20, 1024)], false, [⟨F.fabJobSeedSeed, .rwh, 0⟩]⟩,
  ⟨0x7400000, [(0x400, 1024), (0x10, 64)], false, [⟨F.fabWin0Valid, .rwh, 0⟩, ⟨F.fabWin0Rd, .rwh, 0⟩, ⟨F.fabWin0Wr, .rwh, 0⟩, ⟨F.fabWin0At, .rwh, 0⟩, ⟨F.fabWin0Size, .rwh, 0⟩, ⟨F.fabWin0MatchBase, .rwh, 0⟩]⟩,
  ⟨0x7400008, [(0x400, 1024), (0x10, 64)], false, [⟨F.fabWin1LocalBase, .rwh, 0⟩]⟩,
  ⟨0x7600000, [(0x20, 4096)], false, [⟨F.fabReg0Valid, .rwh, 0⟩, ⟨F.fabReg0Size, .rwh, 0⟩, ⟨F.fabReg0InvBusy, .ro, 0⟩, ⟨F.fabReg0Base, .rwh, 0⟩]⟩,
  ⟨0x7600008, [(0x20, 4096)], false, [⟨F.fabReg1Holders, .ro, 0⟩]⟩,
  ⟨0x7600010, [(0x20, 4096), (0x8, 2)], false, [⟨F.fabRegTileTiles, .ro, 0⟩]⟩,
  ⟨0x7700000, [(0x200, 21), (0x10, 8)], false, [⟨F.fabEpmcSelEvenEnable, .rw, 0⟩, ⟨F.fabEpmcSelEvenEvent, .rw, 0⟩]⟩,
  ⟨0x7700008, [(0x200, 21), (0x10, 8)], false, [⟨F.fabEpmcSelOddChain, .rw, 0⟩, ⟨F.fabEpmcSelOddEnable, .rw, 0⟩, ⟨F.fabEpmcSelOddEvent, .rw, 0⟩]⟩,
  ⟨0x7700080, [(0x200, 21), (0x8, 16)], false, [⟨F.fabEpmcOverflow, .w1c, 0⟩, ⟨F.fabEpmcCount, .rw, 0⟩]⟩]
/-- The register classes of the Fabric windows. -/
def rowsFabric : List RegRow := rowsFabric0 ++ rowsFabric1

/-- Part of the register classes of the Host windows. -/
def rowsHost0 : List RegRow := [
  ⟨0x6000000, [], false, [⟨F.hstStatusRxDropped, .rwh, 0⟩, ⟨F.hstStatusLinkUp, .ro, 0⟩]⟩,
  ⟨0x6000008, [], false, [⟨F.hstMacMac, .rwh, 0⟩]⟩,
  ⟨0x6000010, [], false, [⟨F.hstIpv4Enable, .rwh, 0⟩, ⟨F.hstIpv4Addr, .rwh, 0⟩]⟩,
  ⟨0x6000018, [(0x8, 2)], false, [⟨F.hstIpv6Addr, .rwh, 0⟩]⟩,
  ⟨0x6000028, [], false, [⟨F.hstPortsVlanEn, .rwh, 0⟩, ⟨F.hstPortsPcp, .rwh, 0⟩, ⟨F.hstPortsVid, .rwh, 0⟩, ⟨F.hstPortsMgmtPort, .rwh, 51215⟩, ⟨F.hstPortsIngestPort, .rwh, 51216⟩, ⟨F.hstPortsLogServer, .rwh, 255⟩]⟩,
  ⟨0x6000030, [], false, [⟨F.hstMgmtKeysMgmtKeys, .rwh, 255⟩]⟩,
  ⟨0x6000038, [], false, [⟨F.hstShareEgressTicks, .rwh, 0⟩, ⟨F.hstShareIngestTicks, .rwh, 0⟩]⟩,
  ⟨0x6000040, [], false, [⟨F.hstCountsShardsLate, .rwh, 0⟩, ⟨F.hstCountsShardsAbandoned, .rwh, 0⟩, ⟨F.hstCountsEgressSkipped, .rwh, 0⟩, ⟨F.hstCountsEgressAbandoned, .rwh, 0⟩]⟩,
  ⟨0x6001000, [(0x40, 64), (0x8, 2)], false, [⟨F.srvIpAddr, .rwh, 0⟩]⟩,
  ⟨0x6001010, [(0x40, 64)], false, [⟨F.srvMacPort, .rwh, 0⟩, ⟨F.srvMacMac, .rwh, 0⟩]⟩,
  ⟨0x6001018, [(0x40, 64)], false, [⟨F.srvFlagsIpv4, .rwh, 0⟩, ⟨F.srvFlagsValid, .rwh, 0⟩]⟩,
  ⟨0x6002000, [(0x40, 256)], false, [⟨F.ing0Core, .rwh, 0⟩, ⟨F.ing0Job, .rwh, 0⟩, ⟨F.ing0Buffers, .rwh, 0⟩, ⟨F.ing0Advance, .rwh, 0⟩, ⟨F.ing0Server, .rwh, 0⟩, ⟨F.ing0Valid, .rwh, 0⟩]⟩]
/-- Part of the register classes of the Host windows. -/
def rowsHost1 : List RegRow := [
  ⟨0x6002008, [(0x40, 256)], false, [⟨F.ing1ShardBytes, .rwh, 0⟩, ⟨F.ing1Flag, .rwh, 0⟩]⟩,
  ⟨0x6002010, [(0x40, 256)], false, [⟨F.ing2BufferBase, .rwh, 0⟩]⟩,
  ⟨0x6002018, [(0x40, 256)], false, [⟨F.ing3Grace, .rwh, 0⟩, ⟨F.ing3Window, .rwh, 0⟩]⟩,
  ⟨0x6002020, [(0x40, 256)], false, [⟨F.ing4Retransmit, .rwh, 0⟩, ⟨F.ing4StreamId, .rwh, 0⟩]⟩,
  ⟨0x6006000, [(0x40, 64)], false, [⟨F.egr0Flag, .rwh, 0⟩, ⟨F.egr0Core, .rwh, 0⟩, ⟨F.egr0Job, .rwh, 0⟩, ⟨F.egr0Server, .rwh, 0⟩, ⟨F.egr0Valid, .rwh, 0⟩]⟩,
  ⟨0x6006008, [(0x40, 64)], false, [⟨F.egr1Phase, .rwh, 0⟩, ⟨F.egr1Every, .rwh, 0⟩]⟩,
  ⟨0x6006010, [(0x40, 64)], false, [⟨F.egr2SourceBase, .rwh, 0⟩]⟩,
  ⟨0x6006018, [(0x40, 64)], false, [⟨F.egr3Length, .rwh, 0⟩]⟩,
  ⟨0x6006020, [(0x40, 64)], false, [⟨F.egr4Retransmit, .rwh, 0⟩, ⟨F.egr4StreamId, .rwh, 0⟩]⟩,
  ⟨0x6006028, [(0x40, 64)], false, [⟨F.egr5Timeout, .rwh, 0⟩]⟩,
  ⟨0x6007000, [(0x8, 256)], false, [⟨F.hstIngstShard, .ro, 0⟩]⟩,
  ⟨0x6007800, [(0x8, 64)], false, [⟨F.hstEgrstInstance, .ro, 0⟩]⟩]
/-- The register classes of the Host windows. -/
def rowsHost : List RegRow := rowsHost0 ++ rowsHost1

/-- The register classes whose reset value is not 0, with that value. -/
def resetRows : List (RegRow × Word) := [
  (⟨0x100000880, [(0x10000, 3072)], false, []⟩, 0x100000000#64),
  (⟨0x100001100, [(0x10000, 3072)], false, []⟩, 0x1#64),
  (⟨0x180010028, [(0x100000, 12), (0x40, 256)], false, []⟩, 0xCBA9876543210#64),
  (⟨0x0, [], false, []⟩, 0x1216000000000000#64),
  (⟨0x10, [], false, []⟩, 0x1#64),
  (⟨0x4008, [], false, []⟩, 0xC000C000C000C000#64),
  (⟨0x7008, [], false, []⟩, 0x5A5A5F#64),
  (⟨0x7308, [], false, []⟩, 0x2#64),
  (⟨0x4008008, [(0x10000, 16), (0x10, 32)], false, []⟩, 0x76543210#64),
  (⟨0x7010808, [(0x10000, 21)], false, []⟩, 0xFEDCBA9876543210#64),
  (⟨0x7200000, [], false, []⟩, 0x186A000002710#64),
  (⟨0x6000028, [], false, []⟩, 0xC80FC810FF00#64),
  (⟨0x6000030, [], false, []⟩, 0xFF#64)]

/-- The indices that an offset spells under nested (stride, count) pairs, if it spells any. -/
def spell : List (Nat × Nat) → Nat → Option (List Nat)
  | [], off => if off = 0 then some [] else none
  | (s, n) :: r, off => if off / s < n then (spell r (off % s)).map (off / s :: ·) else none

/-- The indices of an address in a register class, if it lies there. -/
def RegRow.find (row : RegRow) (a : Nat) : Option (List Nat) :=
  if a < row.base then none
  else if row.ring then
    let tile := (a - row.base) / 0x100000
    match spell row.dims ((a - row.base) % 0x100000) with
    | some (r :: ix) => if ringTile r = tile then some (r :: ix) else none
    | _ => none
  else spell row.dims (a - row.base)

/-- The window of an address, as its register classes; none outside every window (R487). -/
def windowRows (a : Nat) : Option (List RegRow) :=
  if a < 0x1000000 then some rowsOnyx
  else if a < 0x1400000 then some rowsFloor
  else if a < 0x2000000 then none
  else if a < 0x2400000 then some rowsRing
  else if a < 0x3000000 then none
  else if a < 0x3400000 then some rowsLattice
  else if a < 0x4000000 then none
  else if a < 0x4100000 then some rowsHbm
  else if a < 0x5000000 then none
  else if a < 0x5400000 then some rowsFibre
  else if a < 0x6000000 then none
  else if a < 0x6010000 then some rowsHost
  else if a < 0x7000000 then none
  else if a < 0x7800000 then some rowsFabric
  else if a < 0x100000000 then none
  else if a < 0x10C000000 then some rowsCore
  else if a < 0x180000000 then none
  else if a < 0x180C00000 then some rowsTower
  else none

/-- The first class of a list that holds an address, with the address's indices. -/
def findRow (a : Nat) : List RegRow → Option (RegRow × List Nat)
  | [] => none
  | r :: rs => match r.find a with
    | some ix => some (r, ix)
    | none => findRow a rs

/-- The fields of the register at an address; none where its window lists no register there. -/
def fieldsAt (a : Nat) : List FieldRow :=
  match windowRows a with
  | none => []
  | some rows => match findRow a rows with
    | some (r, _) => r.fields
    | none => []

/-- The reset value of the register at an address (the tables' Reset columns; group maps: R335). -/
def resetWord (a : Nat) : Word :=
  if 0x7180000 ≤ a ∧ a < 0x7180C00 then
    let w := (a - 0x7180000) % 0x100 / 8
    if (a - 0x7180000) % 0x100 < 64 then BitVec.ofNat 64 (natOf ((List.range 8).map fun i => BitVec.ofNat 8 (8 * w + i))) else 0
  else match resetRows.find? fun e => (e.1.find a).isSome with
    | some e => e.2
    | none => 0

end Sys2Proof.Machine
end

