-- ==== Sys2Proof/Machine/Parts.lean ====
section
/-! DEFINITION. The records of which the state is made, beside the configuration registers: what a core, a tower, a link, a controller
or Onyx holds that no register of the configuration space shows. -/

namespace Sys2Proof.Machine

/-- A set of inclusion counts: a report of one instruction, or the held set of R73. -/
structure Incl where
  elem : Nat := 0
  sat : Nat := 0
  flush : Nat := 0
  poisb : Nat := 0
  rsvd : Nat := 0
  ppair : Nat := 0
  capDrop : Nat := 0
  capDef : Nat := 0
  maxMag : Nat := 0
  faults : Nat := 0
  residual : Bool := false
  saturated : Bool := false
deriving DecidableEq, Repr, Inhabited

/-- One checked column of an MMAC (R78, R79). -/
structure Column where
  got : Contrib := .val 0 0
  ref : Contrib := .val 0 0
  mag : Contrib := .val 0 0
  skip : Bool := false
deriving DecidableEq, Repr, Inhabited

/-- What an error-feedback quantize does once its residual is read (R75, R164), with its operands as captured at issue. -/
structure Quant where
  fmt : Nat := 0
  vs : List Nat := []
  q : Nat := 0
  blocks : Nat := 0
  dst : Nat := 0
  data : Nat := 0
  scale : Nat := 0
  base : Nat := 0
  ef : Bool := false
  draw : Option (Word × Nat × Nat) := none
  index : Nat := 0
deriving DecidableEq, Repr, Inhabited

/-- An access that waits at a frozen vault port (R192): a scalar, vector or dequantizing load, an error-feedback quantize, a write, a worm that
exits at the vault port, a fabric request at an endpoint. -/
inductive Access where
  | sld (r off : Nat)
  | vld (v off : Nat)
  | vdq (v fmt tscale data scale : Nat)
  | quant (q : Quant)
  | write (pri off : Nat) (data : List Byte) (poisoned : List Nat)
  | worm (w : Worm)
  | packet (r : Nat) (p : Packet)
deriving DecidableEq, Repr, Inhabited

/-- A write on its way to its place (R98, R133): registers, vault bytes, buffer bytes, accumulator rows and folds, reports. -/
inductive Eff where
  | setS (r : Nat) (v : Word)
  | setP (p : Nat) (v : Bool)
  | setV (r : Nat) (lanes : List Nat)
  | vault (off : Nat) (data : List Byte) (poisoned : List Nat)
  | buffer (half off : Nat) (data : List Byte) (poisoned : List Nat)
  | accRow (acc m : Nat) (lanes : List Nat)
  | accClear (acc : Nat)
  | fold (acc m : Nat) (row : List Contrib)
  | report (gen : Nat) (r : Incl)
  | check (pd gen : Nat) (cols : List Column) (alpha beta : Nat)
  | form (tid due : Nat) (on : Bool)
deriving DecidableEq, Repr, Inhabited

/-- A write and the first cycle in which it is seen; of writes seen from one cycle, the higher slot's lands last (R133). -/
structure Landing where
  due : Nat
  pri : Nat
  eff : Eff
deriving DecidableEq, Repr, Inhabited

/-- The matrix-array instruction in the array (R106), with the next array cycle to read. -/
structure ArrayOp where
  cyc : Nat := 0
  fa : Elem := .f4
  fb : Elem := .f4
  acc : Nat := 0
  init : Bool := false
  aHalf : Nat := 2
  aOff : Nat := 0
  bHalf : Nat := 4
  blocks : Nat := 0
  rows : Nat := 4
  enabled : Bool := true
  next : Nat := 0
  gen : Nat := 0
  check : Option (Nat × Nat × Nat) := none
  cols : List Column := []
  ppair : Nat := 0
  rsvd : Nat := 0
deriving DecidableEq, Repr, Inhabited

/-- What the column governor delays (R203), with the cycle in which it became due: a matrix-array instruction given as a command of its
own, or (none) the bundle at the sequencer's next index. -/
structure Governed where
  due : Nat := 0
  instr : Option Instr := none
deriving DecidableEq, Repr, Inhabited

/-- Why the next bundle is held (R97, R128); WAITSE and FENCE keep what each engine had issued before them (R488). -/
inductive Wait where
  | none
  | time (target : Word) (entry : Bool)
  | engines (mask n : Nat) (issued : List Nat)
  | barrier (id phase : Nat)
  | flag (f : Nat) (clr : Bool)
  | fence (issued : List Nat)
  | step
  | governor
deriving DecidableEq, Repr, Inhabited

/-- What a stream descriptor does, with its operands as captured at issue (R166 to R172). -/
inductive Act where
  | scopy (dk pl dst src rows dstStride rowBytes srcStride : Nat)
  | stile (half off fmt data scale pitch blocks pl : Nat)
  | sflag (pkg core flag : Nat)
  | satom (op : Nat) (w : Bool) (addr sd : Nat) (x y : Word)
  | sinv (addr : Nat)
  | smcast (src len dst record pkgs towers : Nat)
  | recst (addr due : Nat)
  | recmg (dst a b : Nat)
deriving DecidableEq, Repr, Inhabited

/-- One row that a descriptor moves: from a stream address to a stream address (`half` 0) or a place in a buffer half or register; of its `len`
bytes the first `keep` land. -/
structure Row where
  src : Nat := 0
  dst : Nat := 0
  len : Nat := 0
  half : Nat := 0
  keep : Nat := 0
deriving DecidableEq, Repr, Inhabited

/-- One copy that a descriptor's run makes: bytes from a stream address or buffer place to another; `due` is the tick at which the fixed latency of
its path completes an operation of a descriptor that is not enabled (R173). -/
structure Piece where
  src : Nat := 0
  dst : Nat := 0
  len : Nat := 0
  dstHalf : Nat := 0
  remote : Bool := false
  store : Bool := false
  index : Nat := 0
  data : List Byte := []
  poisoned : List Nat := []
  due : Nat := 0
deriving DecidableEq, Repr, Inhabited

/-- A run of a descriptor's rows (R167): rows inside the tower, or the remote operations of rows that leave it, whose `due` counts from its start. -/
inductive Run where
  | near (rows : List Row)
  | far (pieces : List Piece)
deriving DecidableEq, Repr, Inhabited

/-- A descriptor of a stream engine. -/
structure Desc where
  act : Act := .sinv 0
  enabled : Bool := true
  seq : Nat := 0
  issueCyc : Nat := 0
  issueTick : Nat := 0
deriving DecidableEq, Repr, Inhabited

/-- How far the descriptor at the head of an engine has come (R168, R120). -/
inductive Stage where
  | queued
  | local_ (due : Nat)
  | remote (dueTick : Nat)
  | refused (due : Nat)
deriving DecidableEq, Repr, Inhabited

/-- A stream engine (R119, R174): its descriptors, the head's progress, its counts and its status word, the sequence numbers mod 128 of
transfers whose worm was discarded (R185), the runs still to start with the cycle from which the waiting operations may go (R167), and of the last
completion its cycle plus one, its descriptor and the status word before it (R10). -/
structure Engine where
  queue : List Desc := []
  stage : Stage := .queued
  pieces : List Piece := []
  waiting : List Piece := []
  inFlight : Nat := 0
  statuses : List Status := []
  issued : Nat := 0
  completed : Nat := 0
  freeAt : Nat := 0
  firstSeq : Nat := 0
  bad : Nat := 0
  firstStatus : Nat := 0
  lastStatus : Nat := 0
  lost : List Nat := []
  plan : List Run := []
  from_ : Nat := 0
  endCyc : Nat := 0
  endSeq : Nat := 0
  before : List Nat := []
deriving DecidableEq, Repr, Inhabited

/-- A sampled bundle in flight (R444, R445). -/
structure Sample where
  cyc : Nat := 0
  tc : Word := 0
  pc : Nat := 0
  bundle : Nat := 0
  held : Nat := 0
  stages : List (Option Nat) := []
  need : List Bool := []
  waits : Bool := false
  desc : Option (Nat × Nat) := none
deriving DecidableEq, Repr, Inhabited

/-- An operation of a descriptor that was not enabled, from the completion of its tag's time to its acknowledgement (R173, R309). -/
structure Ack where
  engine : Nat := 0
  seq : Nat := 0
  issue : Nat := 0
  store : Bool := false
  until_ : Nat := 0
deriving DecidableEq, Repr, Inhabited

/-- A set of a flag that has reached the flag network of its target (R199): arrival cycle, source core, flag, and the response that a flag
packet is answered with once it is set, with the endpoint that sends it (R368). -/
structure FlagSet where
  at_ : Nat := 0
  src : Nat := 0
  flag : Nat := 0
  answer : Option (Nat × Packet) := none
deriving DecidableEq, Repr, Inhabited

/-- What a core holds beside its configuration window. Among it: the cycle after that of the last landed set (`flagAt`, R199), the first cycle whose
write port the write-back queue has not used (`wbAt`, R117), and the accesses that wait at its frozen vault (R192). -/
structure Core where
  npc : Nat := 0
  ready : Nat := 0
  wait : Wait := .none
  halted : Bool := false
  stepped : Bool := false
  landing : List Landing := []
  array : Option ArrayOp := none
  arrayFree : Nat := 0
  governed : Option Governed := none
  heldBy : Nat := 0
  gen : Nat := 0
  formed : Nat := 0
  recordDue : Option Nat := none
  lastReport : Nat := 0
  records : List (Nat × List Byte) := []
  held : Incl := {}
  faultedStep : Bool := false
  flagsIn : List FlagSet := []
  clears : List (Nat × Nat) := []
  arrivals : List (Nat × Nat) := []
  wbq : List Nat := []
  sample : Option Sample := none
  stopped : Bool := false
  fsets : List Nat := []
  waitFrom : Nat := 0
  bundle : Option Nat := none
  seen : Nat := 0
  acks : List Ack := []
  flagAt : Nat := 0
  wbAt : Nat := 0
  waiting : List Access := []
deriving DecidableEq, Repr, Inhabited

/-- A barrier tree of a tower (R196 to R198): the phase number, who arrived in it, who waits to arrive in the next, the scope of
the phase, the cycle of its release where it is due, and whether its arrival was sent. -/
structure Tree where
  phase : Nat := 0
  arrived : List Nat := []
  later : List (Nat × Nat) := []
  scope : Nat := 0
  due : Option Nat := none
  sent : Bool := false
  stamps : List (Nat × Nat) := []
deriving DecidableEq, Repr, Inhabited

/-- What a tower holds beside its configuration window (R196 to R205, R319, R445). -/
structure Tower where
  copy : Int := 0
  copyValid : Bool := false
  fenced : Bool := false
  off : Bool := false
  stepDue : Option Nat := none
  stepSent : Bool := false
  bins : List (Nat × Nat) := []
  wireBad : Bool := false
  droops : List Nat := []
  crcRuns : List (Nat × Nat × Nat) := []
  samples : List (Nat × List Byte) := []
  sampleCyc : Nat := 0
deriving DecidableEq, Repr, Inhabited

/-- An arbiter of R190, R338: the end of the grant it has outstanding, its pending map and its merge buffer (R194, R356), a channel's write-back
queue and the groups a refresh holds busy, who holds the grant, the reads whose data a client took before their grant, the cycle after a thaw. -/
structure Arb where
  busyRead : Nat := 0
  busyWrite : Nat := 0
  pendingMap : Option Word := none
  merge : List (List Nat × Nat) := []
  wbq : List Nat := []
  lastWrite : Nat := 0
  rows : List (Nat × Nat × Nat) := []
  refresh : List (Nat × Nat) := []
  holder : Nat := 0
  served : List (Nat × List Nat) := []
  thawAt : Nat := 0
  waiting : List (Nat × Packet) := []
deriving DecidableEq, Repr, Inhabited

/-- The transmit side of an optical link (R215 to R217): next sequence number, unacknowledged flits with their first sending, and for
each receiver the next expected number, credit taken and freed, NAKs of one flit and timeout replays in a row; whose turn it is among the peers of NAKs,
credits and acknowledgements (R214), and the control slot last used plus one (R212). -/
structure TxLink where
  next : Nat := 0
  replay : List (Flit × Nat) := []
  acked : List (Nat × Nat) := []
  spent : List (Nat × Nat) := []
  freed : List (Nat × Nat) := []
  naks : List (Nat × Nat × Nat) := []
  silentRuns : List (Nat × Nat) := []
  busyUntil : Nat := 0
  failed : List Nat := []
  turn : List Nat := [0, 0, 0]
  control : Nat := 0
deriving DecidableEq, Repr, Inhabited

/-- The receive side of a link at one receiver (R214, R215, R217): the next expected number, the flit that is NAKed while later ones are
discarded, credit freed, flits held in the buffer, the packet that comes in and its data flits left, what was last reported, channels misread, whether
anything was heard, control slots since the last acknowledgement. -/
structure RxLink where
  expect : Nat := 0
  nak : Option Nat := none
  freed : Nat := 0
  held : Nat := 0
  pkt : Option Packet := none
  left : Nat := 0
  skip : Bool := false
  nakDue : Bool := false
  sentAck : Nat := 0
  sentCredit : Nat := 0
  mismatch : List (Nat × Nat) := []
  heard : Bool := false
  ackAge : Nat := 0
deriving DecidableEq, Repr, Inhabited

/-- What a ring-plane receiver takes in at its ingest limit (R217, R220): the flits in its buffers, by source in their order of arrival, and the time up to
which it has taken in, in 128ths of a tick. -/
structure Ingest where
  waiting : List (Nat × Nat) := []
  upTo : Nat := 0
deriving DecidableEq, Repr, Inhabited

/-- A ring that a lock engine holds, beside its state register (R250 to R255): services with small steps in a row, headroom low as last reported, the
acquisitions that failed and the tick of the next, hops since the ring last heard its own channel, where its acquisition starts, its loop gain,
rotations, the dither and trim within the code, the quantity at the last service, the tick of the next service, an acquisition after headroom exhaustion. -/
structure Ring where
  smallRun : Nat := 0
  lowNow : Bool := false
  tries : Nat := 0
  retryAt : Nat := 0
  hopRun : Nat := 0
  start : Int := 8192
  gain : Nat := 256
  rotation : Nat := 0
  dither : Int := 0
  trim : Int := 0
  last : Option Int := none
  nextAt : Nat := 0
  again : Bool := false
deriving DecidableEq, Repr, Inhabited

/-- A reconfiguration at a lattice controller (R232, R236, R255): the tile's lanes with the phase to apply, 256 where the lane keeps its phase
(a rotation, or an output removed), its request boundary R and, once found, its start boundary B. -/
structure LatReq where
  lanes : List (Nat × Nat) := []
  r : Nat := 0
  b : Option Nat := none
deriving DecidableEq, Repr, Inhabited

/-- A lattice controller (R232 to R238): requests that wait, reconfigurations between R and reopening, fenced lattice endpoints, the phase
entries and settings that have been loaded. -/
structure Lattice where
  queue : List LatReq := []
  active : List LatReq := []
  removed : List Nat := []
  phases : List Nat := []
  settings : List Nat := []
deriving DecidableEq, Repr, Inhabited

/-- A lane beside its register (R234, R235): whether its receivers may relock, the start boundary B of its last reconfiguration, the bank
rotations that wait for it (endpoint, modulator bank, direction up), and the outputs removed from its setting (R238). -/
structure Lane where
  relocked : Bool := false
  b : Nat := 0
  rotations : List (Nat × Bool × Bool) := []
  gone : List Nat := []
deriving DecidableEq, Repr, Inhabited

/-- One direction of a D2D group (R276, R277, R288): the next number, the next expected one, flits that wait with their channel (a time mark has no data
until its frame starts), frames to be acknowledged with the tick of their sending, frames to send again, credit, freed flits not yet reported, whether the
receiver is to NAK; the receive buffer with the channel of each flit, the tick up to which it has been emptied and the stretched periods counted by then. -/
structure D2dDir where
  next : Nat := 0
  expect : Nat := 0
  queue : List (Nat × List Byte) := []
  replay : List (D2dFrame × Nat) := []
  credit : List Nat := [64, 64, 64, 64]
  freed : List Nat := [0, 0, 0, 0]
  nak : Bool := false
  resend : List D2dFrame := []
  buf : List (Nat × List Byte) := []
  drainAt : Nat := 0
  stretches : Nat := 0
deriving DecidableEq, Repr, Inhabited

/-- A D2D group beside its registers (R279 to R284): its two directions, when it came up and the failed trainings in a row before that, whether it has
completed step 3, when its training began, the wires that spares replace with those spares, what the first three steps met. -/
structure D2d where
  up : D2dDir := {}
  down : D2dDir := {}
  upAt : Option Nat := none
  fails : Nat := 0
  step3 : Option Bool := none
  stepAt : Nat := 0
  sparesFor : List (Nat × Nat) := []
  sight : Option TrainSight := none
deriving DecidableEq, Repr, Inhabited

/-- A tile's time unit (R286, R292 to R295): the difference between its counter and the device's own ticks, and its discipline. -/
structure TimeUnit where
  offset : Int := 0
  began : Nat := 0
  lastNext : Option Nat := none
  pairOk : Bool := false
  named : Option Nat := none
  namedAt : Nat := 0
  loaded : Bool := false
  checked : Bool := false
  misses : Nat := 0
  unnamed : Nat := 0
  expectAt : Nat := 0
deriving DecidableEq, Repr, Inhabited

/-- A remote operation of an endpoint, held under its tag (R365 to R367); `lattice` tells that its data go over the lattice plane (R231), `plane` is its
descriptor's pl, `back` the response on its way over a D2D group. -/
structure RemOp where
  pkt : Packet := {}
  core : Nat := 0
  issue : Nat := 0
  engine : Option Nat := none
  seq : Nat := 0
  piece : Piece := {}
  enabled : Bool := true
  sent : Nat := 0
  attempts : Nat := 0
  answers : Nat := 0
  deadline : Nat := 0
  done : Bool := false
  doneAt : Nat := 0
  status : Status := .ok
  members : List Nat := []
  notReached : Nat := 0
  host : Option (Nat × Nat × Nat) := none
  left : Bool := false
  heard : List Nat := []
  lattice : Bool := false
  plane : Nat := 0
  back : Option Packet := none
  took : Nat := 0
deriving DecidableEq, Repr, Inhabited

/-- An entry of an atomic unit's reply cache (R374): unit, source, tag, incarnation, seq, old value, status. -/
structure CacheEntry where
  unit : Nat := 0
  pkg : Nat := 0
  ep : Nat := 0
  tag : Nat := 0
  inc : Nat := 0
  seq : Nat := 0
  old : Word := 0
  status : Nat := 0
deriving DecidableEq, Repr, Inhabited

/-- An invalidation that runs on a region (R381). -/
structure InvRun where
  req : Packet := {}
  left : List Nat := []
  notReached : Bool := false
  fenced : Bool := false
  unsent : List Nat := []
  waiting : List Packet := []
deriving DecidableEq, Repr, Inhabited

/-- A re-fetch of a copy entry (R380). -/
structure Fetch where
  next : Nat := 0
  out : Nat := 0
  again : Bool := false
  bad : Option Status := none
  waiting : List Packet := []
deriving DecidableEq, Repr, Inhabited

/-- A boundary message (R319, R328). -/
structure BMsg where
  pkg : Nat := 0
  stamp : Nat := 0
  hold : Nat := 0
  request : Bool := false
  d : Nat := 0
  digest : Nat := 0
deriving DecidableEq, Repr, Inhabited

/-- The step boundary as a package gathers it (R319 to R322, R84): the stamps of its towers, whether its message is formed, the messages held,
the tick at which the last one arrived, the HOLD causes, the step whose records are to be evaluated and the tick at which that ended, the selections
that change, whether a core reported an arithmetic fault. -/
structure Boundary where
  arrived : List (Nat × Nat) := []
  formed : Bool := false
  msgs : List BMsg := []
  lateArrival : Option Nat := none
  causes : List Nat := []
  evalFor : Option Nat := none
  evalDone : Option Nat := none
  newSel : List (Nat × Nat) := []
  faulted : Bool := false
deriving DecidableEq, Repr, Inhabited

/-- A rule of the variant table (R81). -/
structure VRule where
  slot : Nat := 0
  metric : Nat := 0
  sense : Nat := 0
  nSteps : Nat := 1
  target : Nat := 0
  initialRun : Nat := 0
  threshold : Nat := 0
  tid : Nat := 0
  addr : Nat := 0
deriving DecidableEq, Repr, Inhabited

/-- The variant table of the image in force (R81). -/
structure VTable where
  slots : List (Nat × Nat) := []
  rules : List VRule := []
  policy : Nat := 0
deriving DecidableEq, Repr, Inhabited

/-- An element of the fence map (R402) or an element fenced at start outside it (R403). -/
structure FenceEl where
  kind : Nat := 0
  value : Nat := 0
deriving DecidableEq, Repr, Inhabited

/-- One bank of the configuration store: its header sector and its body blocks (R389, R392). -/
structure Bank where
  header : List Byte := []
  blocks : List (Nat × List Byte) := []
deriving DecidableEq, Repr, Inhabited

/-- The configuration store (R388 to R391): non-volatile. What the log region holds stands once: every write goes to both devices, and no command damages
a copy (DESIGN CHOICE, assumption 124). -/
structure Store where
  size : Nat := 0x80000000
  bankA : Bank := {}
  bankB : Bank := {}
  inc0 : List Byte := []
  inc1 : List Byte := []
  cal : List (Nat × List Byte) := []
  log : List (Nat × List Byte) := []
  logHead : Nat := 0
deriving DecidableEq, Repr, Inhabited

/-- What the fuses hold (R393, R418, R421, R424, R449): non-volatile, fixed at manufacture. -/
structure Fuses where
  stepping : Stepping := .b0
  serial : Word := 0
  keys : List (List Byte) := []
  revoked : List Nat := []
  patches : List (Nat × Word) := []
  mac : BitVec 48 := 0
  trims : List Int := []
deriving DecidableEq, Repr, Inhabited

/-- The pins (R471, R472, R476): inputs as last seen, outputs as driven. -/
structure Pins where
  resetN : Bool := false
  laserEnN : Bool := true
  laserFaultN : Bool := true
  thermtripN : Bool := true
  tap : Tap := .idcode
  i3cAddr : Option (BitVec 7) := none
  i3cOffset : Nat := 0
deriving DecidableEq, Repr, Inhabited

/-- What a start knows (R404 to R413): the latched id, the restart's naming, what resume keeps, the fence map, the records applied,
the join, the housekeeping round that gives the tiles' temperature, what calibration and the laser supply's MAX registers gave. -/
structure Start where
  pkg : Nat := 0
  joinSet : Nat := 0
  named : Option Bool := none
  resume : Option (List (Nat × Nat) × List (Nat × Nat) × Nat) := none
  fences : List FenceEl := []
  extra : List FenceEl := []
  records : List (Nat × Word) := []
  capFixed : Bool := false
  firstStep3 : Option Nat := none
  compat : Bool := false
  badEngines : List (Nat × Nat) := []
  beganJoin : Nat := 0
  proposal : Nat := 0
  proposals : List (Nat × Nat) := []
  joinMsgs : Nat := 0
  laserDone : Bool := false
  hbmDone : List Nat := []
  tested : List Nat := []
  calAt : Nat := 0
  maxes : List Nat := []
  vtable : VTable := {}
deriving DecidableEq, Repr, Inhabited

/-- A log record before its check (R436, R489). -/
structure LogRec where
  time : Word := 0
  seq : Nat := 0
  inc : Nat := 0
  code : Nat := 0
  severity : Nat := 0
  flags : Nat := 0
  repeats : Nat := 0
  source : Nat := 0
  args : List Word := []
deriving DecidableEq, Repr, Inhabited

/-- Records of one code and source that a millisecond merges (R438). -/
structure LogMerge where
  code : Nat := 0
  source : Nat := 0
  first : Nat := 0
  last : LogRec := {}
  count : Nat := 0
deriving DecidableEq, Repr, Inhabited

/-- An update in progress (R414 to R416). -/
structure Update where
  session : Nat := 0
  bankB : Bool := false
  header : List Byte := []
  nextBlock : Nat := 0
  nextOff : Nat := 0
  ended : Bool := false
  failed : Bool := false
deriving DecidableEq, Repr, Inhabited

/-- What Onyx holds beside its registers (R418 to R431, R450, R467). -/
structure Onyx where
  round : Nat := 1
  nextCh : Nat := 0
  invalidRun : List (Nat × Nat) := []
  excluded : List Nat := []
  cool : Bool := false
  waitLogged : Bool := false
  lastNumber : Option Nat := none
  lastType : Nat := 0
  lastStatus : Nat := 0
  lastPayload : List Byte := []
  quotes : List Nat := []
  quote : List Byte := []
  update : Option Update := none
  sessions : Nat := 0
  restart : Option Nat := none
  logQueue : List (Nat × LogRec) := []
  logLost : Bool := false
  logRing : List (Nat × List Byte) := []
  merges : List LogMerge := []
  hbmTemps : List (Nat × Nat) := []
  snap : Option Nat := none
  prev : List (Nat × Nat) := []
  half0 : List Byte := []
  half1 : List Byte := []
  pmcOn : Bool := true
  bootAt : Nat := 0
  flagsOut : List (Nat × Nat × Nat × Nat) := []
deriving DecidableEq, Repr, Inhabited

/-- A shard that E0 has requested (R459, R460): the tick of the last request, the 64-byte lines in the ingest buffer, and the offsets of the lines whose
store is outstanding or acknowledged. -/
structure Shard where
  stream : Nat := 0
  shard : Nat := 0
  deadline : Nat := 0
  requested : Nat := 0
  got : List (Nat × List Byte) := []
  sent : List Nat := []
  stored : List Nat := []
deriving DecidableEq, Repr, Inhabited

/-- A running instance of an egress stream (R464): how far it has been read, sent and acknowledged, data read ahead of its turn, and the tick from
which the retransmission time runs. -/
structure Egress where
  stream : Nat := 0
  inst : Nat := 0
  began : Nat := 0
  nextLoad : Nat := 0
  sentTo : Nat := 0
  acked : Nat := 0
  ahead : List (Nat × List Byte) := []
  ackTick : Nat := 0
deriving DecidableEq, Repr, Inhabited

/-- What the block has put out, newest first. -/
inductive Emit where
  | msg (server type status : Nat) (number offset stream : Nat) (payload : List Byte)
  | arpReply (mac : BitVec 48) (ip : BitVec 32)
  | neighbour (mac : BitVec 48) (ip : BitVec 128)
  | echo (v6 : Bool) (dest : BitVec 128) (body : List Byte)
  | flit (link : Link) (f : Flit)
  | control (link : Link) (entries : List CtlEntry) (f : Flit)
  | idle (link : Link) (f : Flit)
  | training (link : Link) (f : Flit) (pkg fibre : Nat)
  | shifters (lane : Nat) (codes : List (Nat × Nat))
  | d2d (tower g : Nat) (dir : Dir) (f : D2dFrame)
  | timeMark (tower : Nat) (value : Word)
  | worm (core port head : Nat) (w : Worm)
  | carrier (tower p layer head : Nat) (w : Worm)
  | floor (p : Packet)
  | frame (lane e : Nat) (f : Frame)
  | spi (word : BitVec 32)
  | ibi (state : Nat)
  | i3c (bytes : List Byte)
  | tapId (word : BitVec 32)
  | extest (driven : Bool)
  | latr (tile : Nat) (cmd : Word) (at_ : Nat)
deriving DecidableEq, Repr, Inhabited

end Sys2Proof.Machine
end

