-- ==== Sys2Proof/Machine/Sparse.lean ====
section
/-! DEFINITION. Sparse maps from Nat keys in one canonical form: keys strictly rising, no entry equal to what an unlisted key
reads as. Every map of the state is read and written through get and set alone. -/

namespace Sys2Proof.Machine.Sparse

variable {α : Type}

/-- The value at a key: the listed one, else what an unlisted key reads as. -/
def get (dflt : Nat → α) : List (Nat × α) → Nat → α
  | [], k => dflt k
  | (j, v) :: r, k => if j = k then v else get dflt r k

/-- Drop a key. -/
def drop : List (Nat × α) → Nat → List (Nat × α)
  | [], _ => []
  | (j, v) :: r, k => if j = k then drop r k else (j, v) :: drop r k

/-- Put an entry before the first larger key. -/
def place : List (Nat × α) → Nat → α → List (Nat × α)
  | [], k, v => [(k, v)]
  | (j, w) :: r, k, v => if k < j then (k, v) :: (j, w) :: r else (j, w) :: place r k v

/-- Write a key: writing the value an unlisted key reads as removes the entry. -/
def set [DecidableEq α] (dflt : Nat → α) (l : List (Nat × α)) (k : Nat) (v : α) : List (Nat × α) :=
  if v = dflt k then drop l k else place (drop l k) k v

/-- The keys rise strictly from a bound. -/
def rising : Nat → List (Nat × α) → Bool
  | _, [] => true
  | b, (j, _) :: r => decide (b ≤ j) && rising (j + 1) r

/-- No entry equals what an unlisted key reads as. -/
def proper [DecidableEq α] (dflt : Nat → α) (l : List (Nat × α)) : Bool :=
  l.all fun e => decide (e.2 ≠ dflt e.1)

/-- The canonical form. -/
def wf [DecidableEq α] (dflt : Nat → α) (l : List (Nat × α)) : Bool :=
  rising 0 l && proper dflt l

end Sys2Proof.Machine.Sparse
end

