-- ==== Sys2Proof/Machine/State.lean ====
section
/-! DEFINITION. The state of the block as plain data, the reasons to stop, and the state right after reset. -/

namespace Sys2Proof.Machine

/-- Why a command stops the model. -/
inductive Fault where
  /-- Raised by a command whose operand names a core, tower, tile, stack, endpoint, fibre, unit or table entry that the package
  does not have (R17, R25): WellFormed refuses such a command. Safe: no run of the part contains it. -/
  | noSuchUnit
deriving DecidableEq, Repr

/-- Why the model refuses a command. -/
inductive Refusal where
  /-- Raised for a command without a meaning yet, with its mnemonic. Safe: nothing is claimed about it. -/
  | notModelled (mnemonic : String)
deriving DecidableEq, Repr

/-- The state. -/
structure State where
  /-- The commands that wait, first in, first out. -/
  pending : List Instr
  /-- The device state (R13). -/
  dev : DevState
  /-- The device's own tick count, carried forward by the commands (R5; DESIGN CHOICE, assumption 1). -/
  now : Nat
  /-- The contract-clock cycle of the event at hand (R5, R125; DESIGN CHOICE, assumption 1). -/
  clk : Nat
  /-- When W1C bits were last set (R9): by register, the tick or cycle and the bits set in it. -/
  fresh : List (Nat × (Nat × Word))
  /-- The model's own counter of free values (DESIGN CHOICE, assumption 6). -/
  freeCtr : Nat
  /-- The fuses (R393, R421, R449). -/
  fuses : Fuses
  /-- The pins (R474, R476). -/
  pins : Pins
  /-- The configuration store (R388). -/
  store : Store
  /-- What the start knows (R404, R412). -/
  start : Start
  /-- Every configuration register that does not hold its reset value, by address (R6, R487). -/
  regs : List (Nat × Word)
  /-- The 45-bit local data space: vaults, instruction memory, buffers, HBM (R116, R347). -/
  mem : List Host.Cell
  /-- The stored-code condition of vault words, bundles and HBM lines, by address (R49, R95, R117, R352). -/
  marks : List (Nat × Mark)
  /-- The cores (R92), by core_id (R12). -/
  cores : List (Nat × Core)
  /-- The stream engines (R119), by 4 × core_id + engine. -/
  engines : List (Nat × Engine)
  /-- The towers (R17). -/
  towers : List (Nat × Tower)
  /-- The barrier trees (R196), by 16 × tower + tree. -/
  trees : List (Nat × Tree)
  /-- The vault port arbiters by core_id, then the transmitter and channel arbiters by number (R190, R338). -/
  arbs : List (Nat × Arb)
  /-- The packets that wait at a transmitter input, by 16 × ring index + input (R339). -/
  txq : List (Nat × List Packet)
  /-- The transmit sides of the optical links, by link number (R215). -/
  txLinks : List (Nat × TxLink)
  /-- The receive sides, by 64 × link number + receiver (R215). -/
  rxLinks : List (Nat × RxLink)
  /-- What the ring-plane receivers take in (R220), by ring index. -/
  ingests : List (Nat × Ingest)
  /-- The rings, by the address of their state register (R245). -/
  rings : List (Nat × Ring)
  /-- The lattice controllers, by tile (R223). -/
  lattices : List (Nat × Lattice)
  /-- The lattice lanes (R223). -/
  lanes : List (Nat × Lane)
  /-- The frames ready at a lattice endpoint, by 32 × endpoint + lane (R231). -/
  frames : List (Nat × List Frame)
  /-- The D2D groups, by 64 × tower + group (R273). -/
  d2d : List (Nat × D2d)
  /-- The time units, by tile (R292). -/
  times : List (Nat × TimeUnit)
  /-- Outstanding remote operations, by 8192 × ring index + tag (R25, R365). -/
  ops : List (Nat × RemOp)
  /-- The next atomic seq, by 4096 × ring index + 64 × target package + target endpoint mod 64 (R373). -/
  atomSeq : List (Nat × Nat)
  /-- The reply caches (R374), newest first. -/
  cache : List CacheEntry
  /-- The running invalidations, by region entry (R381). -/
  invs : List (Nat × InvRun)
  /-- The running re-fetches, by 256 × stack + copy entry (R380). -/
  fetches : List (Nat × Fetch)
  /-- The tick at which the lock of the previous route bank ends (R336). -/
  lockEnd : Nat
  /-- The epoch of the previous route bank (R336). -/
  prevEpoch : Nat
  /-- The step boundary (R319). -/
  boundary : Boundary
  /-- Onyx (R418). -/
  onyx : Onyx
  /-- The calibration values in force, by class, tile and index as R263 numbers them. -/
  cal : List (Nat × Int)
  /-- The shards outstanding (R459). -/
  shards : List Shard
  /-- The running egress instances (R464). -/
  egress : List Egress
  /-- Seam ratios (R290), stored plus one: by tile those that wait for application, by 4 + tile those of a change that runs. -/
  ratios : List (Nat × Nat)
  /-- Worms on the mesh input buffers, by 8 × core_id + port (R181). -/
  mesh : List (Nat × List Worm)
  /-- Deskew targets that writes of FLR_DSK set, stored plus one, by item index (R258, R296). -/
  deskews : List (Nat × Nat)
  /-- The tick before which an adapted item takes no further tap, by class, tile and index (R258). -/
  adapts : List (Nat × Nat)
  /-- What the block has put out, newest first. -/
  out : List Emit
deriving DecidableEq, Repr

/-- Power has been on and BOOT holds Onyx in reset: every register at its reset value, memory with nothing listed, no command waiting.
ONX_STATE.state resets to BOOT (R421). The fuses and the store are as assumption 3 says (DESIGN CHOICE); the port's IPv6 address is the one that R454 forms from
the fuses' MAC address 0. -/
def State.reset : State where
  pending := []
  dev := .boot
  now := 0
  clk := 0
  fresh := []
  freeCtr := 0
  fuses := {}
  pins := {}
  store := {}
  start := {}
  regs := [(Reg.hstIpv6 0, 0x80FE), (Reg.hstIpv6 1, 0xFEFF000002)]
  mem := []
  marks := []
  cores := []
  engines := []
  towers := []
  trees := []
  arbs := []
  txq := []
  txLinks := []
  rxLinks := []
  ingests := []
  rings := []
  lattices := []
  lanes := []
  frames := []
  d2d := []
  times := []
  ops := []
  atomSeq := []
  cache := []
  invs := []
  fetches := []
  lockEnd := 0
  prevEpoch := 0
  boundary := {}
  onyx := {}
  cal := []
  shards := []
  egress := []
  ratios := []
  mesh := []
  deskews := []
  adapts := []
  out := []

end Sys2Proof.Machine
end

