-- ==== Sys2Proof/Machine/Ops.lean ====
section
/-! DEFINITION. The named operations over the state: registers, memory, stored-code marks, the maps, time, the log, the device states,
fences and hold causes, addresses. Everything the meanings share. -/

namespace Sys2Proof.Machine

/-- What every meaning answers. -/
abbrev Result := Host.Outcome State Fault Refusal

/-! Registers (R6, R8). -/

/-- Read a configuration register. -/
def State.rd (s : State) (a : Nat) : Word := Sparse.get resetWord s.regs a
/-- Write a configuration register whole. -/
def State.wr (s : State) (a : Nat) (v : Word) : State := { s with regs := Sparse.set resetWord s.regs a v }
/-- Read a field. -/
def State.fld (s : State) (a : Nat) (f : Fld) : Nat := f.get (s.rd a)
/-- Read a one-bit field. -/
def State.flag (s : State) (a : Nat) (f : Fld) : Bool := f.bit (s.rd a)
/-- Write a field. -/
def State.putF (s : State) (a : Nat) (f : Fld) (v : Nat) : State := s.wr a (f.put (s.rd a) v)
/-- Set a one-bit field. -/
def State.putB (s : State) (a : Nat) (f : Fld) (b : Bool) : State := s.putF a f (b2n b)
/-- Add to a counting field, which stops at its largest value. -/
def State.bump (s : State) (a : Nat) (f : Fld) (n : Nat) : State := s.putF a f (satAdd f.max (s.fld a f) n)
/-- The tick or, in the windows of cores and towers, the cycle in which an event touches a register (R5, R128, R180). -/
def State.moment (s : State) (a : Nat) : Nat := if 0x100000000 ≤ a then s.clk else s.now
/-- The device sets a W1C bit: its moment is kept for a write that clears it in the same cycle (R9). -/
def State.raiseBit (s : State) (a : Nat) (f : Fld) : State :=
  let s := s.putB a f true
  let x := Sparse.get (fun _ => (0, 0)) s.fresh a
  { s with fresh := Sparse.set (fun _ => (0, 0)) s.fresh a (s.moment a, if x.1 = s.moment a then x.2 ||| f.mask else f.mask) }
/-- The W1C bits of a register that the device has set in the present tick or cycle (R9). -/
def State.freshBits (s : State) (a : Nat) : Word :=
  let x := Sparse.get (fun _ => (0, 0)) s.fresh a
  if x.1 = s.moment a then x.2 else 0
/-- Raise a field to a value if that is larger. -/
def State.raise (s : State) (a : Nat) (f : Fld) (n : Nat) : State := s.putF a f (max (s.fld a f) (min f.max n))

/-! Memory (R116, R347). A byte that nothing has written reads 0 (DESIGN CHOICE, assumption 5). -/

/-- What an unlisted byte reads as. -/
def memDefault : Nat → Byte := fun _ => 0
/-- Read a byte of the data space. -/
def State.byte (s : State) (a : Nat) : Byte := Sparse.get memDefault s.mem a
/-- Write a byte of the data space. -/
def State.setByte (s : State) (a : Nat) (b : Byte) : State := { s with mem := Sparse.set memDefault s.mem a b }
/-- Read n bytes. -/
def State.bytes (s : State) (a : Nat) : Nat → List Byte
  | 0 => []
  | n + 1 => s.byte a :: s.bytes (a + 1) n
/-- Write bytes. -/
def State.setBytes (s : State) (a : Nat) : List Byte → State
  | [] => s
  | b :: r => (s.setByte a b).setBytes (a + 1) r
/-- Read a little-endian number of n bytes. -/
def State.num (s : State) (a n : Nat) : Nat := natOf (s.bytes a n)
/-- The canonical form of memory. -/
def memWf (m : List Host.Cell) : Bool := Sparse.wf memDefault m

/-- The stored-code condition of a word, bundle or line (R117, R352). -/
def State.mark (s : State) (a : Nat) : Mark := Sparse.get (fun _ => Mark.good) s.marks a
/-- Set a stored-code condition. -/
def State.setMark (s : State) (a : Nat) (m : Mark) : State := { s with marks := Sparse.set (fun _ => Mark.good) s.marks a m }
/-- Set the conditions of several places. -/
def State.setMarks (s : State) (m : Mark) : List Nat → State
  | [] => s
  | a :: r => (s.setMark a m).setMarks m r

/-! The maps of records. -/

/-- The record of a core. -/
def State.core (s : State) (c : Nat) : Core := Sparse.get (fun _ => {}) s.cores c
/-- Replace the record of a core. -/
def State.setCore (s : State) (c : Nat) (k : Core) : State := { s with cores := Sparse.set (fun _ => {}) s.cores c k }
/-- Change the record of a core. -/
def State.modCore (s : State) (c : Nat) (f : Core → Core) : State := s.setCore c (f (s.core c))
/-- A stream engine. -/
def State.engine (s : State) (c e : Nat) : Engine := Sparse.get (fun _ => {}) s.engines (4 * c + e)
/-- Replace a stream engine. -/
def State.setEngine (s : State) (c e : Nat) (x : Engine) : State := { s with engines := Sparse.set (fun _ => {}) s.engines (4 * c + e) x }
/-- The record of a tower. -/
def State.tower (s : State) (t : Nat) : Tower := Sparse.get (fun _ => {}) s.towers t
/-- Replace the record of a tower. -/
def State.setTower (s : State) (t : Nat) (x : Tower) : State := { s with towers := Sparse.set (fun _ => {}) s.towers t x }
/-- A barrier tree. -/
def State.tree (s : State) (t i : Nat) : Tree := Sparse.get (fun _ => {}) s.trees (16 * t + i)
/-- Replace a barrier tree. -/
def State.setTree (s : State) (t i : Nat) (x : Tree) : State := { s with trees := Sparse.set (fun _ => {}) s.trees (16 * t + i) x }
/-- The number of an arbiter in the map of arbiters. -/
def arbNum : Arbiter → Nat
  | .vault c => c
  | .tx r => 4096 + r
  | .channel k c => 8192 + 32 * k + c
/-- The record of an arbiter. -/
def State.arb (s : State) (a : Arbiter) : Arb := Sparse.get (fun _ => {}) s.arbs (arbNum a)
/-- Replace the record of an arbiter. -/
def State.setArb (s : State) (a : Arbiter) (x : Arb) : State := { s with arbs := Sparse.set (fun _ => {}) s.arbs (arbNum a) x }
/-- The packets waiting at a transmitter input. -/
def State.queue (s : State) (r i : Nat) : List Packet := Sparse.get (fun _ => []) s.txq (16 * r + i)
/-- Replace the packets waiting at a transmitter input. -/
def State.setQueue (s : State) (r i : Nat) (l : List Packet) : State := { s with txq := Sparse.set (fun _ => []) s.txq (16 * r + i) l }
/-- The number of a link: ring transmitters 0–20, fibres outward 32–63 and inward 64–95, lanes 128 + 32 × endpoint + lane. -/
def linkNum : Link → Nat
  | .ring r => r
  | .fibreOut x => 32 + x
  | .fibreIn x => 64 + x
  | .lane e j => 128 + 32 * e + j
/-- The transmit side of a link. -/
def State.tx (s : State) (l : Link) : TxLink := Sparse.get (fun _ => {}) s.txLinks (linkNum l)
/-- Replace the transmit side of a link. -/
def State.setTx (s : State) (l : Link) (x : TxLink) : State := { s with txLinks := Sparse.set (fun _ => {}) s.txLinks (linkNum l) x }
/-- The receive side of a link at a receiver. -/
def State.rx (s : State) (l : Link) (r : Nat) : RxLink := Sparse.get (fun _ => {}) s.rxLinks (64 * (linkNum l) + r)
/-- Replace the receive side of a link at a receiver. -/
def State.setRx (s : State) (l : Link) (r : Nat) (x : RxLink) : State := { s with rxLinks := Sparse.set (fun _ => {}) s.rxLinks (64 * (linkNum l) + r) x }
/-- The hidden record of a ring, by its register's address. -/
def State.ring (s : State) (a : Nat) : Ring := Sparse.get (fun _ => {}) s.rings a
/-- Replace the hidden record of a ring. -/
def State.setRing (s : State) (a : Nat) (x : Ring) : State := { s with rings := Sparse.set (fun _ => {}) s.rings a x }
/-- A lattice controller. -/
def State.lattice (s : State) (n : Nat) : Lattice := Sparse.get (fun _ => {}) s.lattices n
/-- Replace a lattice controller. -/
def State.setLattice (s : State) (n : Nat) (x : Lattice) : State := { s with lattices := Sparse.set (fun _ => {}) s.lattices n x }
/-- A lattice lane. -/
def State.lane (s : State) (j : Nat) : Lane := Sparse.get (fun _ => {}) s.lanes j
/-- Replace a lattice lane. -/
def State.setLane (s : State) (j : Nat) (x : Lane) : State := { s with lanes := Sparse.set (fun _ => {}) s.lanes j x }
/-- The frames ready for a lane at a lattice endpoint. -/
def State.framesAt (s : State) (e j : Nat) : List Frame := Sparse.get (fun _ => []) s.frames (32 * e + j)
/-- Replace the frames ready for a lane at a lattice endpoint. -/
def State.setFrames (s : State) (e j : Nat) (l : List Frame) : State := { s with frames := Sparse.set (fun _ => []) s.frames (32 * e + j) l }
/-- A D2D group. -/
def State.group (s : State) (t g : Nat) : D2d := Sparse.get (fun _ => {}) s.d2d (64 * t + g)
/-- Replace a D2D group. -/
def State.setGroup (s : State) (t g : Nat) (x : D2d) : State := { s with d2d := Sparse.set (fun _ => {}) s.d2d (64 * t + g) x }
/-- A tile's time unit. -/
def State.time (s : State) (n : Nat) : TimeUnit := Sparse.get (fun _ => {}) s.times n
/-- Replace a tile's time unit. -/
def State.setTime (s : State) (n : Nat) (x : TimeUnit) : State := { s with times := Sparse.set (fun _ => {}) s.times n x }
/-- An outstanding remote operation. -/
def State.op (s : State) (r tag : Nat) : Option RemOp := Sparse.get (fun _ => none) (s.ops.map fun e => (e.1, some e.2)) (8192 * r + tag)
/-- Write an outstanding remote operation. -/
def State.setOp (s : State) (r tag : Nat) (o : RemOp) : State :=
  { s with ops := Sparse.place (Sparse.drop s.ops (8192 * r + tag)) (8192 * r + tag) o }
/-- Free a tag. -/
def State.dropOp (s : State) (r tag : Nat) : State := { s with ops := Sparse.drop s.ops (8192 * r + tag) }
/-- A calibration value in force. -/
def State.calVal (s : State) (cls tile index : Nat) : Int := Sparse.get (fun _ => (0 : Int)) s.cal ((cls * 4 + tile) * 2 ^ 32 + index)
/-- Set a calibration value. -/
def State.setCal (s : State) (cls tile index : Nat) (v : Int) : State :=
  { s with cal := Sparse.set (fun _ => (0 : Int)) s.cal ((cls * 4 + tile) * 2 ^ 32 + index) v }
/-- The frames in a router's input buffer. -/
def State.worms (s : State) (c p : Nat) : List Worm := Sparse.get (fun _ => []) s.mesh (8 * c + p)
/-- Replace the worms of a router's input buffer. -/
def State.setWorms (s : State) (c p : Nat) (l : List Worm) : State := { s with mesh := Sparse.set (fun _ => []) s.mesh (8 * c + p) l }
/-- The value of a key in a small association list. -/
def assoc (l : List (Nat × Nat)) (k : Nat) : Nat := Sparse.get (fun _ => 0) l k
/-- Write a key of a small association list. -/
def assocSet (l : List (Nat × Nat)) (k v : Nat) : List (Nat × Nat) := Sparse.set (fun _ => 0) l k v
/-- Take the next free value (DESIGN CHOICE, assumption 6). -/
def State.free (s : State) : Nat × State := (Config.freeValue s.freeCtr, { s with freeCtr := s.freeCtr + 1 })
/-- Put something out. -/
def State.emit (s : State) (e : Emit) : State := { s with out := e :: s.out }

/-! Identity and time. -/

/-- The stepping's number (R421). -/
def steppingNum : Stepping → Nat
  | .a0 => 0 | .a1 => 1 | .b0 => 2
/-- The device state's number (R421); OFF reads 0. -/
def devNum : DevState → Nat
  | .off => 0 | .boot => 1 | .bringup => 2 | .load => 3 | .join => 4 | .run => 5 | .hold => 6 | .halted => 7 | .tripped => 8
/-- The own package id (R27). -/
def State.pkg (s : State) : Nat := s.start.pkg
/-- The own incarnation (R349). -/
def State.inc (s : State) : Nat := s.fld Reg.fabIncarnation F.fabIncarnationIncarnation
/-- A tile's time counter (R292). -/
def State.tc (s : State) (tile : Nat) : Word := BitVec.ofInt 64 ((s.now : Int) + (s.time tile).offset)
/-- The package time counter as Onyx and E0 on tile B0 see it. -/
def State.tcNat (s : State) : Nat := (s.tc 0).toNat
/-- The local copy of a tower's cores (R123). -/
def State.copyTc (s : State) (t : Nat) : Word := BitVec.ofInt 64 ((s.now : Int) + (s.tower t).copy)
/-- The tower of a core (R12). -/
def towerOf (c : Nat) : Nat := c / 256
/-- The local index of a core (R12). -/
def localOf (c : Nat) : Nat := c % 256
/-- The layer of a core (R12). -/
def layerOf (c : Nat) : Nat := c / 64 % 4
/-- The column of a core (R203): 8y + x. -/
def colOf (c : Nat) : Nat := c % 64
/-- The tile of a tower (R11). -/
def tileOf (t : Nat) : Nat := t / 3
/-- The ring index of a tower (R218). -/
def towerRing (t : Nat) : Nat := ([2, 3, 4, 7, 8, 9, 19, 18, 17, 14, 13, 12] : List Nat).getD t 0
/-- The state of a unit: 0 off, 1 starting, 2 on, 3 stopping (R435). -/
def State.unitState (s : State) (u : Nat) : Nat := s.fld (Reg.onxUnit u) F.onxUnitState
/-- A unit is being enabled in HOLD (R433, R434). -/
def State.starting (s : State) (u : Nat) : Bool := decide (s.dev = .hold ∧ s.unitState u = 1)
/-- The ring index of a memory endpoint (R218). -/
def memRing (n : Nat) : Nat := ([5, 6, 16, 15] : List Nat).getD n 0
/-- The ring index of a fibre endpoint (R218). -/
def fibreRing (n : Nat) : Nat := ([1, 10, 20, 11] : List Nat).getD n 0
/-- The tower of a ring index, if it is a tower's. -/
def ringTower (r : Nat) : Option Nat := (List.range 12).find? fun t => towerRing t = r
/-- The tile whose memory endpoint has a ring index. -/
def ringMem (r : Nat) : Option Nat := (List.range 4).find? fun n => memRing n = r
/-- The tile whose fibre endpoint has a ring index. -/
def ringFibre (r : Nat) : Option Nat := (List.range 4).find? fun n => fibreRing n = r
/-- The lattice index of a ring index (R223). -/
def latOf (r : Nat) : Option Nat :=
  match ringTower r, ringMem r, ringFibre r with
  | some t, _, _ => some t
  | _, some n, _ => some (12 + n)
  | _, _, some n => some (16 + n)
  | _, _, _ => none
/-- The ring index of a lattice index (R218, R223). -/
def ringOfLat (e : Nat) : Nat := if e < 12 then towerRing e else if e < 16 then memRing (e - 12) else fibreRing (e - 16)
/-- Remote-operation tags of an endpoint (R25). -/
def tagsOf (r : Nat) : Nat := if (ringTower r).isSome then 8192 else if r = 0 then 1024 else 4096
/-- The first carat boundary at or after a tick (R5, R292). -/
def caratUp (x : Nat) : Nat := ceilDiv x 1024 * 1024

/-- Bring the clock to a command's moment: time never steps backward (R293). -/
def State.at (s : State) (t : At) : State := { s with now := max s.now t.tick, clk := t.cyc }

/-- The device does nothing: no power, a thermal trip, or RESET_N low (R13, R15, R430). -/
def State.dead (s : State) : Bool := decide (s.dev = .off) || decide (s.dev = .tripped) || (decide (s.dev = .boot) && !s.pins.resetN)
/-- The next state of a command that a device that does nothing ignores. -/
def State.ifAwake (s : State) (f : State → State) : State := if s.dead then s else f s

/-! The log (R436 to R439, R489). -/

/-- The severity of a log code (R439). -/
def logSeverity (code : Nat) : Nat :=
  if code = 0x0702 then 4
  else if code ∈ [0x0101, 0x0201, 0x0401, 0x0402, 0x0501, 0x0505, 0x0601, 0x0802, 0x0803, 0x0901] then 3
  else if code ∈ [0x0103, 0x0404, 0x0504, 0x0804] then 1
  else 2
/-- The codes of R439; the device writes no other. -/
def logCodes : List Nat := [0x0101, 0x0102, 0x0103, 0x0201, 0x0202, 0x0301, 0x0302, 0x0401, 0x0402, 0x0403, 0x0404, 0x0501, 0x0502,
  0x0503, 0x0504, 0x0505, 0x0601, 0x0602, 0x0603, 0x0701, 0x0702, 0x0703, 0x0801, 0x0802, 0x0803, 0x0804, 0x0901, 0x0902]
/-- The 64 bytes of a record (R436). -/
def LogRec.bytes (l : LogRec) : List Byte :=
  let b := bytesOf l.time.toNat 8 ++ bytesOf l.seq 4 ++ bytesOf l.inc 4 ++ bytesOf l.code 2 ++ bytesOf l.severity 1 ++
    bytesOf l.flags 1 ++ bytesOf l.repeats 2 ++ bytesOf 0 2 ++ bytesOf l.source 4 ++
    ((List.range 4).map fun i => bytesOf (l.args.getD i 0).toNat 8).flatten
  b ++ bytesOf (crc32c b) 4
/-- The time of a record and its flag bit 0 (R436). -/
def State.logTime (s : State) : Word × Nat :=
  if s.flag (Reg.tcStatus 0) F.tcStatusLocked || s.flag (Reg.tcStatus 0) F.tcStatusHoldover then (s.tc 0, 1)
  else (BitVec.ofNat 64 (s.now - s.onyx.bootAt), 0)
/-- Write one record to the volatile log and, by severity, to the persistent queue and the log server (R437, R465). -/
def State.writeLog (s : State) (r : LogRec) : State :=
  let ix := s.fld Reg.onxLogStatus F.onxLogStatusWriteIndex
  let sq := s.fld Reg.onxLogStatus F.onxLogStatusNextSequence
  let persist := decide (min 4 (s.fld Reg.onxLogCfg F.onxLogCfgMinPersist) ≤ r.severity)
  let full := persist && decide (256 ≤ s.onyx.logQueue.length)
  let r := { r with seq := sq, inc := s.inc, flags := r.flags + 2 * b2n (persist && !full) + 4 * b2n s.onyx.logLost }
  let s := ((s.putF Reg.onxLogStatus F.onxLogStatusNextSequence (sq + 1)).putF Reg.onxLogStatus F.onxLogStatusWriteIndex (ix + 1))
  let s := { s with onyx := { s.onyx with logLost := full, logRing := Sparse.set (fun _ => []) s.onyx.logRing ix r.bytes } }
  if full then s.bump Reg.onxLogStatus F.onxLogStatusLost 1
  else if persist then
    let v := s.fld Reg.hstPorts F.hstPortsLogServer
    let s := { s with onyx := { s.onyx with logQueue := s.onyx.logQueue ++ [(sq, r)] } }
    if v < 64 && s.flag (Reg.srvFlags v) F.srvFlagsValid && s.flag Reg.hstStatus F.hstStatusLinkUp then
      s.emit (.msg v 0x21 0 0 0 0 r.bytes)
    else s
  else s
/-- The millisecond of a merged record is over: what was counted in it is written with its count, and its record begins the next (R438). -/
def State.flushMerge (s : State) (code source : Nat) : State :=
  match s.onyx.merges.find? fun m => m.code = code ∧ m.source = source with
  | none => s
  | some m =>
    if s.now < m.first + 1000000 then s
    else
      let rest := s.onyx.merges.filter fun x => !(x.code = code ∧ x.source = source)
      if m.count = 0 then { s with onyx := { s.onyx with merges := rest } }
      else
        let next : LogMerge := { code := code, source := source, first := m.first + 1000000 }
        { s with onyx := { s.onyx with merges := next :: rest } }.writeLog { m.last with repeats := min 0xFFFF m.count }
/-- Record an event at a severity, merging what repeats within a millisecond (R438). -/
def State.logAt (s : State) (code severity source : Nat) (args : List Nat) : State :=
  let (tm, fl) := s.logTime
  let r : LogRec := { time := tm, code := code, severity := severity, flags := fl, source := source, args := args.map (BitVec.ofNat 64) }
  let s := (s.flushMerge code source).flushMerge code source
  match s.onyx.merges.find? fun m => m.code = code ∧ m.source = source with
  | some m =>
    if severity = 4 then s.writeLog r
    else
      let l := s.onyx.merges.map fun x => if x = m then { m with last := r, count := m.count + 1 } else x
      { s with onyx := { s.onyx with merges := l } }
  | none =>
    let s := s.writeLog r
    let n : LogMerge := { code := code, source := source, first := s.now }
    { s with onyx := { s.onyx with merges := n :: s.onyx.merges } }
/-- Record an event at its code's severity (R439). -/
def State.log (s : State) (code source : Nat) (args : List Nat) : State := s.logAt code (logSeverity code) source args
/-- The source field of a core (R436). -/
def srcCore (c : Nat) : Nat := 0x40000000 + c
/-- The source field of a unit of ONX_UNITu numbering (R436). -/
def srcUnit (u inst : Nat) : Nat := u * 0x1000000 + inst

/-! Device states (R13 to R15, R471). -/

/-- The ratios that FLR_CLK holds for a tile. -/
def State.ratioOf (s : State) (n : Nat) : Nat := s.fld (Reg.flrClk n) F.flrClkRatioW + 4 * s.fld (Reg.flrClk n) F.flrClkRatioE
/-- A tile's pending seam ratio begins its change where none runs (R290). -/
def State.startRatio (s : State) (n : Nat) : State :=
  if assoc s.ratios n = 0 ∨ assoc s.ratios (4 + n) ≠ 0 then s
  else { s with ratios := assocSet (assocSet s.ratios (4 + n) (assoc s.ratios n)) n 0 }.putB (Reg.flrClk n) F.flrClkRatioPending false
/-- Enter a device state: ONX_STATE follows, the sideband raises an in-band interrupt at a change (R471), and pending seam ratios are applied at
HOLD (R290). -/
def State.enter (s : State) (d : DevState) : State :=
  let s := if d = .hold then (List.range 4).foldl State.startRatio s else s
  let s1 := { s with dev := d }.putF Reg.onxState F.onxStateState (devNum d)
  if s.dev = d then s1 else s1.emit (.ibi (devNum d))
/-- The last phase a start has reached (R417). -/
def State.phaseTo (s : State) (p : Nat) : State := s.raise Reg.onxImgStatus F.onxImgStatusStartPhase p
/-- Log a start that ended (R439 code 0x0101). -/
def State.logStart (s : State) (cause : Nat) : State :=
  let i := s.rd Reg.onxImgStatus
  s.log 0x0101 (srcUnit 12 0) [cause, F.onxImgStatusStartPhase.get i, F.onxImgStatusBankA.get i + 16 * F.onxImgStatusBankB.get i, s.pkg]
/-- A start that ends in HOLD with a start cause (R417, R421). -/
def State.startFail (s : State) (cause : Nat) : State :=
  let s := s.putF Reg.onxImgStatus F.onxImgStatusStartCause cause
  let s := s.wr Reg.onxHoldCause (s.rd Reg.onxHoldCause ||| 0x800)
  (s.logStart cause).enter .hold
/-- A fault that keeps the device from a consistent boundary: HALTED with a halt cause (R14, R421). -/
def State.halt (s : State) (cause : Nat) : State := (s.putF Reg.onxState F.onxStateHaltCause cause).enter .halted
/-- A job is running or the device may still take a boundary. -/
def State.running (s : State) : Bool := decide (s.dev = .run)
/-- Request HOLD at the next boundary for a cause bit of ONX_HOLD_CAUSE (R321). -/
def State.holdCause (s : State) (b : Nat) : State :=
  if s.running then
    let l := if b ∈ s.boundary.causes then s.boundary.causes else b :: s.boundary.causes
    let s := { s with boundary := { s.boundary with causes := l } }
    s.putF Reg.onxSchedStatus F.onxSchedStatusHoldRequested 1
  else s
/-- Set bits of CORE_FAULT; each newly set bit is logged (R128, R439 code 0x0401). -/
def State.coreFault (s : State) (c : Nat) (f : Fld) : State :=
  if s.flag (Reg.coreFault c) f then s.raiseBit (Reg.coreFault c) f
  else
    let s := s.raiseBit (Reg.coreFault c) f
    s.log 0x0401 (srcCore c) [f.lo, s.fld (Reg.coreStatus c) F.coreStatusPc, (s.rd (Reg.coreStep c)).toNat]

/-! Fences (R205, R221, R284). -/

/-- A core is fenced. -/
def State.coreFenced (s : State) (c : Nat) : Bool := s.flag (Reg.coreCtrl c) F.coreCtrlFenced
/-- A ring-plane endpoint is fenced. -/
def State.ringFenced (s : State) (r : Nat) : Bool := bit (s.fld (Reg.rplFence 0) F.rplFenceFenced) r
/-- The effective members of a barrier tree (R196). -/
def State.members (s : State) (t i : Nat) : List Nat :=
  (List.range 256).filter fun c => bit (s.rd (Reg.twrBarMember t i (c / 64))).toNat (c % 64) && !s.coreFenced (256 * t + c)
/-- The receivers of a source that are not fenced, in increasing ring index (R219). -/
def State.receivers (s : State) (src : Nat) : List Nat := (List.range 21).filter fun r => decide (r ≠ src) && !s.ringFenced r
/-- The drop fraction of a receiver for a source, in units of 2^−16, 0xFFFF for 1 (R219, R242). -/
def State.fraction (s : State) (src r : Nat) : Nat :=
  if s.ringFenced r then 0
  else
    let l := s.receivers src
    let k := (l.filter (· < r)).length
    min 0xFFFF (65536 / (l.length - k))
/-- The index of channel q (0 or 1) of a source among a receiver's 40 source channels (R242). -/
def chanIx (r src q : Nat) : Nat := 2 * (if src < r then src else src - 1) + q
/-- Set the target weights of every receiver for every source (R219); `now` sets the applied weights as well. -/
def State.retarget (s : State) (now : Bool) : State :=
  (List.range 21).foldl (fun s src =>
    ((List.range 21).filter (· ≠ src)).foldl (fun s r =>
      let f := s.fraction src r
      (List.range 8).foldl (fun s tr => (List.range 2).foldl (fun s q =>
        let a := Reg.rplWgt r tr (chanIx r src q)
        let w := F.rplWgtTarget.put (s.rd a) f
        s.wr a (if now then F.rplWgtApplied.put w f else w)) s) s) s) s
/-- Mark a ring-plane endpoint fenced: its bit in RPL_FENCE of all four tiles, its transmitter off (R221). -/
def State.markRing (s : State) (r : Nat) : State :=
  let s := (List.range 4).foldl (fun s n =>
    let s := s.wr (Reg.rplFence n) (s.rd (Reg.rplFence n) ||| BitVec.ofNat 64 (2 ^ r))
    s.putB (Reg.rplRebal n) F.rplRebalInProgress true) s
  s.putF (Reg.rplTxStatus r) F.rplTxStatusWidth 2
/-- Fence a ring-plane endpoint; the weights move toward their new targets (R221, R259). -/
def State.fenceRing (s : State) (r : Nat) : State := if s.ringFenced r then s else (s.markRing r).retarget false
/-- LPL_STATUS follows the controller's queue (R243). -/
def State.latStatus (s : State) (n : Nat) : State :=
  let c := s.lattice n
  (s.putF (Reg.lplStatus n) F.lplStatusQueued c.queue.length).putB (Reg.lplStatus n) F.lplStatusBusy (c.active ≠ [])
/-- Two requests with one R become one; the higher phase takes a lane that both name (R236). The lanes that both name in different phases. -/
def clashes (a b : LatReq) : List Nat := (a.lanes.filter fun x => b.lanes.any fun y => decide (x.1 = y.1 ∧ x.2 ≠ y.2)).map (·.1)
/-- The union of two requests with one R. -/
def joinReqs (a b : LatReq) : LatReq :=
  { a with lanes := (a.lanes.map fun x => match b.lanes.find? fun y => decide (y.1 = x.1) with
      | some y => (x.1, if x.2 = 256 then y.2 else if y.2 = 256 then x.2 else max x.2 y.2)
      | none => x) ++ b.lanes.filter fun y => !(a.lanes.any fun x => decide (x.1 = y.1)) }
/-- A lane of the tile is between R and reopening. -/
def Lattice.busyLane (c : Lattice) (j : Nat) : Option LatReq := c.active.find? fun q => q.lanes.any fun x => decide (x.1 = j)
/-- A request joins the queue of a controller; a rotation that waits for a named lane runs with it (R236, R256). -/
def State.latQueue (s : State) (n : Nat) (q : LatReq) : State :=
  let c := s.lattice n
  let q : LatReq := { q with lanes := q.lanes.filter fun x => !(decide (x.2 = 256) && c.queue.any fun w => decide (w.r ≤ q.r) && w.lanes.any fun y => decide (y.1 = x.1)) }
  let named (j : Nat) : Bool := q.lanes.any fun x => decide (x.1 = j ∧ x.2 < 256)
  if q.lanes = [] then s else
  let drop (w : LatReq) : LatReq := { w with lanes := w.lanes.filter fun x => !(x.2 = 256 && named x.1) }
  let old := (c.queue.map drop).filter fun w => decide (w.lanes ≠ [])
  match old.find? fun w => decide (w.r = q.r) with
  | some w =>
    let l := (clashes w q).filter fun j => !(w.lanes.contains (j, 256))
    let s := s.setLattice n { c with queue := old.map fun x => if x = w then joinReqs w q else x }
    if l = [] then s
    else (s.bump (Reg.lplCounts n) F.lplCountsConflicts 1).log 0x0503 (srcUnit (12 + n) 0) [((q.lanes.head?.map (·.2)).getD 0), l.foldl (fun m j => m + 2 ^ (8 * n + j)) 0]
  | none => s.setLattice n { c with queue := old ++ [q] }
/-- Fence a lattice endpoint (R204, R221, R238): it is removed, and every lane whose setting is of kind 0 and has it at an output that receives light is
reconfigured without that output, from the first carat boundary after the fence. -/
def State.fenceLat (s : State) (e : Nat) : State :=
  (List.range 4).foldl (fun s n =>
    let lanes := (List.range 8).filter fun j =>
      let st := s.fld (Reg.lplLane n j) F.lplLaneSetting
      decide (s.fld (Reg.lplSetKind n st) F.lplSetKindKind = 0 ∧ s.fld (Reg.lplLane n j) F.lplLaneState ≠ 6 ∧ e ∉ (s.lane (8 * n + j)).gone ∧
        (if e < 16 then (s.rd (Reg.lplSetSrc n st (e / 8))).toNat / 2 ^ (8 * (e % 8)) % 256
          else (s.rd (Reg.lplSetSrc2 n st)).toNat / 2 ^ (8 * (e - 16)) % 256) < 20)
    let l := s.lattice n
    let s := s.setLattice n { l with removed := if e ∈ l.removed then l.removed else e :: l.removed }
    if lanes = [] then s else (s.latQueue n { lanes := lanes.map fun j => (j, 256), r := caratUp (s.tc n).toNat }).latStatus n) s
/-- Mark a tower and its cores fenced (R204, R403). -/
def State.markTowerFenced (s : State) (t : Nat) : State :=
  let s := (List.range 256).foldl (fun s l => s.putB (Reg.coreCtrl (256 * t + l)) F.coreCtrlFenced true) s
  let s := s.setTower t { s.tower t with fenced := true }
  s.putB (Reg.onxUnit t) F.onxUnitFenced true
/-- Fence a tower with its cores and its ring-plane and lattice endpoints (R204, R284, R403). -/
def State.fenceTower (s : State) (t : Nat) : State := (((s.markTowerFenced t).fenceRing (towerRing t)).fenceLat t).holdCause 4
/-- The image's fence map lists an element (R402). -/
def State.mapped (s : State) (kind value : Nat) : Bool := s.start.fences.any fun e => decide (e.kind = kind ∧ e.value = value)
/-- An element is fenced at start that the fence map does not list: it is noted, and the start ends in HOLD unless a policy permits it
(R204, R264, R284, R403). -/
def State.outside (s : State) (kind value cause : Nat) (permitted : Bool) : State :=
  if decide (s.dev ∈ [.bringup, .load, .join]) && !s.mapped kind value then
    let s := { s with start := { s.start with extra := { kind := kind, value := value } :: s.start.extra } }
    if permitted then s else s.startFail cause
  else s
/-- Fence a lattice lane (R235, R255, R264). -/
def State.fenceLane (s : State) (j reason : Nat) : State :=
  let s := s.putF (Reg.lplLane (j / 8) (j % 8)) F.lplLaneState 6
  let s := s.log 0x0501 (srcUnit (12 + j / 8) j) [j, 0, reason]
  let ok := s.flag Reg.onxLightPolicy F.onxLightPolicyLanePolicy
  let s := s.outside 4 (0x1F00 + j) 8 ok
  if ok then s else s.holdCause 5
/-- Fence a fibre with a state code of FIB_STATUSx (R29, R216, R240, R264). -/
def State.fenceFibre (s : State) (x code : Nat) : State :=
  let s := s.putF (Reg.fibStatus (x / 8) (x % 8)) F.fibStatusState code
  let s := s.log 0x0501 (srcUnit (32 + x / 8) x) [x, 0, code]
  let ok := s.flag Reg.onxLightPolicy F.onxLightPolicyFibrePolicy
  let s := s.outside 5 x 8 ok
  if ok then s else s.holdCause 6
/-- A fibre carries traffic. -/
def State.fibreUp (s : State) (x : Nat) : Bool := decide (s.fld (Reg.fibStatus (x / 8) (x % 8)) F.fibStatusState = 2)

/-! Local addresses (R116, R347). -/

/-- Where a local address lies. -/
inductive Place where
  | vault (core off : Nat)
  | imem (core off : Nat)
  | buffer (core half off : Nat)
  | hbm (k off : Nat)
  | info
  | nowhere
deriving DecidableEq, Repr

/-- The place of a 45-bit local address (R116, R347). -/
def placeOf (a : Nat) : Place :=
  if a < 0x020000000000 then
    let k := a / 0x002000000000
    let o := a % 0x002000000000
    if o < 80000000000 then .hbm k o else .nowhere
  else if a < 0x020000000000 + 3072 * 0x1000000 then
    let c := (a - 0x020000000000) / 0x1000000
    let o := a % 0x1000000
    if o < 0xA00000 then .vault c o
    else if 0xC00000 ≤ o ∧ o < 0xC40000 then .imem c (o - 0xC00000)
    else if 0xD00000 ≤ o ∧ o < 0xD40000 ∧ o % 0x20000 < 0x12000 then .buffer c (2 + (o - 0xD00000) / 0x20000) (o % 0x20000)
    else if 0xD40000 ≤ o ∧ o < 0xD60000 ∧ o % 0x10000 < 0x9000 then .buffer c (4 + (o - 0xD40000) / 0x10000) (o % 0x10000)
    else .nowhere
  else if 0x030000000000 ≤ a ∧ a < 0x030000000040 then .info
  else .nowhere
/-- The local address of a core's window (R116). -/
def windowOf (c : Nat) : Nat := 0x020000000000 + c * 0x1000000
/-- The local address of a byte of a buffer half (R116, R137). -/
def bufferAt (c half off : Nat) : Nat := windowOf c + (if half < 4 then 0xD00000 + 0x20000 * (half - 2) else 0xD40000 + 0x10000 * (half - 4)) + off
/-- A place is populated memory that fabric operations may reach (R347, R363). -/
def Place.served : Place → Bool
  | .vault _ _ | .hbm _ _ => true
  | _ => false
/-- The key under which the stored code of an address is kept: 8-byte words of vaults and buffers, 16-byte bundles, 64-byte HBM
lines. -/
def codeKey (a : Nat) : Nat :=
  match placeOf a with
  | .hbm _ _ => a / 64 * 64
  | .imem _ _ => a / 16 * 16
  | _ => a / 8 * 8

/-! Performance counters (R440 to R443). -/

/-- Count an event in the counters of one unit: selects and counters given by index (R440). An odd counter with chain set counts the
wraps of its even neighbour. -/
def State.pmcAt (s : State) (sel cnt : Nat → Nat) (event n : Nat) : Nat → Bool → State
  | 0, _ => s
  | left + 1, _ =>
    let i := left
    let s := s.pmcAt sel cnt event n left false
    let e := s.rd (sel i)
    let take := F.corePmcSelEvenEnable.bit e && decide (F.corePmcSelEvenEvent.get e = event) && !(i % 2 = 1 && F.corePmcSelOddChain.bit e)
    if !take then s
    else
      let v := s.fld (cnt i) F.corePmcCount + n
      let s := s.putF (cnt i) F.corePmcCount v
      if v < 2 ^ 48 then s
      else
        let s := s.raiseBit (cnt i) F.corePmcOverflow
        let o := s.rd (sel (i + 1))
        if i % 2 = 0 ∧ F.corePmcSelOddChain.bit o ∧ F.corePmcSelOddEnable.bit o then
          let w := s.fld (cnt (i + 1)) F.corePmcCount + 1
          let s := s.putF (cnt (i + 1)) F.corePmcCount w
          if w < 2 ^ 48 then s else s.raiseBit (cnt (i + 1)) F.corePmcOverflow
        else s
/-- The selects' address within a window: even and odd selects lie 8 bytes apart. -/
def corePmcSel (c i : Nat) : Nat := 0x100000800 + c * 0x10000 + 8 * i
/-- Count a core event (R442). -/
def State.pmcCore (s : State) (c event n : Nat) : State :=
  if s.onyx.pmcOn then s.pmcAt (corePmcSel c) (Reg.corePmc c) event n 8 false else s
/-- Count a router event. -/
def State.pmcRouter (s : State) (c event n : Nat) : State :=
  if s.onyx.pmcOn then
    s.pmcAt (fun i => 0x180030000 + towerOf c * 0x100000 + localOf c * 0x40 + 8 * i) (Reg.twrRpmc (towerOf c) (localOf c)) event n 4 false
  else s
/-- Count a ring-plane endpoint event. -/
def State.pmcRing (s : State) (r event n : Nat) : State :=
  if s.onyx.pmcOn then s.pmcAt (fun i => 0x7700000 + r * 0x200 + 8 * i) (Reg.fabEpmc r) event n 16 false else s
/-- Count the ticks for which an operation has held its tag, up to now (R442). -/
def State.countTag (s : State) (r : Nat) (o : RemOp) : State :=
  let till := if o.enabled then s.now else min s.now o.doneAt
  if till ≤ o.took then s else s.pmcRing r 0x213 (till - o.took)
/-- Count the ticks of every tag in use up to now, before a counter is read or what counts changes (R441, R442). -/
def State.countTags (s : State) : State :=
  s.ops.foldl (fun s x => (s.countTag (x.1 / 8192) x.2).setOp (x.1 / 8192) (x.1 % 8192) { x.2 with took := max s.now x.2.took }) s
/-- Free a tag; the ticks for which it was in use are counted (R442). -/
def State.freeOp (s : State) (r tag : Nat) : State := (match s.op r tag with
  | some o => s.countTag r o
  | none => s).dropOp r tag

/-! Vault and line accesses with their codes (R117, R352). -/

/-- The vault port input of a requester code under the map in force (R190, R193). -/
def State.portInput (s : State) (c code : Nat) : Nat :=
  ((List.range 13).find? fun i => (s.rd (Reg.twrVarbMap (towerOf c) (localOf c))).toNat / 2 ^ (4 * i) % 16 = code).getD 0
/-- The vault's arbiters are frozen (R192). -/
def State.frozen (s : State) (c : Nat) : Bool := s.flag (Reg.twrVarbCtrl (towerOf c) (localOf c)) F.twrVarbCtrlFreeze
/-- The lines of one port cycle for a requester (R115, R187, R188, R190). -/
def portLines (code : Nat) (write : Bool) : Nat := if code = 1 then 1 else if write || (decide (2 ≤ code) && decide (code ≤ 5)) then 4 else 8
/-- The vault lines that bytes touch. -/
def vaultLines (off n : Nat) : List Nat := (List.range ((off + n + 63) / 64 - off / 64)).map fun i => off / 64 + i
/-- Lines in groups of one port cycle each, with the cycle of the first: of two lines in one of the 32 banks the second takes a later one (R115). -/
def portCycles (most cyc : Nat) : List Nat → List Nat → Nat → List (List Nat × Nat)
  | now, [], _ => if now = [] then [] else [(now, cyc)]
  | _, _, 0 => []
  | now, l :: r, n + 1 =>
    if now.length < most && !(now.any fun m => decide (m % 32 = l % 32)) then portCycles most cyc (now ++ [l]) r n
    else (now, cyc) :: portCycles most (cyc + 1) [l] r n
/-- A read request follows an entry of the merge buffer (R194): one of inputs 1 to 10, with the entry's lines, within 32 cycles of its grant. -/
def State.follows (s : State) (c code : Nat) (lines : List Nat) (cyc : Nat) : Bool :=
  let i := s.portInput c code
  decide (1 ≤ i ∧ i ≤ 10) && (s.arb (.vault c)).merge.any fun e => decide (e.1 = lines ∧ e.2 ≤ cyc ∧ cyc ≤ e.2 + 32)
/-- A write of lines removes the merge entries that hold one of them (R195). -/
def State.unmerge (s : State) (c : Nat) (lines : List Nat) : State :=
  let b := s.arb (.vault c)
  if b.merge.any fun e => e.1.any fun l => lines.contains l then
    s.setArb (.vault c) { b with merge := b.merge.filter fun e => !(e.1.any fun l => lines.contains l) }
  else s

/-- Queue a write-back of a corrected vault word; a word read again before its write-back takes another place (R117). -/
def State.queueWb (s : State) (c a : Nat) : State :=
  let k := s.core c
  if k.wbq.length < 8 then s.setCore c { k with wbq := k.wbq ++ [a], wbAt := if k.wbq = [] then s.clk + 1 else k.wbAt }
  else s.bump (Reg.coreVaultEcc c) F.coreVaultEccWbDropped 1
/-- Read one 64-bit vault word: what its stored code counts and queues, and whether it is a poisoned word (R49, R117). -/
def State.readWord (s : State) (c a : Nat) : Bool × State :=
  match s.mark a with
  | .good => (false, s)
  | .ce => (false, (s.bump (Reg.coreVaultEcc c) F.coreVaultEccCeCount 1).queueWb c a)
  | .ue => (true, (s.bump (Reg.coreVaultEcc c) F.coreVaultEccUeCount 1).coreFault c F.coreFaultVaultUe)
  | .poison | .cePoison => (true, s)
/-- Read the vault words that n words from an 8-byte-aligned address name: which of them are poisoned. Those of the lines given are delivered from the
merge buffer, with no reading of their stored codes (R194). -/
def State.readWords (s : State) (c a : Nat) (merged : List Nat) : Nat → List Nat × State
  | 0 => ([], s)
  | n + 1 =>
    let (p, s1) := if (a - windowOf c) / 64 ∈ merged then ((s.readWord c a).1, s) else s.readWord c a
    let (l, s2) := s1.readWords c (a + 8) merged n
    (if p then a :: l else l, s2)
/-- The write-back queue drains one word in each cycle up to `cyc` in which no write was granted, but not while the arbiter is frozen (R117, R192). -/
def State.drainWb (s : State) (c cyc : Nat) : State :=
  let k := s.core c
  if k.wbq = [] ∨ cyc ≤ k.wbAt then s
  else if s.frozen c then s.setCore c { k with wbAt := cyc }
  else
    let ws := k.wbq.take (cyc - k.wbAt)
    let s := ((s.setCore c { k with wbq := k.wbq.drop (cyc - k.wbAt), wbAt := cyc }).setMarks .good ws).unmerge c (ws.map fun w => (w - windowOf c) / 64)
    (s.pmcCore c 0x019 ws.length).pmcCore c 0x01D ws.length
/-- A requester's read takes its port cycles from the present one on: each follows a merge entry or is granted and enters the buffer of 32 (R190, R194).
What it has read is remembered, so that its grant, where the arbiter's command names it, reads nothing twice (DESIGN CHOICE, assumption 99). The lines of
the cycles that followed come with the state. -/
def State.portRead (s : State) (c code off n : Nat) : List Nat × State :=
  (portCycles (portLines code false) s.clk [] (vaultLines off n) (n + 64)).foldl (fun r x =>
    if r.2.follows c code x.1 x.2 then (x.1 ++ r.1, r.2.pmcCore c 0x01C 1)
    else
      let b := r.2.arb (.vault c)
      (r.1, (r.2.setArb (.vault c) { b with merge := (x :: b.merge).take 32, served := ((code, x.1) :: b.served).take 64 }).pmcCore c 0x018 1)) ([], s)
/-- Read bytes of a core's vault at a window offset for a requester: the bytes, and the poisoned words' addresses (R49, R117, R190). -/
def State.vaultRead (s : State) (c code off n : Nat) : List Byte × List Nat × State :=
  let a := windowOf c + off
  let w := a / 8 * 8
  let (merged, s1) := (s.drainWb c s.clk).portRead c code off n
  let (p, s2) := s1.readWords c w merged ((a + n + 7) / 8 - w / 8)
  (s.bytes a n, p, s2)
/-- Write bytes of a core's vault: correct check bits for the words written, poison words where named; pending write-backs of those
words are discarded (R117), and so are merge entries with one of the lines (R195). A word written in part keeps the mark of what is kept (DESIGN CHOICE, assumption 13). -/
def State.vaultWrite (s : State) (c off : Nat) (data : List Byte) (poisoned : List Nat) : State :=
  let a := windowOf c + off
  let w0 := a / 8 * 8
  let ws := (List.range ((a + data.length + 7) / 8 - w0 / 8)).map fun i => w0 + 8 * i
  let s := (s.drainWb c s.clk).setBytes a data
  let s := s.setMarks .good ws
  let s := s.setMarks .poison (poisoned.filter (· ∈ ws))
  let s := s.unmerge c (vaultLines off data.length)
  let k := s.core c
  if k.wbq = [] then s else s.setCore c { k with wbq := k.wbq.filter fun x => !(ws.contains x), wbAt := max k.wbAt (s.clk + 1) }
/-- A corrected HBM line is counted and queued for write-back (R352). -/
def State.lineCorrected (s : State) (k a : Nat) : State :=
  let c := a / 64 % 32
  let s := s.bump (Reg.hbmEcc k) F.hbmEccCeLines 1
  let b := s.arb (.channel k c)
  if b.wbq.length < 8 then s.setArb (.channel k c) { b with wbq := b.wbq ++ [a] } else s.bump (Reg.hbmEcc k) F.hbmEccWbDropped 1
/-- A line as its write-back or the scrub leaves it: the symbol corrected, the poison mark as it was (R352). -/
def correctedMark : Mark → Mark
  | .ce => .good
  | .cePoison => .poison
  | m => m
/-- The stored code of an HBM line after an upset: the poison mark is a symbol of its own, and an uncorrectable line hides it (R352). -/
def upsetMark : Mark → Mark → Mark
  | m, .good => m
  | .ue, _ => .ue
  | _, .ue => .ue
  | .ce, .poison | .cePoison, .poison | .poison, .ce | .cePoison, .ce => .cePoison
  | _, m => m
/-- The stored code of an HBM line is read: whether the line is delivered poisoned (R352). -/
def State.lineCode (s : State) (k a : Nat) : Bool × State :=
  match s.mark a with
  | .good => (false, s)
  | .poison => (true, s)
  | .ce => (false, s.lineCorrected k a)
  | .cePoison => (true, s.lineCorrected k a)
  | .ue => (true, (s.bump (Reg.hbmEcc k) F.hbmEccUeLines 1).log 0x0601 (srcUnit (16 + k) k) [k, a])
/-- The channel of a line. -/
def lineArb (k a : Nat) : Arbiter := .channel k (a / 64 % 32)
/-- A read of a line within 16 ticks of a grant of it (R356). -/
def State.lineFollows (s : State) (k a : Nat) : Bool :=
  (s.arb (lineArb k a)).merge.any fun e => decide (e.1 = [a % 0x2000000000 / 64] ∧ e.2 ≤ s.now ∧ s.now ≤ e.2 + 16)
/-- A line is read at its channel: it follows an earlier grant, where its requester may, or is granted and enters the merge buffer (R352, R356). It is
remembered, so that its grant, where the arbiter's command names it, reads it no second time (DESIGN CHOICE, assumption 99). -/
def State.lineTaken (s : State) (may : Bool) (k a : Nat) : Bool × State :=
  if may && s.lineFollows k a then ((s.lineCode k a).1, s.bump (Reg.hbmStatus k) F.hbmStatusMerges 1)
  else
    let r := s.lineCode k a
    let b := r.2.arb (lineArb k a)
    (r.1, r.2.setArb (lineArb k a) { b with merge := (([a % 0x2000000000 / 64], s.now) :: b.merge).take 32, served := ((0, [a]) :: b.served).take 64 })
/-- Read HBM lines: which lines are delivered poisoned (R352). -/
def State.lineRead (s : State) (may : Bool) (k a : Nat) : Nat → List Nat × State
  | 0 => ([], s)
  | n + 1 =>
    let (p, s1) := s.lineTaken may k a
    let (l, s2) := s1.lineRead may k (a + 64) n
    (if p then a :: l else l, s2)
/-- Read bytes at a populated local address, as a client of that memory whose reads of HBM may follow others (R356) or not: bytes, and the poisoned words
(R49). -/
def State.readFor (s : State) (may : Bool) (a n : Nat) : List Byte × List Nat × State :=
  match placeOf a with
  | .vault c off => s.vaultRead c 1 off n
  | .hbm k _ =>
    let l0 := a / 64 * 64
    let (p, s1) := s.lineRead may k l0 ((a + n + 63) / 64 - l0 / 64)
    (s.bytes a n, (p.map fun l => (List.range 8).map fun i => l + 8 * i).flatten, s1)
  | _ => (s.bytes a n, [], s)
/-- Read as a fabric request, on inputs 2 to 5 of a channel (R342, R356). -/
def State.readAt (s : State) (a n : Nat) : List Byte × List Nat × State := s.readFor true a n
/-- Read as Onyx, on input 1 of a channel (R342). -/
def State.onyxRead (s : State) (a n : Nat) : List Byte × List Nat × State := s.readFor false a n
/-- A write of lines removes their merge entries (R356). -/
def State.unmergeLines (s : State) (k : Nat) (ls : List Nat) : State :=
  ls.foldl (fun s l =>
    let b := s.arb (lineArb k l)
    let m := b.merge.filter fun e => !(e.1.contains (l % 0x2000000000 / 64))
    if m = b.merge then s else s.setArb (lineArb k l) { b with merge := m }) s
/-- Write bytes at a populated local address; a poisoned HBM line takes the poison mark (R49, R117, R353). -/
def State.writeAt (s : State) (a : Nat) (data : List Byte) (poisoned : List Nat) : State :=
  match placeOf a with
  | .vault c off => s.vaultWrite c off data poisoned
  | .hbm k _ =>
    let l0 := a / 64 * 64
    let ls := (List.range ((a + data.length + 63) / 64 - l0 / 64)).map fun i => l0 + 64 * i
    (((s.unmergeLines k ls).setBytes a data).setMarks .good ls).setMarks .poison (ls.filter fun l => poisoned.any fun w => decide (w / 64 * 64 = l))
  | _ => s

end Sys2Proof.Machine
end

