-- ==== Sys2Proof/Machine/Operands.lean ====
section
/-! DEFINITION. Every operand form of a core: scalar, predicate and vector registers, accumulator rows, own-vault offsets, buffers,
tensor descriptors, stream addresses and the paths between them (R99 to R102, R134 to R137). -/

namespace Sys2Proof.Machine

/-! Registers (R99, R101, R102, R128). -/

/-- A scalar register: s0 reads as 0 (R99). -/
def State.sreg (s : State) (c r : Nat) : Word := if r = 0 then 0 else s.rd (Reg.coreS c r)
/-- A predicate: p0 reads as 1 (R99). -/
def State.preg (s : State) (c p : Nat) : Bool := if p = 0 then true else bit (s.fld (Reg.corePred c) F.corePredP) p
/-- Write a scalar register: writes to s0 are discarded (R99). -/
def State.setS (s : State) (c r : Nat) (v : Word) : State := if r = 0 then s else s.wr (Reg.coreS c r) v
/-- Write a predicate: writes to p0 are discarded (R99). -/
def State.setP (s : State) (c p : Nat) (v : Bool) : State := if p = 0 then s else s.putB (Reg.corePred c) ⟨p, p⟩ v
/-- An instruction is enabled (R130). -/
def State.on (s : State) (g : Gate) : Bool := s.preg g.core g.pred.toNat != g.pn
/-- The 64 lanes that lie in 32 words from an address, the even lane in the low half (R101, R128). -/
def State.row (s : State) (a : Nat) : Nat → List Nat
  | 0 => []
  | n + 1 => (s.rd a).toNat % 2 ^ 32 :: (s.rd a).toNat / 2 ^ 32 :: s.row (a + 8) n
/-- Write lanes into words from an address. -/
def State.setRow (s : State) (a : Nat) : List Nat → State
  | l :: h :: r => (s.wr a (BitVec.ofNat 64 (l % 2 ^ 32 + h % 2 ^ 32 * 2 ^ 32))).setRow (a + 8) r
  | _ => s
/-- The 64 lanes of a vector register (R101). -/
def State.vreg (s : State) (c v : Nat) : List Nat := s.row (Reg.coreV c v 0) 32
/-- Write a vector register. -/
def State.setV (s : State) (c v : Nat) (lanes : List Nat) : State := s.setRow (Reg.coreV c v 0) lanes
/-- Row m of an accumulator set (R102). -/
def State.accRow (s : State) (c a m : Nat) : List Nat := s.row (Reg.coreAcc c a m 0) 32
/-- Write a row of an accumulator set. -/
def State.setAccRow (s : State) (c a m : Nat) (lanes : List Nat) : State := s.setRow (Reg.coreAcc c a m 0) lanes
/-- Set every element of an accumulator set to +0.0 (R155). -/
def State.clearAcc (s : State) (c a : Nat) : State :=
  (List.range 64).foldl (fun s m => s.setAccRow c a m (List.replicate 64 0)) s
/-- The 128 B16 elements of a register's lanes (R101). -/
def halves (lanes : List Nat) : List Nat := (lanes.map fun l => [l % 65536, l / 65536]).flatten
/-- Lanes made of B16 elements (R101). -/
def joinHalves : List Nat → List Nat
  | a :: b :: r => (a % 65536 + 65536 * (b % 65536)) :: joinHalves r
  | _ => []

/-! The own vault (R134). -/

/-- The vault's size in a window (R116). -/
def vaultSize : Nat := 0xA00000
/-- An own-vault offset: bits [23:0] of a scalar value (R134). -/
def ownOffset (w : Word) : Nat := w.toNat % 2 ^ 24
/-- An own-vault offset with a signed displacement. -/
def ownAt (w : Word) (d : Int) : Nat := ownOffset (w + BitVec.ofInt 64 d)
/-- Read n bytes at an own-vault offset for a requester code of R190: bytes at and above 0xA0_0000 read 0 (R134). -/
def State.ownRead (s : State) (c code off n : Nat) : List Byte × List Nat × State :=
  if off < vaultSize then
    let m := min n (vaultSize - off)
    let (b, p, s1) := s.vaultRead c code off m
    (padTo n b, p, s1)
  else (List.replicate n 0, [], s)
/-- The part of a write that lies in the vault; the rest is discarded (R134). -/
def ownPart (off : Nat) (data : List Byte) : List Byte := if off < vaultSize then data.take (vaultSize - off) else []

/-! Operand buffers (R105, R137). -/

/-- The size of a half's data store (R137). -/
def dataSize (half : Nat) : Nat := if half < 4 then 0x10000 else 0x8000
/-- The size of a half's scale store (R137). -/
def scaleSize (half : Nat) : Nat := if half < 4 then 0x2000 else 0x1000
/-- Write bytes of a buffer half at a local offset; each word of the store takes its poison mark anew (R49). -/
def State.bufferWrite (s : State) (c half off : Nat) (data : List Byte) (poisoned : List Nat) : State :=
  let a := bufferAt c half off
  let w0 := a / 8 * 8
  let ws := (List.range ((a + data.length + 7) / 8 - w0 / 8)).map fun i => w0 + 8 * i
  ((s.setBytes a data).setMarks .good ws).setMarks .poison poisoned
/-- Some 64-bit word that holds bytes from an address carries a poison mark (R49). -/
def State.marked (s : State) (a n : Nat) : Bool :=
  (List.range ((a + n + 7) / 8 - a / 8)).any fun i => decide (s.mark ((a / 8 + i) * 8) ≠ .good)
/-- A narrow block of a buffer half from its data and scale offsets (R49, R105). -/
def State.bufferBlock (s : State) (c half : Nat) (f : Elem) (off scale : Nat) : Block :=
  let a := bufferAt c half off
  let k := bufferAt c half (dataSize half + scale)
  { codes := f.codes (s.bytes a f.blockSize), k8 := (s.byte k).toNat,
    poisoned := s.marked a f.blockSize || s.marked k 1 }
/-- Sixteen B16 elements of a buffer half; an element in a marked word reads as a poison NaN (R49). -/
def State.bufferB16 (s : State) (c half off : Nat) : List Nat :=
  (List.range 16).map fun i =>
    let a := bufferAt c half (off + 2 * i)
    if s.mark (a / 8 * 8) = .good then s.num a 2 else b16.poison

/-! Tensor descriptors (R136). -/

/-- A tensor descriptor as it stands in registers s(4k) to s(4k + 3). -/
structure Tensor where
  fmt : Nat
  data : Nat
  scale : Nat
  tid : Nat
  tscale : Nat
  pitch : Nat
  index : Nat
deriving DecidableEq, Repr

/-- Read tensor descriptor k (R136). -/
def State.tensor (s : State) (c k : Nat) : Tensor :=
  let a := (s.sreg c (4 * k)).toNat
  let b := (s.sreg c (4 * k + 1)).toNat
  let e := (s.sreg c (4 * k + 2)).toNat
  let f := (s.sreg c (4 * k + 3)).toNat
  ⟨bits a 63 60, bits a 50 0, bits b 50 0, bits e 63 32, bits e 31 0, bits f 63 48, bits f 47 0⟩
/-- Add to a field of a register value, the carry staying within the field (R165). -/
def addField (w : Word) (f : Fld) (n : Nat) : Word := f.put w (f.get w + n)

/-! Stream addresses and paths (R120, R135). -/

/-- The package id of a stream address. -/
def pkgOf (a : Nat) : Nat := bits a 50 45
/-- The local part of a stream address. -/
def localAddr (a : Nat) : Nat := bits a 44 0

/-- The paths of R120 and R135. -/
inductive Path where
  | own | below | side | mesh (hops : Nat) | viaL0 | floor | outside
deriving DecidableEq, Repr

/-- The column and row of a core in its layer (R12). -/
def xOf (c : Nat) : Nat := c % 8
/-- The row of a core in its layer (R12). -/
def yOf (c : Nat) : Nat := c / 8 % 8
/-- The hops between two positions of a layer. -/
def hopsOf (a b : Nat) : Nat := (xOf a - xOf b) + (xOf b - xOf a) + (yOf a - yOf b) + (yOf b - yOf a)
/-- The path from a core to a place of its own package (R135). -/
def pathTo (c a : Nat) : Path :=
  let toCore (d : Nat) : Path :=
    if d = c then .own
    else if towerOf d ≠ towerOf c then .outside
    else if d + 64 = c then .below
    else if layerOf d = layerOf c then (if hopsOf c d = 1 then .side else .mesh (hopsOf c d))
    else .viaL0
  match placeOf a with
  | .vault d _ => toCore d
  | .imem d _ => toCore d
  | .buffer d _ _ => toCore d
  | .hbm k _ => if k / 4 = tileOf (towerOf c) then .floor else .outside
  | .nowhere =>
    if 0x020000000000 ≤ a ∧ a < 0x020000000000 + 3072 * 0x1000000 then toCore ((a - 0x020000000000) / 0x1000000) else .outside
  | .info => .outside
/-- The path of a core to a stream address (R135). -/
def State.path (s : State) (c a : Nat) : Path := if pkgOf a = s.pkg then pathTo c (localAddr a) else .outside
/-- The bytes of one port cycle on a path, reading and writing (R115, R120). -/
def Path.width : Path → Nat × Nat
  | .own | .below => (512, 256)
  | .side => (256, 256)
  | _ => (64, 64)
/-- The path latency L of R120 in cycles; a path by way of L0 has its latency in ticks (R307). -/
def Path.latency : Path → Nat
  | .own => 7 | .below => 9 | .side => 11 | .mesh h => 7 + 2 * h | _ => 0
/-- The path ends in the core's own tower. -/
def Path.inTower : Path → Bool
  | .floor | .outside => false
  | _ => true

end Sys2Proof.Machine
end

