-- ==== Sys2Proof/Machine/Flags.lean ====
section
/-! DEFINITION. Every flag and count that arithmetic sets: the inclusion counters with their saturation, the held set and the
inclusion record (R68 to R76), and the checks of a checksum instruction (R78 to R80). -/

namespace Sys2Proof.Machine

/-! Saturating counts (R68). -/

/-- Add to a count: the sum stopped at the largest value, and whether an addition left it there. -/
def countAdd (limit a n : Nat) : Nat × Bool := (satAdd limit a n, decide (0 < n ∧ limit ≤ a + n))

/-- The set of reports that one addition of sets gives (R68, R73). -/
def Incl.plus (a b : Incl) : Incl :=
  let e := countAdd (2 ^ 48 - 1) a.elem b.elem
  let s := countAdd (2 ^ 48 - 1) a.sat b.sat
  let f := countAdd (2 ^ 48 - 1) a.flush b.flush
  let p := countAdd (2 ^ 32 - 1) a.poisb b.poisb
  let r := countAdd (2 ^ 32 - 1) a.rsvd b.rsvd
  let q := countAdd (2 ^ 32 - 1) a.ppair b.ppair
  let d := countAdd (2 ^ 32 - 1) a.capDrop b.capDrop
  let g := countAdd (2 ^ 32 - 1) a.capDef b.capDef
  let h := countAdd (2 ^ 16 - 1) a.faults b.faults
  { elem := e.1, sat := s.1, flush := f.1, poisb := p.1, rsvd := r.1, ppair := q.1, capDrop := d.1, capDef := g.1,
    maxMag := max a.maxMag b.maxMag, faults := h.1, residual := a.residual || b.residual,
    saturated := a.saturated || b.saturated || e.2 || s.2 || f.2 || p.2 || r.2 || q.2 || d.2 || g.2 || h.2 }

/-- The live inclusion counters as a set (R69, R70). -/
def State.live (s : State) (c : Nat) : Incl where
  elem := s.fld (Reg.coreInclElem c) F.coreInclElemCount
  sat := s.fld (Reg.coreInclSat c) F.coreInclSatCount
  flush := s.fld (Reg.coreInclFlush c) F.coreInclFlushCount
  poisb := s.fld (Reg.coreInclPoisb c) F.coreInclPoisbCount
  rsvd := s.fld (Reg.coreInclRsvd c) F.coreInclRsvdCount
  ppair := s.fld (Reg.coreInclPpair c) F.coreInclPpairCount
  capDrop := s.fld (Reg.coreInclCapdrop c) F.coreInclCapdropCount
  capDef := s.fld (Reg.coreInclCapdef c) F.coreInclCapdefCount
  maxMag := s.fld (Reg.coreInclMaxmag c) F.coreInclMaxmagMaxMag
  faults := s.fld (Reg.coreInclStatus c) F.coreInclStatusArithFaults
  residual := s.flag (Reg.coreInclStatus c) F.coreInclStatusResidualUsed
  saturated := s.flag (Reg.coreInclStatus c) F.coreInclStatusCounterSaturated
/-- Write the live inclusion counters; arith_fault_sticky is left (R70, R73). -/
def State.setLive (s : State) (c : Nat) (i : Incl) : State :=
  let s := s.putF (Reg.coreInclElem c) F.coreInclElemCount i.elem
  let s := s.putF (Reg.coreInclSat c) F.coreInclSatCount i.sat
  let s := s.putF (Reg.coreInclFlush c) F.coreInclFlushCount i.flush
  let s := s.putF (Reg.coreInclPoisb c) F.coreInclPoisbCount i.poisb
  let s := s.putF (Reg.coreInclRsvd c) F.coreInclRsvdCount i.rsvd
  let s := s.putF (Reg.coreInclPpair c) F.coreInclPpairCount i.ppair
  let s := s.putF (Reg.coreInclCapdrop c) F.coreInclCapdropCount i.capDrop
  let s := s.putF (Reg.coreInclCapdef c) F.coreInclCapdefCount i.capDef
  let s := s.putF (Reg.coreInclMaxmag c) F.coreInclMaxmagMaxMag i.maxMag
  let s := s.putF (Reg.coreInclStatus c) F.coreInclStatusArithFaults i.faults
  let s := s.putB (Reg.coreInclStatus c) F.coreInclStatusResidualUsed i.residual
  s.putB (Reg.coreInclStatus c) F.coreInclStatusCounterSaturated i.saturated
/-- The first arithmetic fault of a core in a step goes to Onyx (R80). -/
def State.noteFaults (s : State) (c n : Nat) : State :=
  if n = 0 then s
  else
    let s := s.raiseBit (Reg.coreInclStatus c) F.coreInclStatusArithFaultSticky
    let s := { s with boundary := { s.boundary with faulted := true } }
    if (s.core c).faultedStep then s
    else (s.modCore c fun k => { k with faultedStep := true }).log 0x0404 (srcCore c) [(s.rd (Reg.coreStep c)).toNat, n]
/-- A report of an instruction of record generation `gen` arrives: the live set, or the held set while an earlier record store has
not formed its record (R73). -/
def State.report (s : State) (c gen : Nat) (i : Incl) : State :=
  let s := if (s.core c).formed < gen then s.modCore c fun k => { k with held := k.held.plus i }
    else s.setLive c ((s.live c).plus i)
  s.noteFaults c i.faults

/-! Inclusion records (R72 to R74). -/

/-- The 56 bytes of a record that its check covers. -/
def Incl.recordBody (i : Incl) (tid step contributors : Nat) : List Byte :=
  bytesOf tid 4 ++ bytesOf step 4 ++ bytesOf i.elem 6 ++ bytesOf contributors 2 ++ bytesOf i.sat 6 ++ bytesOf 0 2 ++
    bytesOf i.flush 6 ++ bytesOf i.faults 2 ++ bytesOf i.poisb 4 ++ bytesOf i.rsvd 4 ++ bytesOf i.ppair 4 ++ bytesOf i.maxMag 4 ++
    bytesOf i.capDrop 4 ++ bytesOf i.capDef 4
/-- The 64 bytes of a record (R72): its check covers bytes 0x00 to 0x37. -/
def Incl.record (i : Incl) (tid step contributors : Nat) (mixed : Bool) : List Byte :=
  let b := i.recordBody tid step contributors
  let flags := b2n i.residual + 2 * b2n (decide (i.faults ≠ 0)) + 4 * b2n i.saturated + 8 * b2n mixed
  b ++ bytesOf flags 4 ++ bytesOf (crc32c b) 4
/-- What a stored record holds: its counts, tensor identifier, step, contributors, mixed and arith_fault flags, and whether its
check matches. -/
def readRecord (b : List Byte) : Incl × Nat × Nat × Nat × Bool × Bool × Bool :=
  let fl := fieldAt b 0x38 4
  ({ elem := fieldAt b 0x08 6, sat := fieldAt b 0x10 6, flush := fieldAt b 0x18 6, faults := fieldAt b 0x1E 2,
     poisb := fieldAt b 0x20 4, rsvd := fieldAt b 0x24 4, ppair := fieldAt b 0x28 4, maxMag := fieldAt b 0x2C 4,
     capDrop := fieldAt b 0x30 4, capDef := fieldAt b 0x34 4, residual := bit fl 0, saturated := bit fl 2 },
   fieldAt b 0 4, fieldAt b 4 4, fieldAt b 0x0E 2, bit fl 3, bit fl 1, decide (fieldAt b 0x3C 4 = crc32c (b.take 0x38)))
/-- Some count of the set is at its field's largest value (R68, R74). -/
def Incl.full (i : Incl) : Bool :=
  decide (i.elem = 2 ^ 48 - 1 ∨ i.sat = 2 ^ 48 - 1 ∨ i.flush = 2 ^ 48 - 1 ∨ i.poisb = 2 ^ 32 - 1 ∨ i.rsvd = 2 ^ 32 - 1 ∨ i.ppair = 2 ^ 32 - 1 ∨
    i.capDrop = 2 ^ 32 - 1 ∨ i.capDef = 2 ^ 32 - 1 ∨ i.faults = 2 ^ 16 - 1)
/-- Merge two records (R74): counter_saturated is set wherever a sum is the field's largest value. -/
def mergeRecords (a b : List Byte) : List Byte :=
  let (ia, ta, sa, ca, ma, fa, oka) := readRecord a
  let (ib, tb, sb, cb, mb, fb, okb) := readRecord b
  let za := if oka then ia else {}
  let zb := if okb then ib else {}
  let na := if oka then ca else 0
  let nb := if okb then cb else 0
  let n := satAdd (2 ^ 16 - 1) na nb
  let i := za.plus zb
  let i := { i with saturated := i.saturated || i.full || decide (n = 2 ^ 16 - 1) }
  let mixed := !oka || !okb || ma || mb || decide (ta ≠ tb ∨ sa ≠ sb)
  let tid := if oka ∨ ¬ okb then ta else tb
  let step := if oka ∨ ¬ okb then sa else sb
  let body := i.recordBody tid step n
  let flags := b2n i.residual + 2 * b2n ((fa && oka) || (fb && okb)) + 4 * b2n i.saturated + 8 * b2n mixed
  body ++ bytesOf flags 4 ++ bytesOf (crc32c body) 4
/-- Form the record of a record store (R73, R171): the bytes of the record are kept for the engine, the live set takes the held one. A
record store that is not enabled forms nothing, at the same time (R99). -/
def State.formRecord (s : State) (c tid due : Nat) (on : Bool) : State :=
  if !on then s.modCore c fun k => { k with recordDue := none }
  else
    let b := (s.live c).record tid ((s.rd (Reg.coreStep c)).toNat % 2 ^ 32) 1 false
    let h := (s.core c).held
    let s := s.setLive c h
    s.modCore c fun k => { k with records := (due, b) :: k.records, held := {}, formed := k.formed + 1, recordDue := none }

/-! Checksum columns (R78 to R80). -/

/-- The F32 value of an exact sum, rounded once. -/
def Contrib.toF32 : Contrib → Nat
  | .val m e => f32.round m e
  | .inf n => f32.withSign n f32.inf
  | .poison => f32.poison
  | .canon => f32.canon
/-- A checked column faults (R79): infinities fault unless they are equal, whatever the bound (DEDUCED, assumption 30). -/
def Column.faults (k : Column) (alpha beta : Nat) : Bool :=
  if k.skip then false
  else
    let got := k.got.toF32
    let ref := k.ref.toF32
    let bound := f32.add alpha (f32.mul beta k.mag.toF32)
    let diff := f32.mag (f32.sub got ref)
    if f32.isInf got && f32.isInf ref then decide (got ≠ ref)
    else f32.isNaN diff || f32.isNaN bound || f32.lt bound diff

end Sys2Proof.Machine
end

