-- ==== Sys2Proof/Machine/Cycle.lean ====
section
/-! DEFINITION. The cycles of a core: writes on their way (R98, R133), the matrix array (R103 to R110), what a command does to a core's
clock before it acts, and whether the core issues (R93, R97, R99). -/

namespace Sys2Proof.Machine

/-! Writes on their way. -/

/-- The order of a slot's register writes that land together: the higher slot's lands last (R133). -/
def slotPri : Slot → Nat
  | .stream => 0 | .vector => 1 | .matrix => 2 | .control => 3
/-- The order of vault writes granted in one cycle: the highest input is granted first, so the lowest one's data remains (R127, R190). -/
def State.portPri (s : State) (c code : Nat) : Nat := 16 - s.portInput c code
/-- Two writes of one slot that land together contend for one register or accumulator row, which R133 does not order. -/
def Eff.contends : Eff → Eff → Bool
  | .setS a _, .setS b _ => decide (a = b)
  | .setP a _, .setP b _ => decide (a = b)
  | .setV a _, .setV b _ => decide (a = b)
  | .accRow a m _, .accRow b n _ => decide (a = b ∧ m = n)
  | .accRow a _ _, .accClear b => decide (a = b)
  | .accClear a, .accRow b _ _ => decide (a = b)
  | .fold a m _, .accRow b n _ => decide (a = b ∧ m = n)
  | .fold a _ _, .accClear b => decide (a = b)
  | _, _ => false
/-- Place a write in the order of landing; `first` puts it before a write of its own slot that it contends with (DESIGN CHOICE, assumption 15). -/
def landInto (first : Bool) (x : Landing) : List Landing → List Landing
  | [] => [x]
  | y :: r =>
    if y.due < x.due ∨ (y.due = x.due ∧ y.pri < x.pri) then y :: landInto first x r
    else if y.due = x.due ∧ y.pri = x.pri then
      (if first && y.eff.contends x.eff then x :: y :: r else y :: landInto first x r)
    else x :: y :: r
/-- A write that lands in cycle `due` (R133). Between two writes of one slot to one register in one cycle a free value chooses. -/
def State.send (s : State) (c due pri : Nat) (e : Eff) : State :=
  let k := s.core c
  let x : Landing := ⟨due, pri, e⟩
  if k.landing.any fun y => decide (y.due = due ∧ y.pri = pri) && y.eff.contends e then
    let (v, s) := s.free
    s.setCore c { k with landing := landInto (v % 2 = 1) x k.landing }
  else s.setCore c { k with landing := landInto false x k.landing }
/-- A report that arrives `due` cycles on, of the record generation in force (R73, R171). -/
def State.sendReport (s : State) (c due : Nat) (i : Incl) : State :=
  let s := s.modCore c fun k => { k with lastReport := max k.lastReport due }
  s.send c due 8 (.report (s.core c).gen i)
/-- An instruction that would report, disabled: it is taken to report at its latency (R171). -/
def State.reportTime (s : State) (c due : Nat) : State := s.modCore c fun k => { k with lastReport := max k.lastReport due }

/-- A write lands. -/
def State.apply (s : State) (c : Nat) : Eff → State
  | .setS r v => s.setS c r v
  | .setP p v => s.setP c p v
  | .setV v l => s.setV c v l
  | .vault off data po => s.vaultWrite c off data po
  | .buffer half off data po => s.bufferWrite c half off data po
  | .accRow a m l => s.setAccRow c a m l
  | .accClear a => s.clearAcc c a
  | .fold a m row => s.setAccRow c a m (List.zipWith foldAcc (s.accRow c a m) row)
  | .report gen i => s.report c gen i
  | .check pd gen cols alpha beta =>
    let n := (cols.filter fun k => k.faults alpha beta).length
    (s.setP c pd (decide (0 < n))).report c gen { faults := n }
  | .form tid due on => s.formRecord c tid due on

/-! The matrix array (R103 to R106, R154). -/

/-- Array cycles of an instruction (R104). -/
def ArrayOp.occ (o : ArrayOp) : Nat := o.blocks * (64 / o.rows)
/-- The contribution of A row m, block b against B column n (R53, R54, R105). -/
def State.pairAt (s : State) (c : Nat) (o : ArrayOp) (m n b : Nat) : Contrib :=
  if o.fa = .b16 then
    b16Contrib (s.bufferB16 c o.aHalf (o.aOff + m * o.blocks * 32 + 32 * b)) (s.bufferB16 c o.bHalf (n * o.blocks * 32 + 32 * b))
  else
    pairContrib o.fa o.fb
      (s.bufferBlock c o.aHalf o.fa (o.aOff + (m * o.blocks + b) * o.fa.blockSize) (o.aOff / 8 + 64 * m + b))
      (s.bufferBlock c o.bHalf o.fb ((n * o.blocks + b) * o.fb.blockSize) (64 * n + b))
/-- The copies A8 and B8 of a checksum instruction (R78, R109). -/
def State.copyBlocks (s : State) (c : Nat) (o : ArrayOp) (m n b : Nat) : Block × Block :=
  (s.bufferBlock c o.aHalf .f8a (0x8000 + (m * o.blocks + b) * 16) (0x1000 + 64 * m + b),
   s.bufferBlock c (9 - o.bHalf) .f8a ((n * o.blocks + b) * 16) (64 * n + b))
/-- The sum of the magnitudes of the element products of a pair of copies (R78). -/
def magContrib (a b : Block) : Contrib :=
  let ka := k8Val a.k8
  let kb := k8Val b.k8
  .val (dot ((a.values .f8a).map fun v => (v.natAbs : Int)) ((b.values .f8a).map fun v => (v.natAbs : Int)) * ka.1 * kb.1)
    (ka.2 + kb.2 + Elem.f8a.unit + Elem.f8a.unit)
/-- One checked column takes the pair of row m, block b (R78, R79). -/
def Column.take (k : Column) (got : Contrib) (a8 b8 : Block) : Column :=
  if k.skip || decide (got = .poison) || a8.bad .f8a || b8.bad .f8a then { k with skip := true }
  else { k with got := k.got.plus got, ref := k.ref.plus (pairContrib .f8a .f8a a8 b8), mag := k.mag.plus (magContrib a8 b8) }
/-- The check unit takes the pairs of one row and block (R78, R104). -/
def State.checkRow (s : State) (c : Nat) (o : ArrayOp) (m b : Nat) (row : List Contrib) : List Column :=
  (List.range 64).map fun n =>
    let p := s.copyBlocks c o m n b
    (o.cols.getD n {}).take (row.getD n (.val 0 0)) p.1 p.2
/-- The reserved T2 codes of the A block of row m, block b, which the array takes once (R38). -/
def State.reservedAt (s : State) (c : Nat) (o : ArrayOp) (m b : Nat) : Nat :=
  if o.fa = .t2 then (s.bufferBlock c o.aHalf .t2 (o.aOff + (m * o.blocks + b) * 4) (o.aOff / 8 + 64 * m + b)).reserved .t2 else 0
/-- The rows of one array cycle: fold each and, for a checksum instruction, check it (R104). -/
def State.arrayRows (s : State) (c : Nat) (o : ArrayOp) (b : Nat) : List Nat → State × ArrayOp
  | [] => (s, o)
  | m :: r =>
    let row := (List.range 64).map fun n => s.pairAt c o m n b
    let o2 := if o.check.isSome then { o with cols := s.checkRow c o m b row } else o
    let bad := (row.filter (· = .poison)).length
    let o2 := { o2 with ppair := o2.ppair + bad, rsvd := o2.rsvd + s.reservedAt c o m b }
    let s := s.send c (o.cyc + o.next + 11) 2 (.fold o.acc m row)
    s.arrayRows c o2 b r
/-- What the end of the occupancy sends: the report, and for a checksum instruction the check's result (R80, R171). -/
def State.arrayEnd (s : State) (c : Nat) (o : ArrayOp) : State :=
  if !o.enabled then s
  else
    match o.check with
    | none => s.send c (o.cyc + o.occ + 10) 8 (.report o.gen { ppair := o.ppair, rsvd := o.rsvd })
    | some (pd, al, be) =>
      let s := s.send c (o.cyc + o.occ + 14) 8 (.report o.gen { ppair := o.ppair, rsvd := o.rsvd })
      s.send c (o.cyc + o.occ + 14) 2 (.check pd o.gen o.cols al be)
/-- The array's next cycle (R106, R110). -/
def State.arrayCycle (s : State) (c : Nat) (o : ArrayOp) : State :=
  let per := 64 / o.rows
  let (s, o) := if o.enabled then s.arrayRows c o (o.next / per) ((List.range o.rows).map fun i => o.rows * (o.next % per) + i) else (s, o)
  let o := { o with next := o.next + 1 }
  if o.next < o.occ then s.modCore c fun k => { k with array := some o }
  else (s.modCore c fun k => { k with array := none }).arrayEnd c o

/-- What is due lands in its cycle; a write to a frozen vault waits at its port (R192), one to a fenced vault is not applied (R205). -/
def State.land (s : State) (c : Nat) (x : Landing) : State :=
  let s := { s with clk := x.due }
  match x.eff with
  | .vault off data po =>
    if s.coreFenced c then s
    else if s.frozen c then s.modCore c fun k => { k with waiting := k.waiting ++ [.write x.pri off data po] } else s.apply c x.eff
  | e => s.apply c e
/-- Land what is due by a cycle, in the order of the cycles, the array's reads among it (R106, R110, R127). -/
def State.landSteps (s : State) (c upto : Nat) : Nat → State
  | 0 => s
  | n + 1 =>
    let k := s.core c
    match k.array, k.landing with
    | none, [] => s
    | none, x :: r =>
      if x.due ≤ upto then ((s.setCore c { k with landing := r }).land c x).landSteps c upto n else s
    | some o, [] => if o.cyc + o.next ≤ upto then (s.arrayCycle c o).landSteps c upto n else s
    | some o, x :: r =>
      if x.due ≤ o.cyc + o.next then
        (if x.due ≤ upto then ((s.setCore c { k with landing := r }).land c x).landSteps c upto n else s)
      else if o.cyc + o.next ≤ upto then (s.arrayCycle c o).landSteps c upto n
      else s
/-- Land what is due by a cycle; the cycle of the command at hand stands again afterwards. -/
def State.landCore (s : State) (c upto n : Nat) : State := { s.landSteps c upto n with clk := s.clk }
/-- How many happenings landing may have to do. -/
def Core.work (k : Core) : Nat :=
  k.landing.length + (match k.array with | none => 0 | some o => (o.rows + 2) * o.occ + 4)
/-- The cycles that a core's clock has counted since it was last looked at (R442 event 0x000). -/
def State.countCycles (s : State) (c cyc : Nat) : State :=
  let k := s.core c
  if k.seen < cyc then (s.setCore c { k with seen := cyc }).pmcCore c 0x000 (cyc - k.seen) else s
/-- The stretched periods that have come by a cycle count in every core of the tower (R125, R200). -/
def State.settleDroop (s : State) (t cyc : Nat) : State :=
  let w := s.tower t
  let n := (w.droops.filter (· ≤ cyc)).length
  if n = 0 then s
  else (List.range 256).foldl (fun s l => (s.bump (Reg.coreStretch (256 * t + l)) F.coreStretchCount n).pmcCore (256 * t + l) 0x00A n)
    (s.setTower t { w with droops := w.droops.filter (cyc < ·) })
/-- Bring a core to a cycle: everything that lands by then has landed, the write-back queue has used its free cycles, stretched periods are counted. -/
def State.toCycle (s : State) (c cyc : Nat) : State :=
  (((s.landCore c cyc (s.core c).work).drainWb c cyc).countCycles c cyc).settleDroop (towerOf c) cyc
/-- Bring the clock and a core to a command's moment. -/
def State.toCore (s : State) (t : At) (c : Nat) : State := (s.at t).toCycle c t.cyc

/-! Issue. -/

/-- The core issues instructions (R93, R96, R97, R128): the device runs, the core is enabled and not fenced, and either its bundle is
issuing in this cycle or its program is neither halted nor stopped, it waits for nothing, and a taken branch's dead cycles are over. -/
def State.issues (s : State) (c cyc : Nat) : Bool :=
  s.running && s.flag (Reg.coreCtrl c) F.coreCtrlEnable && !s.coreFenced c &&
    (let k := s.core c
     decide (k.bundle = some cyc) || (decide (k.wait = .none) && !k.halted && !k.stopped && decide (k.ready ≤ cyc)))
/-- A command about a core. -/
def onCore (t : At) (c : Nat) (s : State) (f : State → State) : Result :=
  if c < Config.cores then .next (if (s.at t).dead then s.at t else f (s.toCore t c)) else .fault .noSuchUnit
/-- A slot instruction that acts whether or not it is enabled, told which. -/
def onSlot (t : At) (g : Gate) (s : State) (f : Bool → State → State) : Result :=
  onCore t g.core s fun s => if s.issues g.core t.cyc then f (s.on g) s else s
/-- An enabled instruction counts in the performance counters (R442 event 0x002). -/
def State.ran (s : State) (c : Nat) : State := s.pmcCore c 0x002 1
/-- A slot instruction that does nothing when it is not enabled (R99). -/
def whenOn (t : At) (g : Gate) (s : State) (f : State → State) : Result :=
  onSlot t g s fun on s => if on then (f s).ran g.core else s
/-- A control instruction that always executes (R131). -/
def always (t : At) (c : Nat) (s : State) (f : State → State) : Result :=
  onCore t c s fun s => if s.issues c t.cyc then (f s).ran c else s
/-- Stall cycles that CORE_STALL counts (R97). -/
def State.stall (s : State) (c n : Nat) : State :=
  ((s.bump (Reg.coreStall c) F.coreStallCount n).pmcCore c 0x006 n).modCore c fun k => { k with heldBy := k.heldBy + n }
/-- The next bundle is held from a cycle. -/
def State.waits (s : State) (c cyc : Nat) (w : Wait) : State := s.modCore c fun k => { k with wait := w, waitFrom := cyc }
/-- A stage of the sampled bundle completes (R445). -/
def State.markStage (s : State) (c i cyc : Nat) (which : Sample → Bool) : State :=
  let mark (m : Sample) : Sample := if which m then { m with stages := m.stages.set i (some (cyc - m.cyc)) } else m
  match (s.core c).sample with
  | none => s
  | some m => s.modCore c fun k => { k with sample := some (mark m) }
/-- The next bundle may issue in a cycle: a wait ends, and its cycles count in the performance counters (R442 events 0x007, 0x008). -/
def State.release (s : State) (c cyc : Nat) : State :=
  let k := s.core c
  let n := cyc - (k.waitFrom + 1)
  let s := match k.wait with
    | .none | .step | .governor => s
    | .time _ _ => s.pmcCore c 0x007 n
    | _ => s.pmcCore c 0x008 n
  (s.modCore c fun k => { k with wait := .none, ready := max k.ready cyc }).markStage c 0 cyc fun m => m.waits && decide (m.stages.head? = some none)

end Sys2Proof.Machine
end

