-- ==== Sys2Proof/Machine/LineCode.lean ====
section
/-! DEFINITION. What a wavelength of an optical link carries: the flit bits of each wavelength and the flit slots (R209, R222), the Reed–Solomon code and
the scrambling of its line bits (R210), identification flits (R212, R213). -/

namespace Sys2Proof.Machine

/-! Wavelengths and slots (R209, R212, R222). -/

/-- The 544 bits of a flit (R208). -/
def flitWord (f : Flit) : Nat := f.crc * 2 ^ 528 + f.seq * 2 ^ 516 + f.type * 2 ^ 514 + f.body
/-- The bits of a flit that wavelength k carries, lowest first: [34k + 33 : 34k] (R209). -/
def waveBits (f : Flit) (k : Nat) : Nat := bits (flitWord f) (34 * k + 33) (34 * k)
/-- The 68 bits of a flit that trunk t's working wavelength carries at half width (R222). -/
def trunkBits (f : Flit) (t : Nat) : Nat := bits (flitWord f) (68 * t + 67) (68 * t)
/-- The next flit slot from m on in which a flit of w slots may start: not in a control slot, m ≡ 0 mod 64, nor across one (R212). -/
def nextSlot (control : Bool) (w m : Nat) : Nat :=
  if !control then m
  else if m % 64 < w then m - m % 64 + w
  else if 64 < m % 64 + w then m - m % 64 + 64 + w
  else m
/-- The slot after the last of n flits of w slots each, from slot m on. -/
def slotsAfter (control : Bool) (w : Nat) : Nat → Nat → Nat
  | m, 0 => m
  | m, n + 1 => slotsAfter control w (nextSlot control w m + w) n

/-! The code of a wavelength (R210). -/

/-- A product in GF(2^10), over x^10 + x^3 + 1, by the bits of the second factor from bit n − 1 down. -/
def gfMulBits (a b : Nat) : Nat → Nat → Nat
  | 0, r => r
  | n + 1, r =>
    let r := 2 * r
    let r := if bit r 10 then r ^^^ 0x409 else r
    gfMulBits a b n (if bit b n then r ^^^ a else r)
/-- A product in GF(2^10). -/
def gfMul (a b : Nat) : Nat := gfMulBits a b 10 0
/-- A power of α = x. -/
def gfPow : Nat → Nat
  | 0 => 1
  | n + 1 => gfMul 2 (gfPow n)
/-- A polynomial, highest coefficient first, times (x − root). -/
def polyStep (p : List Nat) (root : Nat) : List Nat := List.zipWith (· ^^^ ·) (p ++ [0]) (0 :: p.map (gfMul root))
/-- The generator polynomial (x − α^0) … (x − α^7), highest coefficient first. -/
def rsGenerator : List Nat := (List.range 8).foldl (fun p i => polyStep p (gfPow i)) [1]
/-- One data symbol enters the division by the generator; `rem` is the remainder so far. -/
def rsStep (rem : List Nat) (d : Nat) : List Nat :=
  let q := d ^^^ rem.headD 0
  List.zipWith (· ^^^ ·) (rem.tail ++ [0]) (rsGenerator.tail.map (gfMul q))
/-- The eight parity symbols of data symbols, the first the highest coefficient. -/
def rsParity (data : List Nat) : List Nat := data.foldl rsStep (List.replicate 8 0)
/-- The codeword of 128 data symbols: data, then parity (R210). -/
def rsCodeword (data : List Nat) : List Nat := data ++ rsParity data
/-- The value of a codeword's polynomial at a point: 0 at α^0 to α^7. -/
def rsValue (word : List Nat) (x : Nat) : Nat := word.foldl (fun v c => gfMul v x ^^^ c) 0
/-- The symbols that the code of eight parity symbols corrects in a codeword (R210). -/
def rsCorrects : Nat := 8 / 2
/-- The next state of the PRBS-31 generator (x^31 + x^28 + 1): the sum of its bits 30 and 27 enters at bit 0 (R210; assumption 104). -/
def prbsNext (x : Nat) : Nat := (2 * x + (b2n (bit x 30) + b2n (bit x 27)) % 2) % 2 ^ 31
/-- The first n bits of the PRBS-31 sequence from a state: the bits that leave at bit 30. -/
def prbsBits : Nat → Nat → List Bool
  | _, 0 => []
  | x, n + 1 => bit x 30 :: prbsBits (prbsNext x) n
/-- The 1,360 line bits of a codeword, scrambled from the state of all ones (R210). -/
def lineBits (data : List Nat) : List Bool :=
  List.zipWith (fun a b => a != b) (((rsCodeword data).map fun d => (List.range 10).map (bit d)).flatten) (prbsBits (2 ^ 31 - 1) 1360)
/-- The data symbols of a wavelength's bit stream, bit 0 of the first symbol sent first, for n whole symbols (R210). -/
def symbolsOf : List Bool → Nat → List Nat
  | _, 0 => []
  | l, n + 1 => ((l.take 10).foldr (fun b v => 2 * v + b2n b) 0) :: symbolsOf (l.drop 10) n
/-- The line bits of wavelength k for a codeword's worth of flits, which run on across codewords (R209, R210): those of the n-th codeword. -/
def waveLine (flits : List Flit) (k n : Nat) : List Bool :=
  let l := (flits.map fun f => (List.range 34).map (bit (waveBits f k))).flatten
  lineBits (symbolsOf ((l.drop (1280 * n)).take 1280 ++ List.replicate 1280 false) 128)

/-! Idle and training flits (R212, R213). -/

/-- The CRC of a flit over its bits 527 to 0 (R211). -/
def crcOf (f : Flit) : Nat := crc16 (f.seq * 2 ^ 516 + f.type * 2 ^ 514 + f.body) 528 0xFFFF
/-- A control flit of a kind with the channel of every wavelength and the sender's endpoint number: bits [34k + 11 : 34k + 6] hold channel k, those of
k = 15 lie in the seq field (R213). -/
def identFlit (kind endpoint : Nat) (channel : Nat → Nat) : Flit :=
  let b := (List.range 15).foldl (fun b k => b + channel k % 64 * 2 ^ (34 * k + 6)) (kind * 2 ^ 504 + endpoint % 64 * 2 ^ 498)
  let f : Flit := { seq := channel 15 % 64, type := 0, body := b }
  { f with crc := crcOf f }
/-- The channel numbers that an idle or training flit holds (R213). -/
def identChannels (f : Flit) : List Nat := (List.range 16).map fun k => bits (waveBits f k) 11 6
/-- The 30 bits of a link-control entry (R214). -/
def entryBits (e : CtlEntry) : Nat :=
  e.kind % 8 * 2 ^ 27 + e.plane % 4 * 2 ^ 25 + e.peer % 32 * 2 ^ 20 + e.lane % 32 * 2 ^ 15 + e.value % 4096 * 2 ^ 3
/-- A link-control flit: entry i in bits [30i + 29 : 30i] of its body (R212, R214). -/
def controlFlit (entries : List CtlEntry) : Flit :=
  let b := (entries.zipIdx.take 16).foldl (fun b x => b + entryBits x.1 * 2 ^ (30 * x.2)) (1 * 2 ^ 504)
  let f : Flit := { seq := 0, type := 0, body := b }
  { f with crc := crcOf f }
/-- The entries of a link-control flit's body that are not empty (R214). -/
def controlEntries (body : Nat) : List CtlEntry :=
  ((List.range 16).map fun i =>
    let x := bits body (30 * i + 29) (30 * i)
    { kind := bits x 29 27, plane := bits x 26 25, peer := bits x 24 20, lane := bits x 19 15, value := bits x 14 3 : CtlEntry }).filter fun e => decide (e.kind ≠ 0)

/-! D2D frames (R275). -/

/-- The data wires of a width code: 256, 192 or 128. -/
def widthWires (width : Nat) : Nat := 256 - 64 * min width 2
/-- The control bits of a frame above its CRC, in place (R275). -/
def d2dHeader (f : D2dFrame) : Nat :=
  f.width % 4 * 2 ^ 62 + f.type % 4 * 2 ^ 60 + f.vc % 4 * 2 ^ 58 + f.count % 32 * 2 ^ 53 + f.seq % 64 * 2 ^ 47 + f.ack % 64 * 2 ^ 41 + b2n f.nak * 2 ^ 40 +
    f.credit.getD 3 0 % 32 * 2 ^ 35 + f.credit.getD 2 0 % 32 * 2 ^ 30 + f.credit.getD 1 0 % 32 * 2 ^ 25 + f.credit.getD 0 0 % 32 * 2 ^ 20 + f.quarters % 16 * 2 ^ 16
/-- The bytes of a frame's data bits: its flits, then zeros to the 16 UI (R275). -/
def d2dBytes (f : D2dFrame) : List Byte := let n := 2 * widthWires f.width; f.data.take n ++ List.replicate (n - f.data.length) 0
/-- The CRC-16 of R211 over bytes, each from its lowest bit upward. -/
def crcUp : List Byte → Nat → Nat
  | [], c => c
  | b :: r, c => crcUp r ((List.range 8).foldl (fun c i => crc16Bit c (bit b.toNat i)) c)
/-- The CRC of a frame: header bits 63 down to 16, then the data bits from bit 0 upward (R275). -/
def d2dCrc (f : D2dFrame) : Nat := crcUp (d2dBytes f) (crc16 (d2dHeader f / 2 ^ 16) 48 0xFFFF)
/-- The 64 control bits of a frame (R275). -/
def d2dControl (f : D2dFrame) : Nat := d2dHeader f + f.crc % 2 ^ 16
/-- The bit that a wire carries in UI u of a frame, for the wires in use (R273, R275): quarters supply the data bits in increasing order, and control wire
264 + i carries control bits [16i + 15 : 16i], lowest first. A spare carries what the wire that it replaces would carry (R280). -/
def d2dWire (f : D2dFrame) (wire u : Nat) : Option Bool :=
  if wire < 256 then
    if bit f.quarters (wire / 64) then
      let before := ((List.range (wire / 64)).filter fun q => bit f.quarters q).length
      let n := widthWires f.width * u + 64 * before + wire % 64
      some (bit ((d2dBytes f).getD (n / 8) 0).toNat (n % 8))
    else none
  else if 264 ≤ wire ∧ wire < 268 then some (bit (d2dControl f) (16 * (wire - 264) + u))
  else none

end Sys2Proof.Machine
end

