-- ==== Sys2Proof/Machine/Send.lean ====
section
/-! DEFINITION. Sending: the words of packets, frames and flits (R208, R211, R230, R327), route tables and the fields a port block
writes (R331 to R333), the transmit side of a link (R215, R217), and the waits that an arrival may end. -/

namespace Sys2Proof.Machine

/-! Words. -/

/-- Put a field at its place. -/
def at_ (v lo : Nat) : Nat := v * 2 ^ lo
/-- The header body of a lattice frame (R230). -/
def frameBody (f : Frame) : Nat :=
  at_ f.kind 508 + at_ f.src 503 + at_ f.dst 498 + at_ f.phase 490 + at_ f.job 480 + at_ f.tag 463 + at_ (ceilDiv f.data.length 64) 456 +
  at_ f.epoch 452 + at_ (b2n f.poison) 451 + at_ f.addr 400 + at_ f.members 380 + at_ f.originPkg 374 + at_ f.originCore 362
/-- A lattice frame on a fibre, held as a packet whose class is the frame's kind. -/
def asFrame (p : Packet) : Frame where
  kind := p.cls
  src := p.hopSrc
  dst := p.hopDst
  phase := p.op
  job := p.job
  tag := p.tag
  epoch := p.epoch
  poison := p.poison
  addr := p.addr
  members := p.rxMap
  originPkg := p.originPkg
  originCore := p.originCore
  data := p.data
/-- The packet that holds a frame. -/
def asPacket (f : Frame) : Packet where
  cls := f.kind
  hopSrc := f.src
  hopDst := f.dst
  op := f.phase
  job := f.job
  tag := f.tag
  epoch := f.epoch
  poison := f.poison
  addr := f.addr
  rxMap := f.members
  originPkg := f.originPkg
  originCore := f.originCore
  data := f.data
/-- The header body of a ring-plane packet (R327); that of a frame for a packet that holds one. -/
def packetBody (p : Packet) : Nat :=
  if p.cls < 4 then frameBody (asFrame p)
  else
    at_ p.cls 508 + at_ p.op 502 + at_ p.hopDst 497 + at_ p.hopSrc 492 + at_ p.dstPkg 486 + at_ p.dstEp 481 + at_ p.originPkg 475 +
    at_ p.originCore 463 + at_ p.job 453 + at_ p.tag 436 + at_ p.epoch 432 + at_ (ceilDiv p.data.length 64) 425 + at_ (b2n p.poison) 424 +
    at_ p.addr 373 + at_ p.rxMap 352 + at_ p.ptr 350 + at_ p.tokens 332 + at_ p.incarnation 300 + at_ p.status 296 + at_ p.retry 294 +
    at_ p.aux.toNat 230
/-- The 528 bits that a flit's CRC covers (R208, R211). -/
def flitBits (f : Flit) : Nat := at_ f.seq 516 + at_ f.type 514 + f.body
/-- A flit's CRC (R211). -/
def flitCrc (f : Flit) : Nat := crc16 (flitBits f) 528 0xFFFF
/-- A flit of a type and body, numbered and checked (R208). -/
def mkFlit (seq type body : Nat) : Flit :=
  let f : Flit := { seq := seq % 4096, type := type, body := body }
  { f with crc := flitCrc f }
/-- The data flits' bodies of a byte string (R208). -/
def dataBodies : Nat → List Byte → List Nat
  | 0, _ => []
  | n + 1, l => natOf (l.take 64) :: dataBodies n (l.drop 64)
/-- The types and bodies of a packet's flits. -/
def packetFlits (p : Packet) : List (Nat × Nat) :=
  (1, packetBody p) :: (dataBodies (ceilDiv p.data.length 64) p.data).map fun b => (2, b)
/-- The types and bodies of a frame's flits. -/
def frameFlits (f : Frame) : List (Nat × Nat) :=
  (1, frameBody f) :: (dataBodies (ceilDiv f.data.length 64) f.data).map fun b => (2, b)

/-! Route tables (R332, R333). -/

/-- The current bank's entry of an endpoint for a package (R332). -/
def State.routeEntry (s : State) (r d : Nat) : Nat := (s.rd (Reg.fabRt r (s.fld Reg.fabRtCtrl F.fabRtCtrlCurrentBank) d)).toNat
/-- A token of a tokens field: valid and its fibre (R327). -/
def token (tokens i : Nat) : Option Nat := if bit tokens (6 * i + 5) then some (tokens / 2 ^ (6 * i) % 32) else none
/-- The routing fields of an outbound packet (R333): none where the destination has no route. -/
def State.routed (s : State) (r : Nat) (p : Packet) : Option Packet :=
  let e := s.routeEntry r p.dstPkg
  let hops := bits e 60 59
  let toks := bits e 53 36
  if bit e 63 = false ∨ (hops = 0 ∧ p.dstPkg ≠ s.pkg) then none
  else
    some { p with epoch := s.fld Reg.fabRtCtrl F.fabRtCtrlCurEpoch, ptr := 0, tokens := toks, hopSrc := r,
                  hopDst := if p.dstPkg = s.pkg then p.dstEp else fibreRing ((token toks 0).getD 0 / 8) }
/-- The routing fields of a response (R333): its one hop within the own package goes to dst_ep and takes nothing from the entry, so that one is sent
without a valid entry as well (DEDUCED, assumption 97). -/
def State.routedBack (s : State) (r : Nat) (p : Packet) : Option Packet :=
  match s.routed r p with
  | some q => some q
  | none => if p.dstPkg = s.pkg then some { p with epoch := s.fld Reg.fabRtCtrl F.fabRtCtrlCurEpoch, ptr := 0, tokens := 0, hopSrc := r, hopDst := p.dstEp } else none
/-- The endpoint that serves an address of a package (R331). -/
def endpointOf (a : Nat) : Nat :=
  match placeOf a with
  | .hbm k _ => memRing (k / 4)
  | .info => memRing 0
  | _ => if 0x020000000000 ≤ a ∧ a < 0x020000000000 + 3072 * 0x1000000 then towerRing (towerOf ((a - 0x020000000000) / 0x1000000)) else memRing 0

/-! The transmit side of a link. -/

/-- The replay buffer's size (R215). -/
def replaySize : Link → Nat
  | .fibreOut _ | .fibreIn _ => 4064
  | _ => 1024
/-- The credit of a link's receivers (R217). -/
def creditSize : Link → Nat
  | .fibreOut _ | .fibreIn _ => 4064
  | _ => 256
/-- The tile whose time counter a link's transmitter aligns its slots to (R209). -/
def linkTile : Link → Nat
  | .ring r => ringTile r
  | .lane e _ => if e < 12 then e / 3 else (e - 12) % 4
  | .fibreOut x | .fibreIn x => x / 8
/-- A link has control slots (R212). -/
def hasControl : Link → Bool
  | .lane _ _ => false
  | _ => true
/-- The slots that a flit takes: two at half width (R222). -/
def State.slotWidth (s : State) (l : Link) : Nat :=
  match l with
  | .ring r => if s.fld (Reg.rplTxStatus r) F.rplTxStatusWidth = 1 then 2 else 1
  | _ => 1
/-- The end of n flits that a transmitter sends after what it is sending, in 32nds of a tick: slots begin where the time counter is a multiple of 17/32
tick, and control slots carry none of them (R209, R212, R222). -/
def State.slotEnd (s : State) (l : Link) (n : Nat) : Nat :=
  let off := 32 * (s.time (linkTile l)).offset
  let first := (((max (s.tx l).busyUntil (32 * s.now) : Nat) : Int) + off).toNat
  let m := slotsAfter (hasControl l) (s.slotWidth l) ((first + 16) / 17) n
  (((17 * m : Nat) : Int) - off).toNat
/-- Credit left toward a receiver (R217). -/
def TxLink.credit (x : TxLink) (l : Link) (r : Nat) : Nat := creditSize l - (assoc x.spent r - assoc x.freed r)
/-- Number flits, keep them for replay and put them out (R208, R215); each addressed receiver's credit is spent (R217). -/
def State.transmit (s : State) (l : Link) (rx : List Nat) : List (Nat × Nat) → State
  | [] => s
  | (ty, body) :: r =>
    let x := s.tx l
    let f := mkFlit x.next ty body
    let x := { x with next := (x.next + 1) % 4096, replay := x.replay ++ [(f, s.now)],
                      spent := rx.foldl (fun m k => assocSet m k (assoc m k + 1)) x.spent,
                      busyUntil := s.slotEnd l 1 }
    ((s.setTx l x).emit (.flit l f)).transmit l rx r
/-- Enough room in the replay buffer and credit at every receiver named for a worm (R215, R217). -/
def State.mayStart (s : State) (l : Link) (rx : List Nat) (flits : Nat) : Bool :=
  let x := s.tx l
  decide (x.replay.length + flits ≤ replaySize l) && rx.all fun r => decide (flits ≤ x.credit l r)
/-- The receivers that a ring-plane packet names (R329). -/
def Packet.names (p : Packet) : List Nat := (List.range 21).filter fun r => if p.hopDst = 31 then bit p.rxMap r else decide (p.hopDst = r)
/-- The port block that serves a core (R177). -/
def portBlock (c : Nat) : Nat := 4 * (xOf c / 2) + yOf c / 2
/-- The rank of a packet among those that reach an input in its cycle (R340): on input 15 the higher barrier before the lower and before a step, on a tower's
inputs 0 to 7 the odd port block before the even, and else the higher origin core. -/
def packetRank (r input : Nat) (p : Packet) : Nat :=
  if input = 15 then (if p.cls = 0xA then 1 + p.op % 16 else 0)
  else if input < 8 ∧ (ringTower r).isSome then 4096 * (portBlock p.originCore % 2) + p.originCore
  else p.originCore
/-- Put a packet behind those of an input, but before those of its own cycle that rank lower (R340). -/
def packetInto (rank : Packet → Nat) (p : Packet) : List Packet → List Packet
  | [] => [p]
  | q :: l => if q.reached = p.reached ∧ rank q < rank p then p :: q :: l else q :: packetInto rank p l
/-- Queue a packet at a transmitter's input (R339, R340): a tower's in a contract-clock cycle, another endpoint's in a tick. -/
def State.sendAt (s : State) (r input : Nat) (p : Packet) : State :=
  s.setQueue r input (packetInto (packetRank r input) { p with hopSrc := r, reached := if (ringTower r).isSome then s.clk else s.now } (s.queue r input))
/-- The queue of packets for a fibre. -/
def fibreQueue (x : Nat) : Nat := 32 + x
/-- Packets for a fibre leave in order while credit and buffer allow, none before the end of its hold (R215, R217, R334). -/
def State.drainFibre (s : State) (x : Nat) : Nat → State
  | 0 => s
  | n + 1 =>
    match s.queue (fibreQueue x) 0 with
    | [] => s
    | p :: r =>
      if s.fibreUp x && decide (p.reached ≤ s.now) && s.mayStart (.fibreOut x) [0] (packetFlits p).length then
        (((s.setQueue (fibreQueue x) 0 r).transmit (.fibreOut x) [0] (packetFlits p)).pmcRing (fibreRing (x / 8)) 0x210 (packetFlits p).length).drainFibre x n
      else s
/-- Put a packet for a fibre behind those whose hold ends no later (R334). -/
def heldInto (p : Packet) : List Packet → List Packet
  | [] => [p]
  | q :: l => if p.reached < q.reached then p :: q :: l else q :: heldInto p l
/-- Send a packet onto a fibre, after a hold in ticks: ptr counts the fibres it has been sent on (R334). What is held leaves with the first flit or control
slot of the fibre at or after the hold's end (DESIGN CHOICE, assumption 123). -/
def State.ontoFibre (s : State) (x hold : Nat) (p : Packet) : State :=
  let s := s.setQueue (fibreQueue x) 0 (heldInto { p with ptr := p.ptr + 1, reached := s.now + hold } (s.queue (fibreQueue x) 0))
  s.drainFibre x (s.queue (fibreQueue x) 0).length
/-- Queue a response (R339): E0 and fibre endpoints have no response input; they use their management input (DESIGN CHOICE, assumption 18). -/
def State.respond (s : State) (r : Nat) (p : Packet) : State :=
  match s.routedBack r p with
  | some q => s.sendAt r (if (ringTower r).isSome || (ringMem r).isSome then 13 else 14) q
  | none => s.bump Reg.fabRtStat F.fabRtStatNoRoute 1
/-- The packages of the job beside the own (R411, R412). -/
def State.others (s : State) : List Nat := (List.range 64).filter fun p => bit s.start.joinSet p && decide (p ≠ s.pkg)
/-- The fibres in service that reach another package of the job. -/
def State.jobFibres (s : State) : List Nat :=
  (List.range 32).filter fun x => s.fibreUp x && (s.others.contains (s.fld (Reg.fibCtrl (x / 8) (x % 8)) F.fibCtrlFarPackage))
/-- The rx_map of the package's towers (R329). -/
def towerMap : Nat := (List.range 12).foldl (fun m t => m + 2 ^ towerRing t) 0
/-- The rx_map of the towers and the fibre endpoints that reach the job's other packages (R329). -/
def State.boundaryMap (s : State) : Nat :=
  (List.range 4).foldl (fun m n => if s.jobFibres.any fun x => decide (x / 8 = n) then m + 2 ^ fibreRing n else m) towerMap

/-! Waits. -/

/-- The remote operations of a core that are not acknowledged. -/
def State.coreOps (s : State) (c : Nat) : List RemOp :=
  (s.ops.filter fun e => decide (e.1 / 8192 = towerRing (towerOf c) ∧ e.1 % 8192 / 32 = localOf c)).map (·.2)
/-- The core's free tag slots (R121, R327). -/
def State.freeSlots (s : State) (c : Nat) : List Nat :=
  (List.range 32).filter fun i => (s.op (towerRing (towerOf c)) (32 * localOf c + i)).isNone
/-- A stream address that lies outside the core's tower, other than in the own tile's HBM by the floor network. -/
def State.leaves (s : State) (c a : Nat) : Bool := !(s.path c a).inTower
/-- A descriptor that makes remote operations (R121, R168). -/
def State.remote (s : State) (c : Nat) : Act → Bool
  | .scopy dk _ dst src rows ds _ ss =>
    (List.range rows).any fun j => s.leaves c (src + j * ss) || (decide (dk = 0) && s.leaves c (dst + j * ds))
  | .stile _ _ fmt data scale pitch blocks _ =>
    match Elem.ofCode fmt with
    | some f =>
      let step := if f = .b16 then 32 else f.blockSize
      (List.range 64).any fun m => s.leaves c (data + m * pitch * step) || s.leaves c (data + m * pitch * step + (blocks * step - 1)) ||
        (decide (f ≠ .b16) && (s.leaves c (scale + m * pitch) || s.leaves c (scale + m * pitch + (blocks - 1))))
    | none => false
  | .sflag pkg core _ => decide (pkg ≠ s.pkg ∨ towerOf core ≠ towerOf c)
  | .satom _ _ addr _ _ _ => s.leaves c addr
  | .sinv _ => true
  | .smcast _ _ _ _ _ _ => true
  | .recst addr _ => s.leaves c addr
  | .recmg dst _ _ => s.leaves c dst
/-- Every remote operation that a FENCE covers is acknowledged (R147, R488): those that engines issued before it, and the operations of descriptors
that were not enabled at the time R309 gives (R173). -/
def State.fenceClear (s : State) (c : Nat) (issued : List Nat) : Bool :=
  (s.coreOps c).all (fun o => o.done || match o.engine with | none => false | some e => decide (issued.getD e 0 ≤ o.seq)) &&
  (s.core c).acks.all (fun a => decide (a.until_ ≤ s.now) || decide (issued.getD a.engine 0 ≤ a.seq)) &&
  (s.core c).fsets.isEmpty &&
  (List.range 4).all fun e => (s.engine c e).queue.all fun d => decide (issued.getD e 0 ≤ d.seq) || !s.remote c d.act
/-- Each engine of a mask has at most n descriptors not completed of those it had issued before a WAITSE (R144, R488). -/
def State.enginesClear (s : State) (c mask n : Nat) (issued : List Nat) : Bool :=
  (List.range 4).all fun e => !bit mask e || decide (((s.engine c e).queue.filter fun d => decide (d.seq < issued.getD e 0)).length ≤ n)
/-- What each engine of a core has issued. -/
def State.issuedBy (s : State) (c : Nat) : List Nat := (List.range 4).map fun e => (s.engine c e).issued
/-- End a wait of the core that engines or acknowledgements have met (R144, R147). -/
def State.wake (s : State) (c cyc : Nat) : State :=
  match (s.core c).wait with
  | .engines mask n issued => if s.enginesClear c mask n issued then s.release c cyc else s
  | .fence issued => if s.fenceClear c issued then s.release c cyc else s
  | _ => s

end Sys2Proof.Machine
end

