-- ==== Sys2Proof/Machine/Remote.lean ====
section
/-! DEFINITION. Remote operations of a core: their statuses (R16, R174), the lanes that connect endpoints (R229, R231), launching an
operation on a plane (R230, R231, R333), reading and delivering data (R49, R205), and completing (R365 to R369). -/

namespace Sys2Proof.Machine

/-! Statuses. -/

/-- The status codes of R174. -/
def statusCode : Status → Nat
  | .ok => 0 | .notReady => 1 | .denied => 2 | .pathReset => 3 | .pathFenced => 4 | .timeout => 5 | .unknown => 6 | .poison => 7
  | .partialDone => 8
/-- The status of a code of R174. -/
def statusOf : Nat → Status
  | 1 => .notReady | 2 => .denied | 3 => .pathReset | 4 => .pathFenced | 5 => .timeout | 6 => .unknown | 7 => .poison
  | 8 => .partialDone | _ => .ok
/-- The place of a status in the table of R16. -/
def statusRank : Status → Nat
  | .notReady => 0 | .denied => 1 | .pathReset => 2 | .pathFenced => 3 | .timeout => 4 | .unknown => 5 | .poison => 6
  | .partialDone => 7 | .ok => 8
/-- The earlier of two statuses in R16. -/
def firstOf (a b : Status) : Status := if statusRank a ≤ statusRank b then a else b
/-- The earliest entry of R16 among statuses (R174). -/
def worst (l : List Status) : Status := l.foldl firstOf .ok

/-! Lattice lanes (R227 to R231). -/

/-- Byte i of a setting's connection map (R227). -/
def State.srcOfOut (s : State) (n st i : Nat) : Nat :=
  if i < 16 then (s.rd (Reg.lplSetSrc n st (i / 8))).toNat / 2 ^ (8 * (i % 8)) % 256
  else (s.rd (Reg.lplSetSrc2 n st)).toNat / 2 ^ (8 * (i - 16)) % 256
/-- The register of a lane. -/
def laneReg (j : Nat) : Nat := Reg.lplLane (j / 8) (j % 8)
/-- The source that a lane's setting connects to an output; an output removed for a fence receives none, and an endpoint that the fence map fences on
the lane neither sends nor receives on it (R229, R238, R402). -/
def State.laneSrc (s : State) (j dst : Nat) : Nat :=
  if dst ∈ (s.lane j).gone ∨ s.mapped 4 (256 * dst + j) then 0x1F
  else
    let src := s.srcOfOut (j / 8) (s.fld (laneReg j) F.lplLaneSetting) dst
    if s.mapped 4 (256 * src + j) then 0x1F else src
/-- A lane lets frames start (R233, R234). -/
def State.laneOpen (s : State) (j : Nat) : Bool := decide (s.fld (laneReg j) F.lplLaneState = 0)
/-- The lanes whose phase connects two endpoints; frames for one that is closed wait for it (R231, R255). -/
def State.lanesTo (s : State) (src dst : Nat) : List Nat :=
  (List.range 32).filter fun j => decide (s.fld (laneReg j) F.lplLaneState ≠ 6 ∧ s.laneSrc j dst = src)
/-- The tile of a lattice endpoint (R18, R223). -/
def latTile (e : Nat) : Nat := if e < 12 then e / 3 else (e - 12) % 4
/-- Put a frame behind those at a lane's transmitter, but before those of its own cycle whose origin core is lower (R231). -/
def frameInto (f : Frame) : List Frame → List Frame
  | [] => [f]
  | g :: l => if g.reached = f.reached ∧ g.originPkg = f.originPkg ∧ g.originCore < f.originCore then f :: g :: l else g :: frameInto f l
/-- A frame reaches a lane's transmitter (R231): a tower's in a contract-clock cycle, another endpoint's in a tick. -/
def State.queueFrame (s : State) (e j : Nat) (f : Frame) : State :=
  s.setFrames e j (frameInto { f with reached := if e < 12 then s.clk else s.now } (s.framesAt e j))
/-- A packet takes the ring plane for want of a lane (R231); a core's own operation is no longer on the lattice plane. -/
def State.fallback (s : State) (r e : Nat) (p : Packet) : State :=
  let s := match s.op r p.tag with
    | some o => if p.cls = 8 ∧ p.originPkg = s.pkg ∧ towerRing (towerOf p.originCore) = r then s.setOp r p.tag { o with lattice := false } else s
    | none => s
  ((s.bump (Reg.lplFallback (latTile e) e) F.lplFallbackRingFallbacks 1).pmcRing r 0x20B 1).sendAt r 11 p
/-- Send data on the lattice plane as frame i of its transfer, else on the ring plane (R231). -/
def State.sendLattice (s : State) (r : Nat) (kind i : Nat) (p : Packet) : State :=
  match latOf r, latOf p.hopDst with
  | some e, some d =>
    let l := s.lanesTo e d
    if l = [] then s.fallback r e p
    else s.queueFrame e (l.getD (i % l.length) 0)
      { kind := kind, src := e, dst := d, job := p.job, tag := p.tag, epoch := p.epoch, poison := p.poison, addr := p.addr,
        originPkg := p.originPkg, originCore := p.originCore, data := p.data, index := i }
  | _, _ => s.sendAt r 11 p
/-- The plane of an operation: pl, or with pl = 0 the plane of the route entry (R166, R332). -/
def State.onLattice (s : State) (r pl d : Nat) : Bool := decide (pl = 2) || (decide (pl = 0) && decide (bits (s.routeEntry r d) 62 61 = 1))

/-! Data (R49, R116, R205). -/

/-- The bytes of a read that lie in words named poisoned: the first and last index of each. -/
def badBytes (a n : Nat) (ws : List Nat) : List Nat := (ws.map fun w => [max w a - a, min (w + 8) (a + n) - 1 - a]).flatten
/-- Bytes of no stated value. -/
def State.freeBytes (s : State) (n : Nat) : List Byte × State := let (v, s) := s.free; (bytesOf v n, s)
/-- The requester code of a core's engine at a vault of its tower (R187, R188, R190): its own, the vertical door, a side door, or the router's port. -/
def engineCode (c e d : Nat) : Nat :=
  if d = c then 7 + e
  else if d + 64 = c then 6
  else if layerOf c ≠ layerOf d then 1
  else if d = c + 8 then 5
  else if c = d + 1 ∧ yOf c = yOf d then 4
  else if c = d + 8 then 3
  else if d = c + 1 ∧ yOf c = yOf d then 2
  else 1
/-- An address lies in a vault whose arbiters are frozen (R192). -/
def State.frozenAt (s : State) (a : Nat) : Bool := match placeOf a with
  | .vault d _ => s.frozen d
  | _ => false
/-- Read bytes of a vault of the tower for an engine: the bytes, the indices of poisoned ones, whether the core is fenced (R205). -/
def State.fetch (s : State) (c e a n cyc : Nat) : List Byte × List Nat × Bool × State :=
  match placeOf a with
  | .vault d off =>
    if s.coreFenced d then
      let (b, s) := s.freeBytes n
      (b, List.range n, true, s)
    else
      let s := if d = c then s else s.landCore d cyc (s.core d).work
      let (b, p, s) := s.vaultRead d (engineCode c e d) off n
      (b, badBytes a n p, false, s)
  | _ => (List.replicate n 0, [], false, s)
/-- The lanes that 256 delivered bytes become; both lanes of a poisoned word become a poison NaN (R49). -/
def deliveredLanes (data : List Byte) (bad : List Nat) : List Nat :=
  (List.range 64).map fun i => if bad.any fun k => decide (k / 8 = i / 2) then f32.poison else fieldAt data (4 * i) 4
/-- Deliver bytes to a piece's destination in the tower, seen from a cycle on; a write to a fenced vault is discarded (R205), one to a frozen vault
waits (R192). -/
def State.deliver (s : State) (c e : Nat) (p : Piece) (data : List Byte) (bad : List Nat) (cyc : Nat) : State :=
  match p.dstHalf with
  | 0 =>
    match placeOf p.dst with
    | .vault d off =>
      let marks := bad.map fun i => (p.dst + i) / 8 * 8
      if s.coreFenced d then s
      else if d = c then s.send c cyc (s.portPri c (7 + e)) (.vault off data marks)
      else
        let s := s.landCore d cyc (s.core d).work
        if s.frozen d then s.modCore d fun k => { k with waiting := k.waiting ++ [.write (s.portPri d (engineCode c e d)) off data marks] }
        else s.vaultWrite d off data marks
    | _ => s
  | 6 => s.send c cyc 0 (.setV p.dst (deliveredLanes data bad))
  | h => s.send c cyc 0 (.buffer h p.dst data (bad.map fun i => (bufferAt c h (p.dst + i)) / 8 * 8))

/-! Port blocks and D2D groups (R177, R178, R186, R276, R335). -/

/-- A direction of a group. -/
def D2d.dir (g : D2d) : Dir → D2dDir
  | .up => g.up
  | .down => g.down
/-- Replace a direction of a group. -/
def D2d.setDir (g : D2d) (d : Dir) (x : D2dDir) : D2d :=
  match d with
  | .up => { g with up := x }
  | .down => { g with down := x }
/-- Flits wait for a direction of a group. -/
def State.d2dPut (s : State) (tower g : Nat) (dir : Dir) (vc : Nat) (flits : List (List Byte)) : State :=
  let y := s.group tower g
  let x := y.dir dir
  s.setGroup tower g (y.setDir dir { x with queue := x.queue ++ flits.map fun b => (vc, b) })
/-- The group that the group map names for a port block and layer (R335). -/
def State.mapGroup (s : State) (tower g : Nat) : Nat := (s.rd (Reg.fabGmap tower (g / 8))).toNat / 2 ^ (8 * (g % 8)) % 64
/-- The 32-byte flits of a packet on a D2D group (R275). -/
def packetWords (p : Packet) : List (List Byte) :=
  ((packetFlits p).map fun f => let b := bytesOf f.2 64; [b.take 32, b.drop 32]).flatten
/-- The state register of a tower's D2D group (R273). -/
def grpReg (tower g : Nat) : Nat := Reg.flrGrp (tower / 3) (tower % 3) g
/-- The group that carries a core's layer at its port block, as the group map names it (R178, R335). -/
def State.coreGroup (s : State) (c : Nat) : Nat := s.mapGroup (towerOf c) (4 * portBlock c + layerOf c)
/-- The group that carries a core's traffic is up, so that what leaves or enters its layer may cross (R23, R178, R279). -/
def State.groupOpen (s : State) (c : Nat) : Bool := decide (s.fld (grpReg (towerOf c) (s.coreGroup c)) F.flrGrpState = 2)
/-- A packet of a core waits for its D2D group: ring-plane packets on VC3, lattice data on VC2, floor traffic on VC1 (R276). -/
def State.overGroup (s : State) (c : Nat) (dir : Dir) (vc : Nat) (p : Packet) : State :=
  s.d2dPut (towerOf c) (s.coreGroup c) dir vc (packetWords p)

/-- The core at port position p of a layer (R177). -/
def portCore (t layer p : Nat) : Nat := 256 * t + 64 * layer + 8 * (2 * (p % 4) + 1) + (2 * (p / 4) + 1)
/-- The hops from one core position to another (R183). -/
def hopX (a b : Nat) : Int := (xOf b : Int) - (xOf a : Int)
/-- The hops along y. -/
def hopY (a b : Nat) : Int := (yOf b : Int) - (yOf a : Int)
/-- Send a worm from a core's position to its destination core: on the layer's mesh, or to the port position of the destination (R186). -/
def wormToward (w : Worm) (c dst exit : Nat) : Worm :=
  if layerOf c = layerOf dst then { w with dx := hopX c dst, dy := hopY c dst, exit := exit }
  else
    let p := portCore (towerOf c) (layerOf c) (portBlock dst)
    { w with dx := hopX c p, dy := hopY c p, exit := 2 }
/-- A signed hop count in four bits. -/
def hopBits (n : Int) : Nat := (n % 16).toNat
/-- The header of a worm, 128 bits (R183). -/
def wormHeader (w : Worm) : Nat :=
  w.kind % 16 * 2 ^ 124 + b2n w.order * 2 ^ 123 + hopBits w.dx * 2 ^ 119 + hopBits w.dy * 2 ^ 115 + w.exit % 4 * 2 ^ 113 + b2n w.poison * 2 ^ 112 +
    w.src % 4096 * 2 ^ 100 + w.dst % 4096 * 2 ^ 88 + w.flits % 128 * 2 ^ 81 + w.engine % 4 * 2 ^ 79 + w.seq % 128 * 2 ^ 72 + w.line % 2 ^ 18 * 2 ^ 54
/-- The header flit: the header in bits [127:0], its copy in bits [255:128] (R183). -/
def wormHead (w : Worm) : Nat := wormHeader w + wormHeader w * 2 ^ 128
/-- A hop count from four bits. -/
def hopOfBits (n : Nat) : Int := if n < 8 then n else (n : Int) - 16
/-- The worm of a header (R183). -/
def wormOf (h : Nat) : Worm :=
  { kind := bits h 127 124, order := bit h 123, dx := hopOfBits (bits h 122 119), dy := hopOfBits (bits h 118 115), exit := bits h 114 113,
    poison := bit h 112, src := bits h 111 100, dst := bits h 99 88, flits := bits h 87 81, engine := bits h 80 79, seq := bits h 78 72, line := bits h 71 54 }
/-- The flits that a worm has in an input buffer: its header and its data. -/
def wormSize (w : Worm) : Nat := 1 + ceilDiv w.data.length 64
/-- A piece of a worm's data moves through the mesh: the lines at a vault offset, at most 64 to a worm (R183). -/
def wormLines (off len : Nat) : List (Nat × Nat) :=
  let n := (off + len + 63) / 64 - off / 64
  (List.range ((n + 63) / 64)).map fun i => (off / 64 + 64 * i, min 64 (n - 64 * i))
/-- A worm enters the mesh at a core's router by the core port. -/
def State.wormOut (s : State) (c : Nat) (w : Worm) : State := s.setWorms c 6 (s.worms c 6 ++ [w])
/-- The outbound carrier of a packet goes to the port position of the group that the group map names for its core (R183, R186, R284, R335). -/
def State.carrierOut (s : State) (c : Nat) (p : Packet) : State :=
  let q := portCore (towerOf c) (layerOf c) (s.coreGroup c / 4)
  s.wormOut c { kind := 2, dx := hopX c q, dy := hopY c q, exit := 2, poison := p.poison, src := c, dst := c, flits := (packetFlits p).length, carried := some p }
/-- An operation is over, and so is its carrier that no command of the mesh has moved (DESIGN CHOICE, assumption 25). -/
def State.carrierGone (s : State) (c tag : Nat) : State :=
  let mine (w : Worm) : Bool := decide (w.kind = 2 ∧ w.src = c ∧ w.carried.map (·.tag) = some tag)
  if s.mesh.any fun x => x.2.any mine then
    { s with mesh := (s.mesh.map fun x => (x.1, x.2.filter fun w => !mine w)).filter fun x => decide (x.2 ≠ []) }
  else s
/-- The far core of a row's end that the mesh or a riser reaches (R135, R186). -/
def State.farCore (s : State) (c a : Nat) : Option (Nat × Nat) :=
  match s.path c a, placeOf (localAddr a) with
  | .mesh _, .vault d off | .viaL0, .vault d off => some (d, off)
  | _, _ => none
/-- The read requests of a row whose source the mesh reaches (R183, R186). -/
def State.askWorms (s : State) (c e seq a len : Nat) : State :=
  match s.farCore c a with
  | none => s
  | some (d, off) => (wormLines off len).foldl (fun s x =>
      s.wormOut c (wormToward { kind := 0, src := c, dst := d, flits := x.2, engine := e, seq := seq % 128, line := x.1 } c d 0)) s
/-- The writes of a row's data to a vault that the mesh reaches (R183, R186). -/
def State.putWorms (s : State) (c e seq a : Nat) (data : List Byte) (bad : List Nat) : State :=
  match s.farCore c a with
  | none => s
  | some (d, off) => (wormLines off data.length).foldl (fun s x =>
      let b := (data.drop (64 * x.1 - off)).take (64 * x.2)
      let w := (bad.filter fun i => decide (64 * x.1 ≤ off + i ∧ off + i < 64 * (x.1 + x.2))).map fun i => (off + i - 64 * x.1) / 8
      s.wormOut c (wormToward { kind := 1, poison := decide (w.length = 8 * x.2), src := c, dst := d, flits := x.2, engine := e, seq := seq % 128, line := x.1, data := b,
                                badWords := w } c d 0)) s

/-! Completing (R174, R365, R367). -/

/-- An operation completes: its engine counts it, and its tag is free unless attempts are unanswered (R367). -/
def State.finishOp (s : State) (r tag : Nat) (o : RemOp) (st : Status) : State :=
  let s := if st = .timeout then s.bump Reg.fabOpStat F.fabOpStatTimeouts 1 else s
  let s := if o.engine.isSome ∧ st ≠ .ok then s.pmcCore o.core 0x015 1 else s
  let s := match o.engine with
    | some e =>
      let g := s.engine o.core e
      if g.queue.head?.map (fun d : Desc => d.seq) = some o.seq then s.setEngine o.core e { g with inFlight := g.inFlight - 1, statuses := g.statuses ++ [st] }
      else s
    | none => s
  let s := s.carrierGone o.core tag
  if 1 < o.attempts ∧ o.answers < o.attempts * max 1 o.members.length then
    s.setOp r tag { o with done := true, doneAt := s.now, status := st }
  else s.freeOp r tag
/-- A request of a tower's core to a stack of its own tile, which travels on the floor network (R24, R331). -/
def State.onFloor (s : State) (p : Packet) : Bool :=
  decide (p.cls = 8 ∧ p.dstPkg = s.pkg) &&
    match placeOf (localAddr p.addr) with
    | .hbm k _ => decide (p.originPkg = s.pkg ∧ k / 4 = tileOf (towerOf p.originCore)) && (ringTower p.hopSrc).isSome
    | _ => false
/-- Send an operation of a core from its tower's endpoint, or complete it at once where it has no route or its next link is fenced
(R333, R337). It crosses the group of its core's layer; while that is not up it waits at its port block, not yet attempted (R23, R178). -/
def State.launch (s : State) (r tag input pl : Nat) (o : RemOp) : State :=
  let f : Packet := { o.pkt with tag := tag, hopSrc := r, hopDst := o.pkt.dstEp }
  let o := { o with lattice := decide (o.pkt.cls = 8 ∧ (o.pkt.op = 1 ∨ o.pkt.op = 2)) && s.onLattice r pl o.pkt.dstPkg, plane := pl }
  let lattice := o.pkt.op = 2 ∧ o.lattice = true
  let shut := !s.groupOpen o.core
  if s.onFloor f then
    if shut then s.setOp r tag { o with pkt := f, attempts := 0 }
    else
      let s := s.setOp r tag { o with pkt := f, attempts := 1, sent := s.now, deadline := s.now + s.fld Reg.fabTimeout F.fabTimeoutPkgTimeout, left := true }
      ((s.carrierOut o.core f).overGroup o.core .up 1 f).emit (.floor f)
  else match s.routed r { o.pkt with tag := tag } with
  | none => (s.bump Reg.fabRtStat F.fabRtStatNoRoute 1).finishOp r tag o .pathFenced
  | some p =>
    if !lattice && (s.ringFenced r || s.ringFenced p.hopDst) then
      (s.bump Reg.fabRtStat F.fabRtStatFencedDrops 1).finishOp r tag o .pathFenced
    else if shut then s.setOp r tag { o with pkt := { o.pkt with tag := tag }, attempts := 0 }
    else
      let s := ((s.setOp r tag { o with pkt := p, attempts := 1, sent := s.now, deadline := 0 }).carrierOut o.core p).overGroup o.core .up (if lattice then 2 else 3) p
      if lattice then s.sendLattice r 1 o.piece.index p else s.sendAt r input p
/-- The transmitter input of a core's requests: that of its port block (R177, R339). -/
def requestInput (c : Nat) : Nat := (4 * (xOf c / 2) + yOf c / 2) / 2
/-- The fields that every packet of a core's operation carries (R327, R359). -/
def State.fromCore (s : State) (c : Nat) (cls op a : Nat) : Packet where
  cls := cls
  op := op
  dstPkg := pkgOf a
  dstEp := endpointOf (localAddr a)
  originPkg := s.pkg
  originCore := c
  job := s.fld (Reg.coreJob c) F.coreJobJob
  addr := a
  incarnation := s.inc
  aux := BitVec.ofNat 64 (towerRing (towerOf c) * 2 ^ 59)
/-- The packet of a flag set beyond the tower (R328): class 0xC, op 0 for FSET, 1 for SFLAG; `w` as the aux field holds it. -/
def State.flagPacket (s : State) (c op w : Nat) : Packet :=
  let core := bits w 19 8
  { s.fromCore c 0xC op 0 with dstPkg := bits w 25 20, dstEp := towerRing (towerOf core), aux := BitVec.ofNat 64 (w % 2 ^ 26) }
/-- FSETs beyond the tower that wait for a tag take one as it becomes free (R121, R146; DESIGN CHOICE, assumption 19). -/
def State.pumpFlags (s : State) (c cyc : Nat) : Nat → State
  | 0 => s
  | n + 1 =>
    match (s.core c).fsets, s.freeSlots c with
    | w :: rest, i :: more =>
      let (v, s) := s.free
      let slot := (i :: more).getD (v % (more.length + 1)) i
      let s := s.modCore c fun k => { k with fsets := rest }
      ((s.launch (towerRing (towerOf c)) (32 * localOf c + slot) 12 1 { core := c, pkt := s.flagPacket c 0 w, took := s.now }).pmcCore c 0x014 1).pumpFlags c cyc n
    | _, _ => s
/-- What a core does once an operation completed: waiting FSETs take tags, waits may end. -/
def State.afterOp (s : State) (c cyc : Nat) : State := ((s.pumpFlags c cyc (s.core c).fsets.length).wake c cyc)

end Sys2Proof.Machine
end

