-- ==== Sys2Proof/Machine/Barrier.lean ====
section
/-! DEFINITION. Barrier trees of a tower, package and rack barriers, the step tree, flags and the fencing of a core (R145, R196 to R199,
R205, R311, R319). -/

namespace Sys2Proof.Machine

/-! Barrier trees (R196 to R198, R311). -/

/-- A tower has a member of barrier i (R329). -/
def State.hasMember (s : State) (i t : Nat) : Bool := !(s.members t i).isEmpty
/-- The towers with a member of barrier i. -/
def State.memberTowers (s : State) (i : Nat) : List Nat := (List.range 12).filter (s.hasMember i)
/-- The tree gathers at E0 for a rack barrier. -/
def gatherAt : Nat := 12
/-- E0 has the stamp of a tower for rack barrier i; with all of them it forwards the latest (R311, R329). -/
def State.gatherRack (s : State) (i tower stamp : Nat) : State :=
  let g := s.tree gatherAt i
  let g := { g with stamps := assocSet g.stamps tower (stamp + 1) }
  let l := s.memberTowers i
  if l.all fun t => decide (assoc g.stamps t ≠ 0) then
    let latest := (l.map fun t => assoc g.stamps t - 1).foldl max 0
    let s := s.setTree gatherAt i { g with stamps := [] }
    s.sendAt 0 15 { cls := 0xA, op := 48 + i, hopDst := 31, rxMap := s.boundaryMap, originPkg := s.pkg, dstPkg := s.pkg,
                    incarnation := s.inc, aux := BitVec.ofNat 64 latest }
  else s.setTree gatherAt i g
/-- Tree i of a tower has all its effective members: it completes 20 cycles on, as R319 says of a barrier tree too (R196). -/
def State.treeDone (s : State) (t i cyc : Nat) : State :=
  let tr := s.tree t i
  let m := s.members t i
  if tr.due.isSome || tr.sent || tr.arrived.isEmpty || !(m.all fun c => decide (c ∈ tr.arrived)) then s
  else s.setTree t i { tr with due := some (cyc + 20) }
/-- Tree i of a tower completes for a package or rack barrier: the tower records the tick as its stamp and sends one arrival (R198, R311). -/
def State.treeStamp (s : State) (t i : Nat) : State :=
  let tr := s.tree t i
  let stamp := (s.copyTc t).toNat
  let r := towerRing t
  let p : Packet := { cls := 0xA, op := 32 * (tr.scope - 1) + i, originPkg := s.pkg, dstPkg := s.pkg, incarnation := s.inc,
                      aux := BitVec.ofNat 64 stamp }
  if tr.scope = 1 then
    let dests := (s.memberTowers i).filter (· ≠ t)
    let s := s.setTree t i { tr with due := none, sent := true, stamps := assocSet tr.stamps t (stamp + 1) }
    if dests = [] then s
    else s.sendAt r 15 { p with hopDst := 31, rxMap := dests.foldl (fun m u => m + 2 ^ towerRing u) 0 }
  else
    (s.setTree t i { tr with due := none, sent := true }).sendAt r 15 { p with hopDst := 0 }
/-- A member's arrival in the current phase; a scope other than the phase's is logged (R198). -/
def State.treeArrive (s : State) (c i scope cyc : Nat) : State :=
  let t := towerOf c
  let tr := s.tree t i
  let tr2 := { tr with arrived := localOf c :: tr.arrived, scope := if tr.arrived = [] then scope else tr.scope }
  let s := s.setTree t i tr2
  let s := s.modCore c fun k => { k with arrivals := assocSet k.arrivals i (tr.phase + 1) }
  let s := if tr.arrived ≠ [] ∧ scope ≠ tr.scope then
    s.log 0x0403 (srcCore c) [i, s.fld (Reg.coreStatus c) F.coreStatusPc, scope] else s
  s.treeDone t i cyc
/-- BAR of a core (R145, R196, R197). -/
def State.barrier (s : State) (c mode scope i cyc : Nat) : State :=
  let t := towerOf c
  let tr := s.tree t i
  let last := assoc (s.core c).arrivals i
  let waits (s : State) (phase : Nat) : State := s.waits c cyc (.barrier i phase)
  if !((s.members t i).contains (localOf c)) then
    s.log 0x0403 (srcCore c) [i, s.fld (Reg.coreStatus c) F.coreStatusPc, scope]
  else if mode = 2 then (if last = tr.phase + 1 then waits s tr.phase else s)
  else if last = tr.phase + 1 then
    waits (s.setTree t i { tr with later := tr.later ++ [(localOf c, 4 * scope + mode)] }) tr.phase
  else
    let s := s.treeArrive c i scope cyc
    if mode = 0 then waits s tr.phase else s
/-- The members that arrive again before the release arrive in the new phase (R197). -/
def State.arriveLater (s : State) (t i cyc : Nat) : List (Nat × Nat) → State
  | [] => s
  | (l, m) :: r =>
    let c := 256 * t + l
    let s := s.treeArrive c i (m / 4) cyc
    let s := if m % 4 = 0 then s.modCore c fun k => { k with wait := .barrier i (s.tree t i).phase, waitFrom := cyc }
      else s.release c (cyc + 1)
    s.arriveLater t i cyc r
/-- Release the phase of a tree: phase toggles, the count returns to 0, the waiting members go on (R196, R197). -/
def State.treeRelease (s : State) (t i cyc : Nat) : State :=
  let tr := s.tree t i
  let s := s.setTree t i { phase := tr.phase + 1 }
  let s := (List.range 256).foldl (fun s l =>
    let c := 256 * t + l
    if (s.core c).wait = .barrier i tr.phase ∧ ¬ tr.later.any (fun x => x.1 = l) then s.release c cyc else s) s
  s.arriveLater t i cyc tr.later
/-! The step tree (R149, R319). -/

/-- The job cores of a tower: enabled and not fenced (R297). -/
def State.jobCores (s : State) (t : Nat) : List Nat :=
  ((List.range 256).map (256 * t + ·)).filter fun c => s.flag (Reg.coreCtrl c) F.coreCtrlEnable && !s.coreFenced c
/-- Every job core of the tower that has not halted has issued its STEP, and one has: the step tree completes 20 cycles on (R319). -/
def State.stepDone (s : State) (t cyc : Nat) : State :=
  let l := (s.jobCores t).filter fun c => !(s.core c).halted
  let w := s.tower t
  if w.stepDue.isSome || w.stepSent || l.isEmpty || !(l.all fun c => (s.core c).stepped) then s
  else s.setTower t { w with stepDue := some (cyc + 20) }

/-- A core leaves service: it leaves every tree's effective members, the job cores of its tower and the cores that the column governor holds, and a
phase or a step that then has all it waits for completes (R95, R197, R201, R205, R297). -/
def State.fenceCore (s : State) (c cyc : Nat) : State :=
  let s := (s.putB (Reg.coreCtrl c) F.coreCtrlFenced true).modCore c fun k => { k with governed := none }
  (((List.range 16).foldl (fun s i => s.treeDone (towerOf c) i cyc) s).stepDone (towerOf c) cyc).holdCause 3

/-! Flags (R146, R199). -/

/-- Own flag f of a core (R199). -/
def State.flagBit (s : State) (c f : Nat) : Bool := bit (s.rd (Reg.twrFlags (towerOf c) (localOf c) (f / 64))).toNat (f % 64)
/-- Write flag f of a core. -/
def State.setFlag (s : State) (c f : Nat) (b : Bool) : State := s.putB (Reg.twrFlags (towerOf c) (localOf c) (f / 64)) ⟨f % 64, f % 64⟩ b
/-- A set enters the flag network of its target's tower (R199). -/
def State.flagEnter (s : State) (target src f cyc : Nat) : State :=
  s.modCore target fun k => { k with flagsIn := k.flagsIn ++ [{ at_ := cyc, src := src, flag := f }] }
/-- A flag clear that lands in a cycle: a set landing earlier is wiped, one that lands in that cycle stays (R146). -/
def State.clearFlag (s : State) (c f cyc : Nat) : State :=
  (s.setFlag c f false).modCore c fun k => { k with clears := (f, cyc) :: (k.clears.filter fun x => cyc < x.2 + 2) }
/-- The set that lands next of those that have arrived: the earliest arrival, among these the highest source (R199). -/
def nextSet (cyc : Nat) (l : List FlagSet) : Option FlagSet :=
  (l.filter fun x => decide (x.at_ ≤ cyc)).foldl (fun b x => match b with
    | none => some x
    | some y => if x.at_ < y.at_ ∨ (x.at_ = y.at_ ∧ y.src < x.src) then some x else some y) none
/-- A set lands, one in a cycle: the flag is 1, and a core that waits for it goes on (R146, R199). -/
def State.landFlag (s : State) (c cyc : Nat) : State :=
  match (if cyc < (s.core c).flagAt then none else nextSet cyc (s.core c).flagsIn) with
  | none => s
  | some x =>
    let k := s.core c
    let s := s.setCore c { k with flagsIn := k.flagsIn.erase x, flagAt := cyc + 1 }
    let s := match x.answer with
      | some (r, p) => s.respond r p
      | none => s
    if k.clears.any fun y => decide (y.1 = x.flag ∧ cyc < y.2) then s
    else
      match k.wait with
      | .flag f clr =>
        if f = x.flag then
          (let s := s.release c cyc
           if clr then s else s.setFlag c x.flag true)
        else s.setFlag c x.flag true
      | _ => s.setFlag c x.flag true
/-- FSET of a core: inside the tower the set arrives 16 cycles on; beyond it, it is a message that takes a tag (R146, R199). -/
def State.fset (s : State) (c f : Nat) (w : Word) (cyc : Nat) : State :=
  let n := w.toNat
  let target := bits n 19 8
  if bits n 25 20 = s.pkg ∧ towerOf target = towerOf c then s.flagEnter target c f (cyc + 16)
  else (s.modCore c fun k => { k with fsets := k.fsets ++ [n / 256 * 256 % 2 ^ 26 + f] }).afterOp c cyc

end Sys2Proof.Machine
end

