-- ==== Sys2Proof/Machine/Control.lean ====
section
/-! DEFINITION. The control slot (R138 to R151) and the releases that its waits wait for: WAITT, WAITSE, BAR, FWAIT, FENCE, STEP. -/

namespace Sys2Proof.Machine

/-! Scalar results. -/

/-- The issuing instruction's scalar result, landing after its latency (R138). -/
def scalarTo (t : At) (g : Gate) (d lat : Nat) (s : State) (v : State → Word) : Result :=
  whenOn t g s fun s => s.send g.core (t.cyc + lat) 3 (.setS d (v s))
/-- sd := sa op sb in one cycle (R138). -/
def scalarOp (t : At) (g : Gate) (d a b : BitVec 5) (s : State) (f : Word → Word → Word) : Result :=
  scalarTo t g d.toNat 1 s fun s => f (s.sreg g.core a.toNat) (s.sreg g.core b.toNat)
/-- sd := sa op a signed immediate (R138). -/
def scalarImm (t : At) (g : Gate) (d a : BitVec 5) (imm : Word) (s : State) (f : Word → Word → Word) : Result :=
  scalarTo t g d.toNat 1 s fun s => f (s.sreg g.core a.toNat) imm
/-- A predicate result, landing in the next cycle (R138). -/
def predTo (t : At) (g : Gate) (p : BitVec 3) (s : State) (v : State → Bool) : Result :=
  whenOn t g s fun s => s.send g.core (t.cyc + 1) 3 (.setP p.toNat (v s))
/-- The shift amount of SHL, SHR and SAR: sb[5:0] (R138). -/
def shamt (w : Word) : Nat := w.toNat % 64

/-- NOP (R138): nothing. -/
def execNop (t : At) (g : Gate) (_slot : Slot) (s : State) : Result := onCore t g.core s fun s => s
/-- ADD (R138). -/
def execAdd (t : At) (g : Gate) (d a b : BitVec 5) (s : State) : Result := scalarOp t g d a b s fun x y => x + y
/-- SUB (R138). -/
def execSub (t : At) (g : Gate) (d a b : BitVec 5) (s : State) : Result := scalarOp t g d a b s fun x y => x - y
/-- AND (R138). -/
def execAnd (t : At) (g : Gate) (d a b : BitVec 5) (s : State) : Result := scalarOp t g d a b s fun x y => x &&& y
/-- OR (R138). -/
def execOr (t : At) (g : Gate) (d a b : BitVec 5) (s : State) : Result := scalarOp t g d a b s fun x y => x ||| y
/-- XOR (R138). -/
def execXor (t : At) (g : Gate) (d a b : BitVec 5) (s : State) : Result := scalarOp t g d a b s fun x y => x ^^^ y
/-- SHL (R138). -/
def execShl (t : At) (g : Gate) (d a b : BitVec 5) (s : State) : Result := scalarOp t g d a b s fun x y => x <<< shamt y
/-- SHR, logical (R138). -/
def execShr (t : At) (g : Gate) (d a b : BitVec 5) (s : State) : Result := scalarOp t g d a b s fun x y => x >>> shamt y
/-- SAR, arithmetic (R138). -/
def execSar (t : At) (g : Gate) (d a b : BitVec 5) (s : State) : Result := scalarOp t g d a b s fun x y => x.sshiftRight (shamt y)
/-- MUL: the low 64 bits, three cycles on (R138). -/
def execMul (t : At) (g : Gate) (d a b : BitVec 5) (s : State) : Result :=
  scalarTo t g d.toNat 3 s fun s => s.sreg g.core a.toNat * s.sreg g.core b.toNat
/-- MIN, signed (R138). -/
def execMin (t : At) (g : Gate) (d a b : BitVec 5) (s : State) : Result := scalarOp t g d a b s fun x y => if x.slt y then x else y
/-- MAX, signed (R138). -/
def execMax (t : At) (g : Gate) (d a b : BitVec 5) (s : State) : Result := scalarOp t g d a b s fun x y => if x.slt y then y else x
/-- ADDI (R138). -/
def execAddi (t : At) (g : Gate) (d a : BitVec 5) (imm : BitVec 12) (s : State) : Result :=
  scalarImm t g d a (imm.signExtend 64) s fun x y => x + y
/-- ANDI (R138). -/
def execAndi (t : At) (g : Gate) (d a : BitVec 5) (imm : BitVec 12) (s : State) : Result :=
  scalarImm t g d a (imm.signExtend 64) s fun x y => x &&& y
/-- ORI (R138). -/
def execOri (t : At) (g : Gate) (d a : BitVec 5) (imm : BitVec 12) (s : State) : Result :=
  scalarImm t g d a (imm.signExtend 64) s fun x y => x ||| y
/-- XORI (R138). -/
def execXori (t : At) (g : Gate) (d a : BitVec 5) (imm : BitVec 12) (s : State) : Result :=
  scalarImm t g d a (imm.signExtend 64) s fun x y => x ^^^ y
/-- An immediate shift by imm12[5:0] (R138); imm12[11:6] is to be 0 and changes nothing (DEDUCED, assumption 29). -/
def shiftImm (t : At) (g : Gate) (d a : BitVec 5) (imm : BitVec 12) (s : State) (f : Word → Nat → Word) : Result :=
  scalarTo t g d.toNat 1 s fun s => f (s.sreg g.core a.toNat) (imm.toNat % 64)
/-- SHLI (R138). -/
def execShli (t : At) (g : Gate) (d a : BitVec 5) (imm : BitVec 12) (s : State) : Result := shiftImm t g d a imm s fun x n => x <<< n
/-- SHRI (R138). -/
def execShri (t : At) (g : Gate) (d a : BitVec 5) (imm : BitVec 12) (s : State) : Result := shiftImm t g d a imm s fun x n => x >>> n
/-- SARI (R138). -/
def execSari (t : At) (g : Gate) (d a : BitVec 5) (imm : BitVec 12) (s : State) : Result := shiftImm t g d a imm s fun x n => x.sshiftRight n
/-- MOVI (R138). -/
def execMovi (t : At) (g : Gate) (d : BitVec 5) (imm : BitVec 17) (s : State) : Result :=
  scalarTo t g d.toNat 1 s fun _ => imm.signExtend 64
/-- INSL: bits [16q + 15 : 16q] := imm16 (R138). -/
def execInsl (t : At) (g : Gate) (d : BitVec 5) (q : Bool) (imm : BitVec 16) (s : State) : Result :=
  scalarTo t g d.toNat 1 s fun s => Fld.put ⟨16 * b2n q + 15, 16 * b2n q⟩ (s.sreg g.core d.toNat) imm.toNat
/-- INSH: bits [16q + 47 : 16q + 32] := imm16 (R138). -/
def execInsh (t : At) (g : Gate) (d : BitVec 5) (q : Bool) (imm : BitVec 16) (s : State) : Result :=
  scalarTo t g d.toNat 1 s fun s => Fld.put ⟨16 * b2n q + 47, 16 * b2n q + 32⟩ (s.sreg g.core d.toNat) imm.toNat
/-- The condition codes of R139; 6 and 7 are reserved. -/
def condition (c : Nat) (x y : Word) : Bool :=
  match c with
  | 0 => decide (x = y)
  | 1 => decide (x ≠ y)
  | 2 => x.slt y
  | 3 => !(x.slt y)
  | 4 => x.ult y
  | _ => !(x.ult y)
/-- CMP (R138, R139). -/
def execCmp (t : At) (g : Gate) (pd cond : BitVec 3) (a b : BitVec 5) (s : State) : Result :=
  if cond.toNat < 6 then predTo t g pd s fun s => condition cond.toNat (s.sreg g.core a.toNat) (s.sreg g.core b.toNat)
  else onCore t g.core s fun s => s
/-- CMPI (R138, R139). -/
def execCmpi (t : At) (g : Gate) (pd cond : BitVec 3) (a : BitVec 5) (imm : BitVec 11) (s : State) : Result :=
  if cond.toNat < 6 then predTo t g pd s fun s => condition cond.toNat (s.sreg g.core a.toNat) (imm.signExtend 64)
  else onCore t g.core s fun s => s
/-- The operations of PLOG (R139). -/
def predOp (op : Nat) (x y : Bool) : Bool :=
  match op with
  | 0 => x && y
  | 1 => x || y
  | 2 => x != y
  | _ => x && !y
/-- PLOG (R138, R139). -/
def execPlog (t : At) (g : Gate) (pd pa pb : BitVec 3) (op : BitVec 2) (s : State) : Result :=
  predTo t g pd s fun s => predOp op.toNat (s.preg g.core pa.toNat) (s.preg g.core pb.toNat)
/-- A scalar load at its vault port (R49, R114, R134). -/
def State.sldRead (s : State) (c r off cyc : Nat) : State :=
  let (b, _, s) := s.ownRead c 12 off 8
  s.send c (cyc + 7) 3 (.setS r (BitVec.ofNat 64 (natOf b)))
/-- A scalar load, which waits at a frozen port (R192). -/
def State.sldAccess (s : State) (c r off cyc : Nat) : State :=
  if s.frozen c && decide (off < vaultSize) then s.modCore c fun k => { k with waiting := k.waiting ++ [.sld r off] } else s.sldRead c r off cyc
/-- SLD: a poisoned word is written as read (R49, R134, R138). The vault is read in the issue cycle (DEDUCED, assumption 16). -/
def execSld (t : At) (g : Gate) (d a : BitVec 5) (imm : BitVec 12) (s : State) : Result :=
  whenOn t g s fun s =>
    s.sldAccess g.core d.toNat (ownAt (s.sreg g.core a.toNat) (8 * imm.toInt)) t.cyc
/-- SST: the data is the register that field d names (R134, R138). -/
def execSst (t : At) (g : Gate) (d a : BitVec 5) (imm : BitVec 12) (s : State) : Result :=
  whenOn t g s fun s =>
    let off := ownAt (s.sreg g.core a.toNat) (8 * imm.toInt)
    s.send g.core (t.cyc + 4) (s.portPri g.core 12) (.vault off (ownPart off (bytesOf (s.sreg g.core d.toNat).toNat 8)) [])
/-- A status word of R174 from its fields. -/
def statusWord (firstSeq bad firstStatus lastStatus : Nat) : Word :=
  BitVec.ofNat 64 (firstSeq * 2 ^ 32 + bad * 2 ^ 16 + firstStatus * 2 ^ 4 + lastStatus)
/-- A stream engine's status word as a cycle reads it: from before a completion of that cycle (R10, R174). -/
def Engine.word (e : Engine) (cyc : Nat) : Word :=
  match (if e.endCyc = cyc + 1 then e.before else []) with
  | [q, b, f, l] => statusWord q b f l
  | _ => statusWord e.firstSeq e.bad e.firstStatus e.lastStatus
/-- A status word's RC fields clear; a completion of the cycle of the read counts after the clear (R10, R174). -/
def Engine.cleared (e : Engine) (cyc : Nat) : Engine :=
  if e.endCyc = cyc + 1 ∧ e.lastStatus ≠ 0 then { e with firstSeq := e.endSeq, bad := 1, firstStatus := e.lastStatus, before := [0, 0, 0, (e.before.getD 3 0)] }
  else { e with firstSeq := 0, bad := 0, firstStatus := 0, before := if e.endCyc = cyc + 1 then [0, 0, 0, (e.before.getD 3 0)] else e.before }
/-- The step base (R150). -/
def State.stepBase (s : State) : Word := s.rd Reg.onxSchedBase
/-- A special value of SRD (R150). -/
def State.special (s : State) (c sel cyc : Nat) : Word :=
  match sel with
  | 0x00 => s.copyTc (towerOf c)
  | 0x01 => s.rd (Reg.coreStep c)
  | 0x02 => s.rd (Reg.coreSeed c)
  | 0x03 => BitVec.ofNat 64 (s.pkg * 2 ^ 12 + c)
  | 0x04 => s.stepBase
  | 0x08 | 0x09 | 0x0A | 0x0B => (s.engine c (sel - 8)).word cyc
  | 0x0C | 0x0D | 0x0E | 0x0F => BitVec.ofNat 64 ((s.engine c (sel - 12)).completed % 2 ^ 32)
  | 0x10 => s.rd (Reg.coreLate c)
  | _ => 0
/-- What reading a special value changes: a status word's RC fields clear (R150, R174). -/
def State.specialRead (s : State) (c sel cyc : Nat) : State :=
  if 8 ≤ sel ∧ sel < 12 then s.setEngine c (sel - 8) ((s.engine c (sel - 8)).cleared cyc) else s
/-- SRD (R150). -/
def execSrd (t : At) (g : Gate) (d : BitVec 5) (sel : BitVec 8) (s : State) : Result :=
  whenOn t g s fun s => (s.send g.core (t.cyc + 1) 3 (.setS d.toNat (s.special g.core sel.toNat t.cyc))).specialRead g.core sel.toNat t.cyc
/-- The selection of a variant slot (R86). -/
def State.selection (s : State) (i : Nat) : Nat := (s.rd (Reg.onxVarSel (i / 16))).toNat / 2 ^ (4 * (i % 16)) % 8
/-- VSEL (R151). -/
def execVsel (t : At) (g : Gate) (d : BitVec 5) (sel : BitVec 8) (s : State) : Result :=
  scalarTo t g d.toNat 1 s fun s => BitVec.ofNat 64 (s.selection sel.toNat)
/-- CAPC (R87, R151). -/
def execCapc (t : At) (g : Gate) (a b : BitVec 5) (s : State) : Result :=
  onSlot t g s fun on s =>
    if on then
      (s.sendReport g.core (t.cyc + 1)
        { capDrop := (s.sreg g.core a.toNat).toNat % 2 ^ 32, capDef := (s.sreg g.core b.toNat).toNat % 2 ^ 32 }).ran g.core
    else s.reportTime g.core (t.cyc + 1)

/-! Branches and loops (R94, R140 to R142). -/

/-- The count of a loop level. -/
def State.loopCount (s : State) (c j : Nat) : Nat := s.fld (Reg.coreLoopCount c j) F.coreLoopCountCount
/-- Close the loop levels whose body does not contain a bundle index (R140). -/
def State.closeLoops (s : State) (c target : Nat) : State :=
  (List.range 4).foldl (fun s j =>
    if s.fld (Reg.coreLoopStart c j) F.coreLoopStartStart ≤ target ∧ target ≤ s.fld (Reg.coreLoopEnd c j) F.coreLoopEndEnd then s
    else s.putF (Reg.coreLoopCount c j) F.coreLoopCountCount 0) s
/-- A taken branch: its target issues in the third cycle after it (R94, R140). -/
def State.branch (s : State) (c target cyc : Nat) : State :=
  let s := s.closeLoops c target
  (s.modCore c fun k => { k with npc := target, ready := cyc + 3 }).pmcCore c 0x00C 1
/-- BR (R140). -/
def execBr (t : At) (core : Nat) (target : BitVec 14) (s : State) : Result :=
  always t core s fun s => s.branch core target.toNat t.cyc
/-- BNZ (R140). -/
def execBnz (t : At) (core : Nat) (a : BitVec 5) (target : BitVec 14) (s : State) : Result :=
  always t core s fun s => if s.sreg core a.toNat ≠ 0 then s.branch core target.toNat t.cyc else s
/-- BZ (R140). -/
def execBz (t : At) (core : Nat) (a : BitVec 5) (target : BitVec 14) (s : State) : Result :=
  always t core s fun s => if s.sreg core a.toNat = 0 then s.branch core target.toNat t.cyc else s
/-- JR: to bundle index sa[13:0] (R138). -/
def execJr (t : At) (core : Nat) (a : BitVec 5) (s : State) : Result :=
  always t core s fun s => s.branch core ((s.sreg core a.toNat).toNat % 16384) t.cyc
/-- Open a loop level at the next bundle index (R141). -/
def State.openLoop (s : State) (c j last count : Nat) : State :=
  let pc := s.fld (Reg.coreStatus c) F.coreStatusPc
  ((s.putF (Reg.coreLoopStart c j) F.coreLoopStartStart (pc + 1)).putF (Reg.coreLoopEnd c j) F.coreLoopEndEnd last).putF
    (Reg.coreLoopCount c j) F.coreLoopCountCount count
/-- LOOP: a count of 0 closes the level and goes on after its end as a taken branch (R141). -/
def execLoop (t : At) (core : Nat) (lv : BitVec 2) (last : BitVec 14) (a : BitVec 5) (s : State) : Result :=
  always t core s fun s =>
    let n := (s.sreg core a.toNat).toNat % 2 ^ 32
    if n = 0 then (s.putF (Reg.coreLoopCount core lv.toNat) F.coreLoopCountCount 0).branch core ((last.toNat + 1) % 16384) t.cyc
    else s.openLoop core lv.toNat last.toNat n
/-- LOOPI: an immediate of 0 means 64 (R138, R141). -/
def execLoopi (t : At) (core : Nat) (lv : BitVec 2) (last : BitVec 14) (imm : BitVec 6) (s : State) : Result :=
  always t core s fun s => s.openLoop core lv.toNat last.toNat (if imm = 0 then 64 else imm.toNat)

/-! Waits (R124, R143 to R149). -/

/-- A wait that is late counts, with how late it is (R124). -/
def State.countLate (s : State) (c late : Nat) : State :=
  ((s.bump (Reg.coreLate c) F.coreLateLateCount 1).raise (Reg.coreLate c) F.coreLateLateMax late).pmcCore c 0x00B 1
/-- WAITT (R124, R143); a wait never releases while the copy is invalid (R285). -/
def execWaitt (t : At) (core : Nat) (a : BitVec 5) (imm : BitVec 17) (s : State) : Result :=
  always t core s fun s =>
    let target := s.sreg core a.toNat + imm.setWidth 64
    let now := s.copyTc (towerOf core)
    if (s.tower (towerOf core)).copyValid && decide (target ≤ now) then s.countLate core (now.toNat - target.toNat) else s.waits core t.cyc (.time target false)
/-- WAITT_RELEASE: the copy has reached the target (R124, R299). -/
def execWaittRelease (t : At) (core : Nat) (s : State) : Result :=
  onCore t core s fun s =>
    match (s.core core).wait with
    | .time target _ => if s.running && (s.tower (towerOf core)).copyValid && decide (target ≤ s.copyTc (towerOf core)) then s.release core t.cyc else s
    | _ => s
/-- WAITSE (R144). -/
def execWaitse (t : At) (core : Nat) (mask : BitVec 4) (n : BitVec 2) (s : State) : Result :=
  always t core s fun s =>
    let issued := s.issuedBy core
    if s.enginesClear core mask.toNat n.toNat issued then s else s.waits core t.cyc (.engines mask.toNat n.toNat issued)
/-- BAR: the reserved mode and scope make it a no-op (R132, R145). -/
def execBar (t : At) (core : Nat) (mode scope : BitVec 2) (id : BitVec 4) (s : State) : Result :=
  if mode = 3 ∨ scope = 3 then onCore t core s fun s => s
  else always t core s fun s => s.barrier core mode.toNat scope.toNat id.toNat t.cyc
/-- A command about a tower. -/
def onTower (t : At) (tower : Nat) (s : State) (f : State → State) : Result :=
  if tower < Config.towers then .next ((s.at t).ifAwake f) else .fault .noSuchUnit
/-- BARRIER_TREE_RELEASE: a tree completes 20 cycles after the last arrival; a tower phase is released, a package or rack phase stamped
(R196, R197, R198, R311). -/
def execBarrierTreeRelease (t : At) (tower : Nat) (id : BitVec 4) (s : State) : Result :=
  onTower t tower s fun s =>
    match (s.tree tower id.toNat).due with
    | some d =>
      if d ≤ t.cyc then
        (if (s.tree tower id.toNat).scope = 0 then s.treeRelease tower id.toNat t.cyc else s.treeStamp tower id.toNat)
      else s
    | none => s
/-- FSET (R146, R199). -/
def execFset (t : At) (g : Gate) (f : BitVec 8) (a : BitVec 5) (s : State) : Result :=
  whenOn t g s fun s => s.fset g.core f.toNat (s.sreg g.core a.toNat) t.cyc
/-- FLAG_LAND: one set per target core per cycle (R199). -/
def execFlagLand (t : At) (core : Nat) (s : State) : Result := onCore t core s fun s => s.landFlag core t.cyc
/-- FCLR (R138, R146). -/
def execFclr (t : At) (g : Gate) (f : BitVec 8) (s : State) : Result :=
  whenOn t g s fun s => s.clearFlag g.core f.toNat (t.cyc + 1)
/-- FWAIT (R146). -/
def execFwait (t : At) (core : Nat) (f : BitVec 8) (clr : Bool) (s : State) : Result :=
  always t core s fun s =>
    if s.flagBit core f.toNat then (if clr then s.clearFlag core f.toNat (t.cyc + 1) else s)
    else s.waits core t.cyc (.flag f.toNat clr)
/-- FTEST (R138). -/
def execFtest (t : At) (g : Gate) (f : BitVec 8) (pd : BitVec 3) (s : State) : Result :=
  predTo t g pd s fun s => s.flagBit g.core f.toNat
/-- FENCE (R147, R488). -/
def execFence (t : At) (core : Nat) (s : State) : Result :=
  always t core s fun s =>
    let issued := s.issuedBy core
    if s.fenceClear core issued then s else s.waits core t.cyc (.fence issued)
/-- LATR: the command word sb and the requested time sa go to the core's tile (R148, R232). -/
def execLatr (t : At) (g : Gate) (a b : BitVec 5) (s : State) : Result :=
  whenOn t g s fun s =>
    s.emit (.latr (tileOf (towerOf g.core)) (s.sreg g.core b.toNat) (s.sreg g.core a.toNat).toNat)
/-- STEP: with h = 1 the program asks for HOLD at this boundary (R149, R319, R321). -/
def execStep (t : At) (core : Nat) (h : Bool) (s : State) : Result :=
  always t core s fun s =>
    let s := s.waits core t.cyc .step
    let s := s.modCore core fun k => { k with stepped := true }
    let s := if h then s.holdCause 0 else s
    s.stepDone (towerOf core) t.cyc
/-- HALT (R149). -/
def execHalt (t : At) (core : Nat) (s : State) : Result :=
  always t core s fun s => (s.modCore core fun k => { k with halted := true }).stepDone (towerOf core) t.cyc

end Sys2Proof.Machine
end

