-- ==== Sys2Proof/Machine/Matrix.lean ====
section
/-! DEFINITION. The matrix slot (R152 to R155), the column governor (R201 to R203) and the array's delayed results (R80, R106). -/

namespace Sys2Proof.Machine

/-- The operand formats of a pairing code (R153). -/
def pairing : Nat → Option (Elem × Elem)
  | 0 => some (.f4, .f4) | 1 => some (.f3, .f3) | 2 => some (.t2, .f4) | 3 => some (.t2, .f8a) | 4 => some (.t2, .f8b)
  | 5 => some (.f8a, .f8a) | 6 => some (.f8a, .f8b) | 7 => some (.f8b, .f8a) | 8 => some (.f8b, .f8b) | 9 => some (.b16, .b16)
  | _ => none
/-- Rows per cycle and the largest K of a pairing (R104). -/
def arrayRate : Elem → Elem → Nat × Nat
  | .f4, .f4 | .f3, .f3 => (4, 1024)
  | .t2, .f4 => (8, 1024)
  | .t2, _ => (4, 512)
  | .b16, _ => (1, 256)
  | _, _ => (2, 512)
/-- K in blocks of 16: a kb of 0 means K = 1,024 (R153). -/
def blocksOf (kb : BitVec 6) : Nat := if kb = 0 then 64 else kb.toNat
/-- Where operand A lies within its half: A-half ah at tile offset `hi` × 32 KiB (R153). -/
def aOffset (hi : Bool) : Nat := if hi then 0x8000 else 0

/-! The column governor (R203). -/

/-- The bin of a tick and column as the governor keys its debits. -/
def binKey (col bin : Nat) : Nat := bin * 64 + col
/-- The governor's bin at the tower (R203). -/
def State.binNow (s : State) (t : Nat) : Nat := (s.copyTc t).toNat / 1000
/-- The debits in the current bin and the 49 before it (R203). -/
def State.windowSum (s : State) (t col : Nat) : Nat :=
  let b := s.binNow t
  ((s.tower t).bins.filter fun e => decide (e.1 % 64 = col ∧ e.1 / 64 ≤ b ∧ b < e.1 / 64 + 50)).foldl (fun n e => n + e.2) 0
/-- Another core of the column, not fenced, that became due earlier, or in the same cycle in a higher layer, is still delayed (R201, R203). -/
def State.aheadInColumn (s : State) (c due : Nat) : Bool :=
  (List.range 4).any fun l =>
    let d := 256 * towerOf c + 64 * l + colOf c
    d ≠ c && !s.coreFenced d && (match (s.core d).governed with
      | some g => decide (g.due < due ∨ (g.due = due ∧ layerOf c < l))
      | none => false)
/-- The governor lets an occupancy issue: the window's sum with it stays at or below 274,096 and no core is ahead (R203). -/
def State.governorLets (s : State) (c d due : Nat) : Bool :=
  decide (s.windowSum (towerOf c) (colOf c) + d ≤ 274096) && !s.aheadInColumn c due
/-- Debit an occupancy at issue; debits older than the window are dropped (R203). -/
def State.debit (s : State) (c d : Nat) : State :=
  let t := towerOf c
  let w := s.tower t
  let k := binKey (colOf c) (s.binNow t)
  let live := w.bins.filter fun e => s.binNow t < e.1 / 64 + 50
  s.setTower t { w with bins := assocSet live k (assoc live k + d) }

/-- The cycle in which a core's matrix-array instruction became due: earlier than now where the governor has delayed it (R203). -/
def State.dueCycle (s : State) (c cyc : Nat) : Nat := match (s.core c).governed with
  | some g => g.due
  | none => cyc
/-- A delayed instruction issues: its delay cycles and the column's event count (R126, R203). -/
def State.countGoverned (s : State) (c cyc : Nat) : State :=
  match (s.core c).governed with
  | none => s
  | some g =>
    let s := (s.bump (Reg.coreGov c) F.coreGovCount (cyc - g.due)).bump (Reg.twrGov (towerOf c) (colOf c)) F.twrGovEvents 1
    (s.pmcCore c 0x009 (cyc - g.due)).modCore c fun k => { k with governed := none, heldBy := k.heldBy + (cyc - g.due) }

/-! MMA and MMAC. -/

/-- The array takes an instruction (R106): the zeroing before its folds, the debit, the time of its report. -/
def State.startArray (s : State) (c : Nat) (o : ArrayOp) (report : Nat) : State :=
  let s := s.debit c o.occ
  let s := if o.init && o.enabled then s.send c (o.cyc + 11) 1 (.accClear o.acc) else s
  let s := s.reportTime c (o.cyc + report)
  let o := { o with gen := (s.core c).gen }
  (s.modCore c fun k => { k with array := some o, arrayFree := o.cyc + o.occ }).pmcCore c 0x003 (if o.enabled then o.occ else 0)
/-- A matrix-array instruction: a K too large occupies no cycle (R108), nor does it wait for a busy array (DESIGN CHOICE, assumption 101); a busy array
stalls (R97); the column governor may delay (R203), keeping the instruction to issue later. A bundle that the governor has let issue issues whole (R176). -/
def matrixArray (t : At) (g : Gate) (i : Instr) (largest report : Nat) (op : State → ArrayOp) (s : State) : Result :=
  onSlot t g s fun on s =>
    let c := g.core
    let o := { op s with cyc := t.cyc, enabled := on }
    if largest < 16 * o.blocks then (if on then s.coreFault c F.coreFaultMatrixRange else s)
    else if t.cyc < (s.core c).arrayFree then s.stall c 1
    else
      let due := s.dueCycle c t.cyc
      if decide ((s.core c).bundle = some t.cyc) || s.governorLets c o.occ due then
        let s := (s.countGoverned c t.cyc).startArray c o (o.occ + report)
        if on then s.ran c else s
      else (s.waits c t.cyc .governor).modCore c fun k => { k with governed := some { due := due, instr := some i } }
/-- MMA (R103 to R108, R153). -/
def execMma (t : At) (g : Gate) (pair : BitVec 4) (acc init ah atHi bh : Bool) (kb : BitVec 6) (s : State) : Result :=
  match pairing pair.toNat with
  | none => onCore t g.core s fun s => s
  | some (fa, fb) =>
    let r := arrayRate fa fb
    matrixArray t g (.mma t g pair acc init ah atHi bh kb) r.2 10
      (fun _ => { fa := fa, fb := fb, acc := b2n acc, init := init, aHalf := 2 + b2n ah, aOff := aOffset atHi, bHalf := 4 + b2n bh,
                  blocks := blocksOf kb, rows := r.1 }) s
/-- MMAC (R78 to R80, R109, R154). -/
def execMmac (t : At) (g : Gate) (pair : BitVec 4) (acc init ah bh : Bool) (kb : BitVec 6) (pd : BitVec 3) (a : BitVec 5) (s : State) : Result :=
  match (if pair.toNat < 5 then pairing pair.toNat else none) with
  | none => onCore t g.core s fun s => s
  | some (fa, fb) =>
    matrixArray t g (.mmac t g pair acc init ah bh kb pd a) 512 14
      (fun s =>
        let w := (s.sreg g.core a.toNat).toNat
        { fa := fa, fb := fb, acc := b2n acc, init := init, aHalf := 2 + b2n ah, aOff := 0, bHalf := 4 + b2n bh,
          blocks := blocksOf kb, rows := 2, check := some (pd.toNat, w % 2 ^ 32, w / 2 ^ 32), cols := List.replicate 64 {} }) s
/-- ARRAY_FOLD_WRITE: the folds whose write cycles have come are in the accumulator (R106). -/
def execArrayFoldWrite (t : At) (core : Nat) (s : State) : Result := onCore t core s fun s => s
/-- CHECKSUM_RESULT: a checksum instruction's predicate and fault count are written (R80). -/
def execChecksumResult (t : At) (core : Nat) (s : State) : Result := onCore t core s fun s => s

/-! Rows. -/

/-- The row that ACCRD and ACCWR name (R155). -/
def rowOf (s : State) (c : Nat) (r : Bool) (row : BitVec 6) (a : BitVec 5) : Nat :=
  if r then (s.sreg c a.toNat).toNat % 64 else row.toNat
/-- ACCRD (R107, R155). -/
def execAccrd (t : At) (g : Gate) (vd : BitVec 6) (acc r : Bool) (row : BitVec 6) (a : BitVec 5) (s : State) : Result :=
  onSlot t g s fun on s =>
    let s := s.reportTime g.core (t.cyc + 2)
    if on then (s.send g.core (t.cyc + 2) 2 (.setV vd.toNat (s.accRow g.core (b2n acc) (rowOf s g.core r row a)))).ran g.core else s
/-- ACCWR (R107, R155). -/
def execAccwr (t : At) (g : Gate) (va : BitVec 6) (acc r : Bool) (row : BitVec 6) (a : BitVec 5) (s : State) : Result :=
  onSlot t g s fun on s =>
    let s := s.reportTime g.core (t.cyc + 2)
    if on then (s.send g.core (t.cyc + 2) 2 (.accRow (b2n acc) (rowOf s g.core r row a) (s.vreg g.core va.toNat))).ran g.core else s
/-- ACCCLR (R107, R155). -/
def execAccclr (t : At) (g : Gate) (acc : Bool) (s : State) : Result :=
  onSlot t g s fun on s =>
    let s := s.reportTime g.core (t.cyc + 1)
    if on then (s.send g.core (t.cyc + 1) 2 (.accClear (b2n acc))).ran g.core else s

end Sys2Proof.Machine
end

