-- ==== Sys2Proof/Machine/Vector.lean ====
section
/-! DEFINITION. The vector slot (R156 to R165): lane arithmetic (R41 to R43), the elementary functions (R158), vault and dequantizing
loads, and the quantizer (R57 to R66, R75, R76). -/

namespace Sys2Proof.Machine

/-! Lane arithmetic. -/

/-- Two lists by a function of two. -/
def lanes2 (f : Nat → Nat → Nat) (a b : List Nat) : List Nat := List.zipWith f a b
/-- An operation on 64 F32 lanes or 128 B16 elements (R156). -/
def byFormat (half : Bool) (f : Fmt → Nat → Nat → Nat) (a b : List Nat) : List Nat :=
  if half then joinHalves (lanes2 (f b16) (halves a) (halves b)) else lanes2 (f f32) a b
/-- A vector-slot result, landing after its latency; the slot counts it (R156, R442 event 0x004). -/
def vectorTo (t : At) (g : Gate) (vd : BitVec 6) (lat : Nat) (s : State) (v : State → List Nat) : Result :=
  whenOn t g s fun s => (s.send g.core (t.cyc + lat) 1 (.setV vd.toNat (v s))).pmcCore g.core 0x004 1
/-- vd := va op vb, four cycles on (R156). -/
def vectorOp (t : At) (g : Gate) (vd va vb : BitVec 6) (half : Bool) (s : State) (f : Fmt → Nat → Nat → Nat) : Result :=
  vectorTo t g vd 4 s fun s => byFormat half f (s.vreg g.core va.toNat) (s.vreg g.core vb.toNat)
/-- VADD (R156). -/
def execVadd (t : At) (g : Gate) (vd va vb : BitVec 6) (half : Bool) (s : State) : Result := vectorOp t g vd va vb half s Fmt.add
/-- VSUB (R156). -/
def execVsub (t : At) (g : Gate) (vd va vb : BitVec 6) (half : Bool) (s : State) : Result := vectorOp t g vd va vb half s Fmt.sub
/-- VMUL (R156). -/
def execVmul (t : At) (g : Gate) (vd va vb : BitVec 6) (half : Bool) (s : State) : Result := vectorOp t g vd va vb half s Fmt.mul
/-- The fused multiply-add of lanes with one rounding (R156). -/
def fmaLanes (f : Fmt) (a b d : List Nat) : List Nat := List.zipWith (fun p z => f.fma p.1 p.2 z) (List.zip a b) d
/-- VFMA (R156). -/
def execVfma (t : At) (g : Gate) (vd va vb : BitVec 6) (half : Bool) (s : State) : Result :=
  vectorTo t g vd 4 s fun s =>
    let a := s.vreg g.core va.toNat
    let b := s.vreg g.core vb.toNat
    let d := s.vreg g.core vd.toNat
    if half then joinHalves (fmaLanes b16 (halves a) (halves b) (halves d)) else fmaLanes f32 a b d
/-- VMIN (R43, R156). -/
def execVmin (t : At) (g : Gate) (vd va vb : BitVec 6) (half : Bool) (s : State) : Result := vectorOp t g vd va vb half s Fmt.min
/-- VMAX (R43, R156). -/
def execVmax (t : At) (g : Gate) (vd va vb : BitVec 6) (half : Bool) (s : State) : Result := vectorOp t g vd va vb half s Fmt.max
/-- 1.0 in F32. -/
def oneF32 : Nat := 0x3F800000
/-- A lane of VCMP (R157): false for a NaN but under NE; poison for a poison NaN. -/
def cmpLane (cond a b : Nat) : Nat :=
  if f32.isPoison a || f32.isPoison b then f32.poison
  else
    let nan := f32.isNaN a || f32.isNaN b
    let r := match cond with
      | 0 => !nan && f32.eq a b
      | 1 => nan || !f32.eq a b
      | 2 => !nan && f32.lt a b
      | _ => !nan && (f32.lt a b || f32.eq a b)
    if r then oneF32 else 0
/-- VCMP: codes above 3 are reserved (R157). -/
def execVcmp (t : At) (g : Gate) (vd va vb : BitVec 6) (cond : BitVec 3) (s : State) : Result :=
  if cond.toNat < 4 then
    vectorTo t g vd 4 s fun s => lanes2 (cmpLane cond.toNat) (s.vreg g.core va.toNat) (s.vreg g.core vb.toNat)
  else onCore t g.core s fun s => s
/-- A lane of VSELM (R157). -/
def selectLane (d a b : Nat) : Nat :=
  if f32.isPoison d || f32.isPoison a || f32.isPoison b then f32.poison
  else
    let x := if f32.mag d = 0 then b else a
    if f32.isNaN x then f32.canon else x
/-- VSELM (R157). -/
def execVselm (t : At) (g : Gate) (vd va vb : BitVec 6) (s : State) : Result :=
  vectorTo t g vd 4 s fun s =>
    List.zipWith (fun p d => selectLane d p.1 p.2) (List.zip (s.vreg g.core va.toNat) (s.vreg g.core vb.toNat)) (s.vreg g.core vd.toNat)
/-- vd := f(va) lane by lane (R158). -/
def vectorUnary (t : At) (g : Gate) (vd va : BitVec 6) (s : State) (f : Nat → Nat) : Result :=
  vectorTo t g vd 12 s fun s => (s.vreg g.core va.toNat).map f
/-- VEXP2 (R158). -/
def execVexp2 (t : At) (g : Gate) (vd va : BitVec 6) (s : State) : Result := vectorUnary t g vd va s exp2
/-- VLOG2 (R158). -/
def execVlog2 (t : At) (g : Gate) (vd va : BitVec 6) (s : State) : Result := vectorUnary t g vd va s log2F
/-- VRCP (R158). -/
def execVrcp (t : At) (g : Gate) (vd va : BitVec 6) (s : State) : Result := vectorUnary t g vd va s recip
/-- VRSQ (R158). -/
def execVrsq (t : At) (g : Gate) (vd va : BitVec 6) (s : State) : Result := vectorUnary t g vd va s rsqrt
/-- A reduction to lane 0 over the fixed tree (R159). -/
def vectorReduce (t : At) (g : Gate) (vd va : BitVec 6) (s : State) (f : Nat → Nat → Nat) : Result :=
  vectorTo t g vd 8 s fun s => treeOf f (s.vreg g.core va.toNat) :: List.replicate 63 0
/-- VRSUM (R159). -/
def execVrsum (t : At) (g : Gate) (vd va : BitVec 6) (s : State) : Result := vectorReduce t g vd va s f32.add
/-- VRMAX (R159). -/
def execVrmax (t : At) (g : Gate) (vd va : BitVec 6) (s : State) : Result := vectorReduce t g vd va s f32.max
/-- VBCL (R160). -/
def execVbcl (t : At) (g : Gate) (vd va x : BitVec 6) (s : State) : Result :=
  vectorTo t g vd 2 s fun s => List.replicate 64 ((s.vreg g.core va.toNat).getD x.toNat 0)
/-- VBCS (R160). -/
def execVbcs (t : At) (g : Gate) (vd : BitVec 6) (a : BitVec 5) (s : State) : Result :=
  vectorTo t g vd 2 s fun s => List.replicate 64 ((s.sreg g.core a.toNat).toNat % 2 ^ 32)
/-- VEXT (R160). -/
def execVext (t : At) (g : Gate) (d : BitVec 5) (va x : BitVec 6) (s : State) : Result :=
  whenOn t g s fun s =>
    (s.send g.core (t.cyc + 3) 1 (.setS d.toNat (BitVec.ofNat 64 ((s.vreg g.core va.toNat).getD x.toNat 0)))).pmcCore g.core 0x004 1
/-- VPACK (R161). -/
def execVpack (t : At) (g : Gate) (vd va vb : BitVec 6) (s : State) : Result :=
  vectorTo t g vd 4 s fun s => lanes2 (fun a b => f32ToB16 a + 65536 * f32ToB16 b) (s.vreg g.core va.toNat) (s.vreg g.core vb.toNat)
/-- VUNPK (R161). -/
def execVunpk (t : At) (g : Gate) (vd va : BitVec 6) (hi : Bool) (s : State) : Result :=
  vectorTo t g vd 4 s fun s => (s.vreg g.core va.toNat).map fun l => b16ToF32 (if hi then l / 65536 else l % 65536)

/-! Vault loads and stores (R134, R156, R162). -/

/-- The offset of VLD and VST: bits [5:0] are ignored (R162). -/
def lineOffset (w : Word) (imm : BitVec 11) : Nat := ownAt w (64 * imm.toInt) / 64 * 64
/-- The lanes of 256 bytes; both lanes of a poisoned word read 0x7FFF_FFFF (R49). -/
def loadedLanes (base : Nat) (b : List Byte) (poisoned : List Nat) : List Nat :=
  (List.range 64).map fun i => if poisoned.contains ((base + 4 * i) / 8 * 8) then f32.poison else fieldAt b (4 * i) 4
/-- A vector load at its vault port (R49, R156). -/
def State.vldRead (s : State) (c v off cyc : Nat) : State :=
  let (b, p, s) := s.ownRead c 11 off 256
  s.send c (cyc + 7) 1 (.setV v (loadedLanes (windowOf c + off) b p))
/-- VLD (R49, R156); it waits at a frozen port (R192). -/
def execVld (t : At) (g : Gate) (d : BitVec 6) (a : BitVec 5) (imm : BitVec 11) (s : State) : Result :=
  whenOn t g s fun s =>
    let off := lineOffset (s.sreg g.core a.toNat) imm
    let s := if s.frozen g.core && decide (off < vaultSize) then s.modCore g.core fun k => { k with waiting := k.waiting ++ [.vld d.toNat off] }
      else s.vldRead g.core d.toNat off t.cyc
    s.pmcCore g.core 0x004 1
/-- VST (R156). -/
def execVst (t : At) (g : Gate) (d : BitVec 6) (a : BitVec 5) (imm : BitVec 11) (s : State) : Result :=
  whenOn t g s fun s =>
    let off := lineOffset (s.sreg g.core a.toNat) imm
    let data := ((s.vreg g.core d.toNat).map fun l => bytesOf l 4).flatten
    (s.send g.core (t.cyc + 4) (s.portPri g.core 11) (.vault off (ownPart off data) [])).pmcCore g.core 0x004 1

/-! Dequantizing load (R163). -/

/-- A narrow block of the own vault (R49, R163). -/
def State.vaultBlock (s : State) (c : Nat) (f : Elem) (off scale : Nat) : Block × State :=
  let (b, p, s) := s.ownRead c 11 off f.blockSize
  let (k, q, s) := s.ownRead c 11 scale 1
  ({ codes := f.codes b, k8 := natOf k, poisoned := !p.isEmpty || !q.isEmpty }, s)
/-- n blocks from a data and a scale offset on. Each block's offset is bits [23:0] of its own sum, so that a run that passes 0xFF_FFFF goes on at offset 0,
where one VLD, SLD or VQ is one access that does not wrap (DESIGN CHOICE, assumption 119). -/
def State.vaultBlocks (s : State) (c : Nat) (f : Elem) (off scale : Nat) : Nat → List Block × State
  | 0 => ([], s)
  | n + 1 =>
    let (b, s) := s.vaultBlock c f (off % 2 ^ 24) (scale % 2 ^ 24)
    let (l, s) := s.vaultBlocks c f (off + f.blockSize) (scale + 1) n
    (b :: l, s)
/-- A descriptor's register written in the next cycle or later by a post-increment (R163, R165). -/
def State.advance (s : State) (c due r : Nat) (f : Fld) (n : Nat) : State :=
  s.send c due 1 (.setS r (addField (s.sreg c r) f n))
/-- The data_base and scale_base fields (R136). -/
def baseField : Fld := ⟨50, 0⟩
/-- The index_base field (R136). -/
def indexField : Fld := ⟨47, 0⟩
/-- A dequantizing load at its vault port (R38, R49, R65, R163). -/
def State.vdqRead (s : State) (c v fmt tscale data scale cyc : Nat) : State :=
  match Elem.ofCode fmt with
  | some f =>
    let (bs, s) := s.vaultBlocks c f data scale 4
    let s := s.send c (cyc + 9) 1 (.setV v ((bs.map fun b => dequantize f tscale b).flatten))
    s.sendReport c (cyc + 9) { rsvd := bs.foldl (fun n b => n + b.reserved f) 0 }
  | none => s
/-- VDQ (R38, R65, R163); its post-increment lands in the next cycle, as R165 gives for VQ (DEDUCED, assumption 20). -/
def execVdq (t : At) (g : Gate) (vd : BitVec 6) (k : BitVec 3) (p : Bool) (s : State) : Result :=
  onSlot t g s fun on s =>
    let c := g.core
    if k = 0 then s
    else if !on then s.reportTime c (t.cyc + 9)
    else
      let d := s.tensor c k.toNat
      match Elem.ofCode d.fmt with
      | some f =>
        if f.narrow then
          let s := if s.frozen c then
              (s.modCore c fun k => { k with waiting := k.waiting ++ [.vdq vd.toNat d.fmt d.tscale (d.data % 2 ^ 24) (d.scale % 2 ^ 24)] }).reportTime c (t.cyc + 9)
            else s.vdqRead c vd.toNat d.fmt d.tscale (d.data % 2 ^ 24) (d.scale % 2 ^ 24) t.cyc
          let s := if p then (s.advance c (t.cyc + 1) (4 * k.toNat) baseField (4 * f.blockSize)).advance c (t.cyc + 1) (4 * k.toNat + 1) baseField 4 else s
          (s.pmcCore c 0x004 1).ran c
        else s.reportTime c (t.cyc + 9)
      | none => s.reportTime c (t.cyc + 9)

/-! The quantizer (R57 to R64, R75, R76, R112, R164). -/

/-- What quantizing a block writes: codes and K8, the report, and the residuals of an error-feedback quantize. -/
structure BlockOut where
  bytes : List Byte
  k8 : Nat
  incl : Incl
  resid : List Nat
/-- Quantize one block: y from the inputs and q, with the residuals added under error feedback (R57, R75, R76). -/
def quantizeBlock (f : Elem) (q : Nat) (rnd : Option (List Nat)) (xs : List Nat) (resid : Option (List Nat)) : BlockOut :=
  let ys := xs.map fun x => f32.mul x q
  let ys := match resid with
    | none => ys
    | some rs => lanes2 f32.add ys (rs.map b16ToF32)
  let o := quantize f rnd ys
  let rs := match resid with
    | none => []
    | some _ => if o.k8 = 0xFF then List.replicate 16 0 else lanes2 (residual f o.k8) ys o.codes
  { bytes := f.pack o.codes, k8 := o.k8, resid := rs,
    incl := { elem := 16, sat := o.sat, flush := o.flushed, poisb := o.poisoned, maxMag := o.maxMag, residual := resid.isSome } }
/-- Quantize blocks of 16 inputs in turn; draw indices run on from an index base (R61, R62, R112). -/
def quantizeBlocks (f : Elem) (q : Nat) (drawAt : Option (Nat → Nat)) : Nat → Nat → List Nat → List (List Nat) → List BlockOut
  | 0, _, _, _ => []
  | n + 1, ix, xs, rs =>
    quantizeBlock f q (drawAt.map fun d => (List.range 16).map fun j => d ((ix + j) % 2 ^ 48)) (xs.take 16) rs.head? ::
      quantizeBlocks f q drawAt n (ix + 16) (xs.drop 16) rs.tail
/-- The residual elements of n blocks from an own-vault offset: an element of a poisoned word reads as a poison NaN (R49, R75). The base is taken as it is,
aligned or not (DESIGN CHOICE, assumption 117), and each block's offset modulo 2^24 (DESIGN CHOICE, assumption 119). -/
def State.residuals (s : State) (c off : Nat) : Nat → List (List Nat) × State
  | 0 => ([], s)
  | n + 1 =>
    let (b, p, s) := s.ownRead c 11 (off % 2 ^ 24) 32
    let a := windowOf c + off % 2 ^ 24
    let r := (List.range 16).map fun i => if p.contains ((a + 2 * i) / 8 * 8) then b16.poison else fieldAt b (2 * i) 2
    let (l, s) := s.residuals c (off + 32) n
    (r :: l, s)
/-- Bytes that a VQ writes into a store of a half: those beyond the store's end are discarded (R164). -/
def storePart (size off : Nat) (b : List Byte) : List Byte := if off < size then b.take (size - off) else []
/-- The write of a VQ's data or scale bytes to its destination (R164). -/
def State.quantTo (s : State) (c due dst off : Nat) (scale : Bool) (b : List Byte) : State :=
  if dst = 0 then
    let o := off % 2 ^ 24
    let part := ownPart o b
    if part = [] then s else s.send c due (s.portPri c 11) (.vault o part [])
  else
    let part := if scale then storePart (scaleSize dst) off b else storePart (dataSize dst) off b
    if part = [] then s else s.send c due 1 (.buffer dst (if scale then dataSize dst + off else off) part [])
/-- The reports of several blocks as one (R64, R68). -/
def inclSum (l : List BlockOut) : Incl := l.foldl (fun i b => i.plus b.incl) {}
/-- A VQ's encoding is reserved (R132, R164). -/
def vqReserved (k dst : BitVec 3) (a : BitVec 5) (ef : Bool) : Bool :=
  decide (k = 0) || decide (dst = 1 ∨ dst = 6 ∨ dst = 7) || (ef && decide (a.toNat % 2 = 1 ∨ 30 < a.toNat))
/-- A quantize with its operands (R57 to R64, R75, R112, R164): the residual read, the writes and the report. -/
def State.quantRun (s : State) (c cyc : Nat) (q : Quant) : State :=
  match Elem.ofCode q.fmt with
  | some f =>
    let due := cyc + (if q.ef then 17 else 10)
    let (rs, s) := if q.ef then s.residuals c q.base q.blocks else ([], s)
    let os := quantizeBlocks f q.q (q.draw.map fun d => draw d.1 d.2.1 d.2.2) q.blocks q.index q.vs rs
    let s := s.quantTo c due q.dst q.data false ((os.map (·.bytes)).flatten)
    let s := s.quantTo c due q.dst q.scale true (os.map fun b => BitVec.ofNat 8 b.k8)
    let s := if q.ef then s.quantTo c due 0 q.base false ((os.map fun b => (b.resid.map fun r => bytesOf r 2).flatten).flatten) else s
    s.sendReport c due (inclSum os)
  | none => s
/-- The operands of a VQ as captured at issue (R164). -/
def State.quantOf (s : State) (c : Nat) (vs : BitVec 6) (k : BitVec 3) (a : BitVec 5) (dst : BitVec 3) (sr ef h : Bool) : Quant :=
  let d := s.tensor c k.toNat
  let x := s.vreg c vs.toNat
  { fmt := d.fmt, vs := if h then (halves x).map b16ToF32 else x, q := (s.sreg c a.toNat).toNat % 2 ^ 32, blocks := if h then 8 else 4, dst := dst.toNat,
    data := d.data, scale := d.scale, base := (s.sreg c (a.toNat + 1)).toNat % 2 ^ 24, ef := ef,
    draw := if sr then some (s.rd (Reg.coreSeed c), (s.rd (Reg.coreStep c)).toNat % 2 ^ 32, d.tid) else none, index := d.index }
/-- VQ (R57 to R64, R75, R112, R164, R165); a residual read waits at a frozen port (R192). With h = 1 the quantizer takes two issue cycles, and a vector
instruction in the second issues all the same (DESIGN CHOICE, assumption 120). Scale offsets of a buffer half count from the start of its scale store (DEDUCED, assumption 21). -/
def execVq (t : At) (g : Gate) (vs : BitVec 6) (k : BitVec 3) (a : BitVec 5) (dst : BitVec 3) (sr ef p h : Bool) (s : State) : Result :=
  if vqReserved k dst a ef then onCore t g.core s fun s => s
  else
    onSlot t g s fun on s =>
      let c := g.core
      let due := t.cyc + (if ef then 17 else 10)
      if !on then s.reportTime c due
      else
        let d := s.tensor c k.toNat
        match Elem.ofCode d.fmt with
        | some f =>
          if f.narrow then
            let n := if h then 8 else 4
            let q := s.quantOf c vs k a dst sr ef h
            let s := if ef && s.frozen c then (s.modCore c fun k => { k with waiting := k.waiting ++ [.quant q] }).reportTime c due
              else s.quantRun c t.cyc q
            let at1 := t.cyc + (if h then 2 else 1)
            let s := if p then
                let s := s.advance c at1 (4 * k.toNat) baseField (n * f.blockSize)
                let s := s.advance c at1 (4 * k.toNat + 1) baseField n
                let s := s.advance c at1 (4 * k.toNat + 3) indexField (16 * n)
                if ef then s.send c at1 1 (.setS (a.toNat + 1) (s.sreg c (a.toNat + 1) + BitVec.ofNat 64 (32 * n))) else s
              else s
            ((s.pmcCore c 0x004 1).pmcCore c 0x005 n).ran c
          else s.reportTime c due
        | none => s.reportTime c due

end Sys2Proof.Machine
end

