-- ==== Sys2Proof/Machine/Stream.lean ====
section
/-! DEFINITION. The stream slot (R166 to R174): descriptors, their checks and plans (R120, R135, R167 to R169), their remote operations
(R121, R357, R373, R383), completion and status words (R119, R174). -/

namespace Sys2Proof.Machine

/-! Rows of a copy. -/

/-- The buffer half of STILE's dst field (R169). -/
def tileHalf (dst : Nat) : Nat := dst + 2
/-- A row of a tile, of which what lies beyond the end of its store is discarded (DESIGN CHOICE, assumption 22). -/
def tileRow (limit src dst len half : Nat) : Row := ⟨src, min dst (limit - 1), len, half, min len (limit - dst)⟩
/-- The rows of a tile: data rows first, then scale rows (R105, R169). `half` and `off` name the tile. -/
def tileRows (half off : Nat) (f : Elem) (data scale pitch blocks : Nat) : List Row :=
  let step := if f = .b16 then 32 else f.blockSize
  let d := (List.range 64).map fun m => tileRow (dataSize half) (data + m * pitch * step) (off + m * blocks * step) (blocks * step) half
  if f = .b16 then d
  else d ++ (List.range 64).map fun m =>
    let r := tileRow (scaleSize half) (scale + m * pitch) (off / 8 + 64 * m) blocks half
    { r with dst := dataSize half + r.dst }
/-- The rows of a copy descriptor. -/
def Act.rows : Act → List Row
  | .scopy dk _ dst src rows ds len ss => (List.range rows).map fun j => ⟨src + j * ss, dst + j * ds, len, dk, len⟩
  | .stile half off fmt data scale pitch blocks _ =>
    match Elem.ofCode fmt with
    | some f => tileRows half off f data scale pitch blocks
    | none => []
  | _ => []
/-- An end of a row in the core's tower lies within a vault, as R116 permits for an engine. -/
def State.endOk (s : State) (c a len : Nat) : Bool :=
  s.leaves c a || (match placeOf (localAddr a) with
    | .vault _ off => decide (off + len ≤ vaultSize)
    | _ => false)
/-- The core whose window an end names. -/
def windowCore (a : Nat) : Option Nat :=
  if 0x020000000000 ≤ a ∧ a < 0x020000000000 + 3072 * 0x1000000 then some ((a - 0x020000000000) / 0x1000000) else none
/-- A row that R168 permits. -/
def State.rowOk (s : State) (c : Nat) (r : Row) : Bool :=
  s.endOk c r.src r.len &&
    (if r.half = 0 then s.endOk c r.dst r.len && !(s.leaves c r.src && s.leaves c r.dst)
     else if r.half = 6 then true
     else decide (r.keep < r.len ∨ r.dst + r.len ≤ dataSize r.half + scaleSize r.half))
/-- The shape of R167: multiples of 64, and a vector register's one row of 256 bytes. DESIGN CHOICE: a descriptor of no rows whose shape is broken is
refused (assumption 89), as are an SMCAST whose length or member record R170 and R383 do not allow (assumption 121) and a record written to an address
that is not aligned, while RECMG reads its own-vault offsets as they are (assumption 38). -/
def Act.shapeOk : Act → Bool
  | .scopy dk _ dst src rows ds len ss =>
    decide (src % 64 = 0 ∧ ss % 64 = 0 ∧ ds % 64 = 0 ∧ len % 64 = 0) && (if dk = 6 then decide (rows = 1 ∧ len = 256) else decide (dst % 64 = 0))
  | .stile _ _ fmt _ _ _ _ _ => match Elem.ofCode fmt with
    | some f => decide (f ≠ .f32)
    | none => false
  | .recst addr _ => decide (addr % 64 = 0)
  | .recmg dst _ _ => decide (dst % 64 = 0)
  | .smcast _ len _ record pkgs towers =>
    decide (0 < len ∧ len ≤ 4096 ∧ len % 64 = 0 ∧ record % 8 = 0)
      && decide (towers = 0 ∨ pkgs ≠ 0)
  | _ => true

/-! Port cycles (R120, R135, R167, R169). -/

/-- The aligned windows of a width that bytes touch (R167). -/
def windows (w a len : Nat) : Nat := if len = 0 then 0 else (a + len - 1) / w - a / w + 1
/-- The paths of a row's reading and writing ends: the own window, a buffer or a register takes the other end's path (R135), but where that goes by
way of L0 the row is a load or a store of R307, and each end keeps its own. -/
def State.rowPaths (s : State) (c : Nat) (r : Row) : Path × Path :=
  let ps := s.path c r.src
  let pd := if r.half = 0 then s.path c r.dst else .own
  if ps = .viaL0 ∨ pd = .viaL0 then (ps, pd) else (if ps = .own then pd else ps, if pd = .own then ps else pd)
/-- A row has an end outside the core's tower. -/
def State.away (s : State) (c : Nat) (r : Row) : Bool := s.leaves c r.src || (decide (r.half = 0) && s.leaves c r.dst)
/-- Rows that take one path in succession form a run (R167). -/
def State.groupRows (s : State) (c : Nat) : List Row → List (List Row × (Path × Path))
  | [] => []
  | r :: rest =>
    let q := s.rowPaths c r
    match s.groupRows c rest with
    | (g, p) :: more => if q = p then (r :: g, p) :: more else ([r], q) :: (g, p) :: more
    | [] => [([r], q)]
/-- The port cycles of a run counted by rows: the windows read at the source, or those written at a vault's port if these are more (R135, R167). -/
def rowsCycles (p : Path × Path) (rows : List Row) : Nat :=
  max (rows.foldl (fun n r => n + windows p.1.width.1 (localAddr r.src) r.len) 0)
    (rows.foldl (fun n r => n + if r.half = 0 then windows p.2.width.2 (localAddr r.dst) r.len else 0) 0)
/-- The rows of a tile lie without gaps from bases that are aligned to the width of their path (R169). -/
def State.tilePacked (s : State) (c : Nat) : Act → Bool
  | .stile half off fmt data scale pitch blocks _ =>
    match Elem.ofCode fmt with
    | some f =>
      let w (a : Nat) : Nat := (s.rowPaths c ⟨a, off, 64, half, 64⟩).1.width.1
      decide (pitch = blocks ∧ localAddr data % w data = 0 ∧ (f = .b16 ∨ localAddr scale % w scale = 0))
    | none => false
  | _ => false
/-- The port cycles of a run of a descriptor: a packed tile's bytes of data and of scales by the width, else by rows (R167, R169). -/
def State.runCycles (s : State) (c : Nat) (a : Act) (rows : List Row) : Nat :=
  let p := s.rowPaths c (rows.headD {})
  if s.tilePacked c a then
    let sum (l : List Row) : Nat := ceilDiv (l.foldl (fun n r => n + r.len) 0) p.1.width.1
    sum (rows.filter fun r => r.dst < dataSize r.half) + sum (rows.filter fun r => !(r.dst < dataSize r.half))
  else rowsCycles p rows
/-- The layer boundaries between a core and an address: one to the vault below, else those down to L0 and up again to a vault (R178, R288). -/
def State.boundaries (s : State) (c a : Nat) : Nat :=
  let up : Nat := match placeOf (localAddr a) with
    | .vault d _ => layerOf d
    | _ => 0
  match s.path c a with
  | .below => 1
  | .viaL0 | .outside => layerOf c + up
  | .floor => layerOf c
  | _ => 0
/-- What compatibility mode adds, in cycles, to rows inside the tower: 11 for each traversal of a layer boundary, of a read its request and its data
(R288, R310). -/
def State.compatCycles (s : State) (c : Nat) (rows : List Row) : Nat :=
  if s.start.compat then 11 * (rows.map fun r => 2 * s.boundaries c r.src + if r.half = 0 then s.boundaries c r.dst else 0).foldl max 0 else 0
/-- What compatibility mode adds, in ticks, to a way of n legs between a core and an address outside its tower: on each leg 7 for each D2D crossing, of
which a vault has two and what lies below it one, and 6 for each layer boundary (R310). -/
def State.compatTicks (s : State) (c a n : Nat) : Nat :=
  let groups : Nat := match placeOf (localAddr a) with
    | .vault _ _ => 2
    | _ => 1
  if s.start.compat then n * ((if s.path c a = .viaL0 then 0 else 7 * groups) + 6 * s.boundaries c a) else 0
/-- The cycle in which a run of n port cycles on paths completes, from its start (R120, R305, R307); by way of L0, 32 ticks for a load, 16 for a store. -/
def runEnd (start n : Nat) (p : Path × Path) : Nat :=
  let near := start + n + max p.1.latency p.2.latency
  if p.1 = .viaL0 ∨ p.2 = .viaL0 then
    max near (start + ceilDiv (9 * ((if p.1 = .viaL0 then 32 else 16) + ceilDiv (5 * n) 9)) 5)
  else near

/-! Pieces. -/

/-- Cut a range into operations of at most 4 KiB that cross no 4 KiB boundary of the remote address (R168). -/
def cut4k (remote other len : Nat) : Nat → List (Nat × Nat × Nat)
  | 0 => []
  | n + 1 =>
    if len = 0 then []
    else
      let k := min len (4096 - remote % 4096)
      (remote, other, k) :: cut4k (remote + k) (other + k) (len - k) n
/-- The remote operations of a copy's row (R168). -/
def State.rowPieces (s : State) (c : Nat) (r : Row) : List Piece :=
  if s.leaves c r.src then
    (cut4k r.src r.dst r.len (r.len / 4096 + 2)).map fun x => { src := x.1, dst := if r.half = 0 then localAddr x.2.1 else x.2.1, len := x.2.2, dstHalf := r.half, remote := true }
  else if r.half = 0 && s.leaves c r.dst then
    (cut4k r.dst r.src r.len (r.len / 4096 + 2)).map fun x => { src := x.2.1, dst := x.1, len := x.2.2, remote := true, store := true }
  else []
/-- The 64-byte lines that rows touch, in increasing address, each once (R169). -/
def linesOf (rows : List Row) : List Nat :=
  (((rows.map fun r => (List.range (windows 64 r.src r.len)).map fun i => r.src / 64 * 64 + 64 * i).flatten).mergeSort (fun a b => decide (a ≤ b))).eraseDups
/-- Consecutive lines as loads of at most 4 KiB within one 4 KiB block (R169). -/
def joinLines : List Nat → List (Nat × Nat)
  | [] => []
  | a :: r =>
    match joinLines r with
    | (b, n) :: rest => if b = a + 64 ∧ a / 4096 = b / 4096 then (a, n + 64) :: rest else (a, 64) :: (b, n) :: rest
    | [] => [(a, 64)]
/-- The loads of a tile's rows outside the tower: the data rows' lines, then those of the scale rows not yet fetched (R169). -/
def tileLoads (data scale : List Row) : List Piece :=
  let d := linesOf data
  let k := (linesOf scale).filter fun a => !d.contains a
  (joinLines d ++ joinLines k).map fun x => { src := x.1, len := x.2, dstHalf := 7, remote := true }
/-- The operations of a run in their order, numbered within the transfer (R231), and for a descriptor that is not enabled with the latency of each from
the start of the run: the L of its path and the S of the data flits up to its end (R173, R305). -/
def numbered (latency : Piece → Nat → Nat) : (index flits : Nat) → List Piece → List Piece
  | _, _, [] => []
  | i, n, p :: r => { p with index := i, due := latency p (n + p.len / 64) } :: numbered latency (i + 1) (n + p.len / 64) r
/-- The bytes of a row within a line range that a load brought: where they go and what they are. -/
def rowPart (a : Nat) (data : List Byte) (r : Row) : Option (Row × List Byte) :=
  let lo := max a r.src
  let hi := min (a + data.length) (r.src + r.keep)
  if hi ≤ lo then none else some ({ r with src := lo, dst := r.dst + (lo - r.src), len := hi - lo }, (data.drop (lo - a)).take (hi - lo))

/-! Issue (R166, R171, R173). -/

/-- A descriptor joins its engine's queue. -/
def State.enqueue (s : State) (c e : Nat) (t : At) (on : Bool) (a : Act) : State :=
  let g := s.engine c e
  let s := s.setEngine c e { g with queue := g.queue ++ [{ act := a, enabled := on, seq := g.issued, issueCyc := t.cyc, issueTick := s.now }],
                                    issued := g.issued + 1 }
  if on then s.ran c else s
/-- A stream instruction stalls at a full engine, else enqueues its descriptor (R166). -/
def streamIssue (t : At) (g : Gate) (e : BitVec 2) (s : State) (act : State → Act) : Result :=
  onSlot t g s fun on s =>
    if 4 ≤ (s.engine g.core e.toNat).queue.length then s.stall g.core 1 else s.enqueue g.core e.toNat t on (act s)
/-- A reserved encoding issues as a no-op (R132). -/
def unlessReserved (reserved : Bool) (t : At) (c : Nat) (s : State) (r : Result) : Result :=
  if reserved then onCore t c s fun s => s else r
/-- A stream address in a scalar register (R135). -/
def State.streamAddr (s : State) (c r : Nat) : Nat := (s.sreg c r).toNat % 2 ^ 51
/-- SCOPY (R167). -/
def execScopy (t : At) (g : Gate) (e : BitVec 2) (dk : BitVec 3) (pl : BitVec 2) (d a b : BitVec 5) (s : State) : Result :=
  unlessReserved (decide (dk = 1 ∨ dk = 7 ∨ pl = 3 ∨ b.toNat % 2 = 1)) t g.core s <|
    streamIssue t g e s fun s =>
      let c := g.core
      let w := (s.sreg c b.toNat).toNat
      let dst := (s.sreg c d.toNat).toNat
      .scopy dk.toNat pl.toNat (if dk = 6 then dst % 64 else dst % 2 ^ 51) (s.streamAddr c a.toNat) (bits w 63 48) (bits w 47 24) (bits w 23 0)
        (bits (s.sreg c (b.toNat + 1)).toNat 23 0)
/-- STILE (R169). -/
def execStile (t : At) (g : Gate) (e dst : BitVec 2) (hi : Bool) (k : BitVec 3) (kb : BitVec 6) (pl : BitVec 2) (s : State) : Result :=
  unlessReserved (decide (k = 0 ∨ pl = 3) || (hi && decide (2 ≤ dst.toNat))) t g.core s <|
    streamIssue t g e s fun s =>
      let d := s.tensor g.core k.toNat
      .stile (tileHalf dst.toNat) (if hi then 0x8000 else 0) d.fmt d.data d.scale d.pitch (blocksOf kb) pl.toNat
/-- SFLAG (R170). -/
def execSflag (t : At) (g : Gate) (e : BitVec 2) (a : BitVec 5) (s : State) : Result :=
  streamIssue t g e s fun s =>
    let w := (s.sreg g.core a.toNat).toNat
    .sflag (bits w 25 20) (bits w 19 8) (bits w 7 0)
/-- SATOM (R170, R371). -/
def execSatom (t : At) (g : Gate) (e : BitVec 2) (op : BitVec 4) (w : Bool) (d a b : BitVec 5) (s : State) : Result :=
  unlessReserved (decide (9 < op.toNat) || (w && decide (op = 1)) || decide (op = 2 ∧ b.toNat % 2 = 1)) t g.core s <|
    streamIssue t g e s fun s =>
      let c := g.core
      .satom op.toNat w (s.streamAddr c a.toNat) (ownOffset (s.sreg c d.toNat)) (s.sreg c b.toNat) (if op = 2 then s.sreg c (b.toNat + 1) else 0)
/-- SINV (R170). -/
def execSinv (t : At) (g : Gate) (e : BitVec 2) (a : BitVec 5) (s : State) : Result :=
  streamIssue t g e s fun s => .sinv (s.streamAddr g.core a.toNat)
/-- SMCAST (R170, R383). -/
def execSmcast (t : At) (g : Gate) (e : BitVec 2) (c d a b : BitVec 5) (s : State) : Result :=
  streamIssue t g e s fun s =>
    let w := (s.sreg g.core b.toNat).toNat
    let m := (s.sreg g.core c.toNat).toNat
    .smcast (s.streamAddr g.core a.toNat) (bits w 12 0) ((s.sreg g.core d.toNat).toNat % 2 ^ 45) (bits w 47 24) (bits m 31 0) (bits m 43 32)
/-- RECST: it stalls while an earlier one awaits its record (R97, R171). -/
def execRecst (t : At) (g : Gate) (e : BitVec 2) (a b : BitVec 5) (s : State) : Result :=
  onSlot t g s fun on s =>
    let c := g.core
    let k := s.core c
    if k.recordDue.isSome ∨ 4 ≤ (s.engine c e.toNat).queue.length then s.stall c 1
    else
      let due := max (t.cyc + 1) k.lastReport
      let tid := (s.sreg c b.toNat).toNat % 2 ^ 32
      let s := s.modCore c fun k => { k with recordDue := some due, gen := if on then k.gen + 1 else k.gen }
      (s.send c due 9 (.form tid due on)).enqueue c e.toNat t on (.recst (s.streamAddr c a.toNat) due)
/-- RECORD_FORM: the record of a RECST is formed in its cycle (R73, R171). -/
def execRecordForm (t : At) (core : Nat) (s : State) : Result := onCore t core s fun s => s
/-- RECMG (R74, R172). -/
def execRecmg (t : At) (g : Gate) (e : BitVec 2) (d a b : BitVec 5) (s : State) : Result :=
  streamIssue t g e s fun s =>
    .recmg (s.streamAddr g.core d.toNat) (ownOffset (s.sreg g.core a.toNat)) (ownOffset (s.sreg g.core b.toNat))

/-! Latencies of operations that are not sent (R173, R305 to R309). -/

/-- The L of a load of R307 and R308 from a core to an address of memory, in ticks, and the S of n flits (R305), with what compatibility mode adds (R310). -/
def State.fixedLatency (s : State) (c a : Nat) (store lattice : Bool) (flits : Nat) : Nat :=
  let la := localAddr a
  let hbm := match placeOf la with | .hbm _ _ => true | _ => false
  let info := decide (placeOf la = .info)
  let l :=
    if pkgOf a = s.pkg then
      if s.path c a = .floor then (if store then 54 else 156)
      else if s.path c a = .viaL0 then (if store then 16 else 32)
      else if info then (if lattice then 144 else 148)
      else if hbm then (if store then (if lattice then 106 else 110) else if lattice then 264 else 268)
      else (if store then (if lattice then 80 else 84) else if lattice then 164 else 168)
    else
      let e := s.routeEntry (towerRing (towerOf c)) (pkgOf a)
      let x := (token (bits e 53 36) 0).getD 0
      let dl := s.fld (Reg.fibCtrl (x / 8) (x % 8)) F.fibCtrlDelayTarget
      let passed := bits e 60 59 - 1
      let base :=
        if info then (if lattice then 372 else 380) + 2 * dl
        else if hbm then (if store then (if lattice then 218 else 226) + dl else (if lattice then 492 else 500) + 2 * dl)
        else (if store then (if lattice then 192 else 200) + dl else (if lattice then 392 else 400) + 2 * dl)
      base + passed * (68 + dl + if lattice then 44 else 48)
  l + s.compatTicks c a (if store then 1 else 2) + ceilDiv (5 * flits) 9
/-- The acknowledgement of an operation that completes after its fixed latency (R309). -/
def State.ackAfter (s : State) (c a : Nat) : Nat :=
  s.compatTicks c a 1 + if pkgOf a = s.pkg then 84
  else
    let e := s.routeEntry (towerRing (towerOf c)) (pkgOf a)
    let x := (token (bits e 53 36) 0).getD 0
    200 + s.fld (Reg.fibCtrl (x / 8) (x % 8)) F.fibCtrlDelayTarget
/-- The latency of an operation of a run with n data flits sent by its end (R173, R305 to R309): a load or store by its path; an atomic the load's and 16
ticks; a flag its way there and back; a region's invalidation a load's without data (DESIGN CHOICE, assumption 100). -/
def State.pieceLatency (s : State) (c : Nat) (a : Act) (p : Piece) (n : Nat) : Nat :=
  let r := towerRing (towerOf c)
  match a with
  | .sflag pkg d _ => 2 * s.ackAfter c (pkg * 2 ^ 45 + windowOf d)
  | .satom _ _ addr _ _ _ => s.fixedLatency c addr false false 0 + 16
  | .sinv addr => s.fixedLatency c addr false false 0
  | .smcast _ _ dst _ pkgs towers =>
    let l (k : Nat) : Nat := s.fixedLatency c (k * 2 ^ 45 + dst) true (decide (towers ≠ 0) && s.onLattice r 0 s.pkg) n
    (((List.range 32).filter fun k => bit pkgs k).map l).foldl max 0
  | .scopy _ pl _ _ _ _ _ _ | .stile _ _ _ _ _ _ _ pl =>
    let b := if p.store then p.dst else p.src
    s.fixedLatency c b p.store (s.onLattice r pl (pkgOf b)) n
  | _ => s.fixedLatency c p.dst true (s.onLattice r 0 (pkgOf p.dst)) n
/-- When an operation of a descriptor that is not enabled counts as acknowledged, after its completion (R309). -/
def State.ackLatency (s : State) (c : Nat) (a : Act) (p : Piece) : Nat :=
  match a with
  | .scopy .. | .stile .. | .recst .. | .recmg .. => s.ackAfter c (if p.store then p.dst else p.src)
  | .smcast _ _ _ _ pkgs _ => (((List.range 32).filter fun k => bit pkgs k).map fun k => s.ackAfter c (k * 2 ^ 45)).foldl max 0
  | _ => 0

/-! Start (R167 to R169). -/

/-- Read the source of a local row: what it carries, and the status it adds (R49, R205). -/
def State.readRow (s : State) (c e : Nat) (r : Row) (cyc : Nat) : Piece × List Status × State :=
  let (b, bad, fenced, s) := s.fetch c e (localAddr r.src) r.len cyc
  ({ src := r.src, dst := if r.half = 0 then localAddr r.dst else r.dst, len := r.len, dstHalf := r.half, data := b.take r.keep,
     poisoned := bad.filter (· < r.keep) },
   (if fenced then [.pathFenced] else if bad = [] then [] else [.poison]), s)
/-- Read the sources of local rows in turn. -/
def State.readRows (s : State) (c e cyc : Nat) : List Row → List Piece × List Status × State
  | [] => ([], [], s)
  | r :: rest =>
    let (p, st, s) := s.readRow c e r cyc
    let (l, sts, s) := s.readRows c e cyc rest
    (p :: l, st ++ sts, s)
/-- A refused descriptor completes with DENIED one cycle after it starts; a window named against R116 notes it (R116, R168). -/
def State.refuse (s : State) (c e cyc : Nat) (rows : List Row) : State :=
  let named := (rows.filter fun r => !s.endOk c r.src r.len).map (fun r => windowCore (localAddr r.src)) ++
    (rows.filter fun r => r.half = 0 && !s.endOk c r.dst r.len).map fun r => windowCore (localAddr r.dst)
  let s := match named.find? Option.isSome with
    | some (some d) => s.coreFault d F.coreFaultAccessDenied
    | _ => s
  let g := s.engine c e
  s.setEngine c e { g with stage := .refused (cyc + 1), statuses := [.denied] }
/-- A descriptor that moves nothing completes one cycle after it starts. -/
def State.startNothing (s : State) (c e cyc : Nat) : State := s.setEngine c e { s.engine c e with stage := .refused (cyc + 1) }
/-- The cycle at which a descriptor's runs inside the tower that have started are complete. -/
def Engine.due (g : Engine) : Nat := match g.stage with
  | .local_ d => d
  | _ => 0
/-- Start runs from a cycle (R167): each run inside the tower after the last port cycle of the one before it; a run of remote operations hands its
operations over, and the runs after it wait for them. -/
def State.startRuns (s : State) (c e : Nat) (d : Desc) : (cyc : Nat) → List Run → State
  | _, [] => s.setEngine c e { s.engine c e with plan := [] }
  | cyc, .far ps :: rest =>
    let t0 := s.now + ceilDiv (5 * (cyc - s.clk)) 9
    let g := s.engine c e
    s.setEngine c e { g with stage := .local_ (max g.due (s.clk + 1)), waiting := ps.map fun p => { p with due := t0 + p.due }, from_ := cyc, plan := rest }
  | cyc, .near rows :: rest =>
    let n := s.runCycles c d.act rows
    let (ps, sts, s) := if d.enabled then s.readRows c e cyc rows else ([], [], s)
    let g := s.engine c e
    let s := s.setEngine c e { g with stage := .local_ (max g.due (runEnd cyc n (s.rowPaths c (rows.headD {})) + s.compatCycles c rows)), pieces := g.pieces ++ ps,
                                      statuses := g.statuses ++ sts }
    let s := ps.foldl (fun s p =>
      let s := s.askWorms c e d.seq p.src p.len
      if p.dstHalf = 0 then s.putWorms c e d.seq (s.pkg * 2 ^ 45 + p.dst) p.data p.poisoned else s) s
    s.startRuns c e d (cyc + n) rest
/-- The runs of a descriptor's rows; a tile's loads take each line once, those of data rows before those of scale rows (R167 to R169). -/
def State.planRuns (s : State) (c : Nat) (a : Act) (rows : List Row) : List Run :=
  let far (done now : List Row) : List Piece := match a with
    | .stile half _ _ _ _ _ _ _ =>
      let old := linesOf (done.filter (s.away c))
      (tileLoads (now.filter fun r => r.dst < dataSize half) (now.filter fun r => !(r.dst < dataSize half))).filter fun p => !(old.contains p.src)
    | _ => (now.map fun r => s.rowPieces c r).flatten
  let rec go (done : List Row) (index : Nat) : List (List Row × (Path × Path)) → List Run
    | [] => []
    | (g, _) :: more =>
      if s.away c (g.headD {}) then
        let ps := far done g
        .far (numbered (s.pieceLatency c a) index 0 ps) :: go (done ++ g) (index + ps.length) more
      else .near g :: go (done ++ g) index more
  go [] 0 (s.groupRows c rows)
/-- A copy starts: every row is checked before anything moves (R168). -/
def State.startCopy (s : State) (c e cyc : Nat) (d : Desc) : State :=
  let rows := d.act.rows
  if rows = [] ∧ d.act.shapeOk then s.startNothing c e cyc
  else if !d.act.shapeOk || rows.any fun r => !s.rowOk c r then
    (if d.enabled then s.refuse c e cyc rows else s.startNothing c e cyc)
  else s.startRuns c e d cyc (s.planRuns c d.act rows)
/-- A 64-byte store of given bytes from the own vault's side to a stream address, `extra` cycles later than a copy (R171, R172). -/
def State.startRecord (s : State) (c e cyc extra addr : Nat) (d : Desc) (data : List Byte) (bad : List Nat) : State :=
  let row : Row := ⟨windowOf c + s.pkg * 2 ^ 45, addr, 64, 0, 64⟩
  if !d.act.shapeOk || !s.endOk c addr 64 then (if d.enabled then s.refuse c e cyc [row] else s.startNothing c e cyc)
  else
    let g := s.engine c e
    let s := s.setEngine c e { g with statuses := if bad = [] then [] else [.poison] }
    if s.leaves c addr then
      let p : Piece := { dst := addr, len := 64, remote := true, store := true, data := data, poisoned := bad }
      s.startRuns c e d (cyc + extra) [.far (numbered (s.pieceLatency c d.act) 0 0 [p])]
    else
      let p : Piece := { dst := localAddr addr, len := 64, data := data, poisoned := bad }
      let n := rowsCycles (s.rowPaths c row) [row]
      s.setEngine c e { s.engine c e with stage := .local_ (runEnd cyc n (s.rowPaths c row) + s.compatCycles c [row] + extra), pieces := if d.enabled then [p] else [] }
/-- A descriptor of one remote operation starts. -/
def State.startOne (s : State) (c e cyc : Nat) (d : Desc) (p : Piece) : State :=
  s.startRuns c e d cyc [.far (numbered (s.pieceLatency c d.act) 0 0 [{ p with remote := true }])]
/-- A vault that the head of an engine reads at its start is frozen, so that its requests wait (R192). -/
def State.startWaits (s : State) (c : Nat) (a : Act) : Bool :=
  match a with
  | .scopy .. | .stile .. => a.rows.any fun r => !s.away c r && s.frozenAt (localAddr r.src)
  | .smcast src .. => s.frozenAt (localAddr src)
  | .recmg .. => s.frozen c
  | _ => false
/-- The head descriptor of an engine starts (R119, R168). DESIGN CHOICE: a merge of which a source word is poisoned writes 64 poisoned bytes with status
POISON (assumption 116); an SMCAST whose source lies outside the tower is refused (assumption 121). -/
def State.startHead (s : State) (c e cyc : Nat) : State :=
  let g := s.engine c e
  match g.stage, g.queue with
  | .queued, d :: _ =>
    if cyc < d.issueCyc || s.startWaits c d.act then s
    else
      match d.act with
      | .scopy .. | .stile .. => s.startCopy c e cyc d
      | .sflag _ _ _ => s.setEngine c e { g with stage := .remote 0 }
      | .satom _ _ addr sd _ _ =>
        if s.leaves c addr then s.startOne c e cyc d { src := addr, dst := windowOf c + sd, len := 8 }
        else
          s.setEngine c e { g with stage := .local_ (cyc + (s.path c addr).latency + s.compatCycles c [⟨addr, 0, 8, 6, 8⟩] + (if s.path c addr = .viaL0 then ceilDiv (9 * 48) 5 else ceilDiv (9 * 16) 5)) }
      | .sinv addr => s.startOne c e cyc d { src := addr, dst := addr }
      | .smcast src len dst record pkgs towers =>
        if !d.act.shapeOk || !s.endOk c src len || s.leaves c src || (decide (towers ≠ 0) && decide (pkgs ≠ 2 ^ s.pkg)) then
          (if d.enabled then s.refuse c e cyc [⟨src, 0, len, 6, len⟩] else s.startNothing c e cyc)
        else
          let (b, bad, fenced, s) := if d.enabled then s.fetch c e (localAddr src) len cyc else ([], [], false, s)
          let sts : List Status := if fenced then [.pathFenced] else if bad = [] then [] else [.poison]
          (s.setEngine c e { s.engine c e with statuses := sts }).startOne c e cyc d
            { src := windowOf c + record, dst := dst, len := len, store := true, data := b, poisoned := bad }
      | .recst addr due =>
        if cyc < due then s
        else s.startRecord c e cyc 0 addr d (((s.core c).records.find? fun x => x.1 = due).elim [] (·.2)) []
      | .recmg dst a b =>
        let (x, p, s) := if d.enabled then s.ownRead c (7 + e) a 64 else ([], [], s)
        let (y, q, s) := if d.enabled then s.ownRead c (7 + e) b 64 else ([], [], s)
        s.startRecord c e cyc 2 dst d (mergeRecords x y) (if p = [] ∧ q = [] then [] else List.range 64)
  | _, _ => s
/-- DESCRIPTOR_START (R119, R168). -/
def execDescriptorStart (t : At) (core : Nat) (e : BitVec 2) (s : State) : Result :=
  onCore t core s fun s =>
    let g := s.engine core e.toNat
    if g.freeAt ≤ t.cyc then
      let s := s.startHead core e.toNat t.cyc
      if g.stage = .queued ∧ (s.engine core e.toNat).stage ≠ .queued then
        s.markStage core 4 t.cyc fun m => decide (m.desc = some (e.toNat, (g.queue.headD {}).seq))
      else s
    else s

/-! Remote operations (R121, R357, R359). -/

/-- A descriptor that stores (R170, R370). -/
def State.stores (s : State) (c : Nat) : Act → Bool
  | .scopy dk _ _ src _ _ _ _ => decide (dk = 0) && !s.leaves c src
  | .smcast .. | .recst .. | .recmg .. => true
  | _ => false
/-- Every store that the core's engines issued before a cycle is acknowledged (R170, R370). -/
def State.storesDone (s : State) (c cyc : Nat) : Bool :=
  (s.coreOps c).all (fun o => o.done || !(o.pkt.op = 2 || o.pkt.op = 3) || decide (cyc ≤ o.issue)) &&
  (s.core c).acks.all (fun a => decide (a.until_ ≤ s.now) || !a.store || decide (cyc ≤ a.issue)) &&
  (List.range 4).all fun e => (s.engine c e).queue.all fun d => decide (cyc ≤ d.issueCyc) || !s.stores c d.act
/-- SFLAG_RELEASE: inside the tower the set enters the flag network, beyond it the flag awaits a tag (R199, R340, R370). -/
def execSflagRelease (t : At) (core : Nat) (e : BitVec 2) (s : State) : Result :=
  onCore t core s fun s =>
    let g := s.engine core e.toNat
    match g.stage, g.queue with
    | .remote 0, d :: _ =>
      (match d.act with
       | .sflag pkg target f =>
         if !s.storesDone core d.issueCyc then s
         else if pkg = s.pkg ∧ towerOf target = towerOf core then
           let s := if d.enabled then s.flagEnter target core f (t.cyc + 16) else s
           s.setEngine core e.toNat { g with stage := .local_ (t.cyc + 16) }
         else s.startOne core e.toNat t.cyc d { src := pkg * 2 ^ 20 + target * 2 ^ 8 + f }
       | _ => s)
    | _, _ => s
/-- The next number of atomics toward a target (R373). -/
def State.atomKey (_s : State) (r pkg ep : Nat) : Nat := 4096 * r + 64 * pkg + ep
/-- An atomic may be sent: no atomic toward its target 32 or more numbers earlier is outstanding (R373). -/
def State.atomFree (s : State) (r pkg ep : Nat) : Bool :=
  let n := assoc s.atomSeq (s.atomKey r pkg ep)
  s.ops.all fun x => decide (x.1 / 8192 ≠ r) || x.2.done || !(decide (16 ≤ x.2.pkt.op ∧ x.2.pkt.cls = 8 ∧ x.2.pkt.dstPkg = pkg ∧ x.2.pkt.dstEp = ep))
    || decide ((n + 65536 - bits x.2.pkt.aux.toNat 47 32) % 65536 < 32)
/-- The members of a multicast: packages as their ids, towers as 64 + t; and the record of those not reached at issue (R238, R383, R384). -/
def State.castMembers (s : State) (c dst pkgs towers : Nat) : List Nat × Nat :=
  let r := towerRing (towerOf c)
  if towers = 0 then
    let all := (List.range 32).filter fun p => bit pkgs p
    let reached (p : Nat) : Bool :=
      if p = s.pkg then !s.ringFenced (endpointOf dst)
      else
        let e := s.routeEntry r p
        bit e 63 && decide (bits e 60 59 = 1) && s.fibreUp ((token (bits e 53 36) 0).getD 0)
    (all.filter reached, ((all.filter fun p => !reached p).map fun p => 2 ^ p).foldl (· + ·) 0)
  else
    let all := (List.range 12).filter fun t => bit towers t
    let lattice := s.onLattice r 0 s.pkg
    let reached (t : Nat) : Bool := if lattice then !((s.lattice 0).removed.contains t) else !s.ringFenced (towerRing t)
    ((all.filter reached).map (64 + ·), ((all.filter fun t => !reached t).map fun t => 2 ^ (32 + t)).foldl (· + ·) 0)
/-- The receivers that a multicast's packet names (R383). -/
def State.castMap (s : State) (c dst : Nat) (members : List Nat) : Nat :=
  let l := members.map fun m =>
    if 64 ≤ m then towerRing (m - 64)
    else if m = s.pkg then endpointOf dst
    else fibreRing ((token (bits (s.routeEntry (towerRing (towerOf c)) m) 53 36) 0).getD 0 / 8)
  (l.eraseDups.map fun r => 2 ^ r).foldl (· + ·) 0
/-- The operation that a waiting piece becomes (R357, R359). -/
def State.pieceOp (s : State) (c e : Nat) (d : Desc) (p : Piece) (data : List Byte) (poison : Bool) : RemOp :=
  let aux (n : Nat) : Word := BitVec.ofNat 64 (towerRing (towerOf c) * 2 ^ 59 + n)
  let lines := (p.len / 64 - 1) * 2 ^ 53
  let pkt : Packet := match d.act with
    | .sflag _ _ _ => s.flagPacket c 1 p.src
    | .satom op w addr _ x y =>
      let q := s.fromCore c 8 (16 + op) addr
      let n := assoc s.atomSeq (s.atomKey (towerRing (towerOf c)) q.dstPkg q.dstEp)
      let inc := if q.dstPkg = s.pkg then s.inc else s.fld (Reg.fabPeerInc q.dstPkg) F.fabPeerIncIncarnation
      { q with aux := aux (b2n w * 2 ^ 52 + n * 2 ^ 32 + inc), data := padTo 64 (bytesOf x.toNat 8 ++ bytesOf y.toNat 8) }
    | .sinv addr => { s.fromCore c 8 4 addr with aux := aux 0 }
    | .smcast _ _ dst _ _ _ => { s.fromCore c 8 3 (s.pkg * 2 ^ 45 + dst) with data := data, poison := poison, aux := aux 0 }
    | _ =>
      if p.store then { s.fromCore c 8 2 p.dst with data := data, poison := poison, aux := aux 0 }
      else { s.fromCore c 8 1 p.src with aux := aux lines }
  { took := s.now, pkt := pkt, core := c, issue := d.issueCyc, engine := some e, seq := d.seq, piece := p, enabled := d.enabled }
/-- The member record of a multicast, written at its completion (R384). -/
def State.writeMembers (s : State) (o : RemOp) (cyc : Nat) : State :=
  let off := o.piece.src - windowOf o.core
  s.send o.core cyc (s.portPri o.core (7 + o.engine.getD 0)) (.vault off (ownPart off (bytesOf o.notReached 8)) [])
/-- Send a multicast store (R238, R383). -/
def State.launchCast (s : State) (c slot dst pkgs towers : Nat) (o : RemOp) (cyc : Nat) : State :=
  let r := towerRing (towerOf c)
  let tag := 32 * localOf c + slot
  let (ms, gone) := s.castMembers c dst pkgs towers
  let p : Packet := { o.pkt with tag := tag, hopSrc := r, hopDst := 31, rxMap := s.castMap c dst ms, epoch := s.fld Reg.fabRtCtrl F.fabRtCtrlCurEpoch }
  let o := { o with pkt := p, members := ms, notReached := gone, attempts := 1, sent := s.now }
  if ms = [] then
    (s.writeMembers o cyc).finishOp r tag o (if gone = 0 then .ok else .partialDone)
  else if !s.groupOpen c then s.setOp r tag { o with attempts := 0 }
  else
  let s := (s.carrierOut c p).overGroup c .up (if towers ≠ 0 ∧ s.onLattice r 0 s.pkg then 2 else 3) p
  if towers ≠ 0 ∧ s.onLattice r 0 s.pkg then
    let lanes := (List.range 32).filter fun j => decide (s.fld (laneReg j) F.lplLaneState ≠ 6) && ms.all fun m => decide (s.laneSrc j (m - 64) = towerOf c)
    match lanes with
    | j :: _ =>
      (s.setOp r tag { o with lattice := true }).queueFrame (towerOf c) j
        { kind := 2, src := towerOf c, dst := 31, job := p.job, tag := tag, epoch := p.epoch, poison := p.poison, addr := p.addr,
          members := (ms.map fun m => 2 ^ (m - 64)).foldl (· + ·) 0, originPkg := s.pkg, originCore := c, data := p.data }
    | [] => (s.setOp r tag o).fallback r (towerOf c) p
  else (s.setOp r tag o).sendAt r (requestInput c) p
/-- The operations of a tower that wait for a group go on where their group is up (R23, R178, R279). -/
def State.relaunch (s : State) (tower cyc : Nat) : State :=
  let r := towerRing tower
  (s.ops.filter fun x => decide (x.1 / 8192 = r ∧ x.2.attempts = 0) && x.2.enabled && !x.2.done && s.groupOpen x.2.core).foldl (fun s x =>
    match ((x.2.engine.bind fun e => (s.engine x.2.core e).queue.head?).map fun d : Desc => d.act) with
    | some (.smcast _ _ dst _ pkgs towers) => s.launchCast x.2.core (x.1 % 32) dst pkgs towers x.2 cyc
    | _ => s.launch r (x.1 % 8192) (if x.2.pkt.cls = 0xC then 12 else requestInput x.2.core) x.2.plane x.2) s
/-- Free the tags of descriptors that were not enabled once their fixed latencies are over; FENCE and SFLAG wait on for the acknowledgement (R173, R309). -/
def State.reap (s : State) (c : Nat) : State :=
  let r := towerRing (towerOf c)
  let s := if (s.core c).acks = [] then s else s.modCore c fun k => { k with acks := k.acks.filter fun a => s.now < a.until_ }
  (List.range 32).foldl (fun s i =>
    match s.op r (32 * localOf c + i) with
    | some o =>
      if !o.enabled && decide (o.doneAt ≤ s.now) then
        let s := s.freeOp r (32 * localOf c + i)
        match o.engine with
        | some e =>
          let g := s.engine c e
          let s := if s.now < o.deadline then s.modCore c fun k => { k with acks := { engine := e, seq := o.seq, issue := o.issue, store := o.piece.store, until_ := o.deadline } :: k.acks }
            else s
          s.setEngine c e { g with inFlight := g.inFlight - 1, statuses := .ok :: g.statuses }
        | none => s
      else s
    | none => s) s
/-- The last of a run's requests or data flits leaves the core: a store's data flits follow its header, one a cycle; then the next run starts (R167). -/
def State.runSent (s : State) (c e cyc : Nat) (d : Desc) (p : Piece) : State :=
  let g := s.engine c e
  if g.waiting = [] ∧ g.plan ≠ [] then s.startRuns c e d (cyc + 1 + if p.store then p.len / 64 else 0) g.plan else s
/-- TAG_ACQUIRE: the next piece of an engine's descriptor takes a tag and is sent (R121, R173, R373). -/
def execTagAcquire (t : At) (core : Nat) (e : BitVec 2) (slot : BitVec 5) (s : State) : Result :=
  onCore t core s fun s =>
    let s := s.reap core
    let g := s.engine core e.toNat
    let r := towerRing (towerOf core)
    let tag := 32 * localOf core + slot.toNat
    match g.queue, g.waiting with
    | d :: _, p :: rest =>
      let started := match g.stage with | .local_ _ => true | _ => false
      let copied := match d.act with | .scopy .. => d.enabled && p.store | _ => false
      if !started || (s.op r tag).isSome || decide (t.cyc < g.from_) || (copied && s.frozenAt (localAddr p.src)) then s
      else
        let o := s.pieceOp core e.toNat d p [] false
        let atom := match d.act with | .satom .. => true | _ => false
        if atom && !s.atomFree r o.pkt.dstPkg o.pkt.dstEp then s
        else
          let s := s.setEngine core e.toNat { g with waiting := rest, inFlight := g.inFlight + 1 }
          if !d.enabled then
            let dn := max p.due s.now
            (s.setOp r tag { o with doneAt := dn, deadline := dn + s.ackLatency core d.act p }).runSent core e.toNat t.cyc d p
          else
            let s := s.pmcCore core 0x014 1
            let (b, bad, fenced, s) := if copied then s.fetch core e.toNat (localAddr p.src) p.len t.cyc else (p.data, p.poisoned, false, s)
            let sts : List Status := if fenced then [.pathFenced] else if copied && bad ≠ [] then [.poison] else []
            let g := s.engine core e.toNat
            let s := s.setEngine core e.toNat { g with statuses := g.statuses ++ sts }
            let o := s.pieceOp core e.toNat d p b (bad ≠ [])
            match d.act with
            | .smcast _ _ dst _ pkgs towers => (s.launchCast core slot.toNat dst pkgs towers o t.cyc).afterOp core t.cyc
            | .sflag _ _ _ => (s.launch r tag 12 1 o).afterOp core t.cyc
            | .satom _ _ _ _ _ _ =>
              let k := s.atomKey r o.pkt.dstPkg o.pkt.dstEp
              let s := { s with atomSeq := assocSet s.atomSeq k ((assoc s.atomSeq k + 1) % 65536) }
              (s.launch r tag (requestInput core) 1 o).afterOp core t.cyc
            | .scopy _ pl _ _ _ _ _ _ | .stile _ _ _ _ _ _ _ pl =>
              ((s.launch r tag (requestInput core) pl o).runSent core e.toNat t.cyc d p).afterOp core t.cyc
            | _ => (s.launch r tag (requestInput core) 0 o).afterOp core t.cyc
    | _, _ => s

/-- Deliver the rows' parts of the lines that a tile's load brought (R169). -/
def State.deliverParts (s : State) (c e a cyc : Nat) (data : List Byte) (bad : List Nat) : List Row → State
  | [] => s
  | r :: rest =>
    let s := match rowPart a data r with
      | none => s
      | some (q, b) =>
        let k := q.src - a
        s.deliver c e { dst := q.dst, dstHalf := q.half } b ((bad.filter fun i => k ≤ i ∧ i < k + q.len).map (· - k)) cyc
    s.deliverParts c e a cyc data bad rest
/-- The data that answers an operation reaches its place (R49, R169). -/
def State.arrive (s : State) (o : RemOp) (data : List Byte) (poison : Bool) (cyc : Nat) : State :=
  let bad := if poison then List.range data.length else if o.piece.store then [] else o.piece.poisoned
  match o.engine with
  | none => s
  | some e =>
    if o.piece.dstHalf = 7 then
      match (s.engine o.core e).queue.head? with
      | some d => s.deliverParts o.core e o.piece.src cyc data bad d.act.rows
      | none => s
    else s.deliver o.core e o.piece (data.take o.piece.len) bad cyc

/-! Completion (R119, R174). -/

/-- The new value of an atomic (R371), for operands and result of n bytes. -/
def atomicValue (op n old x y : Nat) : Nat :=
  let m := 2 ^ (8 * n)
  let o := old % m
  let v := x % m
  match op with
  | 0 => (o + v) % m
  | 1 => f32.add o v
  | 2 => if o = v then y % m else o
  | 3 => v
  | 4 => if signed (8 * n) o ≤ signed (8 * n) v then o else v
  | 5 => if signed (8 * n) o ≤ signed (8 * n) v then v else o
  | 6 => min o v
  | 7 => max o v
  | 8 => o &&& v
  | _ => o ||| v
/-- The all-ones value that a poisoned word's atomic returns in its w bits (R371). -/
def atomicPoison (n : Nat) : Nat := 2 ^ (8 * n) - 1
/-- Apply an atomic at a populated local address: the old value and whether the word is poisoned (R371). -/
def State.applyAtomic (s : State) (op n a x y : Nat) : Nat × Bool × State :=
  let (b, bad, s) := s.readAt a n
  if bad ≠ [] then (atomicPoison n, true, s)
  else (natOf b, false, s.writeAt a (bytesOf (atomicValue op n (natOf b) x y) n) [])
/-- An atomic to a vault of the own tower is applied where its descriptor completes (R372; DEDUCED, assumption 23). -/
def State.localAtomic (s : State) (c e cyc : Nat) (d : Desc) : List Status × State :=
  match d.act with
  | .satom op w addr sd x y =>
    let n := if w then 8 else 4
    (match placeOf (localAddr addr) with
     | .vault v off =>
       if s.coreFenced v then ([.pathFenced], s)
       else if addr % n ≠ 0 ∨ vaultSize < off + n then ([.denied], s)
       else
         let s := if v = c then s else s.landCore v cyc (s.core v).work
         let (old, bad, s) := s.applyAtomic op n (localAddr addr) x.toNat y.toNat
         ((if bad then [.poison] else []), s.send c cyc (s.portPri c (7 + e)) (.vault sd (ownPart sd (bytesOf old 8)) []))
     | _ => ([.denied], s))
  | _ => ([], s)
/-- Deliver the local pieces of a descriptor; one to a fenced vault is discarded and notes PATH_FENCED (R205). -/
def State.deliverAll (s : State) (c e cyc : Nat) : List Piece → List Status × State
  | [] => ([], s)
  | p :: r =>
    let gone := p.dstHalf = 0 && (match placeOf p.dst with | .vault d _ => s.coreFenced d | _ => false)
    let s := s.deliver c e p p.data p.poisoned cyc
    let (l, s) := s.deliverAll c e cyc r
    ((if gone then .pathFenced :: l else l), s)
/-- A transfer is over, and so are its worms that no command of the mesh has moved (DESIGN CHOICE, assumption 25). -/
def State.wormsGone (s : State) (c e seq : Nat) : State :=
  if s.mesh = [] then s
  else
    let mine (w : Worm) : Bool := decide (w.kind < 10 ∧ w.kind ≠ 2 ∧ (if 8 ≤ w.kind then w.dst else w.src) = c ∧ w.engine = e ∧ w.seq = seq % 128)
    { s with mesh := (s.mesh.map fun x => (x.1, x.2.filter fun w => !mine w)).filter fun x => decide (x.2 ≠ []) }
/-- A descriptor completes with a status: the count, the status word, CORE_FAULT, the waits (R119, R121, R174). -/
def State.completeHead (s : State) (c e cyc : Nat) (st : Status) : State :=
  let g := s.engine c e
  let d := g.queue.headD {}
  let bad := decide (st ≠ .ok)
  let g := { g with queue := g.queue.tail, stage := .queued, pieces := [], waiting := [], inFlight := 0, statuses := [],
                    completed := g.completed + 1, freeAt := cyc, plan := [], from_ := 0, endCyc := cyc + 1, endSeq := d.seq,
                    before := if g.endCyc = cyc + 1 then g.before else [g.firstSeq, g.bad, g.firstStatus, g.lastStatus],
                    firstSeq := if bad && g.bad = 0 then d.seq else g.firstSeq,
                    firstStatus := if bad && g.bad = 0 then statusCode st else g.firstStatus,
                    bad := if bad then satAdd 0xFFFF g.bad 1 else g.bad, lastStatus := statusCode st }
  let s := (s.setEngine c e g).wormsGone c e d.seq
  let s := match d.act with
    | .recst _ due => s.modCore c fun k => { k with records := k.records.filter fun x => x.1 ≠ due }
    | _ => s
  let s := if bad then s.coreFault c F.coreFaultRemoteStatus else s
  let s := s.markStage c 5 cyc fun m => decide (m.desc = some (e, d.seq))
  (s.pmcCore c (0x010 + e) 1).wake c cyc
/-- A vault that a descriptor's end writes is frozen, so that its requests wait (R192). -/
def State.endWaits (s : State) (c : Nat) (g : Engine) (d : Desc) : Bool :=
  (g.pieces.any fun p => decide (p.dstHalf = 0) && s.frozenAt p.dst) ||
    match d.act with
    | .satom _ _ addr _ _ _ => d.enabled && !s.leaves c addr && s.frozenAt (localAddr addr)
    | _ => false
/-- The engine's descriptor completes where its local runs and its operations are done (R120, R167). -/
def State.completeTransfer (s : State) (c e cyc : Nat) : State :=
  let s := s.reap c
  let g := s.engine c e
  match g.stage, g.queue with
  | .refused due, _ :: _ => if due ≤ cyc then s.completeHead c e cyc (worst g.statuses) else s
  | .local_ due, d :: _ =>
    if due ≤ cyc ∧ g.waiting = [] ∧ g.plan = [] ∧ g.inFlight = 0 ∧ d.seq % 128 ∉ g.lost ∧ s.endWaits c g d = false then
      let atom := match d.act with | .satom _ _ addr _ _ _ => d.enabled && !s.leaves c addr | _ => false
      let (st1, s) := if atom then s.localAtomic c e cyc d else ([], s)
      let (st2, s) := s.deliverAll c e cyc g.pieces
      s.completeHead c e cyc (worst (g.statuses ++ st1 ++ st2))
    else s
  | _, _ => s
/-- TRANSFER_COMPLETE (R120). -/
def execTransferComplete (t : At) (core : Nat) (e : BitVec 2) (s : State) : Result :=
  if core < Config.cores then .next ((s.at t).ifAwake fun s => (s.completeTransfer core e.toNat t.cyc).toCycle core t.cyc) else .fault .noSuchUnit

end Sys2Proof.Machine
end

