-- ==== Sys2Proof/Machine/Tower.lean ====
section
/-! DEFINITION. The tower: package and rack barriers (R311, R329), droops (R200), the vault port arbiter and merged reads (R190 to R195), worms of
the layer mesh and port blocks (R181 to R186, R333), bonds (R204, R205). -/

namespace Sys2Proof.Machine

/-! Package and rack barriers (R198, R311, R329). -/

/-- A tower takes in a barrier packet: the arrival of a tower of its package, or the forwarded stamp of another package. -/
def State.stampIn (s : State) (t i : Nat) (p : Packet) : State :=
  let tr := s.tree t i
  let key := if bit p.op 4 then 64 + p.originPkg else ((ringTower p.hopSrc).getD 0)
  s.setTree t i { tr with stamps := assocSet tr.stamps key (p.aux.toNat + 1) }
/-- E0 takes in a barrier packet. -/
def State.rackIn (s : State) (i : Nat) (p : Packet) : State :=
  if bit p.op 4 then s
  else match ringTower p.hopSrc with
    | some u => s.gatherRack i u p.aux.toNat
    | none => s
/-- A fibre endpoint takes in a stamp forward: from its package onto every fibre that reaches another package of the job, from a fibre to the
package's towers and E0 (R329). -/
def State.forwardIn (s : State) (n r : Nat) (p : Packet) : State :=
  if p.originPkg = s.pkg then (s.jobFibres.filter fun x => decide (x / 8 = n)).foldl (fun s x => s.ontoFibre x 0 p) s
  else s.sendAt r 15 { p with hopDst := 31, rxMap := towerMap + 1, ptr := 0 }
/-- BARRIER_ARRIVAL (R311). -/
def execBarrierArrival (t : At) (r : Nat) (p : Packet) (s : State) : Result :=
  if r < Config.rings then
    let s := s.at t
    if s.dead then .next s else
    let i := p.op % 16
    if p.cls ≠ 0xA then .next s
    else match ringTower r, ringFibre r with
      | some u, _ => .next (s.stampIn u i p)
      | none, some n => .next (s.forwardIn n r p)
      | none, none => .next (if r = 0 then s.rackIn i p else s)
  else .fault .noSuchUnit
/-- The tick from which the members of a completed package or rack phase issue, where every stamp is held (R311). -/
def State.barrierTick (s : State) (t i : Nat) : Option Nat :=
  let tr := s.tree t i
  if !tr.sent then none
  else if tr.scope = 1 then
    let l := s.memberTowers i
    if l.all fun u => decide (assoc tr.stamps u ≠ 0) then some ((l.map fun u => assoc tr.stamps u - 1).foldl max 0 + 160) else none
  else
    let l := s.pkg :: s.others
    if l.all fun k => decide (assoc tr.stamps (64 + k) ≠ 0) then
      some ((l.map fun k => assoc tr.stamps (64 + k) - 1).foldl max 0 + s.fld Reg.onxSchedCfg F.onxSchedCfgWRack)
    else none
/-- PACKAGE_BARRIER_RELEASE: a release without a phase that waits for it is discarded (R198, R311). -/
def execPackageBarrierRelease (t : At) (tower : Nat) (id : BitVec 4) (s : State) : Result :=
  onTower t tower s fun s =>
    match s.barrierTick tower id.toNat with
    | some d => if d ≤ (s.copyTc tower).toNat then s.treeRelease tower id.toNat t.cyc else s
    | none => s

/-! Droops (R200). -/

/-- DROOP_DETECT in cycle c: period c + 2 is stretched in every layer, and every core of the tower counts it then; the droops found in one cycle
stretch one period (R125, R200). -/
def execDroopDetect (t : At) (tower : Nat) (s : State) : Result :=
  onTower t tower s fun s =>
    let s := s.settleDroop tower t.cyc
    let w := s.tower tower
    if t.cyc + 2 ∈ w.droops then s else s.setTower tower { w with droops := (t.cyc + 2) :: w.droops }

/-! The vault port arbiter (R190 to R195). -/

/-- The code of an input under the map in force (R193). -/
def State.vaultCode (s : State) (c i : Nat) : Nat := (s.rd (Reg.twrVarbMap (towerOf c) (localOf c))).toNat / 2 ^ (4 * i) % 16
/-- A requester that a vault has (R181, R187, R188, R190): a door whose far core exists. -/
def clientOk (c : Nat) (q : PortReq) : Bool :=
  match q.code with
  | 0 => q.write
  | 2 => decide (xOf c ≠ 0)
  | 3 => decide (yOf c ≠ 7)
  | 4 => decide (xOf c ≠ 7)
  | 5 => decide (yOf c ≠ 0)
  | 6 => decide (layerOf c < 3)
  | n => decide (n < 13)
/-- The lines that a request names. -/
def PortReq.lineList (q : PortReq) : List Nat := (List.range q.lines).map (q.addr / 64 + ·) ++ q.also.map (· / 64)
/-- The lines that a request takes in one port cycle (R115, R190). -/
def lineSet (q : PortReq) : List Nat :=
  ((portCycles (portLines q.code q.write) 0 [] (PortReq.lineList q) (q.lines + q.also.length + 1)).headD ([], 0)).1
/-- The waiting requester with the highest input, of reads or of writes (R190); of the engines that share a door, the highest (R187). -/
def State.vaultWinner (s : State) (c : Nat) (write : Bool) (reqs : List PortReq) : Option PortReq :=
  (List.range 13).reverse.findSome? fun i =>
    (reqs.filter fun q => decide (q.write = write ∧ q.code = s.vaultCode c i)).foldl (fun b q => match b with
      | none => some q
      | some x => if x.engine < q.engine then some q else b) none
/-- The map of the vault arbiter takes effect (R193). -/
def State.vaultMapApply (s : State) (c : Nat) : State :=
  let b := s.arb (.vault c)
  match b.pendingMap with
  | none => s
  | some m =>
    ((s.setArb (.vault c) { b with pendingMap := none }).wr (Reg.twrVarbMap (towerOf c) (localOf c)) m).putB
      (Reg.twrVarbCtrl (towerOf c) (localOf c)) F.twrVarbCtrlMapPending false
/-- A cycle without a grant outstanding: a pending map takes effect, and with freeze set drained sets (R192, R193, R343). -/
def State.vaultQuiet (s : State) (c : Nat) : State :=
  let a := Reg.twrVarbCtrl (towerOf c) (localOf c)
  let s := s.vaultMapApply c
  if s.flag a F.twrVarbCtrlFreeze then s.putB a F.twrVarbCtrlDrained true else s
/-- Take one entry out of a list. -/
def dropFirst (l : List (Nat × List Nat)) (x : Nat × List Nat) : List (Nat × List Nat) :=
  match l with
  | [] => []
  | y :: r => if y = x then r else y :: dropFirst r x
/-- A read is granted: the words' codes are checked and the grant enters the merge buffer of 32 entries (R117, R194). What a unit of the tower has read
already is read no second time (assumption 99). -/
def State.vaultGrantRead (s : State) (c cyc : Nat) (q : PortReq) : State :=
  let ls := lineSet q
  let b := s.arb (.vault c)
  if (q.code, ls) ∈ b.served then s.setArb (.vault c) { b with busyRead := cyc + 1, served := dropFirst b.served (q.code, ls) }
  else
    let s := ls.foldl (fun s l => (s.readWords c (windowOf c + 64 * l) [] 8).2) s
    let b := s.arb (.vault c)
    (s.setArb (.vault c) { b with busyRead := cyc + 1, merge := ((ls, cyc) :: b.merge).take 32 }).pmcCore c 0x018 1
/-- A write is granted: the bytes land, and merge entries with one of the lines go (R195). -/
def State.vaultGrantWrite (s : State) (c cyc : Nat) (q : PortReq) : State :=
  let d := q.data.take (64 * (lineSet q).length)
  let s := (s.vaultWrite c q.addr d (if q.poison then (List.range ((d.length + 7) / 8)).map fun i => (windowOf c + q.addr) / 8 * 8 + 8 * i else [])).unmerge c (lineSet q)
  (s.setArb (.vault c) { s.arb (.vault c) with busyWrite := cyc + 1 }).pmcCore c 0x019 1
/-- The write-back queue takes a grant: the corrected word is written (R117). -/
def State.vaultWriteBack (s : State) (c cyc : Nat) : State :=
  let k := s.core c
  match k.wbq with
  | [] => s
  | a :: rest =>
    let s := (((s.setCore c { k with wbq := rest, wbAt := cyc + 1 }).setMark a .good).unmerge c [(a - windowOf c) / 64]).pmcCore c 0x01D 1
    (s.setArb (.vault c) { s.arb (.vault c) with busyWrite := cyc + 1 }).pmcCore c 0x019 1
/-- Waiting requesters that the cycle does not grant (R443 TWR_VARB_WAIT). -/
def State.vaultWaits (s : State) (c : Nat) (reads writes : Bool) : State :=
  let a := Reg.twrVarbWait (towerOf c) (localOf c)
  let s := if reads then (s.bump a F.twrVarbWaitReadWait 1).pmcCore c 0x01A 1 else s
  if writes then (s.bump a F.twrVarbWaitWriteWait 1).pmcCore c 0x01A 1 else s
/-- One cycle of the vault port: both arbiters grant where they have granted nothing in it yet, a side door is granted a write before a read and never
both (R187; assumption 99), a follower of a merged read takes no grant (R194), a withdrawn read leaves its cycle dead (R190, R191). -/
def State.vaultCycle (s : State) (c cyc : Nat) (all : List PortReq) (withdraws : Bool) : State :=
  let a := Reg.twrVarbCtrl (towerOf c) (localOf c)
  let reqs := all.filter fun q => clientOk c q && decide (q.code ≠ 0)
  let k := s.core c
  let wb : List PortReq := if k.wbq = [] ∨ cyc < k.wbAt then [] else [{ code := 0, write := true }]
  let b := s.arb (.vault c)
  let held := decide (cyc < b.thawAt)
  let wr := if held || decide (cyc < b.busyWrite) then none else s.vaultWinner c true (reqs ++ wb)
  let door := (wr.map (·.code)).getD 0
  let reads := reqs.filter fun q => !q.write
  let follow := reads.filter fun q => s.follows c q.code (lineSet q) cyc && !(match wr with | some w => (lineSet w).any fun l => (lineSet q).contains l | none => false)
  let rd := if held || decide (cyc < b.busyRead) then none
    else s.vaultWinner c false ((reads.filter fun q => !(follow.contains q)).filter fun q => !(decide (2 ≤ door ∧ door ≤ 5 ∧ q.code = door)))
  let s := s.vaultWaits c (decide (b2n rd.isSome < (reads.filter fun q => !(follow.contains q)).length))
    (decide (b2n wr.isSome < ((reqs.filter fun q => q.write) ++ wb).length))
  let s := follow.foldl (fun s q => if (q.code, lineSet q) ∈ (s.arb (.vault c)).served then s else s.pmcCore c 0x01C 1) s
  let s := match wr with
    | none => s
    | some q => if q.code = 0 then s.vaultWriteBack c cyc else s.vaultGrantWrite c cyc q
  match rd with
  | none => if wr.isNone && decide (b.busyRead ≤ cyc ∧ b.busyWrite ≤ cyc) then s.vaultQuiet c else s
  | some q =>
    if withdraws then
      (((s.bump a F.twrVarbCtrlDeadCycles 1).pmcCore c 0x01B 1).setArb (.vault c) { s.arb (.vault c) with busyRead := cyc + 1 })
    else s.vaultGrantRead c cyc q
/-- VAULT_PORT_GRANT (R190 to R193). -/
def execVaultPortGrant (t : At) (core : Nat) (reqs : List PortReq) (withdraws : Bool) (upsets : List (Nat × Mark)) (s : State) : Result :=
  onCore t core s fun s =>
    let s := upsets.foldl (fun s u => s.setMark (windowOf core + u.1 % vaultSize / 8 * 8) u.2) s
    if s.frozen core then
      (s.vaultWaits core (reqs.any fun q => clientOk core q && !q.write) (reqs.any fun q => clientOk core q && q.write)).vaultQuiet core
    else s.vaultCycle core t.cyc reqs withdraws
/-- MERGED_READ: a read of inputs 1 to 10 with an entry's lines within 32 cycles of its grant takes no grant (R194). -/
def execMergedRead (t : At) (core : Nat) (req : PortReq) (s : State) : Result :=
  onCore t core s fun s =>
    if !req.write && clientOk core req && s.follows core req.code (lineSet req) t.cyc && !(decide ((req.code, lineSet req) ∈ (s.arb (.vault core)).served)) then
      s.pmcCore core 0x01C 1
    else s

/-! The layer mesh (R181 to R186). -/

/-- The virtual channel of a worm (R182). -/
def wormVc (w : Worm) : Nat := 2 * (if 8 ≤ w.kind then 1 else 0) + b2n w.order
/-- The port by which a worm leaves a router, numbered as the inputs: 0 west, 1 south, 2 east, 3 north, 4 riser, 5 vault, 6 core (R182, R184); by none of
them with a reserved exit code (R183; assumption 103). -/
def wormLeaves (w : Worm) : Nat :=
  let x : Option Nat := if 0 < w.dx then some 2 else if w.dx < 0 then some 0 else none
  let y : Option Nat := if 0 < w.dy then some 1 else if w.dy < 0 then some 3 else none
  let out := if w.exit = 0 then 5 else if w.exit = 1 then 6 else if w.exit = 2 then 4 else 7
  if w.order then (y.orElse fun _ => x).getD out else (x.orElse fun _ => y).getD out
/-- A router has the port (R177, R181): a mesh link only toward a neighbour, a riser port only at a port position. -/
def hasPort (c p : Nat) : Bool :=
  match p with
  | 0 => decide (xOf c ≠ 0)
  | 1 => decide (yOf c ≠ 7)
  | 2 => decide (xOf c ≠ 7)
  | 3 => decide (yOf c ≠ 0)
  | 4 => decide (xOf c % 2 = 1 ∧ yOf c % 2 = 1)
  | n => decide (n < 7)
/-- The worm after its hop: the count of the axis it took is one nearer to zero. -/
def wormHop (w : Worm) : Worm :=
  match wormLeaves w with
  | 0 => { w with dx := w.dx + 1 }
  | 1 => { w with dy := w.dy - 1 }
  | 2 => { w with dx := w.dx - 1 }
  | 3 => { w with dy := w.dy + 1 }
  | _ => w
/-- The neighbour by a port and the input by which a worm enters it, if the link exists (R181). -/
def neighbour (c p : Nat) : Option (Nat × Nat) :=
  match p with
  | 0 => if xOf c = 0 then none else some (c - 1, 2)
  | 1 => if yOf c = 7 then none else some (c + 8, 3)
  | 2 => if xOf c = 7 then none else some (c + 1, 0)
  | 3 => if yOf c = 0 then none else some (c - 8, 1)
  | _ => none
/-- The core whose transfer a worm belongs to (R183). -/
def wormOwner (w : Worm) : Nat := if 8 ≤ w.kind then w.dst else w.src
/-- A worm is discarded: the router counts it, and its transfer is to time out (R185). -/
def State.dropWorm (s : State) (c : Nat) (w : Worm) : State :=
  let s := s.pmcRouter c 0x109 1
  let g := s.engine (wormOwner w) w.engine
  s.setEngine (wormOwner w) w.engine { g with lost := w.seq % 128 :: g.lost }
/-- The event of flits that leave by a port (R442). -/
def flitEvent : Nat → Nat
  | 0 => 0x103 | 1 => 0x101 | 2 => 0x102 | 3 => 0x100 | 4 => 0x104 | 5 => 0x105 | _ => 0x106
/-- Of the worms that may take an output, the one to go: highest virtual channel, then highest input (R182). -/
def nextWorm (credits : List Nat) (l : List (Nat × Worm)) : Option (Nat × Worm) :=
  (l.filter fun x => decide (0 < credits.getD (wormVc x.2) 0)).foldl (fun b x => match b with
    | none => some x
    | some y => if (wormVc y.2) < (wormVc x.2) ∨ ((wormVc y.2) = (wormVc x.2) ∧ y.1 < x.1) then some x else some y) none
/-- The first worm of each virtual channel in an input's buffers (R182, R184): none waits behind one of another channel. -/
def vcHeads (l : List Worm) : List Worm := (List.range 4).filterMap fun v => l.find? fun w => decide (wormVc w = v)
/-- The worms at a router's inputs that leave by a port: the first of each channel's buffer and those presented. -/
def State.wormsAt (s : State) (c port : Nat) (presented : List (Nat × Worm)) : List (Nat × Worm) :=
  (((List.range 7).map fun i => (vcHeads (s.worms c i)).map fun w => (i, w)).flatten ++ presented).filter fun x => decide (wormLeaves x.2 = port)
/-- Take a worm out of a router's input buffer. -/
def State.takeWorm (s : State) (c : Nat) (x : Nat × Worm) : State :=
  if x.2 ∈ vcHeads (s.worms c x.1) then s.setWorms c x.1 ((s.worms c x.1).erase x.2) else s
/-- The credits of a port's channels (R182): over a mesh link what the neighbour's buffers of 8 flits have free, elsewhere what the far unit gives. A worm
that has entered a buffer fills it up to its size (assumption 25). -/
def State.portCredits (s : State) (c port : Nat) (given : List Nat) : List Nat :=
  match neighbour c port with
  | none => given
  | some (d, i) => (List.range 4).map fun v =>
      min (given.getD v 0) (8 - ((s.worms d i).filter fun w => decide (wormVc w = v)).foldl (fun n w => n + wormSize w) 0)
/-- WORM_HOP (R182, R184, R185; a worm moves whole, DESIGN CHOICE, assumption 25). -/
def execWormHop (t : At) (core port : Nat) (waiting : List (Nat × Worm)) (credits : List Nat) (headerBad : Bool) (s : State) : Result :=
  onCore t core s fun s =>
    let l := if hasPort core port then s.wormsAt core port waiting else []
    let cr := s.portCredits core port credits
    let s := if l.any fun x => decide (cr.getD (wormVc x.2) 0 = 0) then s.pmcRouter core 0x108 1 else s
    match nextWorm cr l with
    | none => s
    | some x =>
      let s := s.takeWorm core x
      if headerBad then s.dropWorm core x.2
      else
        let w := wormHop x.2
        let s := (s.pmcRouter core (flitEvent port) (wormSize x.2)).emit (.worm core port (wormHead w) w)
        match neighbour core port with
        | some (d, i) => s.setWorms d i (s.worms d i ++ [w])
        | none => s

/-- A status that the head descriptor of an engine records (R205). -/
def State.noteEngine (s : State) (w : Worm) (st : Status) : State :=
  let g := s.engine (wormOwner w) w.engine
  if g.queue.head?.map (fun d : Desc => d.seq % 128) = some (w.seq % 128) then s.setEngine (wormOwner w) w.engine { g with statuses := g.statuses ++ [st] } else s
/-- The head descriptor of the engine that a worm belongs to is its own (R183). -/
def State.wormLive (s : State) (w : Worm) : Bool :=
  decide ((s.engine (wormOwner w) w.engine).queue.head?.map (fun d : Desc => d.seq % 128) = some (w.seq % 128))
/-- A read request at its vault: the reply worm with the lines, poisoned where words are bad or the vault is fenced (R49, R185, R205). The words of a
transfer in progress were read, and their codes counted, as its engine's access (assumption 99). -/
def State.wormRead (s : State) (c : Nat) (w : Worm) : State :=
  let n := 64 * w.flits
  let off := w.line * 64
  let (b, bad, s) := if s.coreFenced c then
      (let (b, s) := s.freeBytes n
       (b, List.range (8 * w.flits), s.noteEngine w .pathFenced))
    else if s.wormLive w then
      (s.bytes (windowOf c + off) n, (List.range (8 * w.flits)).filter fun i => decide (s.mark (windowOf c + off + 8 * i) ∈ [.ue, .poison, .cePoison]), s)
    else
      (let (b, p, s) := s.ownRead c 1 off n
       (b, p.map fun a => (a - (windowOf c + off)) / 8, s))
  let r : Worm := { w with kind := 8, dst := w.src, data := b, badWords := bad, poison := decide (bad ≠ [] ∧ bad.length = 8 * w.flits) }
  s.setWorms c 5 (s.worms c 5 ++ [wormToward r c w.src 1])
/-- The bad words of a worm: all of them where its poison bit is set (R49, R183, R185). -/
def wormBad (w : Worm) : List Nat := if w.poison then List.range (max (8 * w.flits) (w.data.length / 8)) else w.badWords
/-- A transfer in progress delivers words as poisoned words: those of its pieces that a test of piece and byte names (R49, R185). -/
def State.wormPoison (s : State) (w : Worm) (names : Piece → Nat → Bool) : State :=
  let g := s.engine (wormOwner w) w.engine
  let hit (p : Piece) : Piece := { p with poisoned := p.poisoned ++ (List.range p.len).filter fun i => !(p.poisoned.contains i) && names p i }
  let ps := g.pieces.map hit
  if ps = g.pieces then s else s.setEngine (wormOwner w) w.engine { g with pieces := ps, statuses := g.statuses ++ [.poison] }
/-- A byte at a local address of a vault lies in one of a worm's bad words. -/
def inBad (w : Worm) (c a : Nat) : Bool :=
  decide (placeOf a = .vault c (a % 2 ^ 24) ∧ 64 * w.line ≤ a % 2 ^ 24) && (wormBad w).contains ((a % 2 ^ 24 - 64 * w.line) / 8)
/-- A write at its vault: the lines land, and the acknowledgement goes back; words that failed parity on the way are poison words, also when the
transfer completes (R49, R185, R205). A frozen vault lets it wait (R192). -/
def State.wormWrite (s : State) (c cyc : Nat) (w : Worm) : State :=
  let off := w.line * 64
  let a := windowOf c + off
  let s := if s.coreFenced c then s.noteEngine w .pathFenced
    else
      let s := (s.landCore c cyc (s.core c).work).vaultWrite c off (ownPart off w.data) ((wormBad w).map fun i => a + 8 * i)
      if s.wormLive w && decide (wormBad w ≠ []) then s.wormPoison w fun p i => p.dstHalf = 0 && inBad w c (p.dst + i) else s
  let r : Worm := { w with kind := 9, dst := w.src, data := [], badWords := [], flits := 0, poison := false }
  s.setWorms c 5 (s.worms c 5 ++ [wormToward r c w.src 1])
/-- A read reply at its requester: words that failed parity are poisoned in what the descriptor delivers, all of them under the poison bit (R49, R183, R185). -/
def State.wormReply (s : State) (w : Worm) : State :=
  if wormBad w = [] || !s.wormLive w then s else s.wormPoison w fun p i => inBad w w.src (localAddr p.src + i)
/-- An inbound carrier delivers its packet: bad words of a store are poison words where they land, those of a response are poisoned in what its operation
delivers (R49, R185). -/
def State.carrierIn (s : State) (c : Nat) (w : Worm) : State :=
  match w.carried with
  | none => s
  | some p =>
    if wormBad w = [] then s
    else if p.cls = 9 then
      let r := towerRing (towerOf c)
      match s.op r p.tag with
      | some o => if o.done then s else s.setOp r p.tag { o with piece := { o.piece with poisoned := (wormBad w).flatMap fun i => (List.range 8).map (8 * i + ·) } }
      | none => s
    else match placeOf (localAddr p.addr) with
      | .vault d _ => if s.coreFenced d then s else s.setMarks .poison (((wormBad w).filter fun i => decide (8 * i < p.data.length)).map fun i => localAddr p.addr / 8 * 8 + 8 * i)
      | _ => s
/-- A worm at the vault port (R181, R185). -/
def State.wormAccess (s : State) (c cyc : Nat) (w : Worm) : State :=
  if w.kind = 0 then s.wormRead c w else if w.kind = 1 then s.wormWrite c cyc w else s
/-- WORM_EXIT (R185). -/
def execWormExit (t : At) (core : Nat) (w : Worm) (headerBad : Bool) (s : State) : Result :=
  onCore t core s fun s =>
    if headerBad ∨ w.dst % 256 ≠ localOf core then s.dropWorm core w
    else if w.kind < 2 then
      (if s.frozen core && !s.coreFenced core then s.modCore core fun k => { k with waiting := k.waiting ++ [.worm w] } else s.wormAccess core t.cyc w)
    else if w.kind = 8 then s.wormReply w
    else if w.kind = 10 then s.carrierIn core w
    else s
/-- WORM_TIMEOUT: 10 µs after issue, a transfer whose worm was discarded completes with TIMEOUT (R185). -/
def execWormTimeout (t : At) (core : Nat) (e : BitVec 2) (seq : BitVec 7) (s : State) : Result :=
  onCore t core s fun s =>
    let g := s.engine core e.toNat
    match g.queue with
    | [] => s
    | d :: _ =>
      if d.seq % 128 = seq.toNat ∧ seq.toNat ∈ g.lost ∧ d.issueTick + 10000 ≤ s.now then
        (s.setEngine core e.toNat { g with lost := g.lost.filter (· ≠ seq.toNat) }).completeHead core e.toNat t.cyc .timeout
      else s

/-! Port blocks (R186, R333). -/

/-- The port block completes the routing fields of an outbound packet and queues it, unless the operation passed its port block already
(DESIGN CHOICE, assumption 24). -/
def State.outbound (s : State) (tower p plane : Nat) (k : Packet) : State :=
  let r := towerRing tower
  match s.op r k.tag with
  | some o => if 0 < o.attempts then s else s.launch r k.tag (p / 2) plane { o with pkt := k }
  | none => s.launch r k.tag (p / 2) plane { core := k.originCore, pkt := k }
/-- A port block sends a worm on to its destination layer (R186). -/
def State.riser (s : State) (tower p : Nat) (w : Worm) : State :=
  let c := portCore tower (layerOf w.dst) p
  let exit := if w.kind = 0xA then w.exit else if 8 ≤ w.kind then 1 else 0
  let r : Worm := { w with dx := hopX c w.dst, dy := hopY c w.dst, exit := exit }
  (s.setWorms c 4 (s.worms c 4 ++ [r])).emit (.carrier tower p (layerOf w.dst) (wormHead r) r)
/-- PORT_BLOCK_REWRITE (R186, R330, R333). -/
def execPortBlockRewrite (t : At) (tower : Nat) (p : BitVec 4) (layer : BitVec 2) (w : Worm) (plane : BitVec 2) (s : State) : Result :=
  onTower t tower s fun s =>
    if w.kind = 2 then (match w.carried with
      | some k => s.outbound tower p.toNat plane.toNat { k with poison := k.poison || decide (wormBad w ≠ []) }
      | none => s.emit (.carrier tower p.toNat layer.toNat (wormHead w) w))
    else s.riser tower p.toNat w

/-! Fenced D2D groups (R284). -/

/-- A multicast that a stream engine issued (R383). -/
def RemOp.isCast (o : RemOp) : Bool := decide (o.pkt.cls = 8 ∧ o.pkt.op = 3) && o.engine.isSome
/-- An operation completes with a status: a multicast's member record is written (R384); one that a unit of the package issued is noted for that
unit, which TAG_RELEASE tells. -/
def State.endOp (s : State) (r tag : Nat) (o : RemOp) (st : Status) (cyc : Nat) : State :=
  if o.host.isSome then s.setOp r tag { o with done := true, doneAt := s.now, status := st }
  else
    let s := (if o.isCast then s.writeMembers o cyc else s).finishOp r tag o st
    if (ringTower r).isSome then s.afterOp o.core cyc else s
/-- A member of a multicast is fenced on the plane in use (R238, R384). -/
def State.memberFenced (s : State) (r : Nat) (o : RemOp) (m : Nat) : Bool :=
  if 64 ≤ m then (if s.onLattice r 0 s.pkg then (s.lattice 0).removed.contains (m - 64) else s.ringFenced (towerRing (m - 64)))
  else if m = s.pkg then s.ringFenced (endpointOf (localAddr o.pkt.addr))
  else !s.fibreUp ((token (bits (s.routeEntry r m) 53 36) 0).getD 0)
/-- A member fenced after issue and before it acknowledges makes a multicast complete with PATH_FENCED (R238). -/
def State.failCasts (s : State) (cyc : Nat) : State :=
  (s.ops.filter fun x => !x.2.done && x.2.isCast && x.2.members.any fun m => !x.2.heard.contains m && s.memberFenced (x.1 / 8192) x.2 m).foldl
    (fun s x => s.endOp (x.1 / 8192) (x.1 % 8192) x.2 (firstOf x.2.status .pathFenced) cyc) s
/-- Complete every outstanding operation of an endpoint that a test names with a status (R216, R284, R285). -/
def State.failOpsAs (s : State) (st : Status) (cyc : Nat) (hit : Nat → RemOp → Bool) : State :=
  ((s.ops.filter fun x => !x.2.done && hit (x.1 / 8192) x.2).foldl (fun s x => s.endOp (x.1 / 8192) (x.1 % 8192) x.2 st cyc) s).failCasts cyc
/-- Complete every outstanding operation that a test names with PATH_FENCED (R216). -/
def State.failOps (s : State) (cyc : Nat) (hit : Nat → RemOp → Bool) : State := s.failOpsAs .pathFenced cyc hit
/-- The operations of a core whose traffic a group of a tower carries, as the group map stands (R335). -/
def State.onGroup (s : State) (tower g : Nat) (r : Nat) (o : RemOp) : Bool :=
  decide (r = towerRing tower ∧ towerOf o.core = tower ∧ s.coreGroup o.core = g) && o.enabled
/-- A frame that a direction has sent and that is not acknowledged, or is to be sent again, holds one of the words (R277). -/
def D2dDir.holds (x : D2dDir) (ws : List (List Byte)) : Bool :=
  (x.replay.map (·.1) ++ x.resend).any fun f => (List.range (ceilDiv f.data.length 32)).any fun i => ws.contains ((f.data.drop (32 * i)).take 32)
/-- An operation whose frames are in flight on a group, its request's or its response's (R284). -/
def State.inFlightOn (s : State) (tower g : Nat) (r : Nat) (o : RemOp) : Bool :=
  s.onGroup tower g r o &&
    ((s.group tower g).up.holds (packetWords o.pkt) || (o.back.map fun p => (s.group tower g).down.holds (packetWords p)).getD false)
/-- The sibling of a group (R284). -/
def siblingOf (g : Nat) : Nat := 4 * ((g / 4) ^^^ 1) + g % 4
/-- A group's traffic may move to its sibling: reduced_width is set, the sibling is not fenced, the package supports it (R284). -/
def State.takeover (s : State) (tower g : Nat) : Bool :=
  s.flag (Reg.flrPolicy (tower / 3)) F.flrPolicyReducedWidth && decide (s.fld (grpReg tower (siblingOf g)) F.flrGrpState < 3) &&
    bit (s.fld (Reg.flrCap 0) F.flrCapPackageCap) 7
/-- What waits for a group, not yet in a frame, moves to its sibling (R284). -/
def State.moveFlits (s : State) (tower g : Nat) : State :=
  let y := s.group tower g
  let z := s.group tower (siblingOf g)
  let s := s.setGroup tower g { y with up := { y.up with queue := [], replay := [], resend := [] }, down := { y.down with queue := [], replay := [], resend := [] } }
  s.setGroup tower (siblingOf g) { z with up := { z.up with queue := z.up.queue ++ y.up.queue }, down := { z.down with queue := z.down.queue ++ y.down.queue } }
/-- Fence a D2D group: its traffic moves to the sibling, which the group map then names (R335), or the tower is fenced; a start stops on the latter unless the fence map lists
the tower (R284, R403). Which of the two it is waits, at a start, until the package capability word is fixed. -/
def State.fenceGroup (s : State) (tower g cyc : Nat) : State :=
  let a := grpReg tower g
  if 3 ≤ s.fld a F.flrGrpState then s
  else if decide (s.dev = .bringup) && !s.start.capFixed then s.putF a F.flrGrpState 3
  else if s.takeover tower g then
    let s := (s.putF a F.flrGrpState 4).outside 3 (256 * tower + g) 6 true
    let s := (s.failOps cyc (s.inFlightOn tower g)).moveFlits tower g
    (s.putF (Reg.fabGmap tower (g / 8)) ⟨8 * (g % 8) + 7, 8 * (g % 8)⟩ (siblingOf g)).relaunch tower cyc
  else
    let s := (s.putF a F.flrGrpState 3).failOps cyc fun r o => s.onGroup tower g r o && (!o.left || s.inFlightOn tower g r o)
    (if (s.tower tower).fenced then s else (s.fenceTower tower).failCasts cyc).outside 2 tower 6 false

/-! Bonds (R204, R205). -/

/-- What a failed crossing of a tower does to the pieces that an engine holds: reads named by the first test are delivered as poisoned data, writes named by the
second are discarded, and the engine notes POISON and PATH_FENCED (R49, R174, R205). -/
def Engine.crossing (x : Engine) (reads writes : Piece → Bool) : Engine :=
  let hit (p : Piece) : Bool := reads p && !p.remote && decide (p.len ≠ 0)
  let cut (p : Piece) : Bool := writes p && !p.remote && decide (p.dstHalf = 0)
  { x with pieces := (x.pieces.filter fun p => !cut p).map fun p => if hit p then { p with poisoned := List.range p.len } else p,
           statuses := x.statuses ++ (if x.pieces.any cut then [.pathFenced] else []) ++ if x.pieces.any (fun p => hit p && !cut p) then [.poison] else [] }
/-- A local atomic that crosses a failed group is not applied, and its engine records PATH_FENCED (R205). -/
def Engine.lostAtomic (x : Engine) (cyc : Nat) (hit : Nat → Bool) : Engine :=
  match x.stage, x.queue with
  | .local_ _, d :: _ =>
    (match d.act with
     | .satom _ _ addr _ _ _ => if x.waiting = [] ∧ x.plan = [] ∧ x.inFlight = 0 ∧ hit addr then { x with stage := .refused cyc, statuses := x.statuses ++ [.pathFenced] } else x
     | _ => x)
  | _, _ => x
/-- What a failed crossing does to the engines of a tower: `by_ c a` tells that core c's way to the address a crosses it (R205). -/
def State.cutCrossing (s : State) (tower cyc : Nat) (by_ : Nat → Nat → Bool) : State :=
  { s with engines := s.engines.map fun x =>
      let c := x.1 / 4
      if towerOf c = tower then (x.1, (x.2.crossing (fun p => by_ c (localAddr p.src)) (fun p => by_ c p.dst)).lostAtomic cyc fun a => s.path c a ≠ .outside && by_ c (localAddr a))
      else x }
/-- The core whose vault an address names. -/
def vaultCore (a : Nat) : Option Nat := match placeOf a with
  | .vault d _ => some d
  | _ => none
/-- A way by L0 from core c to an address crosses the riser segment below layer l at port position p (R178, R186): a request passes the port block of the
vault's position, a reply that of the requester's, and an end lies at or above the segment. -/
def viaRiser (l p c a : Nat) : Bool :=
  match vaultCore a with
  | some d => decide (pathTo c a = .viaL0 ∧ (portBlock d = p ∨ portBlock c = p) ∧ (l ≤ layerOf c ∨ l ≤ layerOf d))
  | none => false
/-- A remote load whose data may be crossing a riser segment when it fails is delivered as poisoned data of no stated value and completes with POISON
(R205; assumption 96). -/
def State.poisonLoads (s : State) (tower l p cyc : Nat) : State :=
  (s.ops.filter fun x => decide (x.1 / 8192 = towerRing tower ∧ towerOf x.2.core = tower ∧ portBlock x.2.core = p ∧ l ≤ layerOf x.2.core) && x.2.enabled && !x.2.done && x.2.left &&
      decide (x.2.pkt.cls = 8 ∧ x.2.pkt.op = 1)).foldl (fun s x =>
    let (b, s) := s.freeBytes x.2.piece.len
    (s.arrive x.2 b true cyc).endOp (x.1 / 8192) (x.1 % 8192) x.2 .poison cyc) s
/-- Fence what a crossing carries (R204), once what was crossing it is poisoned or discarded (R205). -/
def State.fenceCrossing (s : State) (tower cyc : Nat) : Crossing → State
  | .vault c => (s.cutCrossing tower cyc fun _ a => decide (vaultCore a = some c)).fenceCore c cyc
  | .door c => (s.cutCrossing tower cyc fun d a => decide (d = c ∧ vaultCore a = some (c - 64))).fenceCore c cyc
  | .riser l p => (List.range 4).foldl (fun s k => if l ≤ k then s.fenceGroup tower (4 * p + k) cyc else s)
      (((s.cutCrossing tower cyc (viaRiser l p)).poisonLoads tower l p cyc).holdCause 3)
  | .wires => (s.fenceTower tower).failCasts cyc
/-- The number of a crossing in a log record, and the element fenced (R439 code 0x0402). -/
def crossingArgs : Crossing → List Nat
  | .vault c => [0, c]
  | .door c => [1, c]
  | .riser l p => [2, 4 * p + l]
  | .wires => [3, 0]
/-- The source of a crossing's log record: the core it carries, or the tower. -/
def crossingSource (tower : Nat) : Crossing → Nat
  | .vault c => srcCore c
  | .door c => srcCore c
  | .riser _ _ => srcUnit tower 0
  | .wires => srcUnit tower 0
/-- A bond group is declared failed in RUN (R205). -/
def State.bondFail (s : State) (tower cyc : Nat) (x : Crossing) : State :=
  let s := s.bump (Reg.twrBond tower) F.twrBondFailed 1
  (s.log 0x0402 (crossingSource tower x) (crossingArgs x)).fenceCrossing tower cyc x
/-- A number for a crossing. -/
def crossingNum : Crossing → Nat
  | .vault c => 4 * c
  | .door c => 4 * c + 1
  | .riser l p => 4 * (16 * l + p) + 2
  | .wires => 3
/-- The failures in a row of a crossing's flit once it fails in a cycle: a replay fails six cycles after the failure before it (R205). -/
def Tower.crcRun (w : Tower) (x : Crossing) (cyc : Nat) : Nat :=
  match w.crcRuns.find? fun e => decide (e.1 = crossingNum x ∧ e.2.1 + 6 = cyc) with
  | some e => e.2.2 + 1
  | none => 1
/-- LAYER_FLIT_CRC: a flit fails its CRC and is replayed; its third failure in a row fails the bond group, which `dead` may tell as well (R205). -/
def execLayerFlitCrc (t : At) (tower : Nat) (crossing : Crossing) (dead : Bool) (s : State) : Result :=
  onTower t tower s fun s =>
    let w := s.tower tower
    let n := w.crcRun crossing t.cyc
    let last := dead || decide (3 ≤ n)
    let rest := w.crcRuns.filter fun e => decide (e.1 ≠ crossingNum crossing ∧ t.cyc ≤ e.2.1 + 6)
    let s := (s.setTower tower { w with crcRuns := if last then rest else (crossingNum crossing, t.cyc, n) :: rest }).bump (Reg.twrBond tower) F.twrBondCrcErrors 1
    if last then s.bondFail tower t.cyc crossing else s
/-- WIRE_PAIR_DISAGREE: a duplicated pair disagrees, `again` in the cycle after another disagreement (R205). -/
def execWirePairDisagree (t : At) (tower : Nat) (again : Bool) (s : State) : Result :=
  onTower t tower s fun s =>
    let w := s.tower tower
    if again && w.wireBad then (s.setTower tower { w with wireBad := false }).bondFail tower t.cyc .wires
    else s.setTower tower { w with wireBad := true }

end Sys2Proof.Machine
end

