-- ==== Sys2Proof/Machine/Headers.lean ====
section
/-! DEFINITION. Header bodies read back (R230, R327), refusals of packets on their way (R334, R337), frames as packets (R231), the light of a lane (R224 to
R229), and what a lane that is fenced was carrying (R216, R235). -/

namespace Sys2Proof.Machine

/-! Fields of header bodies (R230, R327). -/

/-- The packet of a header body, without its data. -/
def bodyPacket (b : Nat) : Packet where
  cls := bits b 511 508
  op := bits b 507 502
  hopDst := bits b 501 497
  hopSrc := bits b 496 492
  dstPkg := bits b 491 486
  dstEp := bits b 485 481
  originPkg := bits b 480 475
  originCore := bits b 474 463
  job := bits b 462 453
  tag := bits b 452 436
  epoch := bits b 435 432
  poison := bit b 424
  addr := bits b 423 373
  rxMap := bits b 372 352
  ptr := bits b 351 350
  tokens := bits b 349 332
  incarnation := bits b 331 300
  status := bits b 299 296
  retry := bits b 295 294
  aux := BitVec.ofNat 64 (bits b 293 230)
/-- The frame of a header body, without its data. -/
def bodyFrame (b : Nat) : Frame where
  kind := bits b 511 508
  src := bits b 507 503
  dst := bits b 502 498
  phase := bits b 497 490
  job := bits b 489 480
  tag := bits b 479 463
  epoch := bits b 455 452
  poison := bit b 451
  addr := bits b 450 400
  members := bits b 399 380
  originPkg := bits b 379 374
  originCore := bits b 373 362
/-- What a header body on a fibre holds: a packet, or a frame as a packet holds it (R239). -/
def bodyAny (b : Nat) : Packet := if bits b 511 508 < 4 then asPacket (bodyFrame b) else bodyPacket b
/-- The class field of a header flit is reserved: neither a lattice frame's nor a ring-plane packet's (R326). -/
def reservedClass (b : Nat) : Bool := let c := bits b 511 508; decide (c = 0 ∨ (3 < c ∧ c < 8) ∨ 13 < c)
/-- The data flits that a header announces; of a reserved class, which has no layout of its own, where a packet's header has them (DESIGN CHOICE, assumption 137). -/
def bodyFlits (b : Nat) : Nat := if bits b 511 508 < 4 then bits b 462 456 else bits b 431 425

/-! Packets and frames on their way. -/

/-- A response with a status for a packet that cannot go on (R334, R337). -/
def State.refusePacket (s : State) (r : Nat) (p : Packet) (st : Status) : State :=
  if p.cls = 8 ∨ p.cls = 0xC then
    let ep := bits p.aux.toNat 63 59
    s.respond r { cls := 9, op := if p.cls = 0xC then 0x20 + p.op else p.op, dstPkg := p.originPkg, dstEp := if p.cls = 0xC then endpointOf (windowOf p.originCore) else ep,
                  originPkg := s.pkg, job := p.job, tag := p.tag, incarnation := s.inc, status := statusCode st, retry := p.retry,
                  aux := BitVec.ofNat 64 (r * 2 ^ 59) }
  else s
/-- The package and the lattice endpoint that a frame is bound for: those of its address, and for a read reply its requester's (R230, R231). -/
def frameGoal (f : Frame) : Nat × Nat :=
  if f.kind = 3 then (f.originPkg, towerOf f.originCore) else (pkgOf f.addr, (latOf (endpointOf (localAddr f.addr))).getD 0)
/-- The operation or response that a frame becomes on the ring plane (R231). -/
def framePacket (f : Frame) : Packet :=
  let d := frameGoal f
  { cls := if f.kind = 3 then 9 else 8, op := if f.kind = 3 then 1 else f.kind + 1, dstPkg := d.1, dstEp := ringOfLat d.2, originPkg := f.originPkg,
    originCore := f.originCore, job := f.job, tag := f.tag, poison := f.poison, addr := f.addr, data := f.data,
    aux := BitVec.ofNat 64 (towerRing (towerOf f.originCore) * 2 ^ 59 + (if f.kind = 3 then (f.data.length / 64 - 1) * 2 ^ 53 else 0)) }
/-- The lattice endpoints that a frame addresses (R230). -/
def frameReceivers (f : Frame) : List Nat := if f.dst = 31 then (List.range 20).filter fun i => bit f.members i else [f.dst]

/-! The light of a lane (R224 to R229). -/

/-- The codes of a lane's interferometers (R227): those that its setting writes, else those that the device chooses for the setting's map without the outputs
removed from it (R238). -/
def State.laneCodes (s : State) (j k : Nat) : Mzi :=
  let n := j / 8
  let st := s.fld (laneReg j) F.lplLaneSetting
  if s.fld (Reg.lplSetKind n st) F.lplSetKindKind = 1 then mziOfWord ((s.rd (Reg.lplSetMzi n st (k / 2))).toNat / 2 ^ (32 * (k % 2)))
  else
    let c := Config.meshCodes ((List.range 20).map fun i => if i ∈ (s.lane j).gone then 0x1F else s.srcOfOut n st i) k
    { theta := c.1, phi := c.2 }
/-- The codes that the controller drives a lane's shifters to, by index (R225, R234). -/
def State.laneDrive (s : State) (j : Nat) : List (Nat × Nat) := (List.range 190).map fun k => let m := s.laneCodes j k; (m.theta, m.phi)
/-- The outputs at which a source's light arrives: the outputs of its map where the device chooses the codes, else where the written codes lead it, be it
wrong (R227, R229). -/
def State.laneReach (s : State) (j e : Nat) : List Nat :=
  if s.fld (Reg.lplSetKind (j / 8) (s.fld (laneReg j) F.lplLaneSetting)) F.lplSetKindKind = 1 then meshReach 20 (s.laneCodes j) e
  else (List.range 20).filter fun i => decide (s.laneSrc j i = e)
/-- The power of a source at an output as a fraction 1/m, m outputs sharing it, 0 for none, where the device chooses the codes (R227). -/
def State.lanePower (s : State) (j e out : Nat) : Nat := if out ∈ s.laneReach j e then (s.laneReach j e).length else 0

/-! Fenced lanes (R216, R235). -/

/-- The frames of an endpoint on a lane that are queued, or sent and not acknowledged. -/
def State.laneFrames (s : State) (e j : Nat) : List Frame :=
  s.framesAt e j ++ ((s.tx (.lane e j)).replay.filter fun x => decide (x.1.type = 1)).map fun x => bodyFrame x.1.body
/-- What was outstanding on a fenced lane completes with PATH_FENCED: operations of this package's cores, whose data or whose reply's a frame of the lane
was, and another package's by an answer to it (R216, R235). Nothing of it stays on the lane. -/
def State.failLane (s : State) (j cyc : Nat) : State :=
  let fs := ((List.range 20).map fun e => (s.laneFrames e j).map fun f => (e, f)).flatten
  let s := (List.range 20).foldl (fun s e =>
    let s := if s.framesAt e j = [] then s else s.setFrames e j []
    if (s.tx (.lane e j)).replay = [] then s else s.setTx (.lane e j) { s.tx (.lane e j) with replay := [] }) s
  let mine := (fs.filter fun x => decide (x.2.originPkg = s.pkg)).map fun x => (towerRing (towerOf x.2.originCore), x.2.tag)
  let s := s.failOps cyc fun r o => mine.contains (r, o.pkt.tag)
  (fs.filter fun x => decide (x.2.originPkg ≠ s.pkg)).foldl (fun s x =>
    let p := framePacket x.2
    if x.2.kind = 3 then s.respond (ringOfLat x.1) { p with data := [], status := statusCode .pathFenced, incarnation := s.inc, aux := 0 }
    else s.refusePacket (ringOfLat x.1) p .pathFenced) s

end Sys2Proof.Machine
end

