-- ==== Sys2Proof/WellFormed.lean ====
section
/-! DEFINITION. Which commands are well formed: every unit that an operand names exists in the package (R11, R17, R25, R435). -/

namespace Sys2Proof

/-- The ring exists (R245). -/
def RingId.ok : RingId → Bool
  | .ringMod r t q => decide (r < 21 ∧ t < 8 ∧ q < 2)
  | .ringDrop r t i => decide (r < 21 ∧ t < 8 ∧ i < 40)
  | .latMod j e k | .latDmx j e k => decide (j < 32 ∧ e < 20 ∧ k < 16)
/-- The link of the margin test exists (R265). -/
def MarginLink.ok : MarginLink → Bool
  | .ring r s k => decide (r < 21 ∧ s < 21 ∧ k < 16)
  | .lane j s r => decide (j < 32 ∧ s < 20 ∧ r < 20)
  | .fibre x => decide (x < 32)
/-- The arbiter exists (R190, R338). -/
def Arbiter.ok : Arbiter → Bool
  | .vault c => decide (c < 3072)
  | .tx r => decide (r < 21)
  | .channel k c => decide (k < 16 ∧ c < 32)
/-- The optical link exists (R207). -/
def Link.ok : Link → Bool
  | .ring r => decide (r < 21)
  | .lane e j => decide (e < 20 ∧ j < 32)
  | .fibreOut x | .fibreIn x => decide (x < 32)
/-- The adapted item exists (R257). -/
def AdaptItem.ok : AdaptItem → Bool
  | .threshold tile _ => decide (tile < 4)
  | .deskew tower g d wire => decide (tower < 12 ∧ g < 64 ∧ d < 2 ∧ wire < 268)

/-- A command is well formed. -/
def wellFormed : Instr → Bool
  | .powerOn _ => true
  | .powerRemoval _ => true
  | .resetNAssert _ => true
  | .resetNRelease _ _ _ => true
  | .bringupEntry _ => true
  | .coldCalibration _ tile _ => decide (tile < 4)
  | .hbmInitialization _ k => decide (k < 16)
  | .disciplineTimeout _ => true
  | .d2dTraining _ tower g _ => decide (tower < 12) && decide (g < 64)
  | .trainingStepTimeout _ tower g _ => decide (tower < 12) && decide (g < 64)
  | .capabilityWordFixed _ => true
  | .bondTest _ tower _ => decide (tower < 12)
  | .laserCheck _ _ _ => true
  | .ringAcquisition _ ring _ => ring.ok
  | .marginTest _ link _ _ _ => link.ok
  | .keptSetPeriodicWrite _ tile => decide (tile < 4)
  | .trainingBeacon _ => true
  | .fibreTraining _ x _ _ _ => decide (x < 32)
  | .loadEntry _ _ => true
  | .joinEntry _ => true
  | .joinMessageSend _ => true
  | .joinMessage _ _ _ _ pkg => decide (pkg < 64)
  | .joinTimeout _ => true
  | .runEntry _ => true
  | .bundleFetch _ core _ => decide (core < 3072)
  | .sampleSend _ core => decide (core < 3072)
  | .nop _ g _ => decide (g.core < 3072)
  | .add _ g _ _ _ => decide (g.core < 3072)
  | .sub _ g _ _ _ => decide (g.core < 3072)
  | .and _ g _ _ _ => decide (g.core < 3072)
  | .or _ g _ _ _ => decide (g.core < 3072)
  | .xor _ g _ _ _ => decide (g.core < 3072)
  | .shl _ g _ _ _ => decide (g.core < 3072)
  | .shr _ g _ _ _ => decide (g.core < 3072)
  | .sar _ g _ _ _ => decide (g.core < 3072)
  | .mul _ g _ _ _ => decide (g.core < 3072)
  | .min _ g _ _ _ => decide (g.core < 3072)
  | .max _ g _ _ _ => decide (g.core < 3072)
  | .addi _ g _ _ _ => decide (g.core < 3072)
  | .andi _ g _ _ _ => decide (g.core < 3072)
  | .ori _ g _ _ _ => decide (g.core < 3072)
  | .xori _ g _ _ _ => decide (g.core < 3072)
  | .shli _ g _ _ _ => decide (g.core < 3072)
  | .shri _ g _ _ _ => decide (g.core < 3072)
  | .sari _ g _ _ _ => decide (g.core < 3072)
  | .movi _ g _ _ => decide (g.core < 3072)
  | .insl _ g _ _ _ => decide (g.core < 3072)
  | .insh _ g _ _ _ => decide (g.core < 3072)
  | .cmp _ g _ _ _ _ => decide (g.core < 3072)
  | .cmpi _ g _ _ _ _ => decide (g.core < 3072)
  | .plog _ g _ _ _ _ => decide (g.core < 3072)
  | .sld _ g _ _ _ => decide (g.core < 3072)
  | .sst _ g _ _ _ => decide (g.core < 3072)
  | .srd _ g _ _ => decide (g.core < 3072)
  | .vsel _ g _ _ => decide (g.core < 3072)
  | .capc _ g _ _ => decide (g.core < 3072)
  | .br _ core _ => decide (core < 3072)
  | .bnz _ core _ _ => decide (core < 3072)
  | .bz _ core _ _ => decide (core < 3072)
  | .jr _ core _ => decide (core < 3072)
  | .loop _ core _ _ _ => decide (core < 3072)
  | .loopi _ core _ _ _ => decide (core < 3072)
  | .waitt _ core _ _ => decide (core < 3072)
  | .waittRelease _ core => decide (core < 3072)
  | .waitse _ core _ _ => decide (core < 3072)
  | .bar _ core _ _ _ => decide (core < 3072)
  | .barrierTreeRelease _ tower _ => decide (tower < 12)
  | .barrierArrival _ r _ => decide (r < 21)
  | .packageBarrierRelease _ tower _ => decide (tower < 12)
  | .fset _ g _ _ => decide (g.core < 3072)
  | .flagLand _ core => decide (core < 3072)
  | .fclr _ g _ => decide (g.core < 3072)
  | .fwait _ core _ _ => decide (core < 3072)
  | .ftest _ g _ _ => decide (g.core < 3072)
  | .fence _ core => decide (core < 3072)
  | .latr _ g _ _ => decide (g.core < 3072)
  | .step _ core _ => decide (core < 3072)
  | .halt _ core => decide (core < 3072)
  | .mma _ g _ _ _ _ _ _ _ => decide (g.core < 3072)
  | .governorIssue _ core => decide (core < 3072)
  | .arrayFoldWrite _ core => decide (core < 3072)
  | .mmac _ g _ _ _ _ _ _ _ _ => decide (g.core < 3072)
  | .checksumResult _ core => decide (core < 3072)
  | .accrd _ g _ _ _ _ _ => decide (g.core < 3072)
  | .accwr _ g _ _ _ _ _ => decide (g.core < 3072)
  | .accclr _ g _ => decide (g.core < 3072)
  | .vadd _ g _ _ _ _ => decide (g.core < 3072)
  | .vsub _ g _ _ _ _ => decide (g.core < 3072)
  | .vmul _ g _ _ _ _ => decide (g.core < 3072)
  | .vfma _ g _ _ _ _ => decide (g.core < 3072)
  | .vmin _ g _ _ _ _ => decide (g.core < 3072)
  | .vmax _ g _ _ _ _ => decide (g.core < 3072)
  | .vcmp _ g _ _ _ _ => decide (g.core < 3072)
  | .vselm _ g _ _ _ => decide (g.core < 3072)
  | .vexp2 _ g _ _ => decide (g.core < 3072)
  | .vlog2 _ g _ _ => decide (g.core < 3072)
  | .vrcp _ g _ _ => decide (g.core < 3072)
  | .vrsq _ g _ _ => decide (g.core < 3072)
  | .vrsum _ g _ _ => decide (g.core < 3072)
  | .vrmax _ g _ _ => decide (g.core < 3072)
  | .vbcl _ g _ _ _ => decide (g.core < 3072)
  | .vbcs _ g _ _ => decide (g.core < 3072)
  | .vext _ g _ _ _ => decide (g.core < 3072)
  | .vpack _ g _ _ _ => decide (g.core < 3072)
  | .vunpk _ g _ _ _ => decide (g.core < 3072)
  | .vld _ g _ _ _ => decide (g.core < 3072)
  | .vst _ g _ _ _ => decide (g.core < 3072)
  | .vdq _ g _ _ _ => decide (g.core < 3072)
  | .vq _ g _ _ _ _ _ _ _ _ => decide (g.core < 3072)
  | .scopy _ g _ _ _ _ _ _ => decide (g.core < 3072)
  | .stile _ g _ _ _ _ _ _ => decide (g.core < 3072)
  | .sflag _ g _ _ => decide (g.core < 3072)
  | .sflagRelease _ core _ => decide (core < 3072)
  | .satom _ g _ _ _ _ _ _ => decide (g.core < 3072)
  | .sinv _ g _ _ => decide (g.core < 3072)
  | .smcast _ g _ _ _ _ _ => decide (g.core < 3072)
  | .recst _ g _ _ _ => decide (g.core < 3072)
  | .recordForm _ core => decide (core < 3072)
  | .recmg _ g _ _ _ _ => decide (g.core < 3072)
  | .descriptorStart _ core _ => decide (core < 3072)
  | .tagAcquire _ core _ _ => decide (core < 3072)
  | .transferComplete _ core _ => decide (core < 3072)
  | .droopDetect _ tower => decide (tower < 12)
  | .vaultPortGrant _ core _ _ _ => decide (core < 3072)
  | .mergedRead _ core _ => decide (core < 3072)
  | .wormExit _ core _ _ => decide (core < 3072)
  | .wormTimeout _ core _ _ => decide (core < 3072)
  | .portBlockRewrite _ tower _ _ _ _ => decide (tower < 12)
  | .layerFlitCrc _ tower _ _ => decide (tower < 12)
  | .wirePairDisagree _ tower _ => decide (tower < 12)
  | .ringService _ ring _ _ _ => ring.ok
  | .reacquireRetry _ ring _ => ring.ok
  | .flitReceive _ link rx _ _ => link.ok && decide (rx < 64)
  | .linkControlSend _ link => link.ok
  | .linkControlReceive _ link rx _ => link.ok && decide (rx < 64)
  | .ackTimeout _ link _ => link.ok
  | .weightStep _ src => decide (src < 21)
  | .txArbGrant _ r _ => decide (r < 21)
  | .latrForward _ tile _ _ => decide (tile < 4)
  | .requestBoundary _ tile => decide (tile < 4)
  | .startBoundary _ tile => decide (tile < 4)
  | .shiftersSettled _ tile _ => decide (tile < 4)
  | .laneReopen _ tile _ => decide (tile < 4)
  | .laneLateRelock _ _ => true
  | .laneFenceTimeout _ _ => true
  | .frameReceive _ _ e _ => decide (e < 20)
  | .d2dFrameReceive _ tower g _ _ => decide (tower < 12) && decide (g < 64)
  | .d2dReplayTimeout _ tower g _ => decide (tower < 12) && decide (g < 64)
  | .d2dRetrain _ tower g _ => decide (tower < 12) && decide (g < 64)
  | .tileReset _ tile => decide (tile < 4)
  | .syncEdge _ => true
  | .timeMark _ tower _ => decide (tower < 12)
  | .todMessage _ _ _ _ _ _ => true
  | .refclkLoss _ => true
  | .flipCaratWrite _ _ => true
  | .routeFlip _ => true
  | .bankLockEnd _ => true
  | .routeTableWrite _ r _ d _ => decide (r < 21) && decide (d < 64)
  | .arbFreezeSet _ arb => arb.ok
  | .arbFreezeClear _ arb => arb.ok
  | .arbMapWrite _ arb _ => arb.ok
  | .arbMapApply _ arb => arb.ok
  | .hbmChannelGrant _ k c _ _ _ => decide (k < 16) && decide (c < 32)
  | .hbmMerge _ k c _ => decide (k < 16) && decide (c < 32)
  | .hbmRefresh _ k c _ => decide (k < 16) && decide (c < 32)
  | .hbmTempRead _ k _ => decide (k < 16)
  | .scrubRead _ k _ => decide (k < 16)
  | .load _ r _ => decide (r < 21)
  | .store _ r _ => decide (r < 21)
  | .mstore _ r _ => decide (r < 21)
  | .inv _ r _ => decide (r < 21)
  | .invh _ r _ => decide (r < 21)
  | .copyld _ r _ => decide (r < 21)
  | .atomic _ r _ => decide (r < 21)
  | .flagPacket _ r _ => decide (r < 21)
  | .response _ r _ => decide (r < 21)
  | .attemptTimeout _ r tag => decide (r < 21) && decide (tag < 8192)
  | .tagRelease _ r tag => decide (r < 21) && decide (tag < 8192)
  | .refetch _ k e => decide (k < 16) && decide (e < 256)
  | .towerStepTreeComplete _ tower => decide (tower < 12)
  | .towerArrival _ tower _ => decide (tower < 12)
  | .boundaryMessage _ pkg _ _ _ _ _ => decide (pkg < 64)
  | .stepRelease _ => true
  | .stepTimeout _ => true
  | .variantEvaluation _ _ => true
  | .shardData _ stream _ _ _ _ => decide (stream < 256)
  | .ingestStoreIssue _ stream _ _ => decide (stream < 256)
  | .shardRetransmit _ stream _ => decide (stream < 256)
  | .shardAbandon _ stream _ => decide (stream < 256)
  | .egressLoadIssue _ e _ => decide (e < 64)
  | .egrAck _ e _ _ _ => decide (e < 64)
  | .egressRetransmit _ e => decide (e < 64)
  | .egressTimeout _ e => decide (e < 64)
  | .arpRequest _ _ _ _ => true
  | .neighbourSolicitation _ _ _ _ => true
  | .echoRequest _ _ _ _ _ => true
  | .frameDiscard _ _ => true
  | .read _ _ _ _ => true
  | .write _ _ _ => true
  | .updBegin _ _ _ _ => true
  | .updData _ _ _ _ _ _ _ => true
  | .updEnd _ _ _ => true
  | .updateFinish _ _ => true
  | .updAbandon _ _ _ => true
  | .restart _ _ _ => true
  | .quote _ _ _ => true
  | .logRecordWrite _ _ _ _ => true
  | .logMergeFlush _ _ _ => true
  | .persistentLogWrite _ => true
  | .watchdogExpiry _ => true
  | .housekeepingSlot _ _ _ => true
  | .laserFaultN _ => true
  | .unitEnable _ u => decide (u < 36)
  | .unitDisable _ u => decide (u < 36)
  | .unitTransitionEnd _ u => decide (u < 36)
  | .ratioWrite _ n _ => decide (n < 4)
  | .pmcCount _ => true
  | .pmcWindow _ => true
  | .pmcFreeze _ => true
  | .pmcWindowEdge _ => true
  | .telemetrySnapshot _ => true
  | .snapshotComplete _ => true
  | .i3cPrivateWrite _ _ => true
  | .i3cPrivateRead _ _ => true
  | .dynamicAddressAssign _ _ => true
  | .jtagInstruction _ _ => true
  | .configWrite _ _ _ _ => true
  | .syncMissed _ => true
  | .wormHop _ core port _ _ _ => decide (core < 3072) && decide (port < 7)
  | .d2dFrameSend _ tower g _ => decide (tower < 12) && decide (g < 64)
  | .laneFrameStart _ _ e => decide (e < 20)
  | .hostPortLinkUp _ _ => true
  | .ratioChangeComplete _ => true
  | .qualityMeasurement _ link k _ => link.ok && decide (k < 16)
  | .calibrationAdaptation _ item _ => item.ok

end Sys2Proof
end

