-- ==== Sys2Proof/Machine/Light.lean ====
section
/-! DEFINITION. Holding the light: rings and their lock engines (R245 to R255), weights (R259), calibration (R257 to R263), the laser check (R269 to
R272), the margin test and quality figures (R264 to R267). -/

namespace Sys2Proof.Machine

/-! Rings. -/

/-- The address of a ring's state register (R267). -/
def ringAddr : RingId → Nat
  | .ringMod r t q => Reg.rplMod r t q
  | .ringDrop r t i => Reg.rplDrop r t i
  | .latMod j e k => Reg.lplMod (j / 8) (j % 8) e k
  | .latDmx j e k => Reg.lplDmx (j / 8) (j % 8) e k
/-- The source whose channel i of receiver r is (R242). -/
def chanSrc (r i : Nat) : Nat := if i / 2 < r then i / 2 else i / 2 + 1
/-- The ring-plane endpoints of a tile, and the lattice endpoints of a tile. -/
def tileRings (n : Nat) : List Nat := (List.range 21).filter fun r => ringTile r = n
/-- The lattice endpoints of a tile (R223). -/
def tileLats (n : Nat) : List Nat := (List.range 20).filter fun e => latTile e = n
/-- The tile of a ring and its place among the tile's rings, in the order of the register indices (R245, R262). -/
def ringItem : RingId → Nat × Nat
  | .ringMod r t q => (ringTile r, 16 * (tileRings (ringTile r)).idxOf r + 2 * t + q)
  | .ringDrop r t i => (ringTile r, 16 * (tileRings (ringTile r)).length + 320 * (tileRings (ringTile r)).idxOf r + 40 * t + i)
  | .latMod j e k => (latTile e, 336 * (tileRings (latTile e)).length + (5 * j + (tileLats (latTile e)).idxOf e) * 16 + k)
  | .latDmx j e k => (latTile e, 336 * (tileRings (latTile e)).length + 2560 + (5 * j + (tileLats (latTile e)).idxOf e) * 16 + k)
/-- The ring of a tile's item i, in the order of the register indices (R245, R262). -/
def itemRing (tile i : Nat) : RingId :=
  let n := (tileRings tile).length
  let e (x : Nat) : Nat := (tileLats tile).getD (x / 16 % 5) 0
  if i < 16 * n then .ringMod ((tileRings tile).getD (i / 16) 0) (i % 16 / 2) (i % 2)
  else if i < 336 * n then let x := i - 16 * n; .ringDrop ((tileRings tile).getD (x / 320) 0) (x % 320 / 40) (x % 40)
  else if i < 336 * n + 2560 then let x := i - 336 * n; .latMod (x / 80) (e x) (x % 16)
  else let x := i - 336 * n - 2560; .latDmx (x / 80) (e x) (x % 16)
/-- The ring's endpoint or lane is fenced (R267). -/
def State.ringOut (s : State) : RingId → Bool
  | .ringMod r _ _ | .ringDrop r _ _ => s.ringFenced r
  | .latMod j e _ | .latDmx j e _ => decide (s.fld (laneReg j) F.lplLaneState = 6) || (s.lattice 0).removed.contains e
/-- The heater code in force. -/
def State.heater (s : State) (g : RingId) : Nat := s.fld (ringAddr g) F.rplModHeater
/-- The state of a ring (R267): a ring of a fenced endpoint or lane is fenced. -/
def State.ringState (s : State) (g : RingId) : Nat := if s.ringOut g then 6 else s.fld (ringAddr g) F.rplModState
/-- A code within the heater's range (R246). -/
def clampCode (i : Int) : Nat := (max 0 (min 16383 i)).toNat
/-- Headroom low (R246). -/
def headroomLow (code : Nat) : Bool := decide (code ≤ 512 ∨ 15871 ≤ code)
/-- The state code of a locked ring. -/
def lockedCode (code : Nat) : Nat := if headroomLow code then 3 else 2
/-- Wavelength k of a ring-plane source has failed: half width, or the endpoint is fenced where a trunk has lost both (R222). -/
def State.failWave (s : State) (src k : Nat) : State :=
  let a := Reg.rplTxStatus src
  let w := s.fld a F.rplTxStatusWlFailed
  if bit w k then s
  else
    let w := w + 2 ^ k
    let s := (s.putF a F.rplTxStatusWlFailed w).holdCause 7
    if (List.range 8).any fun t => bit w (2 * t) && bit w (2 * t + 1) then
      let s := s.log 0x0501 (srcUnit (12 + ringTile src) src) [src, 31, 2]
      if s.dev = .bringup then (s.fenceRing src).startFail 8 else s.fenceRing src
    else
      let s := s.putF a F.rplTxStatusWidth 1
      if decide (s.dev = .bringup) && !s.flag Reg.onxLightPolicy F.onxLightPolicyHalfWidthPolicy then s.startFail 8 else s
/-- Park a ring: a ring-plane ring's wavelength fails at its source (R251, R254). -/
def State.park (s : State) (g : RingId) : State :=
  if s.ringState g = 5 then s
  else
    let s := (s.putF (ringAddr g) F.rplModState 5).bump Reg.onxLockCounts F.onxLockCountsParked 1
    let s := s.log 0x0502 (srcUnit (12 + (ringItem g).1) (ringItem g).2) [ringAddr g, s.heater g, 2]
    match g with
    | .ringMod r t q => s.failWave r (2 * t + q)
    | .ringDrop r t i => s.failWave (chanSrc r i) (2 * t + i % 2)
    | _ => s
/-- The codes of a bank: 16 modulators or demux rings of one endpoint on one lane (R255). -/
def bankRing (j e : Nat) (mods : Bool) (k : Nat) : RingId := if mods then .latMod j e k else .latDmx j e k
/-- A lattice bank with a ring near a limit rotates one channel away from it, or its lane is fenced where it has no room (R255, R256): a rotation of the lane
that waits for the same or an earlier start boundary takes the bank with it. -/
def State.rotateBank (s : State) (j e : Nat) (mods up : Bool) (cyc : Nat) : State :=
  let l := s.lane j
  let room (k : Nat) : Bool :=
    let c := s.heater (bankRing j e mods k)
    if up then decide (c + 2150 ≤ 16383) else decide (2150 ≤ c)
  if l.rotations.contains (e, mods, up) ∨ s.fld (laneReg j) F.lplLaneState = 6 then s
  else if l.rotations.contains (e, mods, !up) ∨ !((List.range 16).all room) then ((s.setLane j { l with rotations := [] }).fenceLane j 2).failLane j cyc
  else
    let s := s.setLane j { l with rotations := l.rotations ++ [(e, mods, up)] }
    (s.latQueue (j / 8) { lanes := [(j % 8, 256)], r := ((s.tc (j / 8)).toNat / 1024 + 1) * 1024 }).latStatus (j / 8)
/-- A ring enters headroom low (R254, R255). -/
def State.enterLow (s : State) (g : RingId) (cyc : Nat) : State :=
  let code := s.heater g
  match g with
  | .latMod j e _ => s.rotateBank j e true (decide (code ≤ 512)) cyc
  | .latDmx j e _ => s.rotateBank j e false (decide (code ≤ 512)) cyc
  | _ => s.log 0x0502 (srcUnit (12 + (ringItem g).1) (ringItem g).2) [ringAddr g, code, 0]
/-- A ring's heater takes a code; entering headroom low is reported once per entry (R254, R255). -/
def State.setCode (s : State) (g : RingId) (code cyc : Nat) : State :=
  let was := (s.ring (ringAddr g)).lowNow
  let s := (s.putF (ringAddr g) F.rplModHeater code).setRing (ringAddr g) { s.ring (ringAddr g) with lowNow := headroomLow code }
  if headroomLow code && !was then s.enterLow g cyc else s
/-- A ring locks at a code, with no dither and no trim in it. -/
def State.lockAt (s : State) (g : RingId) (code cyc : Nat) : State :=
  let s := s.setRing (ringAddr g) { s.ring (ringAddr g) with smallRun := 8, tries := 0, again := false, dither := 0, trim := 0, last := none }
  (s.putF (ringAddr g) F.rplModState (lockedCode code)).setCode g code cyc
/-- Where an acquisition from a start value locks, if anywhere (R251): from the start value, at a point of the search, else at the response of the sweep that
lies nearest. Points lie 8 taps apart. -/
def lockFound (x : LockSight) (start : Nat) : Option Nat :=
  let far (c : Nat) : Nat := ((c : Int) - start).natAbs
  match x.direct.filter fun c => decide (c ≤ 16383) with
  | some c => some c
  | none => match x.search.filter fun c => decide (c ≤ 16383 ∧ far c ≤ 2048 ∧ far c % 8 = 0) with
    | some c => some c
    | none => (x.sweep.filter fun c => decide (c ≤ 16383 ∧ c % 8 = 0)).foldl (fun b c => match b with
        | none => some c
        | some d => if far c < far d then some c else some d) none
/-- A ring-plane ring's code reached its limit while the loop drives outward: it is acquired again from there (R254). -/
def State.exhaust (s : State) (g : RingId) : State :=
  match g with
  | .ringMod .. | .ringDrop .. =>
    let s := s.putF (ringAddr g) F.rplModState 1
    s.setRing (ringAddr g) { s.ring (ringAddr g) with smallRun := 0, tries := 0, retryAt := s.now, start := s.heater g, again := true }
  | _ => s
/-- The receiver is the last of a source (R219, R249). -/
def State.lastReceiver (s : State) (src r : Nat) : Bool := decide ((s.receivers src).getLast? = some r)
/-- The ring is held at a maximum by dither (R249, R250). -/
def State.dithers (s : State) : RingId → Bool
  | .ringDrop r _ i => s.lastReceiver (chanSrc r i) r
  | .latDmx .. => true
  | _ => false
/-- The step of a service (R250): the gain in 1/256 steps times the error, rounded, at most 48 taps. -/
def loopStep (gain : Nat) (e : Int) : Int := max (-48) (min 48 (((gain : Int) * e + 128) / 256))
/-- The setpoint of a loop that is held at one, in units of 2^−16: a modulator's bias fraction, a drop ring's applied weight (R249). -/
def State.setpoint (s : State) : RingId → Int
  | .ringDrop r t i => s.fld (Reg.rplWgt r t i) F.rplWgtApplied
  | .ringMod r t q => 256 * s.calVal 6 (ringItem (.ringMod r t q)).1 (ringItem (.ringMod r t q)).2
  | g => 256 * s.calVal 9 (ringItem g).1 ((ringItem g).2 - 336 * (tileRings (ringItem g).1).length)
/-- The flank that a loop is held on: heat raises the quantity on the red one, and its error counts against the heater there (R249, R250). -/
def onRed : RingId → Bool
  | .ringDrop .. => Config.dropRed
  | _ => true
/-- The quantity that a ring locks on (R249), from its photocurrents: the fraction of the drop photodiode's in it and the through-port monitor's for a drop
ring, of the peak found at acquisition for a modulator, both in units of 2^−16 and rounded down (DESIGN CHOICE, assumption 108); for a ring held at a
maximum I_drop itself. -/
def State.loopQuantity (s : State) (g : RingId) (photo ref : Nat) : Int :=
  if s.dithers g then photo else match g with
    | .ringDrop .. => photo * 65536 / (photo + ref)
    | _ => photo * 65536 / ref
/-- The error of a service (R250): the quantity minus its setpoint with the sign of the flank, or the difference of the quantity between the two halves of
the dither. -/
def State.loopError (s : State) (g : RingId) (quantity : Int) : Int :=
  let h := s.ring (ringAddr g)
  if s.dithers g then match h.last with
    | some p => if 0 < h.dither then quantity - p else p - quantity
    | none => 0
  else if onRed g then s.setpoint g - quantity else quantity - s.setpoint g
/-- The dither of a rotation (R250). -/
def State.ditherOf (s : State) (g : RingId) : Int :=
  if s.dithers g then (if (s.ring (ringAddr g)).rotation % 2 = 0 then 4 else -4) else 0
/-- The trim of a locked demux ring, within 16 taps (R249). -/
def State.trimOf (s : State) (g : RingId) (trim : Int) : Int := match g with
  | .latDmx .. => if s.ringState g = 2 ∨ s.ringState g = 3 then max (-16) (min 16 trim) else 0
  | _ => 0
/-- One tap toward a target (R258). -/
def tapToward (v target : Int) : Int := if v < target then v + 1 else if target < v then v - 1 else v
/-- The heater bias in force and its tap of this service toward the calibration's value (R258). -/
def State.biasTap (s : State) (g : RingId) : Int :=
  let b : Int := s.fld (ringAddr g) F.rplModBias
  tapToward b (s.calVal 1 (ringItem g).1 (ringItem g).2) - b
/-- A service of a ring (R250, R258): the loop's step and the bias tap together, the dither and the trim. A code that reaches a limit while the loop drives
it outward is exhausted (R254). -/
def State.serve (s : State) (g : RingId) (quantity trim : Int) (cyc : Nat) : State :=
  let h := s.ring (ringAddr g)
  let step := loopStep h.gain (s.loopError g quantity)
  let dither := s.ditherOf g
  let trim := s.trimOf g trim
  let tap := s.biasTap g
  let code := clampCode ((s.heater g : Int) - h.dither - h.trim + step + tap + dither + trim)
  let run := if -2 ≤ step ∧ step ≤ 2 then h.smallRun + 1 else 0
  let st := s.ringState g
  let locked := st = 2 ∨ st = 3 ∨ 8 ≤ run
  let s := s.putF (ringAddr g) F.rplModBias (clampCode ((s.fld (ringAddr g) F.rplModBias : Int) + tap))
  let s := if locked then s.putF (ringAddr g) F.rplModState (lockedCode code) else s
  let s := (s.setRing (ringAddr g) { h with smallRun := run, rotation := h.rotation + 1, dither := dither, trim := trim, last := some quantity, nextAt := s.now + 10000 }).setCode g code cyc
  if (code = 0 ∧ step < 0) ∨ (code = 16383 ∧ 0 < step) then s.exhaust g else s
/-- The taps of one 100 GHz spacing (0.80 nm) by a ring's own tuning efficiency (R246, R252). -/
def State.spacing (s : State) (g : RingId) : Nat :=
  let v := s.calVal 8 (ringItem g).1 (ringItem g).2
  if v = 0 then Config.tuning (ringAddr g) else v.toNat
/-- A wrong-wavelength step of a ring-plane ring (R252): one spacing, up if the channel heard is higher; a step out of range, or a fourth hop since the ring
last heard its own channel, parks it. -/
def State.hopRing (s : State) (g : RingId) (up : Bool) (cyc : Nat) : State :=
  let h := s.ring (ringAddr g)
  let code : Int := if up then s.heater g + s.spacing g else s.heater g - s.spacing g
  if code < 0 ∨ 16383 < code ∨ 3 ≤ h.hopRun then s.park g
  else
    let s := (s.putF (ringAddr g) F.rplModState 4).bump (ringAddr g) F.rplModHops 1
    ((s.bump Reg.onxLockCounts F.onxLockCountsHops 1).setRing (ringAddr g) { h with smallRun := 0, hopRun := h.hopRun + 1 }).setCode g code.toNat cyc
/-- The channel that wavelength k of a ring-plane source travels on (R213). -/
def ringChannel (r k : Nat) : Nat := 2 * r + 1 + k % 2
/-- A receiver forgets what it heard of a wavelength of a source. -/
def State.unhear (s : State) (src rx k : Nat) : State :=
  let h := s.rx (.ring src) rx
  if h.mismatch.any fun x => decide (x.1 / 64 = k) then s.setRx (.ring src) rx { h with mismatch := h.mismatch.filter fun x => decide (x.1 / 64 ≠ k) } else s
/-- The wrong channel that a drop ring's receiver has heard for a rotation in which too few other receivers heard it for the modulator to be at fault
(R252). -/
def State.misheard (s : State) : RingId → Option Nat
  | .ringDrop r t i => ((s.rx (.ring (chanSrc r i)) r).mismatch.find? fun x => decide (x.1 / 64 = 2 * t + i % 2 ∧ 0 < x.2 ∧ x.2 + 10000 ≤ s.now)).map fun x => x.1 % 64
  | _ => none
/-- A drop ring steps toward its channel (R252). -/
def State.hopDrop (s : State) (r t i m cyc : Nat) : State :=
  (s.unhear (chanSrc r i) r (2 * t + i % 2)).hopRing (.ringDrop r t i) (decide (ringChannel (chanSrc r i) (i % 2) < m)) cyc
/-- RING_SERVICE (R250, R252, R254): once per rotation of 10 µs. A wrong-wavelength step that is due comes first (R256). Parked, fenced and unserved rings,
and those that an acquisition holds, stay as they are. `photo` and `ref` are the photocurrents since the last service, in one unit, `trim` is the trim at
which a demux ring's eye is highest, in taps from the maximum (R249). -/
def execRingService (t : At) (ring : RingId) (photo ref : Nat) (trim : Int) (s : State) : Result :=
  if ring.ok then
    let s := s.at t
    if s.dead then .next s else
    let st := s.ringState ring
    let h := s.ring (ringAddr ring)
    if 1 ≤ st ∧ st ≤ 4 ∧ h.again = false ∧ h.nextAt ≤ s.now then
      .next (match ring, (if st = 2 ∨ st = 3 then s.misheard ring else none) with
        | .ringDrop r k i, some m => (s.hopDrop r k i m t.cyc).failCasts t.cyc
        | g, _ => s.serve g (s.loopQuantity g photo ref) trim t.cyc)
    else .next s
  else .fault .noSuchUnit
/-- REACQUIRE_RETRY: an acquisition after headroom exhaustion, from the code at which the ring stopped; three that fail park the ring (R254). -/
def execReacquireRetry (t : At) (ring : RingId) (sight : LockSight) (s : State) : Result :=
  if ring.ok then
    let s := s.at t
    if s.dead then .next s else
    let h := s.ring (ringAddr ring)
    if s.ringState ring = 1 ∧ h.again = true ∧ h.retryAt ≤ s.now then
      let s := (s.bump (ringAddr ring) F.rplModReacquisitions 1).bump Reg.onxLockCounts F.onxLockCountsReacquisitions 1
      match lockFound sight h.start.toNat with
      | some c => .next (s.lockAt ring c t.cyc)
      | none =>
        let s := s.setRing (ringAddr ring) { h with tries := h.tries + 1, retryAt := s.now + 1000000 }
        .next (if h.tries + 1 = 3 then (s.park ring).failCasts t.cyc else s)
    else .next s
  else .fault .noSuchUnit
/-- The rings of a tile (R245). -/
def tileRingIds (n : Nat) : List RingId :=
  ((tileRings n).map fun r => ((List.range 8).map fun t => (List.range 2).map fun q => RingId.ringMod r t q).flatten ++
      ((List.range 8).map fun t => (List.range 40).map fun i => RingId.ringDrop r t i).flatten).flatten ++
    ((tileLats n).map fun e => ((List.range 32).map fun j => ((List.range 16).map fun k => RingId.latMod j e k) ++ (List.range 16).map fun k => RingId.latDmx j e k).flatten).flatten
/-- The source of a tile's start values in ONX_CAL_STATUS: 3 while it has none (R260, R268). -/
def State.calSource (s : State) (tile : Nat) : Nat := s.fld Reg.onxCalStatus ⟨16 * tile + 15, 16 * tile + 14⟩
/-- The ring is a modulator. -/
def isMod : RingId → Bool
  | .ringMod .. | .latMod .. => true
  | _ => false
/-- Every modulator of the package has been acquired, parked or fenced (R251). -/
def State.modsDone (s : State) : Bool :=
  ((List.range 21).all fun r => (List.range 16).all fun k => decide (2 ≤ s.ringState (.ringMod r (k / 2) (k % 2)))) &&
    (List.range 32).all fun j => (List.range 20).all fun e => (List.range 16).all fun k => decide (2 ≤ s.ringState (.latMod j e k))
/-- A ring that BRINGUP, or the enable of its tile (R434), may acquire now (R251, R260, R272): after the laser check and with start values, modulators first. -/
def State.acquirable (s : State) (g : RingId) : Bool :=
  (decide (s.dev = .bringup) || s.starting (12 + (ringItem g).1)) && s.start.laserDone && decide (s.calSource (ringItem g).1 ≠ 3) && decide (s.ringState g < 2) && (isMod g || s.modsDone)
/-- RING_ACQUISITION: from the start value, then within 2,048 taps of it, then over the full range; else the ring is parked (R251). -/
def execRingAcquisition (t : At) (ring : RingId) (sight : LockSight) (s : State) : Result :=
  if ring.ok then
    let s := s.at t
    if s.dead || !s.acquirable ring then .next s
    else
      let start := clampCode (s.calVal 1 (ringItem ring).1 (ringItem ring).2)
      let s := (s.putF (ringAddr ring) F.rplModState 1).putF (ringAddr ring) F.rplModBias start
      let s := s.setRing (ringAddr ring) { start := start, gain := (s.calVal 7 (ringItem ring).1 (ringItem ring).2).toNat }
      .next (match lockFound sight start with
        | some c => s.lockAt ring c t.cyc
        | none => s.park ring)
  else .fault .noSuchUnit

/-! Weights (R219, R221, R259). -/

/-- Move a weight toward its target by at most a number of units. -/
def stepWeight (now target most : Nat) : Nat := if now ≤ target then min target (now + most) else max target (now - most)
/-- The receivers of a source whose applied weights have not reached their targets on a channel of a trunk. -/
def State.pendingWeights (s : State) (src tr q : Nat) : List Nat :=
  ((List.range 21).filter (· ≠ src)).filter fun r =>
    let a := Reg.rplWgt r tr (chanIx r src q)
    decide (s.fld a F.rplWgtApplied ≠ s.fld a F.rplWgtTarget)
/-- One step of 10 µs of one channel of a source: fenced receivers go to 0 first, then the nearest receiver ahead steps (R259). -/
def State.weightStep (s : State) (src tr q : Nat) : State :=
  let l := s.pendingWeights src tr q
  let move (s : State) (r most : Nat) : State :=
    let a := Reg.rplWgt r tr (chanIx r src q)
    s.putF a F.rplWgtApplied (stepWeight (s.fld a F.rplWgtApplied) (s.fld a F.rplWgtTarget) most)
  let down := l.filter s.ringFenced
  if down ≠ [] then down.foldl (fun s r => move s r 10240) s
  else match l.getLast? with
    | some r => move s r 512
    | none => s
/-- Every applied weight has reached its target. -/
def State.balanced (s : State) : Bool :=
  (List.range 21).all fun src => (List.range 8).all fun tr => (List.range 2).all fun q => (s.pendingWeights src tr q).isEmpty
/-- WEIGHT_STEP (R259). -/
def execWeightStep (t : At) (src : Nat) (s : State) : Result :=
  if src < Config.rings then
    let s := s.at t
    if s.dead then .next s else
    let s := (List.range 8).foldl (fun s tr => (List.range 2).foldl (fun s q => s.weightStep src tr q) s) s
    if s.flag (Reg.rplRebal 0) F.rplRebalInProgress && s.balanced then
      .next ((List.range 4).foldl (fun s n => (s.putB (Reg.rplRebal n) F.rplRebalInProgress false).bump (Reg.rplRebal n) F.rplRebalRebalances 1) s)
    else .next s
  else .fault .noSuchUnit

/-! Calibration (R257 to R263). Item classes 1 to 5 are those of R263; 6 is a ring-plane
modulator's bias fraction, 7 a loop gain, 8 a ring's taps per 100 GHz (R246), 9 a lattice modulator's bias fraction (R249; DESIGN CHOICE, assumption 107). -/

/-- Deskew items lie in FLR_DSK: their register and field (R276 in the tables of R285). -/
def deskewAt (tile index : Nat) : Nat × Fld :=
  let w := index % 268
  let d := index / 268 % 2
  let g := index / 536 % 64
  (Reg.flrDsk tile (index / 34304) g d (w / 8), ⟨8 * (w % 8) + 5, 8 * (w % 8)⟩)
/-- A calibration value in force. -/
def State.item (s : State) (cls tile index : Nat) : Int :=
  if cls = 4 then (s.fld (deskewAt tile index).1 (deskewAt tile index).2 : Int) else s.calVal cls tile index
/-- The range of an item (R246, R257). -/
def itemRange (cls : Nat) : Int × Int :=
  match cls with
  | 1 => (0, 16383) | 3 => (-64, 63) | 4 => (0, 63) | 5 => (0, 255) | 6 | 9 => (0, 256) | 7 | 8 => (0, 65535) | _ => (-32768, 32767)
/-- A value within its item's range. -/
def clampItem (cls : Nat) (v : Int) : Int := max (itemRange cls).1 (min (itemRange cls).2 v)
/-- Write a deskew tap. -/
def State.setTap (s : State) (tile index : Nat) (v : Int) : State := s.putF (deskewAt tile index).1 (deskewAt tile index).2 (clampItem 4 v).toNat
/-- Write a calibration value: all at once before the loop that uses it starts, else as the target that a D2D group's taps or a locked ring's bias step toward
(R258). -/
def State.setItem (s : State) (cls tile index : Nat) (v : Int) : State :=
  if cls = 4 then
    if s.fld (grpReg (3 * tile + index / 34304) (index / 536 % 64)) F.flrGrpState = 2 then
      { s with deskews := assocSet s.deskews (tile * 102912 + index) ((clampItem 4 v).toNat + 1) }
    else s.setTap tile index v
  else s.setCal cls tile index (clampItem cls v)
/-- The number of a tile's items of a class (R245, R257). -/
def itemCount (tile cls : Nat) : Nat :=
  let n := (tileRings tile).length
  match cls with
  | 1 | 7 | 8 => 336 * n + 5120
  | 9 => 2560
  | 6 => 16 * n
  | 2 => 6080
  | 3 => 320 * n + 2560 + 128
  | 4 => 102912
  | 5 => 180
  | _ => 0
/-- The items of a set's body in order (R257, R262): class and index. The items of classes 8 and 9, for which R257 gives no place, follow (DESIGN CHOICE,
assumption 107). -/
def bodyItems (tile : Nat) : List (Nat × Nat) :=
  ((List.range (itemCount tile 1)).map fun i => [(1, i), (7, i)]).flatten ++
    ([6, 2, 3, 4, 5, 8, 9].map fun c => (List.range (itemCount tile c)).map fun i => (c, i)).flatten
/-- A calibration slot's number in the area: 12 for each tile, two for each of five points and two anchors (R262). -/
def slotNum (tile point half : Nat) : Nat := 12 * tile + 2 * point + half
/-- A calibration slot's bytes. -/
def State.slot (s : State) (n : Nat) : List Byte := Sparse.get (fun _ => []) s.store.cal n
/-- A slot is valid (R262). -/
def State.slotValid (s : State) (tile point : Nat) (b : List Byte) : Bool :=
  let len := fieldAt b 0x1C 4
  decide (64 ≤ b.length) && decide (fieldAt b 0 4 = 0xCA1B0001) && decide (fieldAt b 4 1 = (if point = 5 then 1 else 0)) &&
    decide (fieldAt b 5 1 = tile) && decide (fieldAt b 6 1 = (if point = 5 then 0xFF else point)) &&
    decide (fieldAt b 0x10 8 = s.fuses.serial.toNat) && decide (fieldAt b 0x20 2 = steppingNum s.fuses.stepping) &&
    decide (fieldAt b 0x3C 4 = crc32c (b.take 60 ++ (b.drop 64).take len))
/-- The valid slot of a tile and point with the higher sequence (R262). -/
def State.keptSlot (s : State) (tile point : Nat) : Option (List Byte) :=
  match ((List.range 2).map fun h => s.slot (slotNum tile point h)).filter (s.slotValid tile point) with
  | [a] => some a
  | [a, b] => some (if fieldAt a 8 8 < fieldAt b 8 8 then b else a)
  | _ => none
/-- The stored temperature of a slot, in 0.01 °C. -/
def slotTemp (b : List Byte) : Int := signed 32 (fieldAt b 0x18 4)
/-- The stored value of item n of a slot's body. -/
def slotValue (b : List Byte) (n : Nat) : Int := signed 16 (fieldAt b (64 + 2 * n) 2)
/-- A tile's temperature: the mean of its diodes that are valid, in 0.01 °C (R261, R425). -/
def State.tileTemp (s : State) (tile : Nat) : Int :=
  let l := ((List.range 8).map fun d => s.rd (Reg.onxHk (192 + 8 * tile + d))).filter fun w => F.onxHkValid.bit w && !F.onxHkExcluded.bit w
  if l = [] then 0 else (l.foldl (fun (a : Int) w => a + signed 16 (F.onxHkValue.get w)) 0) * 100 / (16 * (l.length : Int))
/-- The sequence of the next slot write of the package (R262). -/
def State.slotSeq (s : State) : Nat := ((s.store.cal.map fun x => fieldAt x.2 8 8).foldl max 0) + 1
/-- The element of an item is out: a parked ring, or an element that is fenced (R262). -/
def State.itemOut (s : State) (tile cls i : Nat) : Bool :=
  let n := (tileRings tile).length
  let gone (g : RingId) : Bool := decide (5 ≤ s.ringState g)
  match cls with
  | 1 | 6 | 7 | 8 => gone (itemRing tile i)
  | 9 => gone (itemRing tile (336 * n + i))
  | 2 => decide (s.fld (laneReg (8 * tile + i / 760)) F.lplLaneState = 6)
  | 3 => if i < 320 * n then gone (itemRing tile (16 * n + i)) else if i < 320 * n + 2560 then gone (itemRing tile (16 * n + 2560 + i))
    else decide (3 ≤ s.fld (Reg.fibStatus tile ((i - 320 * n - 2560) / 16)) F.fibStatusState)
  | 4 => decide (3 ≤ s.fld (grpReg (3 * tile + i / 34304) (i / 536 % 64)) F.flrGrpState)
  | _ => false
/-- The value of an item in force: a locked ring's bias is the one that its loop uses (R258, R262). -/
def State.inForce (s : State) (tile cls i : Nat) : Int :=
  let g := itemRing tile i
  if cls = 1 ∧ 1 ≤ s.ringState g ∧ s.ringState g ≤ 4 then s.fld (ringAddr g) F.rplModBias else s.item cls tile i
/-- Write a set of the values in force to the older slot of a tile and point; the items of parked rings and fenced elements keep the values of the set
replaced (R262). -/
def State.writeSlot (s : State) (tile point : Nat) : State :=
  let a := s.slot (slotNum tile point 0)
  let b := s.slot (slotNum tile point 1)
  let half := if !s.slotValid tile point a then 0 else if !s.slotValid tile point b then 1 else if fieldAt a 8 8 < fieldAt b 8 8 then 0 else 1
  let old := s.slot (slotNum tile point half)
  let keep := s.slotValid tile point old
  let value (x : (Nat × Nat) × Nat) : Int := if keep && s.itemOut tile x.1.1 x.1.2 then slotValue old x.2 else s.inForce tile x.1.1 x.1.2
  let body := ((bodyItems tile).zipIdx.map fun x => bytesOf (unsigned 16 (value x)) 2).flatten
  let head := bytesOf 0xCA1B0001 4 ++ bytesOf (if point = 5 then 1 else 0) 1 ++ bytesOf tile 1 ++ bytesOf (if point = 5 then 0xFF else point) 1 ++ bytesOf 0 1 ++
    bytesOf s.slotSeq 8 ++ bytesOf s.fuses.serial.toNat 8 ++ bytesOf (unsigned 32 (s.tileTemp tile)) 4 ++ bytesOf body.length 4 ++
    bytesOf (steppingNum s.fuses.stepping) 2 ++ bytesOf 0 26
  { s with store := { s.store with cal := Sparse.set (fun _ => []) s.store.cal (slotNum tile point half) (head ++ bytesOf (crc32c (head ++ body)) 4 ++ body) } }
/-- The nominal temperature of a point, in 0.01 °C (R260). -/
def pointTemp (p : Nat) : Int := 2500 + 2000 * (p : Int)
/-- Write the kept sets of the points within 5 °C of a tile's temperature (R262). -/
def State.writeKept (s : State) (tile : Nat) : State :=
  (List.range 5).foldl (fun s p => if (s.tileTemp tile - pointTemp p).natAbs ≤ 500 then s.writeSlot tile p else s) s
/-- Divide, rounding to the nearest, halves away from zero (R261). -/
def divRound (a b : Int) : Int := let q := (2 * a.natAbs + b.natAbs) / (2 * b.natAbs); if (a < 0) = (b < 0) then (q : Int) else -(q : Int)
/-- The value of an item from sets by temperature (R261): one set and its bias rule, or the line through two. -/
def interpolate (cls n : Nat) (temp : Int) : List (List Byte) → Int
  | [] => 0
  | [p] => clampItem cls (if cls = 1 then divRound (100 * slotValue p n - 82 * (temp - slotTemp p)) 100 else slotValue p n)
  | [lo, hi] => clampItem cls (line lo hi)
  | lo :: hi :: r => if temp ≤ slotTemp hi then clampItem cls (line lo hi) else interpolate cls n temp (hi :: r)
where
  /-- The line through two sets at the temperature. -/
  line (lo hi : List Byte) : Int :=
    let d := slotTemp hi - slotTemp lo
    if d = 0 then slotValue lo n
    else divRound (slotValue lo n * d + (slotValue hi n - slotValue lo n) * (temp - slotTemp lo)) d
/-- Put sets in increasing stored temperature. -/
def byTemp (b : List Byte) : List (List Byte) → List (List Byte)
  | [] => [b]
  | x :: r => if slotTemp b ≤ slotTemp x then b :: x :: r else x :: byTemp b r
/-- The source and temperature field of a tile in ONX_CAL_STATUS (R268). -/
def calField (tile : Nat) (source : Bool) : Fld := if source then ⟨16 * tile + 15, 16 * tile + 14⟩ else ⟨16 * tile + 11, 16 * tile⟩
/-- Note the source of a tile's start values. -/
def State.noteSource (s : State) (tile source : Nat) : State :=
  (s.putF Reg.onxCalStatus (calField tile true) source).putF Reg.onxCalStatus (calField tile false) (unsigned 12 (s.tileTemp tile / 10))
/-- Take every item of a tile from sets. -/
def State.loadSets (s : State) (tile : Nat) (sets : List (List Byte)) : State :=
  let temp := s.tileTemp tile
  ((bodyItems tile).zipIdx).foldl (fun s x => s.setItem x.1.1 tile x.1.2 (interpolate x.1.1 x.2 temp sets)) s
/-- CALIBRATION_SOURCE_CHOICE: kept sets, else the anchor set, else none yet: a cold calibration is due, and no_cold ends the start (R260, R264). -/
def State.chooseCal (s : State) (tile : Nat) : State :=
  let kept := (List.range 5).filterMap (s.keptSlot tile)
  let cold (s : State) : State := if s.flag Reg.onxLightPolicy F.onxLightPolicyNoCold then (if s.dev = .bringup then s.startFail 8 else s) else s.noteSource tile 3
  if s.flag Reg.onxLightPolicy F.onxLightPolicyForceCold then cold s
  else if kept ≠ [] then (s.loadSets tile (kept.foldl (fun l b => byTemp b l) [])).noteSource tile 0
  else match s.keptSlot tile 5 with
    | some b => (s.loadSets tile [b]).noteSource tile 1
    | none => cold s
/-- KEPT_SET_PERIODIC_WRITE (R262). -/
def execKeptSetPeriodicWrite (t : At) (tile : Nat) (s : State) : Result :=
  if tile < Config.tiles then
    let s := s.at t
    if s.dead then .next s else
    .next (if s.dev = .run then s.writeKept tile else s)
  else .fault .noSuchUnit
/-- An item's place among those that adapt, and the tick before which it takes no further tap (R258). -/
def adaptKey (cls tile index : Nat) : Nat := (cls * 4 + tile) * 2 ^ 32 + index
/-- An adapted item may take a tap; it takes no other for 10 µs (R258). -/
def State.tapDue (s : State) (cls tile index : Nat) : Bool := decide (assoc s.adapts (adaptKey cls tile index) ≤ s.now)
/-- Note a tap. -/
def State.tapped (s : State) (cls tile index : Nat) : State := { s with adapts := assocSet s.adapts (adaptKey cls tile index) (s.now + 10000) }
/-- CALIBRATION_ADAPTATION: a running loop's value steps by one tap in 10 µs toward its target (R257, R258). -/
def execCalibrationAdaptation (t : At) (item : AdaptItem) (target : Int) (s : State) : Result :=
  if item.ok then
    let s := s.at t
    if s.dead then .next s else
    match item with
    | .threshold n i => .next (if s.tapDue 3 n i then (s.setItem 3 n i (tapToward (s.item 3 n i) target)).tapped 3 n i else s)
    | .deskew tw g d w =>
      let i := ((tw % 3 * 64 + g) * 2 + d) * 268 + w
      let key := tw / 3 * 102912 + i
      let goal : Int := match assoc s.deskews key with
        | 0 => target
        | v + 1 => v
      let v := tapToward (s.item 4 (tw / 3) i) goal
      if s.tapDue 4 (tw / 3) i then
        let s := (s.setTap (tw / 3) i v).tapped 4 (tw / 3) i
        .next (if v = goal then { s with deskews := assocSet s.deskews key 0 } else s)
      else .next s
  else .fault .noSuchUnit

/-! The laser supply (R265, R269 to R272). -/

/-- The lines of an input (R269): channel numbers. -/
def inputLines (f : Nat) : List Nat := if f % 8 < 2 then (List.range 42).map (· + 1) else (List.range 16).map fun k => 2 * k + 1
/-- A laser line's calibration item in its tile (R257). -/
def lineItem (f c : Nat) : Nat := if f % 8 < 2 then 42 * (f % 8) + c - 1 else 84 + 16 * (f % 8 - 2) + (c - 1) / 2
/-- The largest power that the supply accepts for a line, in 0.1 dBm, as its MAX register read at the laser check (R271). -/
def State.lineMax (s : State) (f c : Nat) : Nat := s.start.maxes.getD (180 * (f / 8) + lineItem f c) 0
/-- The power of a line, in 0.1 dBm. -/
def State.line (s : State) (f c : Nat) : Int := s.calVal 5 (f / 8) (lineItem f c)
/-- The word that writes a line's power to the supply (R271). -/
def spiSet (f c : Nat) (v : Int) : BitVec 32 := BitVec.ofNat 32 ((0x0100 + 64 * f + (c - 1)) * 65536 + v.toNat % 65536)
/-- The word that reads a register of the supply (R271): its data comes with the next transaction. -/
def spiRead (a : Nat) : BitVec 32 := BitVec.ofNat 32 (2 ^ 31 + a * 65536)
/-- Write a line's power to the supply. -/
def State.spiLine (s : State) (f c : Nat) : State := s.emit (.spi (spiSet f c (s.line f c)))
/-- 10^(p / 100) in units of 2^−256: the power of a line of p tenths of a dBm. -/
def milliwatts (p : Nat) : Nat :=
  let v := p * 332192809488736 * 2 ^ 50 / 10 ^ 16
  exp2Frac (v % 2 ^ 50) 50 (2 ^ 257) (2 ^ 256) * 2 ^ (v / 2 ^ 50)
/-- 10 log10 of m × 2^−256 in hundredths, −32768 for 0. -/
def hundredthsDb (m : Nat) : Int :=
  if m = 0 then -32768
  else
    let k : Nat := m.log2
    let y : Nat := if k ≤ 320 then m * 2 ^ (320 - k) else m / 2 ^ (k - 320)
    (((k : Int) - 256) * ((2 ^ 60 : Nat) : Int) + ((log2Frac 60 y 0 : Nat) : Int)) * 301029995664 / ((2 ^ 60 * 10 ^ 9 : Nat) : Int)
/-- The total power of lines, in 0.01 dBm (R268). -/
def totalPower (l : List Nat) : Int := hundredthsDb ((l.map milliwatts).foldl (· + ·) 0)
/-- The transmitter number, within its tile, of an endpoint's lane (R269): its laser input. -/
def laneInput (e j : Nat) : Nat := 8 * latTile e + 2 + (32 * (tileLats (latTile e)).idxOf e + j) / 28
/-- The laser input of a fibre's transmitter. -/
def fibreInput (x : Nat) : Nat := 8 * (x / 8) + 2 + (160 + x % 8) / 28
/-- The laser lines of a link (R265): input and channel. -/
def linkLines : MarginLink → List (Nat × Nat)
  | .ring _ src _ => ((List.range 8).map fun t => [(8 * (t / 2) + t % 2, 2 * src + 1), (8 * (t / 2) + t % 2, 2 * src + 2)]).flatten
  | .lane j e _ => (inputLines (laneInput e j)).map fun c => (laneInput e j, c)
  | .fibre x => (inputLines (fibreInput x)).map fun c => (fibreInput x, c)
/-! The margin test and quality (R265 to R267). -/

/-- The margin that a measurement gives, in 0.01 dB: 10 log10(Q / 4.75) (R266). -/
def qualMargin (q : Quality) : Int := if q.noise = 0 then 2047 else max (-2048) (min 2047 (hundredthsDb (100 * q.swing * 2 ^ 256 / (475 * q.noise))))
/-- The pre-FEC symbol error ratio of a measurement, F32 (R266). -/
def qualSer (q : Quality) : Nat := if q.decoded = 0 then 0 else f32.roundMag (q.corrected * 2 ^ 64 / q.decoded) (-64) (decide (q.corrected * 2 ^ 64 % q.decoded ≠ 0))
/-- The margin of a link: the lowest of its wavelengths (R265). -/
def linkMargin (l : List Quality) : Int := if l = [] then -32768 else (l.map qualMargin).foldl min 2047
/-- Write a quality figure (R266, R267). -/
def qualWord (q : Quality) : Word :=
  F.rplQualSer.put (F.rplQualMargin.put (F.rplQualEyeHeight.put (F.rplQualEyeWidth.put 0 (min 1000 q.eyeWidth)) (min 1023 q.eyeHeight))
    (unsigned 12 (qualMargin q))) (qualSer q)
/-- The quality register of wavelength k of a link (R267); none for a source that is the receiver. -/
def qualAddr (k : Nat) : MarginLink → Option Nat
  | .ring r src _ => if r = src then none else some (Reg.rplQual r src k)
  | .lane j src r => if r = src then none else some (Reg.lplQual (j / 8) (j % 8) r k)
  | .fibre x => some (Reg.fibQual (x / 8) (x % 8) k)
/-- Write the quality of a wavelength. -/
def State.setQuality (s : State) (l : MarginLink) (k : Nat) (q : Quality) : State :=
  match qualAddr k l with
  | some a => s.wr a (qualWord q)
  | none => s
/-- QUALITY_MEASUREMENT (R266). -/
def execQualityMeasurement (t : At) (link : MarginLink) (k : Nat) (q : Quality) (s : State) : Result :=
  if link.ok ∧ k < 16 then .next ((s.at t).ifAwake fun s => s.setQuality link k q) else .fault .noSuchUnit
/-- The minimum field of a kind of link, and its number. -/
def marginField : MarginLink → Nat × Fld
  | .ring .. => (0, F.onxMarginSummaryRingMin)
  | .lane .. => (1, F.onxMarginSummaryLatticeMin)
  | .fibre _ => (2, F.onxMarginSummaryFibreMin)
/-- The lowest margin of its kind at this start (R268). -/
def State.noteMargin (s : State) (l : MarginLink) (m : Int) : State :=
  let (k, f) := marginField l
  let m := max (-32768) (min 32767 m)
  if s.start.tested.contains k then
    (if m < signed 16 (s.fld Reg.onxMarginSummary f) then s.putF Reg.onxMarginSummary f (unsigned 16 m) else s)
  else { s with start := { s.start with tested := k :: s.start.tested } }.putF Reg.onxMarginSummary f (unsigned 16 m)
/-- Measure, and raise the link's lines by 1.0 dB while the margin is short and each stays within its maximum (R265): what the last measurement gave. -/
def State.raiseLines (s : State) (l : MarginLink) : Nat → List Quality → List (List Quality) → List Quality × State
  | 0, q, _ => (q, s)
  | n + 1, q, rest =>
    if 300 ≤ linkMargin q ∨ !((linkLines l).all fun x => decide (s.line x.1 x.2 + 10 ≤ s.lineMax x.1 x.2)) then (q, s)
    else
      let s := (linkLines l).foldl (fun s x => (s.setCal 5 (x.1 / 8) (lineItem x.1 x.2) (s.line x.1 x.2 + 10)).spiLine x.1 x.2) s
      match rest with
      | [] => (q, s)
      | q2 :: r => s.raiseLines l n q2 r
/-- The number of a link in a log record: ring source, fibre, lane (R439). -/
def marginNum : MarginLink → Nat
  | .ring _ src _ => src
  | .fibre x => x
  | .lane j _ _ => j
/-- The outcome of a link whose margin fails (R265). -/
def State.marginFail (s : State) (l : MarginLink) : State :=
  let s := s.bump Reg.onxMarginSummary F.onxMarginSummaryFailed 1
  match l with
  | .ring _ src k => s.failWave src k
  | .lane j _ _ => if s.fld (laneReg j) F.lplLaneState = 6 then s else s.fenceLane j 4
  | .fibre x => if 3 ≤ s.fld (Reg.fibStatus (x / 8) (x % 8)) F.fibStatusState then s else s.fenceFibre x 4
/-- The rings of a link: of a ring-plane wavelength its modulator and its drop ring, of a lane the two banks (R265). -/
def linkRings : MarginLink → List RingId
  | .ring r src k => if r = src then [] else [.ringMod src (k / 2) (k % 2), .ringDrop r (k / 2) (chanIx r src (k % 2))]
  | .lane j src r => ((List.range 16).map fun k => RingId.latMod j src k) ++ (List.range 16).map fun k => RingId.latDmx j r k
  | .fibre _ => []
/-- The internal part of the margin test has ended (R265, R411): ring-plane wavelengths have been tested, and lanes unless every lane is fenced. -/
def State.internalDone (s : State) : Bool :=
  s.start.tested.contains 0 && (s.start.tested.contains 1 || (List.range 32).all fun j => decide (s.fld (laneReg j) F.lplLaneState = 6))
/-- The tile whose enable tests a link (R434): its receiver's, or its transmitter's. -/
def State.linkStarts (s : State) : MarginLink → Bool
  | .ring r src _ => s.starting (12 + ringTile r) || s.starting (12 + ringTile src)
  | .lane _ src r => s.starting (12 + latTile r) || s.starting (12 + latTile src)
  | .fibre x => s.starting (32 + x / 8)
/-- A fibre that the image uses and the fence map does not list. -/
def State.fibreUsed (s : State) (x : Nat) : Bool := s.flag (Reg.fibCtrl (x / 8) (x % 8)) F.fibCtrlEnable && !s.mapped 5 x
/-- The state code of a fibre (R244). -/
def State.fibreState (s : State) (x : Nat) : Nat := s.fld (Reg.fibStatus (x / 8) (x % 8)) F.fibStatusState
/-- The fibres that are to be trained and have not been. -/
def State.untrained (s : State) : List Nat := (List.range 32).filter fun x => s.fibreUsed x && decide (s.fibreState x < 2)
/-- A fibre may train: in BRINGUP, or while its endpoint is enabled (R434). -/
def State.fibreStarts (s : State) (x : Nat) : Bool := decide (s.dev = .bringup) || s.starting (32 + x / 8)
/-- A link may be tested (R265): after the lock of its rings, between endpoints and on lanes and fibres that are not fenced; fibres after the internal part. -/
def State.marginDue (s : State) (l : MarginLink) : Bool :=
  (decide (s.dev = .bringup) || s.linkStarts l) && ((linkRings l).all fun g => decide (2 ≤ s.ringState g)) && match l with
    | .ring r src _ => !s.ringFenced r && !s.ringFenced src && !s.start.tested.contains 2
    | .lane j _ _ => decide (s.fld (laneReg j) F.lplLaneState ≠ 6) && !s.start.tested.contains 2
    | .fibre x => decide (s.fld (Reg.fibStatus (x / 8) (x % 8)) F.fibStatusState < 3) && s.internalDone
/-- The rings of a link are locked (R265). -/
def State.ringsLocked (s : State) (l : MarginLink) : Bool := (linkRings l).all fun g => decide (s.ringState g = 2 ∨ s.ringState g = 3)
/-- MARGIN_TEST: the link's wavelengths as measured, `found` as the lines stand and `raised` after each raise; `locked` its receivers (R265). -/
def execMarginTest (t : At) (link : MarginLink) (found : List Quality) (locked : Bool) (raised : List (List Quality)) (s : State) : Result :=
  if link.ok then
    let s := s.at t
    if s.dead || !s.marginDue link then .next s
    else
      let locked := locked && s.ringsLocked link
      let (q, s) := s.raiseLines link 3 found raised
      let m := linkMargin q
      let first := match link with | .ring _ _ k => k | _ => 0
      let s := (q.zipIdx.take 16).foldl (fun s x => s.setQuality link (first + x.2) x.1) s
      let s := s.noteMargin link m
      let degraded := decide (50 ≤ m ∧ m < 150)
      let (v, s) := s.free
      let s := if m < 300 then s.log 0x0504 (srcUnit 12 0) [marginNum link, unsigned 64 m, v] else s
      let s := if degraded then s.bump Reg.onxMarginSummary F.onxMarginSummaryDegraded 1 else s
      .next (if !locked || decide (m < 50) || (degraded && s.flag Reg.onxLightPolicy F.onxLightPolicyDegradedAsFailed) then s.marginFail link else s)
  else .fault .noSuchUnit

/-! The laser check (R271, R272). -/

/-- The links that a laser input of lattice and fibre transmitters feeds (R269). -/
def inputLinks (f : Nat) : List MarginLink :=
  ((List.range 28).map fun i => 28 * (f % 8 - 2) + i).filterMap fun n =>
    if n < 160 then some (.lane (n % 32) ((tileLats (f / 8)).getD (n / 32) 0) 0) else if n < 168 then some (.fibre (8 * (f / 8) + n - 160)) else none
/-- The wavelengths that an input feeds fail (R272): those of two trunks, or of the transmitters of lanes and fibres. -/
def State.failInput (s : State) (f : Nat) : State :=
  let s := s.putB (Reg.onxLaserP f) F.onxLaserPFailed true
  let s := s.log 0x0505 (srcUnit (12 + f / 8) f) [f, s.fld (Reg.onxLaserP f) F.onxLaserPMeasured, s.fld (Reg.onxLaserP f) F.onxLaserPExpected]
  if f % 8 < 2 then
    let tr := 2 * (f / 8) + f % 8
    (List.range 21).foldl (fun s r => (s.failWave r (2 * tr)).failWave r (2 * tr + 1)) s
  else
    let out (s : State) (l : MarginLink) : Bool := match l with
      | .fibre x => decide (3 ≤ s.fld (Reg.fibStatus (x / 8) (x % 8)) F.fibStatusState)
      | l => decide (s.fld (laneReg (marginNum l)) F.lplLaneState = 6)
    (inputLinks f).foldl (fun s l => if out s l then s else s.marginFail l) s
/-- What the device reads of the supply: ID, STATUS until it is ready, and then MAX of every line (R271, R272). -/
def supplyReads (status : List Nat) : List (BitVec 32) :=
  spiRead 0 :: status.map (fun _ => spiRead 1) ++
    if status.any fun x => bit x 0 then ((List.range 32).map fun f => (inputLines f).map fun c => spiRead (0x1100 + 64 * f + (c - 1))).flatten else []
/-- LASER_CHECK: `measured` is the power that each input's monitor reads, in 0.01 dBm (R272). -/
def execLaserCheck (t : At) (sight : LaserSight) (measured : List Int) (s : State) : Result :=
  let s := s.at t
  if s.dead then .next s else
  if s.dev ≠ .bringup then .next s
  else
    let ready := sight.status.any fun x => bit x 0
    let s := ({ s with pins := { s.pins with laserEnN := false }, start := { s.start with laserDone := true, tested := [], maxes := sight.maxes } }).phaseTo 7
    let s := (supplyReads sight.status).foldl (fun s w => s.emit (.spi w)) s
    let s := if ready then (List.range 32).foldl (fun s f => (inputLines f).foldl (fun s c => s.spiLine f c) s) s else s
    .next ((List.range 32).foldl (fun s f =>
      let want := totalPower ((inputLines f).map fun c => (s.line f c).toNat)
      let got := measured.getD f (-32768)
      let s := (s.putF (Reg.onxLaserP f) F.onxLaserPExpected (unsigned 16 want)).putF (Reg.onxLaserP f) F.onxLaserPMeasured (unsigned 16 got)
      if s.dev ≠ .bringup then s
      else if ready && decide ((want - got).natAbs ≤ 300) then s.putB (Reg.onxLaserP f) F.onxLaserPFailed false else s.failInput f) s)

end Sys2Proof.Machine
end

