-- ==== Sys2Proof/Machine/Optical.lean ====
section
/-! DEFINITION. Optical links: decoding and sequencing of flits (R208 to R215), link control (R212, R214), timeouts and failures (R216), credit
(R217), intake and forwarding of packets (R220, R334), wrong wavelengths (R252). -/

namespace Sys2Proof.Machine

/-! Links. -/

/-- The endpoint or fibre whose registers count a link's receptions. -/
def rxErrReg : Link → Nat → Nat
  | .ring _, r => Reg.rplRxErr r
  | .fibreIn x, _ => Reg.fibErr (x / 8) (x % 8)
  | .fibreOut x, _ => Reg.fibErr (x / 8) (x % 8)
  | .lane _ _, e => Reg.rplRxErr (ringOfLat e)
/-- The outputs that a lane connects to a source (R229). -/
def State.laneOuts (s : State) (e j : Nat) : List Nat := (List.range 20).filter fun i => decide (s.laneSrc j i = e)
/-- The receivers that must acknowledge a link's flits: those neither fenced nor failed (R215, R216). -/
def State.ackers (s : State) (l : Link) : List Nat :=
  let all := match l with
    | .ring r => s.receivers r
    | .lane e j => (s.laneOuts e j).filter fun i => decide (i ∉ (s.lattice (j / 8)).removed)
    | _ => [0]
  all.filter fun r => decide (r ∉ (s.tx l).failed)
/-- A flit is uncorrectable: a codeword with more than four symbols in error, or a CRC that does not match (R210, R211). -/
def badFlit (f : Flit) (sight : FlitSight) : Bool := sight.symErrors.any (fun n => decide (rsCorrects < n)) || decide (f.crc ≠ flitCrc f)
/-- Count a flit that cannot be used: uncorrectable, or a header of a reserved class with its data flits (R242, R244, R326). -/
def State.countBad (s : State) (l : Link) (r : Nat) : State :=
  match l with
  | .fibreIn x | .fibreOut x => (s.bump (Reg.fibErr (x / 8) (x % 8)) F.fibErrUncorrectable 1).pmcRing (fibreRing (x / 8)) 0x207 1
  | .lane _ _ => (s.bump (rxErrReg l r) F.rplRxErrUncorrectable 1).pmcRing (ringOfLat r) 0x207 1
  | _ => (s.bump (rxErrReg l r) F.rplRxErrUncorrectable 1).pmcRing r 0x207 1
/-- Count corrected codewords and an uncorrectable flit (R242, R244). -/
def State.countFlit (s : State) (l : Link) (r : Nat) (f : Flit) (sight : FlitSight) : State :=
  let c := (sight.symErrors.filter fun n => decide (1 ≤ n ∧ n ≤ rsCorrects)).length
  let s := match l with
    | .fibreIn _ | .fibreOut _ => s
    | _ => s.bump (rxErrReg l r) F.rplRxErrCorrected c
  if badFlit f sight then s.countBad l r else s

/-! Wrong wavelengths (R213, R252). -/

/-- A receiver whose drop ring is locked misreads wavelength k of a source as channel m: half of the receivers agreeing within a rotation step the modulator;
a receiver alone for a whole rotation steps its own drop ring, here or at the ring's next service (R252; DESIGN CHOICE, assumption 109). -/
def State.misread (s : State) (r rx k m cyc : Nat) : State :=
  let key := 64 * k + m
  let l : Link := .ring r
  let drop (x : Nat) : RingId := .ringDrop x (k / 2) (chanIx x r (k % 2))
  let held (g : RingId) : Bool := decide (s.ringState g = 2 ∨ s.ringState g = 3)
  let was := assoc (s.rx l rx).mismatch key
  if !held (drop rx) then s
  else if was ≠ 0 ∧ was + 10000 ≤ s.now then s.hopDrop rx (k / 2) (chanIx rx r (k % 2)) m cyc
  else
    let s := if was = 0 then s.setRx l rx { s.rx l rx with mismatch := assocSet (s.rx l rx).mismatch key (s.now + 1) } else s
    let recent (x : Nat) : Bool := let v := assoc (s.rx l x).mismatch key; decide (0 < v ∧ s.now < v + 10000) && held (drop x)
    let all := s.receivers r
    let g : RingId := .ringMod r (k / 2) (k % 2)
    if all.length ≤ 2 * (all.filter recent).length ∧ held g = true then (all.foldl (fun s x => s.unhear r x k) s).hopRing g (decide (ringChannel r k < m)) cyc
    else s
/-- A receiver reads wavelength k's own channel: it forgets what it misheard, and the hops of the two rings end (R252). -/
def State.rightRead (s : State) (r rx k : Nat) : State :=
  let clear (s : State) (g : RingId) : State :=
    if (s.ring (ringAddr g)).hopRun ≠ 0 ∧ (s.ringState g = 2 ∨ s.ringState g = 3) then s.setRing (ringAddr g) { s.ring (ringAddr g) with hopRun := 0 } else s
  clear (clear (s.unhear r rx k) (.ringDrop rx (k / 2) (chanIx rx r (k % 2)))) (.ringMod r (k / 2) (k % 2))
/-- The channel numbers of an idle or training flit at a ring-plane receiver (R213, R252): each wavelength's as it was read, where its own codeword could
be decoded, whatever became of the flit. -/
def State.identify (s : State) (r rx : Nat) (f : Flit) (sight : FlitSight) (cyc : Nat) : State :=
  let whole := !badFlit f sight
  let read := (List.range 16).map fun k =>
    if rsCorrects < sight.symErrors.getD k 0 then 0
    else if sight.channels = [] then (if whole then (identChannels f).getD k 0 else 0) else sight.channels.getD k 0
  (read.zipIdx).foldl (fun s x => if x.1 = 0 then s else if x.1 = ringChannel r x.2 then s.rightRead r rx x.2 else s.misread r rx x.2 x.1 cyc) s

/-! Intake and forwarding (R220, R334). -/

/-- The route entry for a package in the bank of an epoch (R337): none for an epoch that no bank in use has. -/
def State.entryOfEpoch (s : State) (r d epoch : Nat) : Option Nat :=
  let c := Reg.fabRtCtrl
  if epoch = s.fld c F.fabRtCtrlCurEpoch then some (s.routeEntry r d)
  else if (s.flag c F.fabRtCtrlPrevLocked || decide (s.now = s.lockEnd)) && decide (epoch = s.prevEpoch) then some ((s.rd (Reg.fabRt r (1 - s.fld c F.fabRtCtrlCurrentBank) d)).toNat)
  else none
/-- A frame goes out from an endpoint toward an endpoint of this package: on an open lane that connects them, else on the ring plane (R231). -/
def State.frameTo (s : State) (e d : Nat) (f : Frame) : State :=
  match s.lanesTo e d with
  | [] =>
    let r := ringOfLat e
    let p := framePacket f
    s.fallback r e { p with epoch := f.epoch, hopDst := ringOfLat d, tokens := bits (s.routeEntry r p.dstPkg) 53 36 }
  | j :: _ => s.queueFrame e j { f with src := e, dst := d }
/-- A fibre endpoint forwards a lattice frame by the route entry of its epoch (R334, R337). -/
def State.forwardFrame (s : State) (n : Nat) (f : Frame) : State :=
  let r := fibreRing n
  let g := frameGoal f
  if g.1 = s.pkg then s.frameTo (16 + n) g.2 f
  else match s.entryOfEpoch r g.1 f.epoch with
    | none => (s.bump Reg.fabRtStat F.fabRtStatStaleDrops 1).refusePacket r (framePacket f) .pathFenced
    | some e =>
      match token (bits e 53 36) 0 with
      | some y =>
        if bit e 63 = false then (s.bump Reg.fabRtStat F.fabRtStatNoRoute 1).refusePacket r (framePacket f) .pathFenced
        else if !s.fibreUp y then (s.bump Reg.fabRtStat F.fabRtStatFencedDrops 1).refusePacket r (framePacket f) .pathFenced
        else if y / 8 = n then s.ontoFibre y 40 (asPacket f)
        else s.frameTo (16 + n) (16 + y / 8) f
      | none => (s.bump Reg.fabRtStat F.fabRtStatNoRoute 1).refusePacket r (framePacket f) .pathFenced
/-- A fibre endpoint forwards a packet that came in on a fibre: by its token, or to its final endpoint (R334). -/
def State.forward (s : State) (x : Nat) (p : Packet) : State :=
  let r := fibreRing (x / 8)
  match (if p.ptr ≤ 2 then token p.tokens p.ptr else none) with
  | some y =>
    if (y / 8 ≠ x / 8 ∧ s.ringFenced (fibreRing (y / 8))) ∨ !s.fibreUp y then (s.bump Reg.fabRtStat F.fabRtStatFencedDrops 1).refusePacket r p .pathFenced
    else if y / 8 = x / 8 then s.ontoFibre y 44 p
    else s.sendAt r (x % 8) { p with hopDst := fibreRing (y / 8) }
  | none =>
    if p.dstPkg ≠ s.pkg then s.refusePacket r p .pathFenced
    else if p.dstEp = r ∨ p.hopDst = 31 then s
    else if s.ringFenced p.dstEp then (s.bump Reg.fabRtStat F.fabRtStatFencedDrops 1).refusePacket r p .pathFenced
    else s.sendAt r (x % 8) { p with hopDst := p.dstEp }
/-- The core whose group a packet for a tower enters by (R335): the operation's, the flag's, or the vault's; another packet's is the tower's first (DESIGN
CHOICE, assumption 106). -/
def State.towerCore (s : State) (rx t : Nat) (p : Packet) : Nat :=
  if p.cls = 9 then ((s.op rx p.tag).map (·.core)).getD (256 * t)
  else if p.cls = 0xC then 256 * t + bits p.aux.toNat 19 8 % 256
  else match placeOf (localAddr p.addr) with
    | .vault c _ => if towerOf c = t ∧ p.cls = 8 then c else 256 * t
    | _ => 256 * t
/-- A packet for a tower waits for a D2D group, on a virtual channel (R23, R276, R335). -/
def State.overTower (s : State) (rx vc : Nat) (p : Packet) : State :=
  match ringTower rx with
  | none => s
  | some t =>
    let s := if p.cls = 9 then (match s.op rx p.tag with
      | some o => if o.done then s else s.setOp rx p.tag { o with back := some p }
      | none => s) else s
    s.overGroup (s.towerCore rx t p) .down vc p
/-- A whole packet is in: a fibre endpoint sends it on; at any other endpoint its command follows (DESIGN CHOICE, assumption 17). -/
def State.takeIn (s : State) (l : Link) (rx : Nat) (p : Packet) : State :=
  match l with
  | .fibreIn x => if p.cls < 4 then s.forwardFrame (x / 8) (asFrame p) else if p.cls = 0xA ∨ p.cls = 0xB then s else s.forward x p
  | .ring _ =>
    (match ringFibre rx with
     | some n =>
       if p.cls = 0xA ∨ p.cls = 0xB ∨ p.hopDst = 31 then s
       else (match token p.tokens p.ptr with
         | some y =>
           if y / 8 ≠ n then s
           else if s.fibreUp y then s.ontoFibre y 0 p
           else (s.bump Reg.fabRtStat F.fabRtStatFencedDrops 1).refusePacket rx p .pathFenced
         | none => s)
     | none => s.overTower rx 3 p)
  | _ => s
/-- Take flits out of buffers in their order of arrival: what leaves, by source, and what stays. -/
def leaveFlits : Nat → List (Nat × Nat) → List (Nat × Nat) × List (Nat × Nat)
  | _, [] => ([], [])
  | 0, l => ([], l)
  | n + 1, (src, k) :: r =>
    if k ≤ n + 1 then (let x := leaveFlits (n + 1 - k) r; ((src, k) :: x.1, x.2)) else ([(src, n + 1)], (src, k - (n + 1)) :: r)
termination_by structural _ l => l
/-- The flits before the first one of a source. -/
def flitsBefore (src : Nat) : List (Nat × Nat) → Nat
  | [] => 0
  | (x, k) :: r => if x = src then 0 else k + flitsBefore src r
/-- What a ring-plane receiver has taken in by now at its ingest limit of 512 GB/s, four flits in a slot of 17/32 tick: credit of the flits that left their
buffers is freed, and the ticks in which a source's buffer was full are counted (R217, R220, R242). -/
def State.ingestTo (s : State) (rx : Nat) : State :=
  let g := Sparse.get (fun _ => {}) s.ingests rx
  let n := (128 * s.now - g.upTo) / 17
  if g.waiting = [] ∨ n = 0 then s
  else
    let x := leaveFlits n g.waiting
    let full := (g.waiting.map (·.1)).eraseDups.filter fun src => decide (256 ≤ (s.rx (.ring src) rx).held)
    let till := full.foldl (fun m src => max m (g.upTo + 17 * (flitsBefore src g.waiting + 1))) g.upTo
    let s := if full = [] then s else 
      let ticks := min till (g.upTo + 17 * n) / 128 - g.upTo / 128
      (s.bump (Reg.rplRxIngest rx) F.rplRxIngestFullTicks ticks).pmcRing rx 0x212 ticks
    let s := { s with ingests := Sparse.set (fun _ => {}) s.ingests rx { waiting := x.2, upTo := if x.2 = [] then 128 * s.now else g.upTo + 17 * n } }
    x.1.foldl (fun s y => let h := s.rx (.ring y.1) rx; s.setRx (.ring y.1) rx { h with freed := h.freed + y.2, held := h.held - y.2 }) s
/-- A flit accepted at a receiver that takes it in: it occupies the source's buffer of a ring-plane receiver until the ingest limit lets it leave; elsewhere it
leaves at once (R217, R220). -/
def State.keepFlit (s : State) (l : Link) (rx : Nat) : State :=
  let h := s.rx l rx
  match l with
  | .ring src =>
    let g := Sparse.get (fun _ => {}) s.ingests rx
    let w := match g.waiting.getLast? with
      | some (x, k) => if x = src then g.waiting.dropLast ++ [(x, k + 1)] else g.waiting ++ [(src, 1)]
      | none => [(src, 1)]
    { s with ingests := Sparse.set (fun _ => {}) s.ingests rx { waiting := w, upTo := if g.waiting = [] then 128 * s.now else g.upTo } }.setRx l rx { h with held := h.held + 1 }
  | _ => s.setRx l rx { h with freed := h.freed + 1 }
/-- A header flit accepted in sequence starts a packet: taken in if it names the receiver, else skipped, without buffer and credit (R220). -/
def State.header (s : State) (l : Link) (rx : Nat) (f : Flit) : State :=
  match l with
  | .lane _ _ =>
    let n := bits f.body 462 456
    if reservedClass f.body then (s.setRx l rx { s.rx l rx with pkt := none, left := n, skip := true }).countBad l rx
    else if rx ∈ frameReceivers (bodyFrame f.body) then
      let s := s.keepFlit l rx
      s.setRx l rx { s.rx l rx with pkt := none, left := n, skip := false }
    else s.setRx l rx { s.rx l rx with pkt := none, left := n, skip := true }
  | _ =>
    let p := bodyAny f.body
    let named : Bool := match l with
      | .ring _ => (Packet.names p).contains rx
      | _ => true
    let n := bodyFlits f.body
    if reservedClass f.body then (s.setRx l rx { s.rx l rx with pkt := none, left := n, skip := true }).countBad l rx
    else if !named then (s.setRx l rx { s.rx l rx with pkt := none, left := n, skip := true }).pmcRing rx 0x205 1
    else
      let s := s.keepFlit l rx
      let s := s.setRx l rx { s.rx l rx with pkt := if n = 0 then none else some p, left := n, skip := false }
      let s := match l with
        | .fibreIn x => s.pmcRing (fibreRing (x / 8)) 0x211 1
        | _ => s.pmcRing rx 0x204 1
      if n = 0 then s.takeIn l rx p else s
/-- A data flit accepted in sequence joins its packet. -/
def State.dataFlit (s : State) (l : Link) (rx : Nat) (f : Flit) : State :=
  let h := s.rx l rx
  if h.skip then
    let s := s.setRx l rx { h with left := h.left - 1 }
    (match l with
     | .lane _ _ => s
     | _ => s.pmcRing rx 0x205 1)
  else
    let s := s.keepFlit l rx
    let h := { s.rx l rx with left := h.left - 1 }
    let s := match l with
      | .fibreIn x => s.pmcRing (fibreRing (x / 8)) 0x211 1
      | .lane _ _ => s.pmcRing (ringOfLat rx) 0x209 1
      | _ => s.pmcRing rx 0x204 1
    match h.pkt with
    | none => s.setRx l rx h
    | some p =>
      let p := { p with data := p.data ++ bytesOf f.body 64 }
      if h.left = 0 then (s.setRx l rx { h with pkt := none }).takeIn l rx p else s.setRx l rx { h with pkt := some p }
/-- A receiver hears a link's flits: over a lane only where the lane's light reaches it and its receivers are not squelched (R227, R234). -/
def State.hears (s : State) (l : Link) (rx : Nat) : Bool :=
  match l with
  | .lane e j => decide (s.fld (laneReg j) F.lplLaneState < 2) && decide (rx ∈ s.laneReach j e)
  | _ => true
/-- FLIT_RECEIVE (R215). -/
def execFlitReceive (t : At) (link : Link) (rx : Nat) (flit : Flit) (sight : FlitSight) (s : State) : Result :=
  if link.ok ∧ rx < 64 then
    let s := s.at t
    if s.dead || !s.hears link rx then .next s else
    let s := s.countFlit link rx flit sight
    let s := match link with
      | .ring _ => s.ingestTo rx
      | _ => s
    let h := s.rx link rx
    if badFlit flit sight then
      let s := match link with
        | .ring r => if sight.channels = [] then s else s.identify r rx flit sight t.cyc
        | _ => s
      .next (s.setRx link rx { s.rx link rx with nak := some h.expect, nakDue := h.nakDue || h.nak.isNone || decide (flit.seq = h.expect) })
    else if flit.type = 0 then
      .next (match link with
        | .ring r => if bits flit.body 511 504 = 0 ∨ bits flit.body 511 504 = 2 then (s.identify r rx flit sight t.cyc).failCasts t.cyc else s
        | _ => s)
    else if flit.seq ≠ h.expect ∨ flit.type = 3 then .next s
    else
      let s := s.setRx link rx { h with expect := (h.expect + 1) % 4096, nak := none, nakDue := false, heard := true }
      .next (if flit.type = 1 then s.header link rx flit else s.dataFlit link rx flit)
  else .fault .noSuchUnit

/-! Link control (R212, R214). -/

/-- The links that a link's control flits report on, with the receiver that reports. -/
def State.reported (s : State) (l : Link) : List (Nat × Link × Nat) :=
  match l with
  | .ring r =>
    ((List.range 21).filter fun src => decide (src ≠ r) && !s.ringFenced src).map (fun src => (0, Link.ring src, r)) ++
      (match latOf r with
       | some e => ((List.range 32).filter fun j => decide (s.laneSrc j e < 20)).map fun j => (1, Link.lane (s.laneSrc j e) j, e)
       | none => [])
  | .fibreOut x => [(2, Link.fibreIn x, 0)]
  | _ => []
/-- The peer and lane of an entry (R214). -/
def entryOf (plane : Nat) (l : Link) (kind value : Nat) : CtlEntry :=
  match l with
  | .ring src => ⟨kind, plane, src, 0, value⟩
  | .lane e j => ⟨kind, plane, e, j, value⟩
  | .fibreIn x | .fibreOut x => ⟨kind, plane, x, 0, value⟩
/-- Peers in increasing order from the one whose turn it is (R214). -/
def fromTurn {A : Type} (turn : Nat) (l : List (Nat × A)) : List (Nat × A) := (l.filter fun x => turn ≤ x.1) ++ l.filter fun x => x.1 < turn
/-- The entries that are due, with the peer's place: NAKs, then credits, then acknowledgements, 16 at most. Within a kind peers take their turn; a peer heard of
is acknowledged at least once in six control slots (R214). -/
def State.dueEntries (s : State) (l : Link) : List (Nat × Nat × (Nat × Link × Nat)) :=
  let all := (s.reported l).zipIdx.map fun x => (x.2, x.1)
  let turn := (s.tx l).turn
  let pick (kind turn : Nat) (test : RxLink → Bool) : List (Nat × Nat × (Nat × Link × Nat)) :=
    (fromTurn turn (all.filter fun x => test (s.rx x.2.2.1 x.2.2.2))).map fun x => (kind, x.1, x.2)
  (pick 2 (turn.getD 0 0) (fun h => h.nakDue) ++ pick 3 (turn.getD 1 0) (fun h => decide (h.freed ≠ h.sentCredit)) ++
    pick 1 (turn.getD 2 0) (fun h => decide (h.expect ≠ h.sentAck) || (h.heard && decide (5 ≤ h.ackAge)))).take 16
/-- Whose turn is next within a kind after the entries sent (R214). -/
def turnAfter (kind turn : Nat) (due : List (Nat × Nat × (Nat × Link × Nat))) : Nat :=
  match (due.filter fun x => decide (x.1 = kind)).getLast? with
  | some x => x.2.1 + 1
  | none => turn
/-- What a receiver reports of a link. -/
def State.entryFor (s : State) (x : Nat × Nat × (Nat × Link × Nat)) : CtlEntry :=
  let h := s.rx x.2.2.2.1 x.2.2.2.2
  entryOf x.2.2.1 x.2.2.2.1 x.1 (if x.1 = 2 then h.nak.getD h.expect else if x.1 = 3 then h.freed % 4096 else h.expect)
/-- A receiver has reported: an acknowledgement's age begins anew. -/
def State.reportSent (s : State) (x : Nat × Nat × (Nat × Link × Nat)) : State :=
  let h := s.rx x.2.2.2.1 x.2.2.2.2
  s.setRx x.2.2.2.1 x.2.2.2.2 (if x.1 = 2 then { h with nakDue := false } else if x.1 = 3 then { h with sentCredit := h.freed } else { h with sentAck := h.expect, ackAge := 0 })
/-- The control slot that begins now at a link's transmitter, if one does (R212): control slots are 34 ticks apart. -/
def State.controlSlot (s : State) (l : Link) : Option Nat :=
  let tc := (s.tc (linkTile l)).toNat
  if tc % 34 = 0 then some (tc / 34) else none
/-- LINK_CONTROL_SEND (R212, R214): once in every control slot, and in no other; a worm that spans the slot goes on after it. A lane has no control slots. -/
def execLinkControlSend (t : At) (link : Link) (s : State) : Result :=
  if link.ok then
    let s := s.at t
    if s.dead then .next s else
    let off := match link with
      | .ring r => s.ringFenced r
      | .fibreOut x => !s.fibreUp x
      | _ => true
    match (if off then none else s.controlSlot link) with
    | none => .next s
    | some m =>
      if (s.tx link).control = m + 1 then .next s
      else
        let s := match link with
          | .ring r => s.ingestTo r
          | .fibreOut x => s.drainFibre x (s.queue (fibreQueue x) 0).length
          | _ => s
        let due := s.dueEntries link
        let entries := due.map s.entryFor
        let s := (s.reported link).foldl (fun s x => let h := s.rx x.2.1 x.2.2; if h.heard then s.setRx x.2.1 x.2.2 { h with ackAge := h.ackAge + 1 } else s) s
        let s := due.foldl State.reportSent s
        let x := s.tx link
        let turn := [turnAfter 2 (x.turn.getD 0 0) due, turnAfter 3 (x.turn.getD 1 0) due, turnAfter 1 (x.turn.getD 2 0) due]
        .next ((s.setTx link { x with turn := turn, control := m + 1 }).emit (.control link entries (controlFlit entries)))
  else .fault .noSuchUnit
/-- An idle flit of a transmitter that has nothing ready, or of a lane that is dark for it (R212, R213, R229). -/
def State.sendIdle (s : State) (l : Link) : State :=
  match l with
  | .ring r => s.emit (.idle l (identFlit 0 r (ringChannel r)))
  | .lane e _ => s.emit (.idle l (identFlit 0 e fun k => 2 * k + 1))
  | .fibreOut x | .fibreIn x => s.emit (.idle l (identFlit 0 (16 + x / 8) fun k => 2 * k + 1))
/-- The packets that wait for a fenced fibre are discarded: another package's are answered, the package's own operations complete with it (R337). -/
def State.dropWaiting (s : State) (x : Nat) : State :=
  let q := s.queue (fibreQueue x) 0
  q.foldl (fun s p =>
    let s := s.bump Reg.fabRtStat F.fabRtStatFencedDrops 1
    if p.originPkg = s.pkg then s else s.refusePacket (fibreRing (x / 8)) p .pathFenced) (s.setQueue (fibreQueue x) 0 [])
/-- A link has failed toward a receiver: logged, the failing element fenced, its outstanding operations completed (R216, R222, R235, R239). -/
def State.linkFail (s : State) (l : Link) (rx cyc : Nat) : State :=
  let s := s.setTx l { s.tx l with failed := rx :: (s.tx l).failed }
  match l with
  | .ring r =>
    let s := (s.bump (Reg.rplTxErr r) F.rplTxErrLinkFailures 1).log 0x0501 (srcUnit (12 + ringTile r) r) [r, rx, 1]
    let s := if s.dev ∈ [.bringup, .load, .join] then (s.fenceRing r).startFail 8 else (s.fenceRing r).holdCause 7
    s.failOps cyc fun q o => decide (q = r ∧ (o.pkt.hopDst = rx ∨ (o.pkt.hopDst = 31 ∧ bit o.pkt.rxMap rx)))
  | .lane _ j => (s.fenceLane j 1).failLane j cyc
  | .fibreOut x | .fibreIn x =>
    ((s.fenceFibre x 6).dropWaiting x).failOps cyc fun _ o => decide (o.pkt.dstPkg ≠ s.pkg ∧ token o.pkt.tokens 0 = some x)
/-- Resend from a flit onward (R215); a fenced ring-plane endpoint transmits nothing more (R221). -/
def State.resend (s : State) (l : Link) (seq : Nat) : State :=
  let x := s.tx l
  let rest := x.replay.dropWhile fun f => decide (f.1.seq ≠ seq)
  let off := match l with
    | .ring r => s.ringFenced r
    | _ => false
  if off then s else
  let s := s.setTx l { x with busyUntil := s.slotEnd l rest.length }
  rest.foldl (fun s f => s.emit (.flit l f.1)) s
/-- Count a replay (R242, R244, R442): of a NAK, or of a timeout. -/
def State.countReplay (s : State) (l : Link) (timeout : Bool) : State :=
  match l with
  | .ring r => (s.bump (Reg.rplTxErr r) (if timeout then F.rplTxErrTimeoutReplays else F.rplTxErrReplays) 1).pmcRing r 0x206 1
  | .fibreOut y | .fibreIn y =>
    (s.bump (Reg.fibErr (y / 8) (y % 8)) (if timeout then F.fibErrTimeoutReplays else F.fibErrReplays) 1).pmcRing (fibreRing (y / 8)) 0x206 1
  | .lane e _ => s.pmcRing (ringOfLat e) 0x206 1
/-- The flits at the front of a replay buffer that a receiver has acknowledged: those before the number it expects. -/
def ackedFlits (x : TxLink) (r : Nat) : Nat :=
  let v := assoc x.acked r
  if v = 0 then 0
  else if v - 1 = x.next then x.replay.length
  else
    let n := (x.replay.takeWhile fun f => decide (f.1.seq ≠ v - 1)).length
    if n = x.replay.length then 0 else n
/-- Flits that every receiver has acknowledged leave the replay buffer (R215). -/
def State.freeReplay (s : State) (l : Link) : State :=
  let x := s.tx l
  let done := (s.ackers l).map (ackedFlits x)
  let n := match done with
    | [] => x.replay.length
    | a :: r => r.foldl min a
  s.setTx l { x with replay := x.replay.drop n }
/-- The link and receiver that an entry heard at an endpoint concerns: a link whose transmitter stands at that endpoint. -/
def ownLink (heard : Link) (rx : Nat) (e : CtlEntry) : Option (Link × Nat) :=
  match heard with
  | .ring r =>
    if e.plane = 0 ∧ e.peer = rx then some (.ring rx, r)
    else if e.plane = 1 ∧ latOf rx = some e.peer then (latOf r).map fun d => (Link.lane e.peer e.lane, d)
    else none
  | .fibreIn x => if e.plane = 2 then some (.fibreOut x, 0) else none
  | _ => none
/-- Apply one entry of a link-control flit (R214 to R217). -/
def State.applyEntry (s : State) (heard : Link) (rx cyc : Nat) (e : CtlEntry) : State :=
  match ownLink heard rx e with
  | none => s
  | some (l, r) =>
    let x := s.tx l
    if e.kind = 1 then
      (s.setTx l { x with acked := assocSet x.acked r (e.value + 1), silentRuns := assocSet x.silentRuns r 0 }).freeReplay l
    else if e.kind = 2 then
      let n := match x.naks.find? fun k => decide (k.1 = r) with
        | some k => if k.2.1 = e.value then k.2.2 + 1 else 1
        | none => 1
      let s := s.setTx l { x with naks := (r, e.value, n) :: x.naks.filter fun k => decide (k.1 ≠ r) }
      if n = 3 then s.linkFail l r cyc else (s.resend l e.value).countReplay l false
    else if e.kind = 3 then
      let f := assoc x.freed r
      let s := s.setTx l { x with freed := assocSet x.freed r (f + (e.value + 4096 - f % 4096) % 4096) }
      match l with
      | .fibreOut y => s.drainFibre y (s.queue (fibreQueue y) 0).length
      | _ => s
    else s
/-- LINK_CONTROL_RECEIVE (R214). -/
def execLinkControlReceive (t : At) (link : Link) (rx : Nat) (entries : List CtlEntry) (s : State) : Result :=
  if link.ok ∧ rx < 64 then .next ((s.at t).ifAwake fun s => (entries.take 16).foldl (fun s e => s.applyEntry link rx t.cyc e) s) else .fault .noSuchUnit
/-- ACK_TIMEOUT: a timeout replay from the oldest flit; three in a row without an acknowledgement fail the link toward a receiver (R216). -/
def execAckTimeout (t : At) (link : Link) (silent : List Nat) (s : State) : Result :=
  if link.ok then
    let s := s.at t
    if s.dead then .next s else
    let x := s.tx link
    match x.replay with
    | [] => .next s
    | (f, first) :: rest =>
      if s.now < first + 2000 then .next s
      else
        let quiet := silent.filter fun r => (s.ackers link).contains r
        let s := s.setTx link { x with replay := (f, s.now) :: rest, silentRuns := quiet.foldl (fun m r => assocSet m r (assoc m r + 1)) x.silentRuns }
        let s := (s.resend link f.seq).countReplay link true
        .next ((quiet.filter fun r => decide (3 ≤ assoc (s.tx link).silentRuns r)).foldl (fun s r => s.linkFail link r t.cyc) s)
  else .fault .noSuchUnit

end Sys2Proof.Machine
end

