-- ==== Sys2Proof/Machine/Arbiters.lean ====
section
/-! DEFINITION. Freezing and mapping of arbiters (R192, R193, R338, R343) and the arbiter of a ring-plane transmitter (R338 to R344). -/

namespace Sys2Proof.Machine

/-- The control register of an arbiter; its freeze, drained and map_pending bits lie alike in all three layouts. -/
def arbCtrl : Arbiter → Nat
  | .vault c => Reg.twrVarbCtrl (towerOf c) (localOf c)
  | .tx r => Reg.fabTxArbCtrl r
  | .channel k c => Reg.hbmArbCtrl k c
/-- The map register of an arbiter. -/
def arbMap : Arbiter → Nat
  | .vault c => Reg.twrVarbMap (towerOf c) (localOf c)
  | .tx r => Reg.fabTxArbMap r
  | .channel k c => Reg.hbmArbMap k c
/-- The inputs of an arbiter (R190, R339, R342). -/
def arbInputs : Arbiter → Nat
  | .vault _ => 13
  | .tx _ => 16
  | .channel _ _ => 8
/-- A grant is outstanding: a vault's port cycle, a transmitter's packet, a channel's slot of 0.8 tick (R190, R338). -/
def State.arbBusy (s : State) (a : Arbiter) (cyc : Nat) : Bool :=
  let b := s.arb a
  match a with
  | .vault _ => decide (cyc < b.busyRead ∨ cyc < b.busyWrite)
  | .tx r => decide (32 * s.now < (s.tx (.ring r)).busyUntil)
  | .channel _ _ => decide (5 * s.now < b.busyRead)
/-- The code at input i under the map in force. -/
def State.codeAt (s : State) (a : Arbiter) (i : Nat) : Nat := (s.rd (arbMap a)).toNat / 2 ^ (4 * i) % 16
/-- A pending map takes effect. -/
def State.mapApply (s : State) (a : Arbiter) : State :=
  let b := s.arb a
  match b.pendingMap with
  | none => s
  | some m => ((s.setArb a { b with pendingMap := none }).wr (arbMap a) m).putB (arbCtrl a) F.fabTxArbCtrlMapPending false
/-- A slot or cycle without a grant outstanding (R192, R193, R343). -/
def State.arbQuiet (s : State) (a : Arbiter) : State :=
  let s := s.mapApply a
  if s.flag (arbCtrl a) F.fabTxArbCtrlFreeze then s.putB (arbCtrl a) F.fabTxArbCtrlDrained true else s
/-- An arbiter makes no grant: it is frozen, or its freeze was cleared in this cycle (R192, R338, R343). -/
def State.arbStopped (s : State) (a : Arbiter) (cyc : Nat) : Bool := s.flag (arbCtrl a) F.fabTxArbCtrlFreeze || decide (cyc < (s.arb a).thawAt)
/-- Setting freeze stops new grants; drained sets where no grant is outstanding (R192). -/
def State.freeze (s : State) (a : Arbiter) (cyc : Nat) : State :=
  let s := s.putB (arbCtrl a) F.fabTxArbCtrlFreeze true
  if s.arbBusy a cyc then s else s.arbQuiet a
/-- A map value names every requester code once (R193, R338). -/
def mapOk (a : Arbiter) (v : Word) : Bool :=
  (List.range (arbInputs a)).all fun c => (List.range (arbInputs a)).any fun i => decide (v.toNat / 2 ^ (4 * i) % 16 = c)
/-- A map write is held pending, or discarded and logged (R193, R338). -/
def State.mapWrite (s : State) (a : Arbiter) (v : Word) : State :=
  if mapOk a v then
    (s.setArb a { s.arb a with pendingMap := some (v &&& BitVec.ofNat 64 (2 ^ (4 * arbInputs a) - 1)) }).putB (arbCtrl a) F.fabTxArbCtrlMapPending true
  else s.log 0x0302 (srcUnit 12 0) [arbMap a, v.toNat]
/-- A command about an arbiter. -/
def onArb (t : At) (a : Arbiter) (s : State) (f : State → State) : Result := if a.ok then .next ((s.at t).ifAwake f) else .fault .noSuchUnit
/-- ARB_FREEZE_SET (R192, R338). -/
def execArbFreezeSet (t : At) (arb : Arbiter) (s : State) : Result := onArb t arb s fun s => s.freeze arb t.cyc
/-- ARB_MAP_WRITE (R193, R338). -/
def execArbMapWrite (t : At) (arb : Arbiter) (value : BitVec 64) (s : State) : Result := onArb t arb s fun s => s.mapWrite arb value
/-- ARB_MAP_APPLY: in a slot with no grant outstanding (R193, R343). -/
def execArbMapApply (t : At) (arb : Arbiter) (s : State) : Result :=
  onArb t arb s fun s => if s.arbBusy arb t.cyc then s else s.arbQuiet arb

/-! Transmitters (R338 to R344). -/

/-- An operation is discarded at a fenced link: its origin completes it, or is told (R337). -/
def State.dropAt (s : State) (r cyc : Nat) (p : Packet) : State :=
  let s := s.bump Reg.fabRtStat F.fabRtStatFencedDrops 1
  if (p.cls = 8 ∨ p.cls = 0xC) ∧ p.originPkg = s.pkg then
    match s.op r p.tag with
    | some o => if o.done then s else s.endOp r p.tag o .pathFenced cyc
    | none => s.refusePacket r p .pathFenced
  else s.refusePacket r p .pathFenced
/-- The next link of a packet at a transmitter is fenced. -/
def State.blocked (s : State) (r : Nat) (p : Packet) : Bool := s.ringFenced r || (decide (p.hopDst ≠ 31) && s.ringFenced p.hopDst)
/-- Discard what waits for fenced links (R337); fenced receivers leave the map of a packet to several. -/
def State.purge (s : State) (r cyc : Nat) : State :=
  (List.range 16).foldl (fun s i =>
    let q := s.queue r i
    let keep := (q.filter fun p => !s.blocked r p).map fun p =>
      { p with rxMap := ((List.range 21).filter fun x => bit p.rxMap x && !s.ringFenced x).foldl (fun m x => m + 2 ^ x) 0 }
    let gone := q.filter (s.blocked r)
    if gone = [] ∧ keep = q then s else gone.foldl (fun s p => s.dropAt r cyc p) (s.setQueue r i keep)) s
/-- The head of an input is eligible: it has credit at every receiver that it names (R338, R339). -/
def State.eligible (s : State) (r i : Nat) : Bool :=
  match s.queue r i with
  | [] => false
  | p :: _ => s.mayStart (.ring r) (Packet.names p) (packetFlits p).length
/-- The timer of an attempt starts as its header leaves (R366). -/
def State.startTimer (s : State) (r : Nat) (p : Packet) : State :=
  if (p.cls = 8 ∨ p.cls = 0xC) ∧ p.originPkg = s.pkg then
    match s.op r p.tag with
    | some o =>
      let limit := if p.dstPkg = s.pkg then s.fld Reg.fabTimeout F.fabTimeoutPkgTimeout else s.fld Reg.fabTimeout F.fabTimeoutRackTimeout
      if o.done then s else s.setOp r p.tag { o with deadline := s.now + limit, left := true }
    | none => s
  else s
/-- Wait slots of a transmitter (R344). -/
def State.waitSlot (s : State) (r held : Nat) : State :=
  let s := (s.bump (Reg.fabTxArbCtrl r) F.fabTxArbCtrlWaitSlots 1).pmcRing r 0x202 1
  if held = 14 then s.bump (Reg.fabTxArbCtrl r) F.fabTxArbCtrlBgWaitSlots 1 else s
/-- TX_ARB_GRANT: one slot of a transmitter's arbiter; `ready` tells whether the granted header flit is ready (R338). -/
def execTxArbGrant (t : At) (r : Nat) (ready : Bool) (s : State) : Result :=
  if r < Config.rings then
    if (s.at t).dead then .next (s.at t) else
    let s := (s.at t).purge r t.cyc
    let a : Arbiter := .tx r
    let l := (List.range 16).filter (s.eligible r)
    if s.arbBusy a t.cyc then .next (if l.all fun i => decide (i = (s.arb a).holder) then s else s.waitSlot r (s.arb a).holder)
    else if s.arbStopped a t.cyc then .next (s.arbQuiet a)
    else
      match ((List.range 16).reverse.map (s.codeAt a)).find? fun c => l.contains c with
      | none => .next (if s.ringFenced r then s.arbQuiet a else (s.arbQuiet a).sendIdle (.ring r))
      | some c =>
        match s.queue r c with
        | [] => .next s
        | p :: rest =>
          let s := if 1 < l.length then s.waitSlot r c else s
          if !ready then
            let x := s.tx (.ring r)
            .next (((s.setTx (.ring r) { x with busyUntil := s.slotEnd (.ring r) 1 }).bump (arbCtrl a) F.fabTxArbCtrlDeadSlots 1).pmcRing r 0x203 1)
          else
            let n := (packetFlits p).length
            let s := ((s.setQueue r c rest).setArb a { s.arb a with holder := c }).transmit (.ring r) (Packet.names p) (packetFlits p)
            .next (((s.pmcRing r 0x200 n).pmcRing r 0x201 1).startTimer r p)
  else .fault .noSuchUnit

end Sys2Proof.Machine
end

