-- ==== Sys2Proof/Machine/LatticeCtl.lean ====
section
/-! DEFINITION. The lattice controllers and lanes: commands and boundaries (R232 to R237), rotations (R255), and the start of frames (R231). -/

namespace Sys2Proof.Machine

/-- The entry of a lane in a phase (R243): whether the lane keeps its setting, and the setting. -/
def State.phaseEntry (s : State) (n p j : Nat) : Bool × Nat :=
  let w := (s.rd (Reg.lplPhase n p (j / 4))).toNat / 2 ^ (16 * (j % 4))
  (bit w 15, w % 256)
/-- A command is discarded and counted (R236). -/
def State.latDiscard (s : State) (n p mask : Nat) : State :=
  (s.bump (Reg.lplCounts n) F.lplCountsDiscardedRequests 1).log 0x0503 (srcUnit (12 + n) 0) [p, mask]
/-- LATR_FORWARD: a lattice command reaches a controller (R232, R236). -/
def execLatrForward (t : At) (tile : Nat) (cmd : BitVec 64) (at_ : Nat) (s : State) : Result :=
  if tile < Config.tiles then
    let s := s.at t
    if s.dead then .next s else
    let w := cmd.toNat
    let p := bits w 63 56
    let mask := bits w 31 0
    if bits w 55 32 ≠ 0 then .next (s.log 0x0503 (srcUnit (12 + tile) 0) [p, mask])
    else
      let c := s.lattice tile
      let tc := (s.tc tile).toNat
      let s := if at_ < tc then s.bump (Reg.lplCounts tile) F.lplCountsLateRequests 1 else s
      let named := (List.range 8).filter fun j => bit mask (8 * tile + j) && decide (s.fld (Reg.lplLane tile j) F.lplLaneState ≠ 6)
      if p ∉ c.phases ∨ named.any (fun j => !(s.phaseEntry tile p j).1 && !(c.settings.contains (s.phaseEntry tile p j).2)) then .next (s.latDiscard tile p mask)
      else
        let lanes := named.filter fun j => !(s.phaseEntry tile p j).1
        if lanes = [] then .next s
        else if 16 ≤ c.queue.length then .next (s.latDiscard tile p mask)
        else
          let free := (lanes.filterMap c.busyLane).map fun q => (q.b.getD (caratUp (max q.r tc))) + 2048
          let r := caratUp (max (max at_ tc) (free.foldl max 0))
          .next ((s.latQueue tile { lanes := lanes.map fun j => (j, p), r := r }).latStatus tile)
  else .fault .noSuchUnit
/-- The lanes of a request that its reconfiguration affects at R: a fenced one is ignored, one already in the named phase is left as it is (R232, R236). -/
def State.affected (s : State) (tile : Nat) (q : LatReq) : LatReq :=
  { q with lanes := q.lanes.filter fun x => decide (s.fld (Reg.lplLane tile x.1) F.lplLaneState ≠ 6 ∧ (x.2 = 256 ∨ s.fld (Reg.lplLane tile x.1) F.lplLanePhase ≠ x.2 ∨
      (s.lane (8 * tile + x.1)).rotations ≠ [])) }
/-- REQUEST_BOUNDARY: from R onward no new frame starts on the affected lanes (R233). -/
def execRequestBoundary (t : At) (tile : Nat) (s : State) : Result :=
  if tile < Config.tiles then
    let s := s.at t
    if s.dead then .next s else
    let c := s.lattice tile
    let ready (q : LatReq) : Bool := decide (q.r ≤ (s.tc tile).toNat) && q.lanes.all fun x => (c.busyLane x.1).isNone
    let go := ((c.queue.filter ready).map (s.affected tile)).filter fun q => decide (q.lanes ≠ [])
    let s := s.setLattice tile { c with queue := c.queue.filter fun q => !ready q, active := c.active ++ go }
    .next ((go.foldl (fun s q => q.lanes.foldl (fun s x =>
      if s.fld (Reg.lplLane tile x.1) F.lplLaneState = 6 then s else s.putF (Reg.lplLane tile x.1) F.lplLaneState 1) s) s).latStatus tile)
  else .fault .noSuchUnit
/-- A lane is drained: no frame in progress, every flit acknowledged; a fenced lane holds nothing up (R233). -/
def State.drained (s : State) (j : Nat) : Bool :=
  decide (s.fld (laneReg j) F.lplLaneState = 6) || (List.range 20).all fun e => let x := s.tx (.lane e j); x.replay.isEmpty && decide (x.busyUntil ≤ 32 * s.now)
/-- A bank moves by one 200 GHz spacing of 1,638 taps and its map rotates with it (R255, R267). -/
def State.moveBank (s : State) (j e : Nat) (mods up : Bool) : State :=
  let s := (List.range 16).foldl (fun s k =>
    let g := bankRing j e mods k
    let move : Int := 2 * (s.spacing g : Int)
    let s := s.putF (ringAddr g) F.rplModHeater (clampCode ((s.heater g : Int) + (if up then move else -move)))
    let s := if s.ringState g = 3 then s.putF (ringAddr g) F.rplModState (lockedCode (s.heater g)) else s
    s.setRing (ringAddr g) { s.ring (ringAddr g) with lowNow := headroomLow (s.heater g), smallRun := 0 }) s
  let a := Reg.lplRot (j / 8) (j % 8) e
  let f := if mods then F.lplRotTxRot else F.lplRotRxRot
  s.putF a f ((s.fld a f + (if up then 1 else 15)) % 16)
/-- At B a lane takes its new phase and setting, outputs of fenced endpoints leave a setting of kind 0, and banks rotate (R234, R238, R255). -/
def State.laneStart (s : State) (n b : Nat) (x : Nat × Nat) : State :=
  let a := Reg.lplLane n x.1
  let j := 8 * n + x.1
  if s.fld a F.lplLaneState = 6 then s
  else
    let s := if x.2 < 256 then (s.putF a F.lplLanePhase x.2).putF a F.lplLaneSetting (s.phaseEntry n x.2 x.1).2 else s
    let l := s.lane j
    let s := l.rotations.foldl (fun s r => (s.moveBank j r.1 r.2.1 r.2.2).bump Reg.onxLockCounts F.onxLockCountsRotations 1) s
    let gone := if s.fld (Reg.lplSetKind n (s.fld a F.lplLaneSetting)) F.lplSetKindKind = 0 then (s.lattice n).removed else []
    let s := (s.putF a F.lplLaneState 2).setLane j { relocked := true, b := b, gone := gone }
    s.emit (.shifters j (s.laneDrive j))
/-- START_BOUNDARY: at a carat boundary with every affected lane drained (R233, R234). -/
def execStartBoundary (t : At) (tile : Nat) (s : State) : Result :=
  if tile < Config.tiles then
    let s := s.at t
    if s.dead then .next s else
    let c := s.lattice tile
    let tc := (s.tc tile).toNat
    if tc % 1024 ≠ 0 then .next s
    else
      let go (q : LatReq) : Bool := q.b.isNone && q.lanes.all fun x => s.drained (8 * tile + x.1)
      let starting := c.active.filter go
      let s := s.setLattice tile { c with active := c.active.map fun q => if go q then { q with b := some tc } else q }
      .next (starting.foldl (fun s q => q.lanes.foldl (fun s x => s.laneStart tile tc x) s) s)
  else .fault .noSuchUnit
/-- The rotation under which a bank hears its channels, if they are a rotation of its assignment (R252). -/
def rotationOf (heard : List Nat) : Option Nat :=
  (List.range 16).find? fun d => (List.range 16).all fun m => decide (heard.getD m 0 = 2 * ((m + 16 - d) % 16) + 1)
/-- A bank's rings are acquired again from their start values (R252); a parked ring stays parked (DEDUCED, assumption 110). -/
def State.restartBank (s : State) (j e : Nat) (mods : Bool) : State :=
  (List.range 16).foldl (fun s k =>
    let g := bankRing j e mods k
    let (n, i) := ringItem g
    if s.ringState g = 5 then s
    else
      let start := clampCode (s.calVal 1 n i)
      let s := (s.putF (ringAddr g) F.rplModHeater start).putF (ringAddr g) F.rplModState 1
      s.setRing (ringAddr g) { start := start, gain := (s.ring (ringAddr g)).gain, lowNow := headroomLow start }) s
/-- What a demux bank hears during a relock: a rotation is adopted, anything else fails the relock (R252). -/
def State.hear (s : State) (j e : Nat) (channels : List Nat) : State :=
  match rotationOf channels with
  | some d => s.putF (Reg.lplRot (j / 8) (j % 8) e) F.lplRotRxRot d
  | none =>
    let src := s.laneSrc j e
    let s := s.restartBank j e false
    let s := if src < 20 then s.restartBank j src true else s
    s.setLane j { s.lane j with relocked := false }
/-- Training flits go out on a lane from every source that its map places at an output (R234). -/
def State.trainLane (s : State) (j : Nat) : State :=
  ((List.range 20).filter fun e => (List.range 20).any fun i => decide (s.laneSrc j i = e)).foldl (fun s e =>
    s.emit (.training (.lane e j) (identFlit 2 e fun k => 2 * k + 1) s.pkg 0)) s
/-- SHIFTERS_SETTLED: 600 ticks after B training begins; `heard` gives lane, endpoint and the channels its bank hears (R234, R252). -/
def execShiftersSettled (t : At) (tile : Nat) (heard : List (Nat × Nat × List Nat)) (s : State) : Result :=
  if tile < Config.tiles then
    let s := s.at t
    if s.dead then .next s else
    let tc := (s.tc tile).toNat
    let go := (s.lattice tile).active.filter fun q => match q.b with | some b => decide (b + 600 ≤ tc) | none => false
    let lanes := ((go.map fun q => q.lanes.map (·.1)).flatten).filter fun j => decide (s.fld (Reg.lplLane tile j) F.lplLaneState = 2)
    let s := lanes.foldl (fun s j => (s.putF (Reg.lplLane tile j) F.lplLaneState 3).trainLane (8 * tile + j)) s
    .next ((heard.filter fun h => decide (h.1 / 8 = tile ∧ h.2.1 < 20) && lanes.contains (h.1 % 8)).foldl (fun s h => s.hear h.1 h.2.1 h.2.2) s)
  else .fault .noSuchUnit
/-- A reconfiguration is over for the lanes that are open again or fenced; it holds those that stay closed (R235, R236, R243). -/
def State.settleActive (s : State) (tile : Nat) : State :=
  let c := s.lattice tile
  let active := c.active.map fun q => match q.b with
    | some _ => { q with lanes := q.lanes.filter fun x => !(decide (s.fld (Reg.lplLane tile x.1) F.lplLaneState = 0 ∨ s.fld (Reg.lplLane tile x.1) F.lplLaneState = 6)) }
    | none => q
  (s.setLattice tile { c with active := active.filter fun q => decide (q.lanes ≠ []) }).latStatus tile
/-- LANE_REOPEN: 2,048 ticks after B (R234, R235). -/
def execLaneReopen (t : At) (tile : Nat) (relocked : List Nat) (s : State) : Result :=
  if tile < Config.tiles then
    let s := s.at t
    if s.dead then .next s else
    let c := s.lattice tile
    let tc := (s.tc tile).toNat
    let ended (q : LatReq) : Bool := match q.b with | some b => decide (b + 2048 ≤ tc) | none => false
    let s := (c.active.filter ended).foldl (fun s q => q.lanes.foldl (fun s x =>
      let a := Reg.lplLane tile x.1
      if s.fld a F.lplLaneState = 6 ∨ s.fld a F.lplLaneState = 5 then s
      else if relocked.contains (8 * tile + x.1) && (s.lane (8 * tile + x.1)).relocked then s.putF a F.lplLaneState 0
      else (s.putF a F.lplLaneState 5).bump (Reg.lplCounts tile) F.lplCountsRelockOverruns 1) s) s
    .next (s.settleActive tile)
  else .fault .noSuchUnit
/-- LANE_LATE_RELOCK: the first carat boundary after the receiver relocks (R235). -/
def execLaneLateRelock (t : At) (lane : BitVec 5) (s : State) : Result :=
  let s := s.at t
  if s.dead then .next s else
  let a := laneReg lane.toNat
  .next (if s.fld a F.lplLaneState = 5 ∧ (s.tc (lane.toNat / 8)).toNat % 1024 = 0 then (s.putF a F.lplLaneState 0).settleActive (lane.toNat / 8) else s)
/-- LANE_FENCE_TIMEOUT: a lane not relocked by B + 16 carats is fenced, and what was outstanding on it completes (R235). -/
def execLaneFenceTimeout (t : At) (lane : BitVec 5) (s : State) : Result :=
  let s := s.at t
  if s.dead then .next s else
  let j := lane.toNat
  if s.fld (laneReg j) F.lplLaneState = 5 ∧ (s.lane j).b + 16 * 1024 ≤ (s.tc (j / 8)).toNat then
    .next (((s.fenceLane j 3).failLane j t.cyc).settleActive (j / 8))
  else .next s
/-- LANE_FRAME_START (R231): the next frame starts, on the lane that its number takes of the lanes that connect it now; where none does, it goes on the
ring plane. A lane with nothing ready, or dark for the endpoint, sends an idle flit (R212, R229). -/
def execLaneFrameStart (t : At) (lane : BitVec 5) (e : Nat) (s : State) : Result :=
  if e < Config.lattices then
    let s := s.at t
    if s.dead then .next s else
    let j := lane.toNat
    match s.framesAt e j with
    | [] => .next (if s.laneOpen j && decide ((s.tx (.lane e j)).busyUntil ≤ 32 * s.now) then s.sendIdle (.lane e j) else s)
    | f :: rest =>
      let dests := frameReceivers f
      let lanes := (List.range 32).filter fun i => decide (s.fld (laneReg i) F.lplLaneState ≠ 6) && dests.all fun d => decide (s.laneSrc i d = e)
      let turn := if f.dst = 31 then lanes.getD 0 j else lanes.getD (f.index % lanes.length) j
      if !s.laneOpen j then .next s
      else if lanes ≠ [] ∧ turn ≠ j then .next ((s.setFrames e j rest).queueFrame e turn f)
      else if !(dests.all fun d => decide (s.laneSrc j d = e)) then
        let r := ringOfLat e
        let p := framePacket f
        let p := { p with epoch := f.epoch, incarnation := s.inc, hopDst := if f.dst = 31 then 31 else ringOfLat f.dst,
                          rxMap := if f.dst = 31 then dests.foldl (fun m d => m + 2 ^ ringOfLat d) 0 else 0, tokens := if p.dstPkg = s.pkg then 0 else bits (s.routeEntry r p.dstPkg) 53 36 }
        .next ((s.setFrames e j rest).fallback r e p)
      else
        let f := { f with phase := s.fld (laneReg j) F.lplLanePhase }
        if !s.mayStart (.lane e j) dests (frameFlits f).length then .next s
        else
          let s := ((s.setFrames e j rest).transmit (.lane e j) dests (frameFlits f)).emit (.frame j e f)
          .next ((s.pmcRing (ringOfLat e) 0x208 (frameFlits f).length).startTimer (ringOfLat e) (framePacket f))
  else .fault .noSuchUnit

end Sys2Proof.Machine
end

