-- ==== Sys2Proof/Machine/Hbm.lean ====
section
/-! DEFINITION. HBM controllers: the channel arbiter (R338, R342, R344, R351, R352), merged reads (R356), refresh (R354), scrub (R355) and
initialization (R353). -/

namespace Sys2Proof.Machine

/-- The first address of a stack, and its populated bytes (R347). -/
def stackAt (k : Nat) : Nat := k * 0x2000000000
/-- The populated bytes of a stack (R347). -/
def stackSize : Nat := 80000000000
/-- Row, bank and channel of a line's offset in its stack (R350). -/
def lineRow (a : Nat) : Nat := bits a 36 20
/-- The bank of a line (R350). -/
def lineBank (a : Nat) : Nat := bits a 15 11
/-- The channel of a line (R350). -/
def lineChannel (a : Nat) : Nat := bits a 10 6
/-- A bank is held by a refresh (R354). -/
def Arb.held (b : Arb) (bank now : Nat) : Bool := b.refresh.any fun x => decide (x.1 = bank / 8 ∧ now < x.2)
/-- A request keeps the distances of R351. -/
def Arb.spaced (b : Arb) (q : PortReq) (now : Nat) : Bool :=
  (b.rows.all fun x => decide (x.1 ≠ lineBank q.addr ∨ x.2.1 = lineRow q.addr ∨ x.2.2 + 48 ≤ now)) &&
    (q.write || decide (b.lastWrite = 0 ∨ b.lastWrite + 20 ≤ 5 * now))
/-- A request is eligible (R342, R351, R354). -/
def Arb.takes (b : Arb) (q : PortReq) (now : Nat) : Bool := !b.held (lineBank q.addr) now && b.spaced q now
/-- The channel notes an access (R351). -/
def Arb.access (b : Arb) (q : PortReq) (now : Nat) : Arb :=
  { b with busyRead := 5 * now + 4, holder := q.code, lastWrite := if q.write then 5 * now else b.lastWrite,
           rows := (lineBank q.addr, lineRow q.addr, now) :: b.rows.filter fun x => decide (x.1 ≠ lineBank q.addr ∧ now < x.2.2 + 48) }
/-- Wait slots of a channel (R344). -/
def State.channelWait (s : State) (k c held : Nat) : State :=
  let s := s.bump (Reg.hbmArbCtrl k c) F.hbmArbCtrlWaitSlots 1
  if held = 7 ∨ held = 6 then s.bump (Reg.hbmArbCtrl k c) F.hbmArbCtrlBgWaitSlots 1 else s
/-- A granted line access: a read checks the stored code, once, and enters the merge buffer, a write stores the line and removes its entries (R352, R353,
R356). -/
def State.channelGrant (s : State) (k c : Nat) (q : PortReq) : State :=
  let a := stackAt k + q.addr / 64 * 64
  let b := (s.arb (.channel k c)).access q s.now
  if q.write then (s.setArb (.channel k c) b).writeAt a (padTo 64 q.data) (if q.poison then [a] else [])
  else if (0, [a]) ∈ b.served then s.setArb (.channel k c) { b with served := dropFirst b.served (0, [a]) }
  else
    ((s.setArb (.channel k c) { b with merge := (([q.addr / 64], s.now) :: b.merge).take 32 }).lineCode k a).2
/-- A write-back takes a slot in which no other input is granted, where its bank allows it (R342, R351, R352). -/
def State.channelWriteBack (s : State) (k c : Nat) : State :=
  let b := s.arb (.channel k c)
  match b.wbq with
  | [] => s
  | a :: rest =>
    let q : PortReq := { code := 0, addr := a - stackAt k, write := true }
    if b.takes q s.now then ((s.setArb (.channel k c) { b.access q s.now with wbq := rest }).unmergeLines k [a]).setMark a (correctedMark (s.mark a)) else s
/-- A read of inputs 2 to 5 that follows a grant of its line takes no slot (R356). -/
def State.channelFollows (s : State) (k c : Nat) (q : PortReq) : Bool :=
  let input := ((List.range 8).find? fun i => s.codeAt (.channel k c) i = q.code).getD 0
  !q.write && decide (2 ≤ input ∧ input ≤ 5) && s.lineFollows k (stackAt k + q.addr) && !(decide ((0, [stackAt k + q.addr / 64 * 64]) ∈ (s.arb (.channel k c)).served))
/-- Of the requests at one input the one that goes first: in order of arrival, and of one slot the lower line address (R342). -/
def firstCome : List PortReq → Option PortReq
  | [] => none
  | q :: l =>
    match firstCome l with
    | none => some q
    | some x => some (if x.since < q.since ∨ (x.since = q.since ∧ x.addr / 64 < q.addr / 64) then x else q)
/-- A channel can grant inputs 7 and 6, which the device places: no grant is outstanding and none is stopped (R338, R342). -/
def State.channelFree (s : State) (k c cyc : Nat) : Bool := !s.arbBusy (.channel k c) cyc && !s.arbStopped (.channel k c) cyc
/-- HBM_CHANNEL_GRANT: one slot of a channel; `upset` is what the granted line's stored code has met (R338, R342, R352). An access that breaks a rule of R351
waits and makes the slot a wait slot; a follower of R356 takes none. -/
def execHbmChannelGrant (t : At) (k c : Nat) (reqs : List PortReq) (withdraws : Bool) (upset : Mark) (s : State) : Result :=
  if k < Config.hbmStacks ∧ c < 32 then
    let s := s.at t
    if s.dead then .next s else
    let a : Arbiter := .channel k c
    let b := s.arb a
    let mine := (reqs.filter fun q => decide (q.code ≠ 0 ∧ q.addr < stackSize ∧ lineChannel q.addr = c)).filter fun q => !s.channelFollows k c q
    let s := (reqs.filter fun q => s.channelFollows k c q).foldl (fun s _ => s.bump (Reg.hbmStatus k) F.hbmStatusMerges 1) s
    let l := mine.filter fun q => b.takes q s.now
    let late := mine.any fun q => !b.held (lineBank q.addr) s.now && !b.spaced q s.now
    if s.arbBusy a t.cyc then .next (if late || l.any (fun x => decide (x.code ≠ b.holder)) then s.channelWait k c b.holder else s)
    else if s.arbStopped a t.cyc then .next (s.arbQuiet a)
    else
      let pick := ((List.range 8).reverse.map (s.codeAt a)).findSome? fun code => if code = 0 then none else firstCome (l.filter fun q => decide (q.code = code))
      match pick with
      | none =>
        let s := if late then s.channelWait k c 0 else s
        .next (if b.wbq = [] then s.arbQuiet a else s.channelWriteBack k c)
      | some q =>
        let s := if late || l.any (fun x => decide (x.code ≠ q.code)) then s.channelWait k c q.code else s
        if withdraws && !q.write then
          .next ((s.bump (arbCtrl a) F.hbmArbCtrlDeadSlots 1).setArb a { b with busyRead := 5 * s.now + 4, holder := q.code })
        else
          let line := stackAt k + q.addr / 64 * 64
          let s := if upset = .good then s else s.setMark line (upsetMark (s.mark line) upset)
          .next (s.channelGrant k c q)
  else .fault .noSuchUnit
/-- HBM_MERGE: a read of inputs 2 to 5 within 16 ticks of a grant of its line takes no slot (R356). -/
def execHbmMerge (t : At) (k c : Nat) (req : PortReq) (s : State) : Result :=
  if k < Config.hbmStacks ∧ c < 32 then
    let s := s.at t
    if s.dead then .next s else
    .next (if decide (lineChannel req.addr = c ∧ req.addr < stackSize) && s.channelFollows k c req then s.bump (Reg.hbmStatus k) F.hbmStatusMerges 1 else s)
  else .fault .noSuchUnit
/-- HBM_REFRESH: a refresh holds 8 of the channel's 32 banks for 410 ticks (R354; the bound taken, DESIGN CHOICE, assumption 26); in a slot that is
taken or frozen it waits (assumption 135). -/
def execHbmRefresh (t : At) (k c : Nat) (group : BitVec 2) (s : State) : Result :=
  if k < Config.hbmStacks ∧ c < 32 then
    let s := s.at t
    if s.dead then .next s else
    if !s.channelFree k c t.cyc then .next s else
    let b := s.arb (.channel k c)
    let live := b.refresh.filter fun x => decide (s.now < x.2)
    .next (s.setArb (.channel k c) { b with refresh := (group.toNat, s.now + 410) :: live })
  else .fault .noSuchUnit
/-- The scrub's line takes a slot of its channel (R351, R355, R356); what it writes back leaves the merge buffer. -/
def State.scrubSlot (s : State) (k p : Nat) (writes : Bool) : State :=
  let c := lineChannel p
  let b := (s.arb (.channel k c)).access { code := 6, addr := p } s.now
  let s := s.setArb (.channel k c) { b with merge := (([p / 64], s.now) :: b.merge).take 32 }
  if writes then s.unmergeLines k [stackAt k + p] else s
/-- SCRUB_READ: the next line of the stack in LOAD, JOIN, RUN and HOLD (R355); in a slot that is taken or frozen, or that its bank's distances forbid, it
waits (assumption 135). -/
def execScrubRead (t : At) (k : Nat) (upset : Mark) (s : State) : Result :=
  if k < Config.hbmStacks then
    let s := s.at t
    if s.dead then .next s else
    if s.dev ≠ .load ∧ s.dev ≠ .join ∧ s.dev ≠ .run ∧ s.dev ≠ .hold then .next s
    else
      let p := s.fld (Reg.hbmScrub k) F.hbmScrubPosition
      let c := lineChannel p
      if !s.channelFree k c t.cyc || !(s.arb (.channel k c)).takes { code := 6, addr := p } s.now then .next s else
      let a := stackAt k + p
      let m := upsetMark (s.mark a) upset
      let s := s.scrubSlot k p (decide (m = .ce ∨ m = .cePoison ∨ m = .ue))
      let s := if upset = .good then s else s.setMark a (upsetMark (s.mark a) upset)
      let s := match s.mark a with
        | .ce | .cePoison => (s.bump (Reg.hbmEcc k) F.hbmEccCeLines 1).setMark a (correctedMark (s.mark a))
        | .ue => ((s.bump (Reg.hbmEcc k) F.hbmEccUeLines 1).log 0x0601 (srcUnit (16 + k) k) [k, a]).setMark a .poison
        | _ => s
      let wrap := decide (stackSize ≤ p + 64)
      let s := s.putF (Reg.hbmScrub k) F.hbmScrubPosition (if wrap then 0 else p + 64)
      .next (if wrap then s.bump (Reg.hbmScrub k) F.hbmScrubPasses 1 else s)
  else .fault .noSuchUnit
/-- HBM_INITIALIZATION: in BRINGUP every populated line is zero with its mark clear (R353). -/
def execHbmInitialization (t : At) (k : Nat) (s : State) : Result :=
  if k < Config.hbmStacks then
    let s := s.at t
    if s.dead then .next s else
    if s.dev ≠ .bringup then .next s
    else
      let out (a : Nat) : Bool := !(decide (stackAt k ≤ a ∧ a < stackAt (k + 1)))
      let done := if k ∈ s.start.hbmDone then s.start.hbmDone else k :: s.start.hbmDone
      let s := { s with mem := s.mem.filter (fun x => out x.1), marks := s.marks.filter (fun x => out x.1), start := { s.start with hbmDone := done } }
      .next ((s.phaseTo 6).putB (Reg.hbmStatus k) F.hbmStatusReady true)
  else .fault .noSuchUnit

end Sys2Proof.Machine
end

