-- ==== Sys2Proof/Machine/Fabric.lean ====
section
/-! DEFINITION. Remote operations at their target: checks and windows (R361 to R364), loads and stores (R348, R368), atomics and reply caches (R371 to
R375), flags (R364, R368), read-only copies (R378 to R382), multicast (R383). -/

namespace Sys2Proof.Machine

/-! Responses (R359). -/

/-- The endpoint that originated a request (R359). -/
def originEp (p : Packet) : Nat := bits p.aux.toNat 63 59
/-- The response to a request, before routing (R357, R359). -/
def State.answerOf (s : State) (r : Nat) (p : Packet) (st : Status) (aux : Nat) (data : List Byte) (poison : Bool) : Packet where
  cls := 9
  op := if p.cls = 0xC then 0x20 + p.op % 2 else p.op
  dstPkg := p.originPkg
  dstEp := originEp p
  originPkg := s.pkg
  job := p.job
  tag := p.tag
  poison := poison
  addr := p.addr
  incarnation := s.inc
  status := statusCode st
  retry := p.retry
  aux := BitVec.ofNat 64 (r * 2 ^ 59 + aux)
  data := data
/-- Read data go back over the lattice plane: to the own package as the requester sent its load, to another as the route entry says (R231, R332; DEDUCED,
assumption 49). -/
def State.latticeReply (s : State) (r : Nat) (p : Packet) : Bool :=
  match if p.originPkg = s.pkg then s.op (originEp p) p.tag else none with
  | some o => o.lattice
  | none => s.onLattice r 0 p.originPkg
/-- Answer a request: on the floor network where it came that way, data that go over the lattice plane as a read reply, else on the ring plane (R24,
R231, R331, R332). -/
def State.answer (s : State) (r : Nat) (p : Packet) (st : Status) (aux : Nat) (data : List Byte) (poison : Bool) : State :=
  let a := s.answerOf r p st aux data poison
  if s.onFloor p then (s.overTower (originEp p) 1 a).emit (.floor { a with hopSrc := r, hopDst := originEp p })
  else
  let lattice := p.op = 1 ∧ data ≠ [] ∧ s.latticeReply r p
  let s := match ringTower r with
    | some t => s.overGroup (s.towerCore r t p) .up (if lattice then 2 else 3) a
    | none => s
  if lattice then
    match s.routedBack r a with
    | some q => s.sendLattice r 3 (((if p.originPkg = s.pkg then s.op (originEp p) p.tag else none).map fun o => o.piece.index).getD 0) { q with originPkg := p.originPkg, originCore := p.originCore }
    | none => s.bump Reg.fabRtStat F.fabRtStatNoRoute 1
  else s.respond r a
/-- Answer with a status and no data. -/
def State.deny (s : State) (r : Nat) (p : Packet) (st : Status) : State :=
  let s := if st = .denied then (s.bump Reg.fabOpStat F.fabOpStatDenied 1).pmcRing r 0x20D 1 else s
  s.answer r p st 0 [] false

/-! Checks (R358, R361 to R363). -/

/-- What a check of a request answers: a status that ends it, with the core whose window does not permit the offset; the information line; or the local
address served. -/
inductive Check where
  | ends (st : Status) (core : Option Nat := none)
  | info
  | at_ (a : Nat)
deriving DecidableEq, Repr
/-- A request that the check ends is answered; an offset of a core's window that is not permitted sets access_denied there (R116, R363). -/
def State.denyAt (s : State) (r : Nat) (p : Packet) (st : Status) (core : Option Nat) : State :=
  match core with
  | some c => if st = .denied then (s.coreFault c F.coreFaultAccessDenied).deny r p st else s.deny r p st
  | none => s.deny r p st
/-- An address that fabric operations do not reach (R116, R363): DENIED, with its core where it lies in a window, PATH_FENCED where that core is fenced. -/
def State.unserved (s : State) (l : Nat) : Check :=
  match windowCore l with
  | some c => .ends (if s.coreFenced c then .pathFenced else .denied) (some c)
  | none => .ends .denied
/-- What an operation needs of a window (R363). -/
inductive Need where
  | rd | wr | at_
deriving DecidableEq, Repr
/-- Window w of a job context has the permission (R362). -/
def State.winAllows (s : State) (j w : Nat) : Need → Bool
  | .rd => s.flag (Reg.fabWin0 j w) F.fabWin0Rd
  | .wr => s.flag (Reg.fabWin0 j w) F.fabWin0Wr
  | .at_ => s.flag (Reg.fabWin0 j w) F.fabWin0At
/-- The job context is valid and allows a source (R361). -/
def State.jobAllows (s : State) (j pkg : Nat) : Bool := s.flag (Reg.fabJobCtrl j) F.fabJobCtrlValid && bit (s.rd (Reg.fabJobSrc j)).toNat pkg
/-- The enabled copy entry of a stack that holds a local address (R379). -/
def State.copyAt (s : State) (a : Nat) : Option (Nat × Nat) :=
  match placeOf a with
  | .hbm k _ => ((List.range 256).find? fun e =>
      s.flag (Reg.hbmCopy0 k e) F.hbmCopy0Enable && decide (s.fld (Reg.hbmCopy0 k e) F.hbmCopy0LocalBase ≤ a ∧
        a < s.fld (Reg.hbmCopy0 k e) F.hbmCopy0LocalBase + 2 ^ s.fld (Reg.hbmCopy0 k e) F.hbmCopy0Size)).map fun e => (k, e)
  | _ => none
/-- The first window that holds a range (R363). -/
def State.window (s : State) (j a n : Nat) : Option Nat :=
  (List.range 64).find? fun w =>
    s.flag (Reg.fabWin0 j w) F.fabWin0Valid && decide (s.fld (Reg.fabWin0 j w) F.fabWin0MatchBase ≤ a ∧
      a + n ≤ s.fld (Reg.fabWin0 j w) F.fabWin0MatchBase + 2 ^ s.fld (Reg.fabWin0 j w) F.fabWin0Size)
/-- JOB_CHECK (R363); `shape` is R358's rule for the operation, `load` tells a LOAD. -/
def State.check (s : State) (p : Packet) (n : Nat) (need : Need) (shape load : Bool) : Check :=
  let a := localAddr p.addr
  if s.dev ≠ .run then .ends .notReady
  else if !s.jobAllows p.job p.originPkg || !shape then .ends .denied
  else if placeOf a = .info then (if load ∧ n = 64 ∧ a % 64 = 0 then .info else .ends .denied)
  else match s.window p.job a n with
    | none => .ends .denied
    | some w =>
      let l := s.fld (Reg.fabWin1 p.job w) F.fabWin1LocalBase + (a - s.fld (Reg.fabWin0 p.job w) F.fabWin0MatchBase)
      if !s.winAllows p.job w need then .ends .denied
      else if !(placeOf l).served then s.unserved l
      else if !(placeOf (l + n - 1)).served then s.unserved (l + n - 1)
      else if need ≠ .rd ∧ (s.copyAt l).isSome then .ends .denied
      else .at_ l
/-- Whole lines within one 4 KiB block (R358). -/
def linesOk (a n : Nat) : Bool := decide (a % 64 = 0 ∧ n % 64 = 0 ∧ 64 ≤ n ∧ n ≤ 4096 ∧ a / 4096 = (a + n - 1) / 4096)
/-- The bytes that a LOAD or COPYLD asks for (R359). -/
def loadBytes (p : Packet) : Nat := 64 * (bits p.aux.toNat 58 53 + 1)
/-- A vault whose core is fenced (R205). -/
def State.shut (s : State) (a : Nat) : Bool := match placeOf a with
  | .vault c _ => s.coreFenced c
  | _ => false
/-- Bring a vault to the cycle of a remote access. -/
def State.settle (s : State) (a cyc : Nat) : State := match placeOf a with
  | .vault c _ => s.landCore c cyc (s.core c).work
  | _ => s

/-- The frozen arbiter of the memory that n bytes at a local address lie in (R192, R338). -/
def State.frozenFor (s : State) (a n : Nat) : Option Arbiter :=
  match placeOf a with
  | .vault c _ => if s.frozen c then some (.vault c) else none
  | .hbm k _ => (((List.range ((a % 64 + n + 63) / 64)).map fun i => Arbiter.channel k ((a / 64 + i) % 32)).find? fun x => s.flag (arbCtrl x) F.hbmArbCtrlFreeze)
  | _ => none
/-- A request waits at a frozen arbiter and is not lost (R192, R338). -/
def State.holdPacket (s : State) (r : Nat) (p : Packet) (x : Arbiter) : State :=
  match x with
  | .vault c => s.modCore c fun k => { k with waiting := k.waiting ++ [.packet r p] }
  | x => s.setArb x { s.arb x with waiting := (s.arb x).waiting ++ [(r, p)] }

/-! Loads and copies (R348, R363, R378 to R380). -/

/-- The package information line (R348). -/
def State.infoLine (s : State) : List Byte := padTo 64 (bytesOf s.inc 4 ++ bytesOf 0 4 ++ bytesOf s.pkg 1)
/-- Read lines and answer with them (R49, R363). -/
def State.answerLines (s : State) (r cyc : Nat) (p : Packet) (a n : Nat) : State :=
  if s.shut a then s.deny r p .pathFenced
  else match s.frozenFor a n with
  | some x => s.holdPacket r p x
  | none =>
    let (b, bad, s) := (s.settle a cyc).readAt a n
    s.answer r p (if bad = [] then .ok else .poison) ((n / 64 - 1) * 2 ^ 53) b (bad ≠ [])
/-- The re-fetch record of a copy entry. -/
def State.fetchOf (s : State) (k e : Nat) : Fetch := Sparse.get (fun _ => {}) s.fetches (256 * k + e)
/-- Replace the re-fetch record of a copy entry. -/
def State.setFetch (s : State) (k e : Nat) (f : Fetch) : State := { s with fetches := Sparse.set (fun _ => {}) s.fetches (256 * k + e) f }
/-- Serve a LOAD or COPYLD at a local address: a read of an invalid copy range waits and starts a re-fetch (R380). -/
def State.serveLoad (s : State) (r cyc : Nat) (p : Packet) (a : Nat) : State :=
  match s.copyAt a with
  | none => s.answerLines r cyc p a (loadBytes p)
  | some (k, e) =>
    if s.flag (Reg.hbmCopy0 k e) F.hbmCopy0Valid then s.answerLines r cyc p a (loadBytes p)
    else
      let f := s.fetchOf k e
      if s.flag (Reg.hbmCopy0 k e) F.hbmCopy0Fetching then s.setFetch k e { f with waiting := f.waiting ++ [p] }
      else (s.putB (Reg.hbmCopy0 k e) F.hbmCopy0Fetching true).setFetch k e { waiting := [p] }
/-- The check of a request that reads lines. -/
def State.checkLoad (s : State) (p : Packet) (load : Bool) : Check := s.check p (loadBytes p) .rd (linesOk (localAddr p.addr) (loadBytes p)) load
/-- A LOAD at an endpoint (R363). -/
def State.takeLoad (s : State) (r cyc : Nat) (p : Packet) : State :=
  match s.checkLoad p true with
  | .ends st c => s.denyAt r p st c
  | .info => s.answer r p .ok 0 s.infoLine false
  | .at_ a => s.serveLoad r cyc p a
/-- An op code of a request that R357 leaves reserved. -/
def reservedOp (op : Nat) : Bool := !(decide (1 ≤ op ∧ op ≤ 6) || decide (16 ≤ op ∧ op ≤ 25))
/-- A request arrives at an endpoint of the package that serves memory (R363); one with a reserved op is discarded and answered DENIED (R357). -/
def onTarget (t : At) (r : Nat) (p : Packet) (cls op last : Nat) (s : State) (f : State → State) : Result :=
  if r < Config.rings then
    let s := s.at t
    if s.dead then .next s else
    if p.cls = cls ∧ op ≤ p.op ∧ p.op ≤ last ∧ ((ringTower r).isSome ∨ (ringMem r).isSome) then .next (f (s.pmcRing r 0x20C 1))
    else if cls = 8 ∧ p.cls = 8 ∧ reservedOp p.op ∧ ((ringTower r).isSome ∨ (ringMem r).isSome) then .next ((s.pmcRing r 0x20C 1).deny r p .denied)
    else .next s
  else .fault .noSuchUnit
/-- LOAD (R363). -/
def execLoad (t : At) (r : Nat) (p : Packet) (s : State) : Result := onTarget t r p 8 1 1 s fun s => s.takeLoad r t.cyc p

/-! Stores (R353, R368, R383). -/

/-- Write a store's lines and acknowledge it (R205, R353, R368). -/
def State.storeAt (s : State) (r cyc : Nat) (p : Packet) (a : Nat) : State :=
  if s.shut a then s.deny r p .pathFenced
  else match s.frozenFor a p.data.length with
  | some x => s.holdPacket r p x
  | none =>
    let bad := if p.poison then (List.range (p.data.length / 8)).map fun i => a + 8 * i else []
    (((s.settle a cyc).writeAt a p.data bad)).answer r p .ok 0 [] false
/-- A STORE or a member's part of an MSTORE at an endpoint. -/
def State.takeStore (s : State) (r cyc : Nat) (p : Packet) : State :=
  match s.check p p.data.length .wr (linesOk (localAddr p.addr) p.data.length) false with
  | .ends st c => s.denyAt r p st c
  | .info => s.deny r p .denied
  | .at_ a => s.storeAt r cyc p a
/-- STORE (R368). -/
def execStore (t : At) (r : Nat) (p : Packet) (s : State) : Result := onTarget t r p 8 2 2 s fun s => s.takeStore r t.cyc p
/-- The address of a multicast store at a tower: bits [35:32] of a vault address become the tower's number (R230, R383). -/
def castAddr (r a : Nat) : Nat :=
  match ringTower r, placeOf (localAddr a) with
  | some t, .vault c _ => a - towerOf c * 2 ^ 32 + t * 2 ^ 32
  | _, _ => a
/-- The lowest free tag of an endpoint (R365). -/
def State.freeTag (s : State) (r : Nat) : Option Nat := (List.range (tagsOf r)).find? fun t => (s.op r t).isNone
/-- The queue of a fibre endpoint's copies that wait for a tag. -/
def castQueue (n : Nat) : Nat := 64 + n
/-- The copy of a multicast for a package (R383), with the origin's tag and endpoint as yet. -/
def castPacket (p : Packet) (m : Nat) : Packet :=
  let e := endpointOf (localAddr p.addr)
  { p with dstPkg := m, dstEp := e, hopDst := e, rxMap := 0, ptr := 0, addr := m * 2 ^ 45 + localAddr p.addr, aux := BitVec.ofNat 64 (originEp p * 2 ^ 59) }
/-- The answer for a member whose fibre is fenced by now (R337, R383). -/
def State.castFenced (s : State) (r : Nat) (q : Packet) : State :=
  (s.bump Reg.fabRtStat F.fabRtStatFencedDrops 1).respond r
    { cls := 9, op := 3, dstPkg := s.pkg, dstEp := originEp q, originPkg := q.dstPkg, job := q.job, tag := q.tag, addr := q.addr, incarnation := s.inc,
      status := statusCode .pathFenced, retry := q.retry, aux := BitVec.ofNat 64 (r * 2 ^ 59) }
/-- A fibre endpoint sends a member's copy on its fibre under a tag of its own; with none free it waits (R365, R383). -/
def State.castCopy (s : State) (r n : Nat) (q : Packet) : State :=
  let toks := bits (s.routeEntry r q.dstPkg) 53 36
  match token toks 0 with
  | none => s.castFenced r q
  | some x =>
    if x / 8 ≠ n then s
    else if !s.fibreUp x then s.castFenced r q
    else match s.freeTag r with
      | none => s.setQueue (castQueue n) 0 (s.queue (castQueue n) 0 ++ [q])
      | some tag =>
        let p : Packet := { q with tokens := toks, tag := tag, aux := BitVec.ofNat 64 (r * 2 ^ 59) }
        let d := s.now + s.fld Reg.fabTimeout F.fabTimeoutRackTimeout
        (s.setOp r tag { pkt := p, issue := s.now, took := s.now, sent := s.now, attempts := 1, deadline := d, left := true, host := some (originEp q, q.tag, q.dstPkg) }).ontoFibre x 0 p
/-- A fibre endpoint copies a multicast onto each member's fibre (R383). -/
def State.castCopies (s : State) (r n : Nat) (p : Packet) : State :=
  match s.op (originEp p) p.tag with
  | none => s
  | some o => (o.members.filter fun m => decide (m < 64 ∧ m ≠ s.pkg)).foldl (fun s m => s.castCopy r n (castPacket p m)) s
/-- A tag of a fibre endpoint is free: the copy that waits first takes it. -/
def State.pumpCast (s : State) (r n : Nat) : State :=
  match s.queue (castQueue n) 0 with
  | [] => s
  | q :: rest => (s.setQueue (castQueue n) 0 rest).castCopy r n q
/-- MSTORE (R383): a member writes it, a fibre endpoint copies it onto fibres. -/
def execMstore (t : At) (r : Nat) (p : Packet) (s : State) : Result :=
  match ringFibre r with
  | some n => .next ((s.at t).ifAwake fun s => if p.cls = 8 ∧ p.op = 3 then s.castCopies r n p else s)
  | none => onTarget t r p 8 3 3 s fun s => s.takeStore r t.cyc { p with addr := castAddr r p.addr }

/-! Atomics (R371 to R375). -/

/-- The atomic unit of a local address: an HBM controller, or the port block of a core (R372). -/
def unitOf (a : Nat) : Nat := match placeOf a with
  | .vault c _ => 256 + 16 * towerOf c + portBlock c
  | .hbm k _ => k
  | _ => 0
/-- The entry that an atomic matches (R374). -/
def State.cached (s : State) (u : Nat) (p : Packet) : Option CacheEntry :=
  s.cache.find? fun e => decide (e.unit = u ∧ e.pkg = p.originPkg ∧ e.ep = originEp p ∧ e.tag = p.tag ∧ e.inc = p.incarnation ∧ e.seq = bits p.aux.toNat 47 32)
/-- Keep an atomic's outcome: the last 64 of its source (R374). -/
def State.remember (s : State) (x : CacheEntry) : State :=
  let same (e : CacheEntry) : Bool := decide (e.unit = x.unit ∧ e.pkg = x.pkg ∧ e.ep = x.ep)
  { s with cache := x :: ((s.cache.filter same).take 63 ++ s.cache.filter fun e => !same e) }
/-- Answer an atomic with an old value and status (R371, R374). -/
def State.answerAtomic (s : State) (r : Nat) (p : Packet) (old st : Nat) : State :=
  s.answer r p (statusOf st) (bits p.aux.toNat 47 32 * 2 ^ 32) (padTo 64 (bytesOf old 8)) false
/-- An atomic at an endpoint (R371 to R375). -/
def State.takeAtomic (s : State) (r cyc : Nat) (p : Packet) : State :=
  let x := p.aux.toNat
  let n := if bit x 52 then 8 else 4
  match s.check p n .at_ (decide (localAddr p.addr % n = 0)) false with
  | .ends st c => s.denyAt r p st c
  | .info => s.deny r p .denied
  | .at_ a =>
    if s.shut a then s.deny r p .pathFenced
    else if bits x 31 0 ≠ s.inc then s.answer r p .unknown (bits x 47 32 * 2 ^ 32) [] false
    else
      let u := unitOf a
      match s.cached u p, s.frozenFor a n with
      | some e, _ => (s.pmcRing r 0x20E 1).answerAtomic r p e.old.toNat e.status
      | none, some y => s.holdPacket r p y
      | none, none =>
        let (old, bad, s) := (s.settle a cyc).applyAtomic (p.op - 16) n a (fieldAt p.data 0 8) (fieldAt p.data 8 8)
        let st := if bad then statusCode .poison else 0
        let s := s.remember { unit := u, pkg := p.originPkg, ep := originEp p, tag := p.tag, inc := p.incarnation, seq := bits x 47 32, old := BitVec.ofNat 64 old, status := st }
        (s.pmcRing r 0x20F 1).answerAtomic r p old st
/-- ATOMIC (R371 to R375). -/
def execAtomic (t : At) (r : Nat) (p : Packet) (s : State) : Result := onTarget t r p 8 16 25 s fun s => s.takeAtomic r t.cyc p

/-! Flags (R199, R364, R368). -/

/-- FLAG_PACKET: the set enters the flag network at the port block; it is answered once it is set, or at once if refused: NOT_READY outside RUN, DENIED where
the job check fails, PATH_FENCED for a fenced core, the earliest of them that applies (R16, R363, R364). -/
def execFlagPacket (t : At) (r : Nat) (p : Packet) (s : State) : Result :=
  onTarget t r p 0xC 0 1 s fun s =>
    let x := p.aux.toNat
    let c := bits x 19 8
    let p := { p with aux := BitVec.ofNat 64 ((if p.originPkg = s.pkg then p.hopSrc else endpointOf (windowOf p.originCore)) * 2 ^ 59) }
    if s.dev ≠ .run then s.deny r p .notReady
    else if !(decide (some (towerOf c) = ringTower r ∧ s.fld (Reg.coreJob c) F.coreJobJob = p.job) && s.jobAllows p.job p.originPkg) then s.deny r p .denied
    else if s.coreFenced c then s.deny r p .pathFenced
    else
      s.modCore c fun k => { k with flagsIn := k.flagsIn ++ [{ at_ := t.cyc, src := p.originCore, flag := bits x 7 0, answer := some (r, s.answerOf r p .ok 0 [] false) }] }

/-! Regions, invalidation, copies (R378 to R381). -/

/-- The region that holds a local address (R378). -/
def State.regionAt (s : State) (a : Nat) : Option Nat :=
  (List.range 4096).find? fun i =>
    s.flag (Reg.fabReg0 i) F.fabReg0Valid && decide (s.fld (Reg.fabReg0 i) F.fabReg0Base ≤ a ∧
      a < s.fld (Reg.fabReg0 i) F.fabReg0Base + 2 ^ s.fld (Reg.fabReg0 i) F.fabReg0Size)
/-- The running invalidation of a region. -/
def State.invOf (s : State) (i : Nat) : Option InvRun := Sparse.get (fun _ => none) (s.invs.map fun e => (e.1, some e.2)) i
/-- Replace the running invalidation of a region. -/
def State.setInv (s : State) (i : Nat) (v : InvRun) : State := { s with invs := Sparse.place (Sparse.drop s.invs i) i v }
/-- The tile on which a holder keeps its copy (R378). -/
def State.holderTile (s : State) (i h : Nat) : Nat := (s.rd (Reg.fabRegTile i (h / 32))).toNat / 2 ^ (2 * (h % 32)) % 4
/-- A COPYLD of a region that no invalidation holds: answered as a LOAD, and the holder recorded (R380). -/
def State.serveCopyld (s : State) (r cyc : Nat) (p : Packet) (a : Nat) : State :=
  let s := match s.regionAt a with
    | some i =>
      let h := p.originPkg
      let s := s.wr (Reg.fabReg1 i) (s.rd (Reg.fabReg1 i) ||| BitVec.ofNat 64 (2 ^ h))
      s.putF (Reg.fabRegTile i (h / 32)) ⟨2 * (h % 32) + 1, 2 * (h % 32)⟩ (bits p.aux.toNat 51 50)
    | none => s
  s.serveLoad r cyc p a
/-- COPYLD (R380, R381). -/
def State.takeCopyld (s : State) (r cyc : Nat) (p : Packet) : State :=
  match s.checkLoad p false with
  | .ends st c => s.denyAt r p st c
  | .info => s.deny r p .denied
  | .at_ a =>
    match (s.regionAt a).bind fun i => (s.invOf i).map fun v => (i, v) with
    | some (i, v) => s.setInv i { v with waiting := v.waiting ++ [p] }
    | none => s.serveCopyld r cyc p a
/-- COPYLD (R380). -/
def execCopyld (t : At) (r : Nat) (p : Packet) (s : State) : Result := onTarget t r p 8 6 6 s fun s => s.takeCopyld r t.cyc p
/-- The transmitter input of requests that an endpoint other than a tower originates (R339; DESIGN CHOICE, assumption 18). -/
def originInput (r : Nat) : Nat := if r = 0 then 0 else 14
/-- Send a request that an endpoint originates under a free tag; none where its package has no route (R333, R365). -/
def State.originate (s : State) (r tag : Nat) (o : RemOp) : Option State :=
  let p := { o.pkt with tag := tag, originPkg := s.pkg, incarnation := s.inc }
  (s.routed r p).map fun q => (s.setOp r tag { o with pkt := q, attempts := 1, issue := s.now, took := s.now, sent := s.now }).sendAt r (originInput r) q
/-- A holder can be reached (R381): its route entry is valid and its path not fenced. -/
def State.reaches (s : State) (r i h : Nat) : Bool :=
  let e := s.routeEntry r h
  !s.ringFenced r && bit e 63 && (if h = s.pkg then !s.ringFenced (memRing (s.holderTile i h)) else (bits e 60 59 ≠ 0) && match token (bits e 53 36) 0 with
    | some x => s.fibreUp x && !s.ringFenced (fibreRing (x / 8))
    | none => false)
/-- Send INVH to the holders that wait for a tag (R365, R381). -/
def State.pumpInv (s : State) (r i : Nat) : Nat → State
  | 0 => s
  | n + 1 =>
    match s.invOf i, s.freeTag r with
    | some v, some tag =>
      (match v.unsent with
       | [] => s
       | h :: rest =>
         let p : Packet := { cls := 8, op := 5, dstPkg := h, dstEp := memRing (s.holderTile i h), job := v.req.job,
                             addr := s.pkg * 2 ^ 45 + s.fld (Reg.fabReg0 i) F.fabReg0Base, aux := BitVec.ofNat 64 (r * 2 ^ 59) }
         let s := s.setInv i { v with unsent := rest }
         ((s.originate r tag { pkt := p, host := some (5, i, h) }).getD s).pumpInv r i n)
    | _, _ => s
/-- Start an invalidation of a region, or answer at once where no holder can be reached (R381). -/
def State.startInv (s : State) (r i : Nat) (p : Packet) : State :=
  let holders := (List.range 64).filter fun h => bit (s.rd (Reg.fabReg1 i)).toNat h
  let gone := holders.filter fun h => !s.reaches r i h
  let s := gone.foldl (fun s h => s.log 0x0602 (srcUnit (12 + r % 4) i) [i, h]) s
  let s := s.wr (Reg.fabReg1 i) (BitVec.ofNat 64 ((holders.filter (s.reaches r i)).foldl (fun m h => m + 2 ^ h) 0))
  let rest := holders.filter (s.reaches r i)
  if rest = [] then (s.wr (Reg.fabReg1 i) 0).answer r p (if gone = [] then .ok else .partialDone) 0 [] false
  else
    let s := (s.putB (Reg.fabReg0 i) F.fabReg0InvBusy true).setInv i { req := p, left := rest, unsent := rest, notReached := decide (gone ≠ []) }
    s.pumpInv r i rest.length
/-- What waited for an invalidation runs: INVs before COPYLDs (R381, R385). -/
def State.runWaiting (s : State) (r i cyc : Nat) : List Packet → State
  | [] => s
  | p :: rest =>
    match s.invOf i with
    | some v => s.setInv i { v with waiting := v.waiting ++ (p :: rest) }
    | none =>
      let s := if p.op = 4 then s.startInv r i p else (match s.checkLoad p false with
        | .at_ a => s.serveCopyld r cyc p a
        | .ends st c => s.denyAt r p st c
        | .info => s.deny r p .denied)
      s.runWaiting r i cyc rest
/-- A holder has answered an INVH, or cannot: with the last one the holders are cleared and the INV answered (R381). -/
def State.holderDone (s : State) (r i h cyc : Nat) (st : Status) : State :=
  match s.invOf i with
  | none => s
  | some v =>
    let v := { v with left := v.left.filter (· ≠ h), fenced := v.fenced || decide (st = .pathFenced),
                      notReached := v.notReached || decide (st ≠ .ok ∧ st ≠ .pathFenced) }
    if v.left ≠ [] then (s.setInv i v).pumpInv r i v.unsent.length
    else
      let s := { s with invs := Sparse.drop s.invs i }
      let s := (s.wr (Reg.fabReg1 i) 0).putB (Reg.fabReg0 i) F.fabReg0InvBusy false
      let s := s.answer r v.req (if v.fenced then .pathFenced else if v.notReached then .partialDone else .ok) 0 [] false
      s.runWaiting r i cyc (v.waiting.filter (fun p => decide (p.op = 4)) ++ v.waiting.filter fun p => decide (p.op ≠ 4))
/-- INV at the endpoint that holds the region (R381). -/
def execInv (t : At) (r : Nat) (p : Packet) (s : State) : Result :=
  onTarget t r p 8 4 4 s fun s =>
    match s.check p 1 .wr true false with
    | .ends st c => s.denyAt r p st c
    | .info => s.deny r p .denied
    | .at_ a =>
      match s.regionAt a with
      | none => s.deny r p .denied
      | some i =>
        match s.invOf i with
        | some v => s.setInv i { v with waiting := v.waiting ++ [p] }
        | none => s.startInv r i p
/-- INVH at a holder's memory endpoint: its copy of the region is marked invalid; a running re-fetch runs again (R381, R385). -/
def execInvh (t : At) (r : Nat) (p : Packet) (s : State) : Result :=
  onTarget t r p 8 5 5 s fun s =>
    match ringMem r with
    | none => s.deny r p .denied
    | some n =>
      if s.dev ≠ .run then s.deny r p .notReady
      else if !s.jobAllows p.job p.originPkg then s.deny r p .denied
      else
        let mine := ((List.range 4).map fun k => ((List.range 256).filter fun e =>
          s.flag (Reg.hbmCopy0 (4 * n + k) e) F.hbmCopy0Enable && decide (s.fld (Reg.hbmCopy1 (4 * n + k) e) F.hbmCopy1Source = p.addr)).map fun e => (4 * n + k, e)).flatten
        let s := mine.foldl (fun s x =>
          let s := s.putB (Reg.hbmCopy0 x.1 x.2) F.hbmCopy0Valid false
          if s.flag (Reg.hbmCopy0 x.1 x.2) F.hbmCopy0Fetching then s.setFetch x.1 x.2 { s.fetchOf x.1 x.2 with again := true } else s) s
        s.answer r p .ok 0 [] false
/-- A COPYLD of a re-fetch is answered: its lines land, waiting where their channel is frozen (R338); the last makes the copy valid and serves the waiting reads, or ends the re-fetch with the status of
those that failed: where several failed with different ones, the earliest of R16 (R380, R385; DESIGN CHOICE, assumption 114). -/
def State.copyldDone (s : State) (k e off cyc : Nat) (st : Status) (data : List Byte) : State :=
  let f := s.fetchOf k e
  let r := memRing (k / 4)
  let a := s.fld (Reg.hbmCopy0 k e) F.hbmCopy0LocalBase + off
  match if st = .ok then s.frozenFor a data.length else none with
  | some x => s.holdPacket r { cls := 9, op := 6, tag := 256 * k + e, addr := off, data := data } x
  | none =>
  let s := if st = .ok then s.writeAt a data [] else s
  let f := { f with out := f.out - 1, bad := if st = .ok then f.bad else some (firstOf (f.bad.getD st) st) }
  if f.out ≠ 0 ∨ (f.bad.isNone ∧ f.next < 2 ^ s.fld (Reg.hbmCopy0 k e) F.hbmCopy0Size) then s.setFetch k e f
  else if f.again then
    (if f.bad.isNone then s.bump (Reg.hbmCopy2 k e) F.hbmCopy2Refetches 1 else s).setFetch k e { waiting := f.waiting }
  else
    let s := (s.putB (Reg.hbmCopy0 k e) F.hbmCopy0Fetching false).setFetch k e {}
    match f.bad with
    | some b => f.waiting.foldl (fun s p => s.answer r p b 0 [] false) s
    | none =>
      let s := (s.putB (Reg.hbmCopy0 k e) F.hbmCopy0Valid true).bump (Reg.hbmCopy2 k e) F.hbmCopy2Refetches 1
      f.waiting.foldl (fun s p => if p.op = 6 then s.takeCopyld r cyc p else s.takeLoad r cyc p) s
/-- A request that waited at a frozen arbiter is served again from its check on, and the lines of a re-fetch land (R192, R338, R363). -/
def State.retake (s : State) (r cyc : Nat) (p : Packet) : State :=
  if p.cls = 9 then s.copyldDone (p.tag / 256) (p.tag % 256) p.addr cyc .ok p.data
  else match p.op with
  | 1 => s.takeLoad r cyc p
  | 2 | 3 => s.takeStore r cyc p
  | 6 => s.takeCopyld r cyc p
  | _ => s.takeAtomic r cyc p

/-- REFETCH: the next COPYLD of a copy's re-fetch is sent under a free tag (R380). -/
def execRefetch (t : At) (k e : Nat) (s : State) : Result :=
  if k < Config.hbmStacks ∧ e < 256 then
    let s := s.at t
    if s.dead then .next s else
    let f := s.fetchOf k e
    let r := memRing (k / 4)
    let size := 2 ^ s.fld (Reg.hbmCopy0 k e) F.hbmCopy0Size
    if s.flag (Reg.hbmCopy0 k e) F.hbmCopy0Fetching = false ∨ size ≤ f.next ∨ f.bad.isSome then .next s
    else match s.freeTag r with
      | none => .next s
      | some tag =>
        let a := s.fld (Reg.hbmCopy1 k e) F.hbmCopy1Source + f.next
        let p : Packet := { cls := 8, op := 6, dstPkg := pkgOf a, dstEp := endpointOf (localAddr a), job := s.fld (Reg.hbmCopy2 k e) F.hbmCopy2Job,
                            addr := a, aux := BitVec.ofNat 64 (r * 2 ^ 59 + 63 * 2 ^ 53 + k / 4 * 2 ^ 50) }
        let s := s.setFetch k e { f with next := f.next + 4096, out := f.out + 1 }
        .next (match s.originate r tag { pkt := p, host := some (6, 256 * k + e, f.next) } with
          | some s => s
          | none => (s.bump Reg.fabRtStat F.fabRtStatNoRoute 1).copyldDone k e f.next t.cyc .pathFenced [])
  else .fault .noSuchUnit
end Sys2Proof.Machine
end

