-- ==== Sys2Proof/Machine/Image.lean ====
section
/-! DEFINITION. The configuration store and the image: banks, header and body checks, sections, content checks (R388 to R405, R81, R227,
R237, R263, R325, R362). -/

namespace Sys2Proof.Machine

/-! Signatures and the header (R392, R393, R404). -/

/-- A signature is valid: the key's digest fills a slot that is not revoked, the point lies on the curve, the signature verifies (R393). -/
def State.sigOk (s : State) (keyIndex : Nat) (key msg sig : List Byte) : Bool :=
  decide (keyIndex < 8) && decide (s.fuses.keys[keyIndex]? = some (Config.sha384 key)) && !s.fuses.revoked.contains keyIndex &&
    Config.onCurve key && Config.ecdsaVerify key msg sig
/-- The bytes of a bank: two devices of S − 64 MiB together hold that much a bank (R389). -/
def State.bankSize (s : State) : Nat := s.store.size - 0x4000000
/-- A bank: false A, true B. -/
def State.bank (s : State) (b : Bool) : Bank := if b then s.store.bankB else s.store.bankA
/-- Replace a bank. -/
def State.setBank (s : State) (b : Bool) (k : Bank) : State :=
  if b then { s with store := { s.store with bankB := k } } else { s with store := { s.store with bankA := k } }
/-- A body block's bytes. -/
def Bank.block (b : Bank) (i : Nat) : List Byte := Sparse.get (fun _ => []) b.blocks i
/-- The header's sequence. -/
def hSequence (h : List Byte) : Nat := fieldAt h 8 8
/-- The header's body blocks. -/
def hBlocks (h : List Byte) : Nat := fieldAt h 0x10 8 / 0x10000
/-- The header's start step. -/
def hStartStep (h : List Byte) : Nat := fieldAt h 0x18 8
/-- The header's required capability word. -/
def hRequired (h : List Byte) : Nat := fieldAt h 0x50 4
/-- The header's key index. -/
def hKey (h : List Byte) : Nat := fieldAt h 0x54 1
/-- The header's package id. -/
def hPackage (h : List Byte) : Nat := fieldAt h 0x55 1
/-- The header's join lead. -/
def hJoinLead (h : List Byte) : Nat := fieldAt h 0x56 2
/-- The header's join set. -/
def hJoinSet (h : List Byte) : Nat := fieldAt h 0x58 8
/-- The header's join timeout. -/
def hJoinTimeout (h : List Byte) : Nat := fieldAt h 0x60 4
/-- The header's job identity. -/
def hDigest (h : List Byte) : List Byte := (h.drop 0x70).take 48
/-- Bytes at an offset are all 0. -/
def zeroAt (l : List Byte) (off n : Nat) : Bool := ((l.drop off).take n).all fun b => decide (b = 0)
/-- The value ranges and zero fields of R392. -/
def headerRanges (size : Nat) (h : List Byte) : Bool :=
  let len := fieldAt h 0x10 8
  decide (1 ≤ hSequence h) && decide (hSequence h ≤ 0xFFFFFFFFFFFFFFFE) && decide (len % 0x10000 = 0) && decide (0x10000 ≤ len) &&
    decide (len + 0x10000 ≤ size) && decide (hRequired h < 0x1000) && decide (hKey h < 8) &&
    (decide (hPackage h < 32) || decide (hPackage h = 0xFF)) && decide (256 ≤ hJoinLead h) && decide (1 ≤ hJoinTimeout h) &&
    decide (hJoinTimeout h ≤ 600000) && zeroAt h 6 2 && zeroAt h 0x64 12 && zeroAt h 0xA0 96 && zeroAt h 0x161 31 && zeroAt h 0x1E0 3612
/-- The header's signature is valid. -/
def State.headerSig (s : State) (h : List Byte) : Bool :=
  s.sigOk (hKey h) ((h.drop 0x100).take 97) (h.take 0x180) ((h.drop 0x180).take 96)
/-- header_check: the state that a bank records, 1 where every test passes (R404). -/
def State.headerCheck (s : State) (h : List Byte) : Nat :=
  if fieldAt h 0 4 ≠ 0x31494654 then 2
  else if fieldAt h 4 2 ≠ 1 then 7
  else if fieldAt h 0xFFC 4 ≠ crc32c (padTo 0xFFC h) then 3
  else if headerRanges s.bankSize h = false then 9
  else if s.headerSig h = false then 4 else 1

/-! Blocks and sections (R394, R395). -/

/-- A body block's check matches. -/
def blockOk (l : List Byte) : Bool := decide (l.length = 0x10000) && decide (fieldAt l 65532 4 = crc32c (l.take 65532))
/-- The body of a bank: every byte of its blocks. -/
def Bank.body (b : Bank) : List Byte := ((List.range (hBlocks b.header)).map fun i => b.block i).flatten
/-- The payload of a range of blocks. -/
def Bank.payload (b : Bank) (first count : Nat) : List Byte := ((List.range count).map fun i => (b.block (first + i)).take 65532).flatten
/-- An entry of the section directory. -/
structure Sect where
  kind : Nat := 0
  first : Nat := 0
  count : Nat := 0
  length : Nat := 0
  zero : Bool := true
deriving DecidableEq, Repr
/-- The section directory. -/
def Bank.sections (b : Bank) : List Sect :=
  let d := b.payload 0 1
  (List.range (fieldAt d 0 4)).map fun i =>
    let o := 32 + 32 * i
    { kind := fieldAt d o 4, first := fieldAt d (o + 4) 4, count := fieldAt d (o + 8) 4, length := fieldAt d (o + 16) 8, zero := zeroAt d (o + 12) 4 && zeroAt d (o + 24) 8 }
/-- The payload stream of a section; none where the image has no such section. -/
def Bank.stream (b : Bank) (kind : Nat) : Option (List Byte) :=
  (b.sections.find? fun e => decide (e.kind = kind)).map fun e => (b.payload e.first e.count).take e.length
/-- Two sections have different types and disjoint blocks. -/
def sectsApart (a b : Sect) : Bool :=
  decide (a.kind ≠ b.kind) && (decide (a.first + a.count ≤ b.first) || decide (b.first + b.count ≤ a.first))
/-- No two entries of a list break a relation. -/
def pairsOk {α : Type} (ok : α → α → Bool) : List α → Bool
  | [] => true
  | a :: r => r.all (ok a) && pairsOk ok r
/-- The directory rules of R395. -/
def Bank.directoryOk (b : Bank) : Bool :=
  let d := b.payload 0 1
  let l := b.sections
  decide (1 ≤ l.length) && decide (l.length ≤ 16) && zeroAt d 4 28 && pairsOk sectsApart l &&
    (l.all fun e => decide (1 ≤ e.kind ∧ e.kind ≤ 8 ∧ 1 ≤ e.first ∧ e.first + e.count ≤ hBlocks b.header ∧ e.length ≤ e.count * 65532) && e.zero) &&
    [1, 2, 3, 4].all fun k => l.any fun e => decide (e.kind = k)

/-! The sections' entries. -/

/-- A configuration record: stage, address, value and whether bits [61:40] are 0 (R396). -/
structure CfgRec where
  stage : Nat := 0
  addr : Nat := 0
  value : Word := 0
  zero : Bool := true
deriving DecidableEq, Repr
/-- The configuration records of an image, in order. -/
def recordsOf (l : List Byte) : List CfgRec :=
  (List.range (fieldAt l 0 8)).map fun i =>
    let w := fieldAt l (8 + 16 * i) 8
    { stage := w / 2 ^ 62, addr := w % 2 ^ 40, value := BitVec.ofNat 64 (fieldAt l (16 + 16 * i) 8), zero := decide (w / 2 ^ 40 % 2 ^ 22 = 0) }
/-- A job table entry: its job number and its offset (R399). -/
def jobsOf (l : List Byte) : List (Nat × Nat) := (List.range (fieldAt l 0 4)).map fun i => (fieldAt l (8 + 1056 * i) 2, 8 + 1056 * i)
/-- A program entry (R400). -/
structure Prog where
  core : Nat := 0
  flags : Nat := 0
  pc : Nat := 0
  job : Nat := 0
  count : Nat := 0
  source : Nat := 0
  zero : Bool := true
  at_ : Nat := 0
deriving DecidableEq, Repr
/-- The program entries from an offset on. -/
def progsFrom (l : List Byte) : Nat → Nat → List Prog
  | _, 0 => []
  | o, n + 1 =>
    let p : Prog := { core := fieldAt l o 2, flags := fieldAt l (o + 2) 2, pc := fieldAt l (o + 4) 2, job := fieldAt l (o + 6) 2, count := fieldAt l (o + 8) 4, source := fieldAt l (o + 12) 2, zero := zeroAt l (o + 14) 2, at_ := o + 16 }
    p :: progsFrom l (o + 16 + 16 * p.count) n
/-- The program entries of an image. -/
def progsOf (l : List Byte) : List Prog := progsFrom l 16 (fieldAt l 0 4)
/-- The preload records: target, length and offset of the data, until the section ends (R401). -/
def preloadsFrom (l : List Byte) : Nat → Nat → List (Nat × Nat × Nat)
  | _, 0 => []
  | o, n + 1 => if l.length ≤ o then [] else (fieldAt l o 8, fieldAt l (o + 8) 8, o + 16) :: preloadsFrom l (o + 16 + fieldAt l (o + 8) 8) n
/-- The preload records of an image. -/
def preloadsOf (l : List Byte) : List (Nat × Nat × Nat) := preloadsFrom l 0 (l.length / 16)
/-- The variant table of an image (R81). -/
def vtableOf (l : List Byte) : VTable where
  slots := (List.range (fieldAt l 0 2)).map fun i => (fieldAt l (16 + 4 * i) 1, fieldAt l (17 + 4 * i) 1)
  policy := fieldAt l 4 1
  rules := (List.range (fieldAt l 2 2)).map fun i =>
    let o := 16 + 4 * fieldAt l 0 2 + 32 * i
    { slot := fieldAt l o 2, metric := fieldAt l (o + 2) 1, sense := fieldAt l (o + 3) 1, nSteps := fieldAt l (o + 4) 1, target := fieldAt l (o + 5) 1, initialRun := fieldAt l (o + 6) 2, threshold := fieldAt l (o + 8) 4, tid := fieldAt l (o + 12) 4, addr := fieldAt l (o + 16) 8 }
/-- A calibration override: class, tile, index, value and whether bits [53:48] are 0 (R263). -/
def overridesOf (l : List Byte) : List (Nat × Nat × Nat × Int × Bool) :=
  (List.range (fieldAt l 0 4)).map fun i =>
    let w := fieldAt l (4 + 8 * i) 8
    (bits w 63 56, bits w 55 54, bits w 47 16, signed 16 (bits w 15 0), decide (bits w 53 48 = 0))
/-- The fence map of an image: kind, value, and whether the unused bits are 0 (R402). -/
def fenceEntries (l : List Byte) : List (FenceEl × Bool) :=
  (List.range (fieldAt l 0 4)).map fun i =>
    let w := fieldAt l (4 + 8 * i) 8
    ({ kind := w / 2 ^ 56, value := w % 2 ^ 56 }, match w / 2 ^ 56 with
      | 1 => decide (w % 2 ^ 56 < 3072)
      | 2 => decide (w % 2 ^ 56 < 12)
      | 3 => decide (w % 2 ^ 56 / 256 < 12 ∧ w % 256 < 64)
      | 4 => (decide (w % 2 ^ 56 / 256 < 20) || decide (w % 2 ^ 56 / 256 = 31)) && decide (w % 256 < 32)
      | 5 => decide (w % 2 ^ 56 < 32)
      | _ => false)

/-! Content checks (R405). -/

/-- Registers that stage 0 records write and stage 1 records do not (R397). -/
def stageZeroReg (a : Nat) : Bool :=
  decide (a = Reg.onxLightPolicy) || (List.range 4).any fun n =>
    decide (a = Reg.flrPolicy n ∨ a = Reg.tcSyncComp n) || (List.range 8).any (fun x => decide (a = Reg.fibCtrl n x)) ||
      decide (0x6000000 ≤ a ∧ a < 0x6010000)
/-- Registers that records must not address (R397). -/
def forbiddenReg (a : Nat) : Bool :=
  decide (0x7010000 ≤ a ∧ a < 0x7010000 + 21 * 0x10000 ∧ (a - 0x7010000) % 0x10000 < 0x400) || decide (0x7300000 ≤ a ∧ a < 0x7308000) ||
    decide (0x7400000 ≤ a ∧ a < 0x7500000) || decide (0x2100 ≤ a ∧ a < 0x2180) || decide (0xA000 ≤ a ∧ a < 0xC000) ||
    (decide (0x100000000 ≤ a ∧ a < 0x10C000000) && [Reg.coreCtrl 0, Reg.coreJob 0, Reg.coreStep 0, Reg.coreSeed 0].any fun k =>
      decide ((a - 0x100000000) % 0x10000 = k - 0x100000000))
/-- A record keeps R396 and R397. -/
def CfgRec.ok (r : CfgRec) : Bool :=
  decide (r.stage ≤ 1) && r.zero && decide (r.addr % 8 = 0) && (windowRows r.addr).isSome && !forbiddenReg r.addr && (decide (r.stage = 0) == stageZeroReg r.addr)
/-- The records of a stage. -/
def stageOf (n : Nat) (l : List CfgRec) : List CfgRec := l.filter fun r => decide (r.stage = n)
/-- Write a register with the force of a write in HOLD (R396): RO, W1C and reserved fields stay. -/
def State.forceWrite (s : State) (a : Nat) (v : Word) : State :=
  (fieldsAt a).foldl (fun s f => if f.acc = .rw ∨ f.acc = .rwh then s.putF a f.fld (f.fld.get v) else s) s
/-- A set of registers as records written in order from the reset values leave it. -/
def afterRecords (l : List CfgRec) : State := l.foldl (fun s r => s.forceWrite r.addr r.value) State.reset
/-- The lane settings that records write: tile and number. -/
def settingsOf (l : List CfgRec) : List (Nat × Nat) :=
  ((l.filter fun r => decide (0x3000000 ≤ r.addr ∧ r.addr < 0x3400000 ∧ 0x20000 ≤ r.addr % 0x100000 ∧ r.addr % 0x100000 < 0x60000)).map
    fun r => ((r.addr - 0x3000000) / 0x100000, (r.addr % 0x100000 - 0x20000) / 0x400)).eraseDups
/-- A lane setting's source for an output, from its registers (R227). -/
def State.settingSrc (s : State) (n st i : Nat) : Nat :=
  (if i < 16 then (s.rd (Reg.lplSetSrc n st (i / 8))).toNat / 2 ^ (8 * (i % 8)) else (s.rd (Reg.lplSetSrc2 n st)).toNat / 2 ^ (8 * (i - 16))) % 256
/-- A lane setting is valid (R227). -/
def State.settingOk (s : State) (n st : Nat) : Bool :=
  let kind := s.fld (Reg.lplSetKind n st) F.lplSetKindKind
  decide (kind ≤ 1) && ((List.range 20).all fun i =>
      let v := s.settingSrc n st i
      decide (v ≠ i) && (decide (v < 20) || decide (v = 0x1F))) &&
    (decide (kind = 0) || (List.range 95).all fun w =>
      let a := Reg.lplSetMzi n st w
      decide (s.fld a F.lplSetMziTheta0 ≤ 4096 ∧ s.fld a F.lplSetMziTheta1 ≤ 4096))
/-- Phase 0 names a setting on every lane (R237). -/
def State.phaseZeroOk (s : State) : Bool :=
  (List.range 4).all fun n => (List.range 2).all fun w =>
    let a := Reg.lplPhase n 0 w
    !(s.flag a F.lplPhaseKeep0 || s.flag a F.lplPhaseKeep1 || s.flag a F.lplPhaseKeep2 || s.flag a F.lplPhaseKeep3)
/-- The largest delay_target of the fibres the job uses: those whose FIB_CTRL says that they are used (R244, R311, R319). -/
def State.largestDelay (s0 : State) : Nat :=
  ((List.range 32).map fun x =>
    if s0.flag (Reg.fibCtrl (x / 8) (x % 8)) F.fibCtrlEnable then s0.fld (Reg.fibCtrl (x / 8) (x % 8)) F.fibCtrlDelayTarget else 0).foldl max 0
/-- ONX_SCHED_CFG keeps R325: planned is not 0, w_step and w_rack are at least their minima of R319 and R311. -/
def State.schedOk (s1 : State) (delay others : Nat) : Bool :=
  let a := Reg.onxSchedCfg
  decide (s1.fld a F.onxSchedCfgPlanned ≠ 0) && decide ((if others = 0 then 384 else 640 + delay) ≤ s1.fld a F.onxSchedCfgWStep) &&
    (decide (others = 0) || decide (320 + delay ≤ s1.fld a F.onxSchedCfgWRack))
/-- The memory endpoint of a range: the vaults of one tower or the stacks of one tile; none where it leaves them (R362). -/
def rangeEndpoint (base n : Nat) : Option Nat :=
  let part (a : Nat) : Option Nat :=
    if a < 0x020000000000 then some (100 + a / 0x008000000000)
    else if a < 0x020000000000 + 3072 * 0x1000000 then some ((a - 0x020000000000) / 0x100000000)
    else none
  if part base = part (base + n - 1) then part base else none
/-- A window keeps R362. -/
def windowOk (w0 w1 : Nat) : Bool :=
  if bit w0 63 = false then true
  else
    let size := bits w0 59 54
    let m := bits w0 44 0
    let b := bits w1 44 0
    decide (21 ≤ size ∧ size ≤ 39 ∧ m % 2 ^ size = 0 ∧ b % 2 ^ size = 0) && (rangeEndpoint m (2 ^ size)).isSome &&
      decide (rangeEndpoint m (2 ^ size) = rangeEndpoint b (2 ^ size))
/-- A route entry keeps R332 and R333: reserved bits 0, the tokens of its hops valid and the others 0. -/
def routeOk (w : Nat) : Bool :=
  decide (bits w 58 54 = 0 ∧ bits w 35 0 = 0 ∧ bits w 62 61 ≤ 1) && (List.range 3).all fun i =>
    if i < bits w 60 59 then (token (bits w 53 36) i).isSome else decide (bits w 53 36 / 2 ^ (6 * i) % 64 = 0)
/-- The route tables keep R398: 21 tables of 64 entries. -/
def routesOk (l : List Byte) : Bool := decide (l.length = 10752) && (List.range 1344).all fun i => routeOk (fieldAt l (8 * i) 8)
/-- The job table keeps R399 and R362. -/
def jobTableOk (l : List Byte) : Bool :=
  let n := fieldAt l 0 4
  decide (1 ≤ n ∧ n ≤ 1024 ∧ 8 + 1056 * n ≤ l.length) && zeroAt l 4 4 && pairsOk (fun a b : Nat × Nat => decide (a.1 ≠ b.1)) (jobsOf l) &&
    (jobsOf l).all fun j => decide (j.1 < 1024) && zeroAt l (j.2 + 2) 6 && zeroAt l (j.2 + 24) 8 &&
      (List.range 64).all fun w => windowOk (fieldAt l (j.2 + 32 + 16 * w) 8) (fieldAt l (j.2 + 40 + 16 * w) 8)
/-- The programs keep R400. -/
def programsOk (l : List Byte) (jobs : List Nat) : Bool :=
  let ps := progsOf l
  zeroAt l 4 12 && pairsOk (fun a b : Prog => decide (a.core ≠ b.core)) ps &&
    ps.all fun p => decide (p.core < 3072 ∧ p.flags < 4 ∧ p.pc < 16384 ∧ p.at_ + 16 * p.count ≤ l.length) && jobs.contains p.job && p.zero &&
      (if bit p.flags 1 then decide (p.count = 0) && (ps.any fun q => decide (q.core = p.source ∧ q.count ≠ 0))
       else decide (1 ≤ p.count ∧ p.count ≤ 16384 ∧ p.source = 0))
/-- A preload's target lies in the vault of one core or the populated range of one stack (R401). -/
def preloadOk (target n : Nat) : Bool :=
  decide (target < 2 ^ 45 ∧ target % 64 = 0 ∧ n ≠ 0 ∧ n % 64 = 0) && match placeOf target, placeOf (target + n - 1) with
    | .vault c _, .vault d _ => decide (c = d)
    | .hbm k _, .hbm j _ => decide (k = j)
    | _, _ => false
/-- The preloads keep R401. -/
def preloadsOk (l : List Byte) : Bool := (preloadsOf l).all fun p => preloadOk p.1 p.2.1 && decide (p.2.2 + p.2.1 ≤ l.length)
/-- A variant table keeps R81. -/
def variantOk (l : List Byte) : Bool :=
  let v := vtableOf l
  decide (1 ≤ v.slots.length ∧ v.slots.length ≤ 256 ∧ v.rules.length ≤ 1024 ∧ v.policy ≤ 1) && zeroAt l 5 11 &&
    decide (16 + 4 * v.slots.length + 32 * v.rules.length ≤ l.length) &&
    ((List.range v.slots.length).all fun i => zeroAt l (18 + 4 * i) 2) &&
    (v.slots.all fun x => decide (1 ≤ x.1 ∧ x.1 ≤ 8 ∧ x.2 < x.1)) &&
    ((List.range v.rules.length).all fun i => zeroAt l (16 + 4 * v.slots.length + 32 * i + 24) 8) &&
    v.rules.all fun r => decide (r.slot < v.slots.length ∧ r.metric ≤ 7 ∧ r.sense ≤ 1 ∧ 1 ≤ r.nSteps ∧ r.initialRun < r.nSteps ∧ r.target < (v.slots.getD r.slot (0, 0)).1 ∧ r.addr % 64 = 0 ∧ r.addr < 2 ^ 45) &&
      (match placeOf r.addr with
       | .vault _ _ => true
       | _ => false)
/-- Calibration overrides keep R263. -/
def overridesOk (l : List Byte) : Bool :=
  decide (4 + 8 * fieldAt l 0 4 ≤ l.length) && (overridesOf l).all fun e => decide (1 ≤ e.1 ∧ e.1 ≤ 5 ∧ e.2.2.1 < itemCount e.2.1 e.1) && e.2.2.2.2
/-- The content checks of R405. -/
def State.contentOk (s : State) (b : Bank) : Bool :=
  let recs := (b.stream 1).getD []
  let routes := (b.stream 2).getD []
  let jobs := (b.stream 3).getD []
  let progs := (b.stream 4).getD []
  let rl := recordsOf recs
  let s1 := afterRecords (stageOf 1 rl)
  let others := (List.range 64).filter fun p => bit (hJoinSet b.header) p && decide (p ≠ s.pkg)
  b.directoryOk && decide (8 + 16 * fieldAt recs 0 8 ≤ recs.length) && rl.all CfgRec.ok && routesOk routes && jobTableOk jobs &&
    programsOk progs ((jobsOf jobs).map fun j => j.1) && preloadsOk ((b.stream 5).getD []) && ((b.stream 6).map variantOk).getD true &&
    ((b.stream 7).map overridesOk).getD true && ((b.stream 8).map fun l => decide (4 + 8 * fieldAt l 0 4 ≤ l.length) && (fenceEntries l).all fun e => e.2).getD true &&
    ((settingsOf (stageOf 1 rl)).all fun x => s1.settingOk x.1 x.2) && s1.phaseZeroOk &&
    s1.schedOk (afterRecords (stageOf 0 rl)).largestDelay others.length && bit (hJoinSet b.header) s.pkg
/-- body_check: the state that a bank records, 1 where every test passes (R404). -/
def State.bodyCheck (s : State) (b : Bank) (bad : List Nat) : Nat :=
  if (List.range (hBlocks b.header)).any fun i => bad.contains i || !blockOk (b.block i) then 6
  else if Config.sha384 b.body ≠ (b.header.drop 0x20).take 48 then 5
  else if s.contentOk b = false then 8 else 1

/-! The booted image. -/

/-- The bank from which this start booted. -/
def State.booted (s : State) : Bank := s.bank (s.flag Reg.onxImgStatus F.onxImgStatusBootedBank)
/-- A section of the booted image; empty where it has none. -/
def State.section_ (s : State) (kind : Nat) : List Byte := (s.booted.stream kind).getD []
/-- The override records of the image replace single values of a tile (R263). -/
def State.override (s : State) (tile : Nat) : State :=
  ((overridesOf (s.section_ 7)).filter fun o => decide (o.2.1 = tile)).foldl (fun s o => s.setItem o.1 tile o.2.2.1 o.2.2.2.1) s

end Sys2Proof.Machine
end

