-- ==== Sys2Proof/Machine/D2dLink.lean ====
section
/-! DEFINITION. The D2D links: frames, virtual channels and replay (R275 to R278), training and width (R279 to R281), the capability word (R282, R407),
retraining and fenced groups (R283, R284), the bond test of a start (R204) and a tile reset (R285). -/

namespace Sys2Proof.Machine

/-! Frames (R275 to R277). -/

/-- The opposite direction. -/
def otherDir : Dir → Dir
  | .up => .down
  | .down => .up
/-- A group is up (R296). -/
def State.groupUp (s : State) (tower g : Nat) : Bool := decide (s.fld (grpReg tower g) F.flrGrpState = 2)
/-- Data flits of a frame at a width code: 16, 12 or 8 (R275). -/
def frameFlitsAt (width : Nat) : Nat := 16 - 4 * min width 2
/-- Flits in a replay buffer. -/
def held (l : List (D2dFrame × Nat)) : Nat := (l.map fun x => x.1.count).foldl (· + ·) 0
/-- The header that a sender puts on a frame: the trained width and quarters, what its own receiver reports, the flits freed (R275). -/
def State.d2dHead (s : State) (tower g : Nat) (dir : Dir) (f : D2dFrame) : D2dFrame :=
  let back := (s.group tower g).dir (otherDir dir)
  { f with width := s.fld (grpReg tower g) F.flrGrpWidth, quarters := s.fld (grpReg tower g) F.flrGrpQuarters, ack := back.expect, nak := back.nak, credit := back.freed.map (min 31) }
/-- The sender's own receiver has reported: what it freed, at most 31 flits of a channel in one frame, and its NAK are sent. -/
def State.d2dReported (s : State) (tower g : Nat) (dir : Dir) : State :=
  let x := s.group tower g
  let back := x.dir (otherDir dir)
  s.setGroup tower g (x.setDir (otherDir dir) { back with freed := back.freed.map (· - 31), nak := false })
/-- Put a frame on the wires. -/
def State.d2dEmit (s : State) (tower g : Nat) (dir : Dir) (f : D2dFrame) : State :=
  let h := s.d2dHead tower g dir f
  (s.emit (.d2d tower g dir { h with crc := d2dCrc h })).d2dReported tower g dir
/-- The flits of a channel that a frame takes: a time mark stands alone (R292). -/
def takeFlits (cap : Nat) : List (List Byte) → List (List Byte)
  | [] => []
  | [] :: _ => [[]]
  | l => (l.takeWhile fun b => decide (b ≠ [])).take cap
/-- Remove the first n flits of a channel. -/
def dropFlits (vc : Nat) : Nat → List (Nat × List Byte) → List (Nat × List Byte)
  | 0, l => l
  | _, [] => []
  | n + 1, x :: r => if x.1 = vc then dropFlits vc n r else x :: dropFlits vc (n + 1) r
/-- The channel that starts a data frame, with its flits: the highest-numbered one that has flits ready and the credit (R276). -/
def State.d2dChoice (s : State) (tower g : Nat) (dir : Dir) : Option (Nat × List (List Byte)) :=
  let x := (s.group tower g).dir dir
  let cap := min (frameFlitsAt (s.fld (grpReg tower g) F.flrGrpWidth)) (64 - held x.replay)
  [3, 2, 1, 0].findSome? fun vc =>
    let l := takeFlits cap ((x.queue.filter fun e => decide (e.1 = vc)).map fun e => e.2)
    if decide (1 ≤ l.length ∧ l.length ≤ x.credit.getD vc 0 ∧ l.length ≤ cap) then some (vc, l) else none
/-- The receive buffer of a direction empties (R276, R288): toward the base at once; toward the tower the crossing reads 144 GB/s, 9 flits in 2 ticks, and
nothing in a stretched period, 5 flits in 2 of them. A crossing whose elastic buffer of 4 cycles stays full counts the ticks in elastic_full. What has been
read is freed (DESIGN CHOICE, assumption 111). -/
def State.drainBuf (s : State) (tower g : Nat) (dir : Dir) (cyc : Nat) : State :=
  let s := s.settleDroop tower cyc
  let y := s.group tower g
  let x := y.dir dir
  let seen := s.fld (Reg.coreStretch (256 * tower)) F.coreStretchCount
  let span := s.now - x.drainAt
  let n := match dir with
    | .up => x.buf.length
    | .down => (9 * span - 5 * (seen - x.stretches)) / 2
  let gone := x.buf.take n
  let freed := (List.range 4).map fun v => x.freed.getD v 0 + (gone.filter fun e => decide (e.1 = v)).length
  let s := s.setGroup tower g (y.setDir dir { x with buf := x.buf.drop n, freed := freed, drainAt := s.now, stretches := seen })
  if 10 ≤ (x.buf.drop n).length then s.bump (Reg.flrGerr (tower / 3) (tower % 3) g) F.flrGerrElasticFull span else s
/-- The data of a frame as its first UI goes out: a time mark, also one sent again, holds the counter's value then (R292). -/
def State.frameData (s : State) (tower : Nat) (f : D2dFrame) : List Byte :=
  if f.vc = 0 ∧ f.data.length = 8 then bytesOf (s.tc (tower / 3)).toNat 8 else f.data
/-- A sender's frame time on a group that is up: a frame to send again, else a data frame, else an idle frame (R276, R277). -/
def State.d2dSend (s : State) (tower g : Nat) (dir : Dir) : State :=
  let y := s.group tower g
  let x := y.dir dir
  match x.resend with
  | f :: rest =>
    let s := (s.setGroup tower g (y.setDir dir { x with resend := rest })).bump (Reg.flrGerr (tower / 3) (tower % 3) g) F.flrGerrReplays 1
    let s := s.d2dEmit tower g dir { f with data := s.frameData tower f }
    if f.vc = 0 ∧ f.data.length = 8 then s.emit (.timeMark tower (s.tc (tower / 3))) else s
  | [] =>
    match s.d2dChoice tower g dir with
    | none => s.d2dEmit tower g dir { type := 1 }
    | some (vc, l) =>
      let mark := decide (l = [[]])
      let body := if mark then bytesOf (s.tc (tower / 3)).toNat 8 else l.flatten
      let f : D2dFrame := { vc := vc, count := l.length, seq := x.next, data := body }
      let x := { x with next := (x.next + 1) % 64, queue := dropFlits vc l.length x.queue, replay := x.replay ++ [(f, s.now)], credit := x.credit.set vc (x.credit.getD vc 0 - l.length) }
      let s := (s.setGroup tower g (y.setDir dir x)).d2dEmit tower g dir f
      if mark then s.emit (.timeMark tower (s.tc (tower / 3))) else s
/-- A command about a D2D group. -/
def onD2d (t : At) (tower g : Nat) (s : State) (f : State → State) : Result :=
  if tower < Config.towers ∧ g < 64 then .next ((s.at t).ifAwake f) else .fault .noSuchUnit
/-- D2D_FRAME_SEND (R276, R283): a group in training sends training frames. -/
def execD2dFrameSend (t : At) (tower g : Nat) (dir : Dir) (s : State) : Result :=
  onD2d t tower g s fun s =>
    match s.fld (grpReg tower g) F.flrGrpState with
    | 2 => (s.drainBuf tower g (otherDir dir) t.cyc).d2dSend tower g dir
    | 1 => let h := s.d2dHead tower g dir { type := 2 }; s.emit (.d2d tower g dir { h with crc := d2dCrc h })
    | _ => s
/-- A time mark waits for a tower on the lowest-numbered group in service (R292, R287). -/
def State.markTower (s : State) (tower : Nat) : State :=
  match (List.range 64).find? (s.groupUp tower) with
  | some g => s.d2dPut tower g .down 0 [[]]
  | none => s
/-- The frames of a replay buffer from a number on. -/
def fromSeq (seq : Nat) (l : List (D2dFrame × Nat)) : List (D2dFrame × Nat) := l.dropWhile fun x => decide (x.1.seq ≠ seq)
/-- Frames before the number that the receiver expects next are acknowledged (R275). -/
def acknowledge (x : D2dDir) (ack : Nat) : D2dDir :=
  if ack = x.next then { x with replay := [] }
  else if x.replay.any fun f => decide (f.1.seq = ack) then { x with replay := fromSeq ack x.replay }
  else x
/-- A sender takes in what a frame of the opposite direction reports: acknowledgement, NAK, credit (R275 to R277). -/
def State.d2dReport (s : State) (tower g : Nat) (dir : Dir) (f : D2dFrame) : State :=
  let y := s.group tower g
  let x := acknowledge (y.dir dir) f.ack
  let x := { x with credit := (List.range 4).map fun v => min 64 (x.credit.getD v 0 + f.credit.getD v 0), resend := if f.nak then x.replay.map fun r => r.1 else x.resend }
  s.setGroup tower g (y.setDir dir x)

/-! Going down (R279, R283). -/

/-- One failed training: the third in a row fences the group (R284). -/
def State.trainFail (s : State) (tower g cyc : Nat) : State :=
  let a := grpReg tower g
  let n := s.fld a F.flrGrpFailRun + 1
  let s := (s.putF a F.flrGrpFailRun n).putF a F.flrGrpState 0
  if 3 ≤ n then s.fenceGroup tower g cyc else s
/-- A group leaves service and trains again: within 1 ms of coming up that counts as a failed training (R279, R283). -/
def State.groupDown (s : State) (tower g cyc : Nat) : State :=
  let a := grpReg tower g
  if s.groupUp tower g then
    let y := s.group tower g
    let early := match y.upAt with
      | some u => decide (s.now < u + 1000000)
      | none => false
    let s := (s.setGroup tower g { y with upAt := none, stepAt := s.now }).putF a F.flrGrpState 1
    if early then (let s := (s.putF a F.flrGrpFailRun y.fails).trainFail tower g cyc; if s.fld a F.flrGrpState = 0 then s.putF a F.flrGrpState 1 else s) else s
  else s
/-- D2D_FRAME_RECEIVE (R277, R283). -/
def execD2dFrameReceive (t : At) (tower g : Nat) (dir : Dir) (f : D2dFrame) (s : State) : Result :=
  onD2d t tower g s fun s =>
    let a := grpReg tower g
    let s := if s.groupUp tower g then s.drainBuf tower g dir t.cyc else s
    let y := s.group tower g
    let x := y.dir dir
    if s.groupUp tower g = false then s
    else if f.type = 2 then s.groupDown tower g t.cyc
    else if f.crc ≠ d2dCrc f then s.setGroup tower g (y.setDir dir { x with nak := true })
    else if f.width ≠ s.fld a F.flrGrpWidth ∨ f.quarters ≠ s.fld a F.flrGrpQuarters then s.groupDown tower g t.cyc
    else
      let s := if f.type = 0 ∧ f.seq = x.expect then
        s.setGroup tower g (y.setDir dir { x with expect := (x.expect + 1) % 64, nak := false, buf := x.buf ++ (List.range f.count).map fun i => (f.vc, (f.data.drop (32 * i)).take 32) })
      else s
      s.d2dReport tower g (otherDir dir) f
/-- D2D_REPLAY_TIMEOUT: no acknowledgement within 100 ns (R277). -/
def execD2dReplayTimeout (t : At) (tower g : Nat) (dir : Dir) (s : State) : Result :=
  onD2d t tower g s fun s =>
    let y := s.group tower g
    let x := y.dir dir
    match x.replay with
    | (_, sent) :: _ =>
      if s.groupUp tower g && decide (sent + 100 ≤ s.now) then
        let now := s.now
        s.setGroup tower g (y.setDir dir { x with resend := x.replay.map (fun r => r.1), replay := x.replay.map fun r => (r.1, now) })
      else s
    | [] => s

/-! Training (R279 to R281). -/

/-- The capability word of a base tile (R282). -/
def State.tileCap (s : State) : Nat := if s.fuses.stepping = .b0 then 0x2FF else 0x25A
/-- The failing data wires of a set of quarters. -/
def badIn (q : Nat) (bad : List Nat) : List Nat := bad.filter fun w => bit q (w / 64)
/-- The bitmaps of a number of quarters, in increasing order (R280). -/
def quarterSets (n : Nat) : List Nat := (List.range 16).filter fun q => decide (((List.range 4).filter fun i => bit q i).length = n)
/-- The width decision (R280): width code, quarters and the wires that need spares; none where no set fits. -/
def chooseWidth (w : TrainSight) : Option (Nat × Nat × List Nat) :=
  let ctl := w.badCtl.eraseDups
  let data := w.badData.eraseDups
  [(0, 4), (1, 3), (2, 2)].findSome? fun x => (quarterSets x.2).findSome? fun q =>
    if ctl.length + (badIn q data).length ≤ 8 then
      some (x.1, q, ((List.range 4).map (264 + ·)).filter ctl.contains ++ (List.range 256).filter (badIn q data).contains)
    else none
/-- The spares of wires that need them: each takes the lowest spare left, never a failing one (R280). -/
def assignSpares (w : TrainSight) (wires : List Nat) : List (Nat × Nat) := wires.zip (((List.range 8).map (256 + ·)).filter fun x => !w.badSpare.contains x)
/-- Both ends of a group support the mode (R282). -/
def State.modeOk (s : State) (w : TrainSight) : Bool :=
  let b := if s.start.compat then 1 else 0
  bit s.tileCap b && bit w.peerCap b
/-- The training completes (R279): what steps 1 to 8 met. A wire in use that fails and has no spare spoils the training frames of step 8 (DEDUCED, assumption
90). -/
def State.trainOk (s : State) (w : TrainSight) : Bool :=
  ((chooseWidth w).all fun x => decide ((assignSpares w x.2.2).length = x.2.2.length)) && w.clockUp && w.clockDown && s.modeOk w && w.echoOk && w.frameLock && !w.overrun
/-- The deskew of step 7: each wire that was swept takes the centre of its passing window (R279). -/
def State.deskew (s : State) (tower g : Nat) (l : List (Nat × Nat × Nat × Nat)) : State :=
  l.foldl (fun s x =>
    let ix := ((tower % 3 * 64 + g) * 2 + x.1 % 2) * 268 + x.2.1 % 268
    s.putF (deskewAt (tower / 3) ix).1 (deskewAt (tower / 3) ix).2 (min 63 ((x.2.2.1 + x.2.2.2) / 2))) s
/-- A frame cut into frames of at most n flits (R275). -/
def cutFrame (n : Nat) (f : D2dFrame) : List D2dFrame :=
  (List.range (ceilDiv f.count n)).map fun i => { f with count := min n (f.count - n * i), data := (f.data.drop (32 * n * i)).take (32 * n) }
/-- A direction when its group comes up at n flits a frame (R279 step 9, R283): each side advertises full credit, and the sender sends again from its oldest
unacknowledged frame. Where the group has become too narrow for one of them, what the receiver has not accepted is framed anew (DESIGN CHOICE,
assumption 52). -/
def rejoin (n now : Nat) (x : D2dDir) : D2dDir :=
  let left := (fromSeq x.expect x.replay).map (·.1)
  let fits := x.replay.all fun f => decide (f.1.count ≤ n)
  let cut := (left.map (cutFrame n)).flatten.zipIdx.map fun f => { f.1 with seq := (x.expect + f.2) % 64 }
  let again := if fits then x.replay.map (·.1) else cut
  let credit := (List.range 4).map fun v => 64 - ((left.filter fun f => decide (f.vc = v)).map (·.count)).foldl (· + ·) 0
  { x with next := if fits then x.next else (x.expect + cut.length) % 64, replay := again.map fun f => (f, now), resend := again, credit := credit,
           freed := [0, 0, 0, 0], nak := false, buf := [], drainAt := now }
/-- One training from step 1, or from step 4 where a group waited, to its end (R279 to R281). -/
def State.train (s : State) (tower g cyc : Nat) (w : TrainSight) : State :=
  let a := grpReg tower g
  let s := s.putF a F.flrGrpPeerCap w.peerCap
  match chooseWidth w with
  | none => s.trainFail tower g cyc
  | some (code, q, wires) =>
    let spares := assignSpares w wires
    if s.trainOk w && (decide (code = 0) || s.flag (Reg.flrPolicy (tower / 3)) F.flrPolicyReducedWidth) then
      let y := s.group tower g
      let s := s.setGroup tower g { y with up := rejoin (frameFlitsAt code) s.now y.up, down := rejoin (frameFlitsAt code) s.now y.down, upAt := some s.now, fails := s.fld a F.flrGrpFailRun, sparesFor := spares, sight := none, step3 := some true }
      let s := ((((s.putF a F.flrGrpWidth code).putF a F.flrGrpQuarters q).putF a F.flrGrpSparesUsed spares.length).putF a F.flrGrpFailRun 0).putF a F.flrGrpState 2
      let s := if code = 0 ∨ s.mapped 3 (256 * tower + g) then s else s.outside 3 (256 * tower + g) 6 true
      ((s.deskew tower g w.windows).d2dPut tower g .down 0 [[]]).relaunch tower cyc
    else s.trainFail tower g cyc
/-- Steps 1 to 3 at 3.2 Gb/s, after which the group waits for the package capability word (R282). -/
def State.trainThree (s : State) (tower g cyc : Nat) (w : TrainSight) : State :=
  let a := grpReg tower g
  let y := s.group tower g
  if w.clockUp && w.clockDown && bit w.peerCap 1 then
    let s := s.setGroup tower g { y with step3 := some true, sight := some w }
    let s := { s with start := { s.start with firstStep3 := some (s.start.firstStep3.getD s.now) } }
    (s.putF a F.flrGrpPeerCap w.peerCap).putF a F.flrGrpState 1
  else (s.setGroup tower g { y with step3 := some false }).trainFail tower g cyc
/-- D2D_TRAINING: a group of a start, or of a tower that is enabled (R434), trains; before the package capability word is fixed it goes as far as step 3 (R279, R282). -/
def execD2dTraining (t : At) (tower g : Nat) (sight : TrainSight) (s : State) : Result :=
  onD2d t tower g s fun s =>
    if (s.dev ≠ .bringup ∧ s.starting tower = false) ∨ 2 ≤ s.fld (grpReg tower g) F.flrGrpState ∨ (s.tower tower).fenced then s
    else if s.start.capFixed then s.train tower g t.cyc sight
    else if (s.group tower g).step3 = some true then s
    else s.trainThree tower g t.cyc sight
/-- The bounds of the training steps, in ticks (R279). -/
def stepBound (n : Nat) : Nat := ([0, 20000, 20000, 5000, 10000, 20000, 1000, 100000, 6000, 2000] : List Nat).getD n 0
/-- TRAINING_STEP_TIMEOUT (R279): a group that trains exceeds the bound of a step that began at a tick of this training; the wait after step 3 does not count
(R282). -/
def execTrainingStepTimeout (t : At) (tower g : Nat) (step : TrainStep) (s : State) : Result :=
  onD2d t tower g s fun s =>
    let y := s.group tower g
    let waits := decide (y.step3 = some true) && !s.start.capFixed
    if s.fld (grpReg tower g) F.flrGrpState = 1 ∧ waits = false ∧ 1 ≤ step.no ∧ step.no ≤ 9 ∧ ¬(step.no = 4 ∧ s.start.compat = true) ∧ y.stepAt ≤ step.began ∧ step.began + stepBound step.no ≤ s.now
    then (s.setGroup tower g { y with step3 := if s.start.capFixed then y.step3 else some false, stepAt := s.now }).trainFail tower g t.cyc else s
/-- D2D_RETRAIN: a side resets, or no valid frame came for 16 frame times; the group trains again in the mode that the start fixed (R283). -/
def execD2dRetrain (t : At) (tower g : Nat) (sight : TrainSight) (s : State) : Result :=
  onD2d t tower g s fun s =>
    if s.start.capFixed = false ∨ 3 ≤ s.fld (grpReg tower g) F.flrGrpState then s
    else
      let s := (s.bump (grpReg tower g) F.flrGrpRetrains 1).groupDown tower g t.cyc
      if 3 ≤ s.fld (grpReg tower g) F.flrGrpState then s else s.train tower g t.cyc sight

/-! The capability word (R282, R407). -/

/-- Every group of the package, by tower and number (R273). -/
def allGroups : List (Nat × Nat) := ((List.range 12).map fun t => (List.range 64).map fun g => (t, g)).flatten
/-- The groups of the towers that are not fenced. -/
def State.liveGroups (s : State) : List (Nat × Nat) := allGroups.filter fun x => !(s.tower x.1).fenced
/-- The groups whose ends count for the package word: those that completed step 3. -/
def State.wordGroups (s : State) : List (Nat × Nat) :=
  s.liveGroups.filter fun x => decide ((s.group x.1 x.2).step3 = some true ∧ s.fld (grpReg x.1 x.2) F.flrGrpState < 3)
/-- The package capability word (R282). -/
def State.packageCap (s : State) : Nat :=
  let l := s.tileCap :: s.wordGroups.map fun x => s.fld (grpReg x.1 x.2) F.flrGrpPeerCap
  (l.map fun w => w % 256).foldl (· &&& ·) 255 + 256 * (l.map fun w => w / 256 % 16).foldl min 15
/-- Every group has completed step 3 or failed it, or 1 ms has passed since the first completed it (R282). -/
def State.capDue (s : State) : Bool :=
  (s.liveGroups.all fun x => decide (3 ≤ s.fld (grpReg x.1 x.2) F.flrGrpState) || (s.group x.1 x.2).step3.isSome) ||
    match s.start.firstStep3 with
    | some u => decide (u + 1000000 ≤ s.now)
    | none => false
/-- The image's required word passes against the package word (R407). -/
def capPasses (required word : Nat) : Bool := decide ((required % 256) &&& (word % 256) = required % 256 ∧ required / 256 % 16 ≤ word / 256 % 16)
/-- The waiting groups go on in the chosen mode; the others count one failed training (R282). -/
def State.capGo (s : State) (cyc : Nat) : State :=
  s.liveGroups.foldl (fun s x =>
    if 3 ≤ s.fld (grpReg x.1 x.2) F.flrGrpState then s
    else match (s.group x.1 x.2).step3, (s.group x.1 x.2).sight with
      | some true, some w => s.train x.1 x.2 cyc w
      | none, _ => s.trainFail x.1 x.2 cyc
      | _, _ => s) s
/-- What the groups fenced before the word was fixed come to: a sibling's traffic, or a fenced tower (R284). -/
def State.settleGroups (s : State) (cyc : Nat) : State :=
  s.liveGroups.foldl (fun s x =>
    if s.fld (grpReg x.1 x.2) F.flrGrpState = 3 && !(s.tower x.1).fenced then (s.putF (grpReg x.1 x.2) F.flrGrpState 0).fenceGroup x.1 x.2 cyc else s) s
/-- The package word is fixed: its mode, its registers, the capability check (R282, R407). -/
def State.fixCap (s : State) (cyc : Nat) : State :=
  let w := s.packageCap
  let compat := !bit w 0
  let s := { s with start := { s.start with capFixed := true, compat := compat } }
  let s := (List.range 4).foldl (fun s n => (s.putF (Reg.flrCap n) F.flrCapPackageCap w).putB (Reg.flrClk n) F.flrClkMode compat) s
  let s := s.phaseTo 5
  let required := hRequired s.booted.header
  if capPasses required w then
    let s : State := s.settleGroups cyc
    if s.dev = .bringup then s.capGo cyc else s
  else
    let s := s.log 0x0102 (srcUnit 12 0) [required, w]
    let s := allGroups.foldl (fun s x => if s.fld (grpReg x.1 x.2) F.flrGrpState < 3 then s.putF (grpReg x.1 x.2) F.flrGrpState 0 else s) s
    s.startFail 3
/-- CAPABILITY_WORD_FIXED (R282, R407). -/
def execCapabilityWordFixed (t : At) (s : State) : Result :=
  let s := s.at t
  if s.dead then .next s else
  .next (if s.dev = .bringup ∧ s.start.capFixed = false ∧ s.capDue = true then s.fixCap t.cyc else s)

/-! The bond test (R204) and a tile reset (R285). -/

/-- The elements of the fence map that a crossing's failure fences (R204, R402). -/
def crossingEls (tower : Nat) : Crossing → List (Nat × Nat)
  | .vault c | .door c => [(1, c)]
  | .riser l p => ((List.range 4).filter fun k => decide (l ≤ k)).map fun k => (3, 256 * tower + 4 * p + k)
  | .wires => [(2, tower)]
/-- One bond group with failing bonds (R204): up to 4 take spares; beyond that what it carries is fenced, and the start stops unless the fence map
lists it. -/
def State.bondGroup (s : State) (tower cyc : Nat) (x : Crossing × Nat) : State :=
  let a := Reg.twrBond tower
  if x.2 ≤ 4 then
    let s := s.bump a F.twrBondSparesUsed x.2
    if x.2 = 4 then s.bump a F.twrBondGroupsFull 1 else s
  else ((crossingEls tower x.1).foldl (fun s e => s.outside e.1 e.2 7 false) s).fenceCrossing tower cyc x.1
/-- BOND_TEST (R204). -/
def execBondTest (t : At) (tower : Nat) (failing : List (Crossing × Nat)) (s : State) : Result :=
  onTower t tower s fun s => if decide (s.dev = .bringup) || s.starting tower then failing.foldl (fun s x => s.bondGroup tower t.cyc x) s else s
/-- The tile through which a multicast reaches a member (R170, R285): its tower's, or that of the endpoint of the first hop toward its package. -/
def State.memberTile (s : State) (r m : Nat) : Nat :=
  if 64 ≤ m then (m - 64) / 3 else match token (bits (s.routeEntry r m) 53 36) 0 with
    | some x => x / 8
    | none => 4
/-- An operation passes through a tile: its origin, its next endpoint, its destination or a member that has not answered lies there (R285). -/
def State.through (s : State) (tile r : Nat) (o : RemOp) : Bool :=
  (o.isCast && o.members.any fun m => !o.heard.contains m && decide (s.memberTile r m = tile)) ||
  decide (ringTile r = tile) || (decide (o.pkt.hopDst < 21) && decide (ringTile o.pkt.hopDst = tile)) ||
    (decide (o.pkt.dstPkg = s.pkg ∧ o.pkt.dstEp < 21) && decide (ringTile o.pkt.dstEp = tile))
/-- TILE_RESET: a base tile resets without Onyx's command (R285). The device enters HALTED from every state in which the tiles run, HOLD and BRINGUP too, for
which R13's table has no such exit (DESIGN CHOICE, assumption 112). -/
def execTileReset (t : At) (tile : Nat) (s : State) : Result :=
  if tile < Config.tiles then
    let s := s.at t
    if s.dead then .next s else
    if s.dev ∈ [DevState.off, .boot, .tripped] then .next s
    else
      let s := [0, 1, 2].foldl (fun s i =>
        let tower := 3 * tile + i
        let s := s.setTower tower { s.tower tower with copyValid := false }
        (List.range 64).foldl (fun s g => if s.fld (grpReg tower g) F.flrGrpState < 3 then s.putF (grpReg tower g) F.flrGrpState 0 else s) s) s
      let s := s.failOpsAs .pathReset t.cyc (s.through tile)
      .next (if s.dev = .halted then s else s.halt 2)
  else .fault .noSuchUnit

end Sys2Proof.Machine
end

