-- ==== Sys2Proof/Machine/TimeBase.lean ====
section
/-! DEFINITION. The time base: rack inputs and the time counter (R291 to R293), loss of reference (R294, R295), the seam ratios (R289, R290). -/

namespace Sys2Proof.Machine

/-! Loss of reference (R294, R295). -/

/-- A tile's counter runs on the crystal (R296). -/
def State.holdover (s : State) (n : Nat) : Bool := s.flag (Reg.tcStatus n) F.tcStatusHoldover
/-- A tile's counter is disciplined to the rack inputs (R296). -/
def State.locked (s : State) (n : Nat) : Bool := s.flag (Reg.tcStatus n) F.tcStatusLocked
/-- A tile holds over (R295): the value at which that began is kept. -/
def State.holdOver (s : State) (n : Nat) : State :=
  if s.holdover n then s
  else ((s.putB (Reg.tcStatus n) F.tcStatusHoldover true).putB (Reg.tcStatus n) F.tcStatusLocked false).wr (Reg.tcHoldover n) (s.tc n)
/-- The device treats a reference as lost (R295): every tile holds over, the loss is logged and raised to Onyx. -/
def State.refLoss (s : State) (ref : Nat) (lost : Option Fld) : State :=
  let s := (List.range 4).foldl (fun s n =>
    let s := s.holdOver n
    match lost with
    | some f => s.raiseBit (Reg.tcStatus n) f
    | none => s) s
  let s := s.log 0x0201 (srcUnit 12 0) [ref, s.tcNat]
  match s.dev with
  | .run => s.holdCause 8
  | .load | .join => s.halt 3
  | .bringup => s.startFail 5
  | _ => s
/-- References are monitored from BRINGUP on. -/
def State.monitors (s : State) : Bool := !([DevState.off, .boot, .tripped].contains s.dev)
/-- REFCLK_LOSS (R294, R295). -/
def execRefclkLoss (t : At) (s : State) : Result :=
  let s := s.at t
  if s.dead then .next s else
  .next (if s.monitors then s.refLoss 0 (some F.tcStatusRefclkLost) else s)

/-! TOD messages (R291, R294). -/

/-- The bits of a number, lowest first, as one number whose highest bit is the first: the order in which a TOD field is sent (R291). -/
def sentBits (v : Nat) : Nat → Nat → Nat
  | 0, acc => acc
  | n + 1, acc => sentBits (v / 2) n (2 * acc + v % 2)
/-- The check of a TOD message over preamble, flags and next_sync in the order in which they are sent (R291). -/
def todCheck (preamble flags next : Nat) : Nat := crc16 (sentBits next 64 (sentBits flags 8 (sentBits preamble 8 0))) 80 0xFFFF
/-- A TOD message without error (R291). -/
def todOk (preamble flags : BitVec 8) (next : BitVec 64) (check : BitVec 16) (stopBit : Bool) : Bool :=
  decide (preamble = 0xB5) && decide (check.toNat = todCheck preamble.toNat flags.toNat next.toNat) && stopBit && decide (next.toNat % 2 ^ 20 = 0)
/-- A tile's time unit takes in a TOD message; two in a row that differ by 2^20 name the edge to load at (R292). -/
def State.todIn (s : State) (n : Nat) (ok : Bool) (next : Nat) : State :=
  let u := s.time n
  if ok then
    let pair := decide (u.lastNext.map (· + 2 ^ 20) = some next)
    s.setTime n { u with lastNext := some next, pairOk := pair, named := some next, namedAt := s.now }
  else (s.setTime n { u with lastNext := none, pairOk := false }).bump (Reg.tcStatus n) F.tcStatusTodErrors 1
/-- TOD_MESSAGE (R291, R292). -/
def execTodMessage (t : At) (preamble flags : BitVec 8) (nextSync : BitVec 64) (check : BitVec 16) (stopBit : Bool) (s : State) : Result :=
  let s := s.at t
  if s.dead then .next s else
  .next (if s.monitors then (List.range 4).foldl (fun s n => s.todIn n (todOk preamble flags nextSync check stopBit) nextSync.toNat) s else s)

/-! SYNC edges (R292, R294). -/

/-- The delay of a tile's SYNC path (R292). -/
def State.syncComp (s : State) (n : Nat) : Int := signed 16 (s.fld (Reg.tcSyncComp n) F.tcSyncCompSyncComp)
/-- How far a tile's counter, less sync_comp, is from the nearest multiple of 2^20. -/
def State.syncError (s : State) (n : Nat) : Int :=
  let d := (((s.tc n).toNat : Int) - s.syncComp n) % (2 ^ 20 : Int)
  if d < 2 ^ 19 then d else d - 2 ^ 20
/-- An edge that a tile accepts: the value is kept, misses in a row end, the next edge is awaited. -/
def State.edgeOk (s : State) (n : Nat) : State :=
  let u := s.time n
  (s.setTime n { u with misses := 0, expectAt := ((s.now : Int) - s.syncError n + 2 ^ 20).toNat }).wr (Reg.tcLastSync n) (s.tc n)
/-- The TOD message that names an accepted edge is used up; two edges in a row without one lose TOD (R294). -/
def State.edgeTod (s : State) (n : Nat) : State × Bool :=
  let u := s.time n
  let here := ((s.tc n).toNat : Int) - s.syncComp n - s.syncError n
  if u.named.map (fun v => (v : Int)) = some here then (s.setTime n { u with named := none, unnamed := 0 }, false)
  else (s.setTime n { u with unnamed := u.unnamed + 1 }, decide (2 ≤ u.unnamed + 1))
/-- What a SYNC edge shows a tile: nothing, SYNC lost, TOD lost. -/
inductive EdgeLoss where
  | none | sync | tod
deriving DecidableEq, Repr
/-- The edge at hand is the one that the last TOD message names: the message ended 100 to 900 µs before it (R291). -/
def TimeUnit.atNamed (u : TimeUnit) (now : Nat) : Bool := decide (u.namedAt + 100000 ≤ now ∧ now ≤ u.namedAt + 900000)
/-- The copies of a tile's towers, taken from marks before the counter was loaded, hold no longer (R292; DEDUCED, assumption 113). -/
def State.staleCopies (s : State) (n : Nat) : State := [0, 1, 2].foldl (fun s i => s.setTower (3 * n + i) { s.tower (3 * n + i) with copyValid := false }) s
/-- A SYNC edge at a tile's time unit (R292, R294): the edge that the second of two TOD messages names loads the counter, the next one checks the load,
every later one is checked; one more than 4 ticks from a boundary loses SYNC. -/
def State.edgeAt (s : State) (n : Nat) : State × EdgeLoss :=
  let u := s.time n
  if s.holdover n then (s, .none)
  else if u.loaded = false then
    match u.named with
    | some v =>
      if u.pairOk && u.atNamed s.now then
        let goal : Int := (v : Int) + s.syncComp n
        let s := s.setTime n { u with offset := goal - (s.now : Int), loaded := true, named := none, unnamed := 0 }
        ((s.edgeOk n).staleCopies n, .none)
      else (s, .none)
    | none => (s, .none)
  else
    let near := decide (-4 ≤ s.syncError n ∧ s.syncError n ≤ 4)
    if near then
      let (s, tod) := (s.edgeOk n).edgeTod n
      let s := s.setTime n { s.time n with checked := true }
      (s.putB (Reg.tcStatus n) F.tcStatusLocked true, if tod && u.checked then .tod else .none)
    else
      (s.bump (Reg.tcStatus n) F.tcStatusSyncMisses 1, .sync)
/-- The losses of the four tiles: SYNC before TOD. -/
def State.edges (s : State) : State × Bool × Bool :=
  (List.range 4).foldl (fun x n =>
    let (s, l) := x.1.edgeAt n
    (s, x.2.1 || decide (l = .sync), x.2.2 || decide (l = .tod))) (s, false, false)
/-- SYNC_EDGE: every tile loads or checks, and a time mark goes to every tower (R292). -/
def execSyncEdge (t : At) (s : State) : Result :=
  let s := s.at t
  if s.dead then .next s else
  if s.monitors then
    let (s, sync, tod) := s.edges
    let s := (List.range 12).foldl State.markTower s
    let s := if sync then s.refLoss 1 (some F.tcStatusSyncLost) else s
    .next (if tod then s.refLoss 2 (some F.tcStatusTodLost) else s)
  else .next s
/-- SYNC_MISSED: the window around an expected edge has passed without one; the second in a row loses SYNC (R294). -/
def execSyncMissed (t : At) (s : State) : Result :=
  let s := s.at t
  if s.dead then .next s else
  let (s, lost) := (List.range 4).foldl (fun (x : State × Bool) n =>
    let s := x.1
    let u := s.time n
    if u.loaded && !s.holdover n && decide (u.expectAt + 4 < s.now) then
      ((s.setTime n { u with misses := u.misses + 1, expectAt := u.expectAt + 2 ^ 20 }).bump (Reg.tcStatus n) F.tcStatusSyncMisses 1, x.2 || decide (2 ≤ u.misses + 1))
    else x) (s, false)
  .next (if lost then s.refLoss 1 (some F.tcStatusSyncLost) else s)
/-- DISCIPLINE_TIMEOUT: 150 ms after it began, a tile is not disciplined (R292). -/
def execDisciplineTimeout (t : At) (s : State) : Result :=
  let s := s.at t
  if s.dead then .next s else
  .next (if s.dev = .bringup ∧ ((List.range 4).any fun n => !s.locked n && decide ((s.time n).began + 150000000 ≤ s.now)) then s.startFail 5 else s)
/-- TIME_MARK: a tower loads its copy, or logs a disagreement of more than 1 tick and loses the time reference (R292). -/
def execTimeMark (t : At) (tower : Nat) (mark : BitVec 64) (s : State) : Result :=
  onTower t tower s fun s =>
    let w := s.tower tower
    let copy := s.copyTc tower
    let d : Int := (copy.toNat : Int) - (mark.toNat : Int)
    if w.copyValid && decide (d < -1 ∨ 1 < d) then (s.log 0x0202 (srcUnit tower 0) [copy.toNat, mark.toNat]).refLoss 3 none
    else s.setTower tower { w with copy := (mark.toNat : Int) - (s.now : Int), copyValid := true }

/-! The seam (R289, R290). -/

/-- FLR_CLK of a tile is written: a ratio other than 1:1 needs seam_ratio; in RUN and JOIN, and while a change runs, it waits (R289, R290). The
reserved ratio 3 is refused as well. -/
def State.ratioWrite (s : State) (n : Nat) (v : Word) : State :=
  let w := F.flrClkRatioW.get v
  let e := F.flrClkRatioE.get v
  if (bit (s.fld (Reg.flrCap n) F.flrCapPackageCap) 5 = false ∧ w + e ≠ 0) ∨ w = 3 ∨ e = 3 then s.log 0x0301 (srcUnit 12 0) [Reg.flrClk n, 8, devNum s.dev]
  else
    let s := { s with ratios := assocSet s.ratios n (w + 4 * e + 1) }.putB (Reg.flrClk n) F.flrClkRatioPending true
    if s.dev = .run ∨ s.dev = .join then s else s.startRatio n
/-- RATIO_WRITE (R290). -/
def execRatioWrite (t : At) (n : Nat) (value : BitVec 64) (s : State) : Result :=
  if n < Config.tiles then .next ((s.at t).ifAwake fun s => s.ratioWrite n value) else .fault .noSuchUnit
/-- A tile's running change completes: the register shows the ratio in force, and a ratio written meanwhile is applied (R290). -/
def State.ratioDone (s : State) (n : Nat) : State :=
  match assoc s.ratios (4 + n) with
  | 0 => s
  | k + 1 =>
    let s := { s with ratios := assocSet s.ratios (4 + n) 0 }
    let s := (s.putF (Reg.flrClk n) F.flrClkRatioW (k % 4)).putF (Reg.flrClk n) F.flrClkRatioE (k / 4)
    if s.dev = .run ∨ s.dev = .join then s else s.startRatio n
/-- RATIO_CHANGE_COMPLETE (R290). -/
def execRatioChangeComplete (t : At) (s : State) : Result := .next ((s.at t).ifAwake fun s => (List.range 4).foldl State.ratioDone s)

end Sys2Proof.Machine
end

