-- ==== Sys2Proof/Machine/HostPort.lean ====
section
/-! DEFINITION. The host port: link and frames (R452 to R455), ingest (R458 to R462), egress (R463, R464). -/

namespace Sys2Proof.Machine

/-! The link and frames (R453, R455). -/

/-- The port's link is up (R470). -/
def State.linkUp (s : State) : Bool := s.flag Reg.hstStatus F.hstStatusLinkUp
/-- A frame or message is discarded (R453, R455). -/
def State.rxDrop (s : State) : State := s.bump Reg.hstStatus F.hstStatusRxDropped 1
/-- Send a message to a server: nothing leaves for an entry that is not valid, or without a link (R457). -/
def State.toServer (s : State) (v type number offset stream : Nat) (payload : List Byte) : State :=
  if v < 64 && s.flag (Reg.srvFlags v) F.srvFlagsValid && s.linkUp then s.emit (.msg v type 0 number offset stream payload) else s
/-- HOST_PORT_LINK_UP: the PCS gains or loses lock (R470). -/
def execHostPortLinkUp (t : At) (up : Bool) (s : State) : Result :=
  let s := s.at t
  if s.dead then .next s else
  .next (if s.dev = .off then s else s.putB Reg.hstStatus F.hstStatusLinkUp up)
/-- ARP_REQUEST (R453). -/
def execArpRequest (t : At) (ip : BitVec 32) (fromMac : BitVec 48) (fromIp : BitVec 32) (s : State) : Result :=
  let s := s.at t
  if s.dead then .next s else
  .next (if s.linkUp = false then s
    else if s.flag Reg.hstIpv4 F.hstIpv4Enable && decide (s.fld Reg.hstIpv4 F.hstIpv4Addr = ip.toNat) then s.emit (.arpReply fromMac fromIp)
    else s.rxDrop)
/-- The port's IPv6 address in transmission order (R454, R470). -/
def State.ipv6 (s : State) : BitVec 128 :=
  BitVec.ofNat 128 (natOf ((bytesOf (s.rd (Reg.hstIpv6 0)).toNat 8 ++ bytesOf (s.rd (Reg.hstIpv6 1)).toNat 8).reverse))
/-- NEIGHBOUR_SOLICITATION (R453). -/
def execNeighbourSolicitation (t : At) (target : BitVec 128) (fromMac : BitVec 48) (fromIp : BitVec 128) (s : State) : Result :=
  let s := s.at t
  if s.dead then .next s else
  .next (if s.linkUp = false then s else if target = s.ipv6 then s.emit (.neighbour fromMac fromIp) else s.rxDrop)
/-- ECHO_REQUEST (R453). -/
def execEchoRequest (t : At) (v6 : Bool) (target fromIp : BitVec 128) (body : List Byte) (s : State) : Result :=
  let s := s.at t
  if s.dead then .next s else
  let mine := if v6 then decide (target = s.ipv6) else s.flag Reg.hstIpv4 F.hstIpv4Enable && decide (s.fld Reg.hstIpv4 F.hstIpv4Addr = target.toNat)
  .next (if s.linkUp = false then s else if mine then s.emit (.echo v6 fromIp body) else s.rxDrop)
/-- A message that R455 discards. -/
def State.badHead (s : State) (h : MsgHead) : Bool :=
  !h.checkOk || decide (h.magic ≠ 0x5446 ∨ h.version ≠ 1 ∨ h.pkg ≠ s.pkg) || (decide (h.type = 2 ∨ h.type = 0x12) && decide (h.incarnation ≠ s.inc))
/-- FRAME_DISCARD (R452, R453, R455). -/
def execFrameDiscard (t : At) (kind : FrameKind) (s : State) : Result :=
  let s := s.at t
  if s.dead then .next s else
  .next (if s.linkUp = false then s
    else match kind with
      | .badMessage h => if s.badHead h then s.rxDrop else s
      | _ => s.rxDrop)

/-! Operations of E0 (R365, R459, R464). -/

/-- FSETs of E0 that wait for a tag take one (R146, R364, R365): job, core, flag, and for a shard's the tick after its deadline, from which it is sent late
(R460). -/
def State.pumpHostFlags (s : State) : Nat → State
  | 0 => s
  | n + 1 =>
    match s.onyx.flagsOut, s.freeTag 0 with
    | (job, core, flag, due) :: rest, some tag =>
      let s := { s with onyx := { s.onyx with flagsOut := rest } }
      let s := if 0 < due ∧ due ≤ s.tcNat then s.bump Reg.hstCounts F.hstCountsShardsLate 1 else s
      let p : Packet := { cls := 0xC, op := 0, dstPkg := s.pkg, dstEp := towerRing (towerOf core), job := job,
                          aux := BitVec.ofNat 64 (s.pkg * 2 ^ 20 + core * 2 ^ 8 + flag) }
      (match s.originate 0 tag { pkt := p } with
        | some s => s
        | none => s.bump Reg.fabRtStat F.fabRtStatNoRoute 1).pumpHostFlags n
    | _, _ => s
/-- E0 sends an FSET to a stream's flag and core (R459, R464). -/
def State.hostFlag (s : State) (job core flag due : Nat) : State :=
  let l := s.onyx.flagsOut ++ [(job, core, flag, due)]
  { s with onyx := { s.onyx with flagsOut := l } }.pumpHostFlags l.length

/-! Ingest (R458 to R462). -/

/-- An ingest stream's entry is valid. -/
def State.ingOn (s : State) (i : Nat) : Bool := s.flag (Reg.ing0 i) F.ing0Valid
/-- An outstanding shard. -/
def State.shardOf (s : State) (stream shard : Nat) : Option Shard := s.shards.find? fun x => decide (x.stream = stream ∧ x.shard = shard)
/-- Replace an outstanding shard. -/
def State.setShard (s : State) (x : Shard) : State :=
  { s with shards := s.shards.map fun y => if y.stream = x.stream ∧ y.shard = x.shard then x else y }
/-- Remove a shard. -/
def State.dropShard (s : State) (stream shard : Nat) : State :=
  { s with shards := s.shards.filter fun y => !(decide (y.stream = stream ∧ y.shard = shard)) }
/-- The bytes that E0's ingest buffer holds (R459). -/
def State.ingestHeld (s : State) : Nat := (s.shards.map fun x => 64 * (x.got.length + x.sent.length)).foldl (· + ·) 0
/-- A line of a shard has arrived. -/
def Shard.has (x : Shard) (off : Nat) : Bool := x.stored.contains off || x.sent.contains off || x.got.any fun g => decide (g.1 = off)
/-- The lines from an offset that are missing, as ranges in increasing offset. -/
def missingFrom (x : Shard) : Nat → Nat → Option (Nat × Nat) → List (Nat × Nat)
  | _, 0, none => []
  | _, 0, some r => [r]
  | off, n + 1, cur =>
    if x.has off then (match cur with
      | some r => r :: missingFrom x (off + 64) n none
      | none => missingFrom x (off + 64) n none)
    else missingFrom x (off + 64) n (some (match cur with
      | some r => (r.1, r.2 + 64)
      | none => (off, 64)))
/-- The missing ranges of a shard, at most 64 (R459). -/
def State.missing (s : State) (x : Shard) : List (Nat × Nat) := (missingFrom x 0 (s.fld (Reg.ing1 x.stream) F.ing1ShardBytes / 64) none).take 64
/-- Send SHARD_REQ for what is missing of a shard (R456, R459). -/
def State.requestShard (s : State) (x : Shard) : State :=
  let l := s.missing x
  s.toServer (s.fld (Reg.ing0 x.stream) F.ing0Server) 1 x.shard 0 (s.fld (Reg.ing4 x.stream) F.ing4StreamId)
    (bytesOf x.deadline 8 ++ bytesOf l.length 4 ++ bytesOf 0 4 ++ (l.map fun r => bytesOf r.1 4 ++ bytesOf r.2 4).flatten)
/-- Request a shard at a release (R459). -/
def State.newShard (s : State) (rel stream shard : Nat) : State :=
  if (s.shardOf stream shard).isSome then s
  else
    let x : Shard := { stream := stream, shard := shard, deadline := rel + s.fld (Reg.ing3 stream) F.ing3Window, requested := s.now }
    { s with shards := s.shards ++ [x] }.requestShard x
/-- The flag of a shard is sent (R459). -/
def State.shardFlag (s : State) (stream due : Nat) : State :=
  s.hostFlag (s.fld (Reg.ing0 stream) F.ing0Job) (s.fld (Reg.ing0 stream) F.ing0Core) (s.fld (Reg.ing1 stream) F.ing1Flag) due
/-- A shard is abandoned (R460): its flag is sent, it is counted, and HOLD is requested. -/
def State.abandonShard (s : State) (stream shard : Nat) : State :=
  (((s.dropShard stream shard).shardFlag stream 0).bump Reg.hstCounts F.hstCountsShardsAbandoned 1).holdCause 10
/-- Every byte of a shard is stored: its FSET is sent, on time at or before the deadline (R459, R460). -/
def State.shardDone (s : State) (x : Shard) : State :=
  ((s.wr (Reg.hstIngst x.stream) (BitVec.ofNat 64 x.shard)).dropShard x.stream x.shard).shardFlag x.stream (x.deadline + 1)
/-- A store of a shard completes (R459, R460). -/
def State.ingestDone (s : State) (stream shard off n : Nat) (st : Status) : State :=
  match s.shardOf stream shard with
  | none => s
  | some x =>
    if st ≠ .ok then s.abandonShard stream shard
    else
      let lines := (List.range (n / 64)).map fun i => off + 64 * i
      let x := { x with sent := x.sent.filter fun o => !lines.contains o, stored := lines.filter (fun o => !x.stored.contains o) ++ x.stored }
      if 64 * x.stored.length = s.fld (Reg.ing1 stream) F.ing1ShardBytes then s.shardDone x else s.setShard x
/-- The 64-byte lines of received data that a shard does not have yet. -/
def newLines (x : Shard) (off : Nat) (data : List Byte) : List (Nat × List Byte) :=
  ((List.range (data.length / 64)).map fun i => (off + 64 * i, (data.drop (64 * i)).take 64)).filter fun l => !x.has l.1
/-- SHARD_DATA (R455, R459, R462). -/
def execShardData (t : At) (stream shard offset : Nat) (data : List Byte) (incarnation : BitVec 32) (s : State) : Result :=
  if stream < 256 then
    let s := s.at t
    if s.dead then .next s else
    let ok := decide (incarnation.toNat = s.inc) && s.running && decide (offset % 64 = 0 ∧ data.length % 64 = 0 ∧ data.length ≤ 8192 ∧ offset + data.length ≤ s.fld (Reg.ing1 stream) F.ing1ShardBytes)
    .next (match s.shardOf stream shard with
      | none => s.rxDrop
      | some x =>
        if ok = false ∨ x.deadline + s.fld (Reg.ing3 stream) F.ing3Grace ≤ s.tcNat then s.rxDrop
        else
          let l := newLines x offset data
          if 0x1000000 < s.ingestHeld + 64 * l.length then s.rxDrop
          else s.setShard { x with got := l.foldl (fun g e => Sparse.place g e.1 e.2) x.got })
  else .fault .noSuchUnit
/-- The tick within a carat lies in E0's ingest part (R461). -/
def State.ingestSlot (s : State) : Bool := decide (s.tcNat % 1024 < s.fld Reg.hstShare F.hstShareIngestTicks)
/-- The tick within a carat lies in E0's egress part (R461). -/
def State.egressSlot (s : State) : Bool :=
  let a := s.fld Reg.hstShare F.hstShareIngestTicks
  decide (a ≤ s.tcNat % 1024 ∧ s.tcNat % 1024 < a + s.fld Reg.hstShare F.hstShareEgressTicks)
/-- The lines from the first one held that one store takes: consecutive, within one 4 KiB block of the address. -/
def storeRun (base : Nat) : List (Nat × List Byte) → List (Nat × List Byte)
  | [] => []
  | e :: r => e :: (r.zipIdx.takeWhile fun x => decide (x.1.1 = e.1 + 64 * (x.2 + 1) ∧ (base + x.1.1) / 4096 = (base + e.1) / 4096)).map fun x => x.1
/-- E0 issues a store of buffered data of a shard (R459, R461). -/
def State.issueIngest (s : State) (x : Shard) (tag : Nat) : State :=
  let i := x.stream
  let base := s.fld (Reg.ing2 i) F.ing2BufferBase + x.shard % (max 1 (s.fld (Reg.ing0 i) F.ing0Buffers)) * s.fld (Reg.ing1 i) F.ing1ShardBytes
  let l := storeRun base x.got
  match l with
  | [] => s
  | e :: _ =>
    let a := s.pkg * 2 ^ 45 + (base + e.1) % 2 ^ 45
    let p : Packet := { cls := 8, op := 2, dstPkg := s.pkg, dstEp := endpointOf (localAddr a), job := s.fld (Reg.ing0 i) F.ing0Job, addr := a, data := (l.map fun y => y.2).flatten }
    let o : RemOp := { pkt := p, host := some (1, i, x.shard), piece := { src := e.1, len := 64 * l.length } }
    match s.originate 0 tag o with
    | none => (s.bump Reg.fabRtStat F.fabRtStatNoRoute 1).abandonShard i x.shard
    | some s =>
      let offs := l.map fun y => y.1
      s.setShard { x with got := x.got.filter (fun g => !offs.contains g.1), sent := offs ++ x.sent }
/-- INGEST_STORE_ISSUE (R461). -/
def execIngestStoreIssue (t : At) (stream shard tag : Nat) (s : State) : Result :=
  if stream < 256 then
    let s := s.at t
    if s.dead then .next s else
    .next (match s.shardOf stream shard with
      | none => s
      | some x => if s.running && s.ingestSlot && decide (tag < tagsOf 0) && (s.op 0 tag).isNone then s.issueIngest x tag else s)
  else .fault .noSuchUnit
/-- SHARD_RETRANSMIT (R459). -/
def execShardRetransmit (t : At) (stream shard : Nat) (s : State) : Result :=
  if stream < 256 then
    let s := s.at t
    if s.dead then .next s else
    .next (match s.shardOf stream shard with
      | none => s
      | some x =>
        if s.running && decide (x.requested + s.fld (Reg.ing4 stream) F.ing4Retransmit ≤ s.now) && !(s.missing x).isEmpty then
          (s.setShard { x with requested := s.now }).requestShard x
        else s)
  else .fault .noSuchUnit
/-- SHARD_ABANDON (R460). -/
def execShardAbandon (t : At) (stream shard : Nat) (s : State) : Result :=
  if stream < 256 then
    let s := s.at t
    if s.dead then .next s else
    .next (match s.shardOf stream shard with
      | none => s
      | some x => if s.running && decide (x.deadline + s.fld (Reg.ing3 stream) F.ing3Grace ≤ s.tcNat) then s.abandonShard stream shard else s)
  else .fault .noSuchUnit

/-! Egress (R463, R464). -/

/-- An egress stream's running instance. -/
def State.egressOf (s : State) (e : Nat) : Option Egress := s.egress.find? fun x => decide (x.stream = e)
/-- Replace a running instance. -/
def State.setEgress (s : State) (x : Egress) : State := { s with egress := s.egress.map fun y => if y.stream = x.stream then x else y }
/-- An instance ends: its flag is sent (R464). -/
def State.endEgress (s : State) (e : Nat) : State :=
  { s with egress := s.egress.filter fun y => decide (y.stream ≠ e) }.hostFlag (s.fld (Reg.egr0 e) F.egr0Job) (s.fld (Reg.egr0 e) F.egr0Core) (s.fld (Reg.egr0 e) F.egr0Flag) 0
/-- An instance is abandoned (R464). -/
def State.abandonEgress (s : State) (e : Nat) : State := (s.endEgress e).bump Reg.hstCounts F.hstCountsEgressAbandoned 1
/-- The data that is next in order leaves in EGR_DATA messages (R464). -/
def State.flushEgress (s : State) (e : Nat) : Nat → State
  | 0 => s
  | n + 1 =>
    match s.egressOf e with
    | none => s
    | some x =>
      match x.ahead.find? fun y => decide (y.1 = x.sentTo) with
      | none => s
      | some (off, data) =>
        let s := s.setEgress { x with sentTo := off + data.length, ahead := x.ahead.filter (fun y => decide (y.1 ≠ off)), ackTick := if x.sentTo = x.acked then s.now else x.ackTick }
        (s.toServer (s.fld (Reg.egr0 e) F.egr0Server) 0x11 x.inst off (s.fld (Reg.egr4 e) F.egr4StreamId) data).flushEgress e n
/-- An egress LOAD completes (R464). -/
def State.egressDone (s : State) (e inst off : Nat) (st : Status) (data : List Byte) : State :=
  match s.egressOf e with
  | none => s
  | some x =>
    if x.inst ≠ inst then s
    else if st ≠ .ok then s.abandonEgress e
    else if off < x.sentTo then s
    else (s.setEgress { x with ahead := Sparse.place (Sparse.drop x.ahead off) off data }).flushEgress e (x.ahead.length + 1)
/-- E0 issues the next LOAD of an instance (R461, R464). -/
def State.issueEgress (s : State) (x : Egress) (tag : Nat) : State :=
  let e := x.stream
  let len := s.fld (Reg.egr3 e) F.egr3Length
  let at_ := s.fld (Reg.egr2 e) F.egr2SourceBase + x.nextLoad
  let n := min (len - x.nextLoad) (4096 - at_ % 4096)
  let a := s.pkg * 2 ^ 45 + at_ % 2 ^ 45
  let p : Packet := { cls := 8, op := 1, dstPkg := s.pkg, dstEp := endpointOf (localAddr a), job := s.fld (Reg.egr0 e) F.egr0Job, addr := a, aux := BitVec.ofNat 64 ((n / 64 - 1) * 2 ^ 53) }
  match s.originate 0 tag { pkt := p, host := some (2, e, x.inst), piece := { src := x.nextLoad, len := n } } with
  | none => (s.bump Reg.fabRtStat F.fabRtStatNoRoute 1).abandonEgress e
  | some s => s.setEgress { x with nextLoad := x.nextLoad + n }
/-- EGRESS_LOAD_ISSUE (R461). -/
def execEgressLoadIssue (t : At) (e tag : Nat) (s : State) : Result :=
  if e < 64 then
    let s := s.at t
    if s.dead then .next s else
    .next (match s.egressOf e with
      | none => s
      | some x =>
        if s.running && s.egressSlot && decide (x.nextLoad < s.fld (Reg.egr3 e) F.egr3Length ∧ tag < tagsOf 0) && (s.op 0 tag).isNone then s.issueEgress x tag else s)
  else .fault .noSuchUnit
/-- EGR_ACK (R455, R456, R464). -/
def execEgrAck (t : At) (e inst bytes : Nat) (incarnation : BitVec 32) (s : State) : Result :=
  if e < 64 then
    let s := s.at t
    if s.dead then .next s else
    .next (if incarnation.toNat ≠ s.inc then s.rxDrop
      else match s.egressOf e with
        | none => s.rxDrop
        | some x =>
          if x.inst ≠ inst ∨ s.running = false then s.rxDrop
          else if s.fld (Reg.egr3 e) F.egr3Length ≤ bytes then (s.wr (Reg.hstEgrst e) (BitVec.ofNat 64 inst)).endEgress e
          else if x.acked < bytes then s.setEgress { x with acked := bytes, ackTick := s.now } else s)
  else .fault .noSuchUnit
/-- EGRESS_RETRANSMIT (R464). -/
def execEgressRetransmit (t : At) (e : Nat) (s : State) : Result :=
  if e < 64 then
    let s := s.at t
    if s.dead then .next s else
    .next (match s.egressOf e with
      | none => s
      | some x =>
        if s.running && decide (x.acked < x.sentTo ∧ x.ackTick + s.fld (Reg.egr4 e) F.egr4Retransmit ≤ s.now) then
          s.setEgress { x with nextLoad := x.acked, sentTo := x.acked, ackTick := s.now }
        else s)
  else .fault .noSuchUnit
/-- EGRESS_TIMEOUT (R464). -/
def execEgressTimeout (t : At) (e : Nat) (s : State) : Result :=
  if e < 64 then
    let s := s.at t
    if s.dead then .next s else
    .next (match s.egressOf e with
      | none => s
      | some x => if s.running && decide (x.began + 1000000 * s.fld (Reg.egr5 e) F.egr5Timeout ≤ s.now) then s.abandonEgress e else s)
  else .fault .noSuchUnit
/-- An egress stream at the release of step n (R464). -/
def State.startEgress (s : State) (n e : Nat) : State :=
  if s.flag (Reg.egr0 e) F.egr0Valid && decide (((n : Int) - s.fld (Reg.egr1 e) F.egr1Phase) % (max 1 (s.fld (Reg.egr1 e) F.egr1Every) : Nat) = 0) then
    if (s.egressOf e).isSome then s.bump Reg.hstCounts F.hstCountsEgressSkipped 1
    else { s with egress := s.egress ++ [{ stream := e, inst := n, began := s.now, ackTick := s.now }] }
  else s

/-! Step releases and HOLD. -/

/-- What E0 does at the release of step n at tick rel (R459, R464): the first release in RUN asks for shards n to n + a. -/
def State.hostStep (s : State) (n rel : Nat) (first : Bool) : State :=
  let s := (List.range 256).foldl (fun s i =>
    if s.ingOn i then
      let a := s.fld (Reg.ing0 i) F.ing0Advance
      if first then (List.range (a + 1)).foldl (fun s j => s.newShard rel i (n + j)) s else s.newShard rel i (n + a)
    else s) s
  (List.range 64).foldl (fun s e => s.startEgress n e) s
/-- What E0 does at entry to HOLD (R462, R464). -/
def State.hostHold (s : State) : State :=
  let s := { s with shards := [] }
  s.egress.foldl (fun s x => s.abandonEgress x.stream) s
/-- An operation of E0 completes; waiting FSETs take tags. -/
def State.hostDone (s : State) (o : RemOp) (st : Status) (data : List Byte) : State :=
  let s := match o.host with
    | some (1, i, m) => s.ingestDone i m o.piece.src o.piece.len st
    | some (2, e, n) => s.egressDone e n o.piece.src st data
    | _ => s
  s.pumpHostFlags s.onyx.flagsOut.length

end Sys2Proof.Machine
end

