-- ==== Sys2Proof/Machine/Answers.lean ====
section
/-! DEFINITION. Responses, timers and tags of remote operations at their origin (R365 to R367, R384), and lattice frames at their receiver (R229,
R231). -/

namespace Sys2Proof.Machine

/-! Completing at the origin. -/

/-- A tag of an endpoint is free: operations that waited for one take it (R121, R365). -/
def State.tagFreed (s : State) (r core cyc : Nat) : State :=
  if (ringTower r).isSome then s.afterOp core cyc
  else if r = 0 then s.pumpHostFlags s.onyx.flagsOut.length
  else match ringFibre r with
  | some n => s.pumpCast r n
  | none => s.invs.foldl (fun s x =>
    if endpointOf (s.fld (Reg.fabReg0 x.1) F.fabReg0Base) = r then s.pumpInv r x.1 x.2.unsent.length else s) s
/-- The response that a fibre endpoint returns to the origin of a multicast for a member that did not answer (R383). -/
def State.memberAnswer (s : State) (r m : Nat) (o : RemOp) (st : Status) : Packet where
  cls := 9
  op := 3
  dstPkg := s.pkg
  originPkg := m
  job := o.pkt.job
  addr := o.pkt.addr
  incarnation := s.inc
  status := statusCode st
  retry := o.pkt.retry
  aux := BitVec.ofNat 64 (r * 2 ^ 59)
/-- The unit of the package that issued an operation learns of its end: a directory's INVH (5), a re-fetch's COPYLD (6), a fibre endpoint's copy
of a multicast, an operation of E0 (R365, R380, R381, R383, R459, R464). -/
def State.hostEnd (s : State) (r cyc : Nat) (o : RemOp) (st : Status) (answer : Packet) : State :=
  match o.host with
  | none => s
  | some (a, b, c) =>
    if (ringFibre r).isSome then
      let q : Packet := { answer with dstPkg := s.pkg, dstEp := a, hopDst := a, tag := b, originPkg := c }
      s.respond r q
    else if r = 0 then s.hostDone o st answer.data
    else if a = 5 then s.holderDone r b c cyc st
    else s.copyldDone (b / 256) (b % 256) c cyc st answer.data
/-- An operation that a unit of the package issued completes: its tag is free unless attempts are unanswered, and the unit is told. -/
def State.endHosted (s : State) (r tag cyc : Nat) (o : RemOp) (st : Status) (answer : Packet) : State :=
  let s := if st = .timeout then s.bump Reg.fabOpStat F.fabOpStatTimeouts 1 else s
  let s := if 1 < o.attempts ∧ o.answers < o.attempts then s.setOp r tag { o with done := true, doneAt := s.now, status := st, host := none } else s.freeOp r tag
  (s.hostEnd r cyc o st answer).tagFreed r o.core cyc
/-- The member of a multicast that a response comes from: a tower as 64 + t, else a package (R383). -/
def State.memberOf (s : State) (o : RemOp) (p : Packet) : Nat :=
  match ringTower (originEp p) with
  | some t => if p.originPkg = s.pkg ∧ 64 + t ∈ o.members then 64 + t else p.originPkg
  | none => p.originPkg
/-- A response of one member of a multicast: the last one completes it (R384). -/
def State.castAnswer (s : State) (r cyc : Nat) (o : RemOp) (p : Packet) : State :=
  let m := s.memberOf o p
  if m ∈ o.heard ∨ m ∉ o.members then (s.bump Reg.fabOpStat F.fabOpStatStaleResponses 1).setOp r p.tag o
  else
    let o := { o with heard := m :: o.heard, status := firstOf o.status (statusOf p.status) }
    if o.members.all o.heard.contains then
      s.endOp r p.tag o (if o.status = .ok ∧ o.notReached ≠ 0 then .partialDone else o.status) cyc
    else s.setOp r p.tag o
/-- The response to a LOAD of a partner's information line records the partner's incarnation (R349). -/
def State.recordPeer (s : State) (o : RemOp) (p : Packet) : State :=
  if o.pkt.cls = 8 ∧ o.pkt.op = 1 ∧ placeOf (localAddr o.pkt.addr) = .info ∧ p.status = 0 then
    s.putF (Reg.fabPeerInc o.pkt.dstPkg) F.fabPeerIncIncarnation (fieldAt p.data 0 4)
  else s
/-- A response that comes too late (R367): it is counted, and with the last awaited one the tag is free. -/
def State.lateAnswer (s : State) (r cyc tag : Nat) (o : RemOp) : State :=
  let s := s.bump Reg.fabOpStat F.fabOpStatStaleResponses 1
  let o := { o with answers := o.answers + 1 }
  if o.attempts * max 1 o.members.length ≤ o.answers ∧ o.host.isNone then (s.freeOp r tag).tagFreed r o.core cyc else s.setOp r tag o
/-- A response reaches the endpoint that holds its tag (R367): its data lands and the operation completes. -/
def State.takeResponse (s : State) (r cyc : Nat) (p : Packet) : State :=
  match s.op r p.tag with
  | none => s.bump Reg.fabOpStat F.fabOpStatStaleResponses 1
  | some o =>
    if o.done then s.lateAnswer r cyc p.tag o
    else
      let o := { o with answers := o.answers + 1 }
      let st := statusOf p.status
      if o.host.isSome then s.endHosted r p.tag cyc o st p
      else if o.isCast then s.castAnswer r cyc o p
      else
        let s := s.recordPeer o p
        let s := if st = .ok ∨ st = .poison then s.arrive o p.data p.poison cyc else s
        (s.endOp r p.tag o st cyc).tagFreed r o.core cyc
/-- A response arrives at an endpoint. -/
def execResponse (t : At) (r : Nat) (p : Packet) (s : State) : Result :=
  if r < Config.rings then
    let s := s.at t
    if s.dead then .next s else
    .next (if p.cls = 9 then s.takeResponse r t.cyc p else s)
  else .fault .noSuchUnit

/-! Timers (R366). -/

/-- An outstanding operation completes with a status without a response. -/
def State.endNow (s : State) (r tag cyc : Nat) (o : RemOp) (st : Status) : State :=
  if o.host.isSome then s.endHosted r tag cyc o st (s.memberAnswer r ((o.host.getD (0, 0, 0)).2.2) o st)
  else (s.endOp r tag o (firstOf o.status st) cyc).tagFreed r o.core cyc
/-- The transmitter input of a retry: that of the operation's first attempt on the ring plane (R339). -/
def retryInput (r : Nat) (o : RemOp) : Nat := if o.pkt.cls = 0xC then 12 else if (ringTower r).isSome then requestInput o.core else originInput r
/-- The request is sent again over the ring plane, with the same tag and seq (R366). -/
def State.sendAgain (s : State) (r tag cyc : Nat) (o : RemOp) : State :=
  let p := { o.pkt with retry := o.pkt.retry + 1, ptr := 0 }
  let o := { o with pkt := p, attempts := o.attempts + 1, sent := s.now, left := false }
  let s := s.bump Reg.fabOpStat F.fabOpStatRetries 1
  if (ringFibre r).isSome then
    match token p.tokens 0 with
    | some x =>
      if s.fibreUp x then
        (s.setOp r tag { o with deadline := s.now + s.fld Reg.fabTimeout F.fabTimeoutRackTimeout, left := true }).ontoFibre x 0 p
      else s.endNow r tag cyc o .pathFenced
    | none => s
  else if p.hopDst = 31 then (s.setOp r tag o).sendAt r (retryInput r o) p
  else match s.routed r p with
    | none => (s.bump Reg.fabRtStat F.fabRtStatNoRoute 1).endNow r tag cyc o .pathFenced
    | some q =>
      if s.ringFenced r || s.ringFenced q.hopDst then (s.bump Reg.fabRtStat F.fabRtStatFencedDrops 1).endNow r tag cyc o .pathFenced
      else (s.setOp r tag { o with pkt := q }).sendAt r (retryInput r o) q
/-- ATTEMPT_TIMEOUT: an attempt's timer has expired: three retries, then TIMEOUT (R366). Of a response and an expiry in one tick the response's command
comes first (R385). -/
def execAttemptTimeout (t : At) (r tag : Nat) (s : State) : Result :=
  if r < Config.rings ∧ tag < 8192 then
    let s := s.at t
    if s.dead then .next s else
    match s.op r tag with
    | none => .next s
    | some o =>
      .next (if o.done || !o.left || decide (s.now < o.deadline) then s
        else if o.pkt.retry < 3 then s.sendAgain r tag t.cyc o
        else s.endNow r tag t.cyc o .timeout)
  else .fault .noSuchUnit
/-- TAG_RELEASE: a tag kept after completion is free once every attempt is answered or 4 × rack_timeout has passed; a unit of the package
whose operation a fence ended is told (R367). -/
def execTagRelease (t : At) (r tag : Nat) (s : State) : Result :=
  if r < Config.rings ∧ tag < 8192 then
    let s := s.at t
    if s.dead then .next s else
    match s.op r tag with
    | none => .next s
    | some o =>
      .next (if !o.done then s
        else if o.host.isSome then s.endHosted r tag t.cyc o o.status (s.memberAnswer r ((o.host.getD (0, 0, 0)).2.2) o o.status)
        else if o.attempts * max 1 o.members.length ≤ o.answers ∨ o.doneAt + 4 * s.fld Reg.fabTimeout F.fabTimeoutRackTimeout ≤ s.now then
          (s.freeOp r tag).tagFreed r o.core t.cyc
        else s)
  else .fault .noSuchUnit

/-! Lattice frames at a receiver (R229 to R231). -/

/-- An accepted frame at its endpoint: a write, a member's part of a multicast write, a read reply, or a frame to forward over a fibre. -/
def State.takeFrame (s : State) (e cyc : Nat) (f : Frame) : State :=
  let r := ringOfLat e
  if 16 ≤ e then s.forwardFrame (e - 16) f
  else
    let p := framePacket f
    let s := s.overTower r 2 p
    if f.kind = 1 then (s.pmcRing r 0x20C 1).takeStore r cyc p
    else if f.kind = 2 then (s.pmcRing r 0x20C 1).takeStore r cyc { p with addr := castAddr r p.addr }
    else if f.kind = 3 then s.takeResponse r cyc { p with status := statusCode (if f.poison then .poison else .ok) }
    else s
/-- FRAME_RECEIVE: a frame is accepted only under the lane's phase and from the source that the phase connects; outputs that the frame does not
address discard it (R229, R238). The receivers of a lane between B and reopening are squelched (R234). -/
def execFrameReceive (t : At) (lane : BitVec 5) (e : Nat) (f : Frame) (s : State) : Result :=
  if e < Config.lattices then
    let s := s.at t
    if s.dead then .next s else
    let j := lane.toNat
    let drop (fld : Fld) : State := (s.bump (Reg.lplDisc (j / 8) e) fld 1).pmcRing (ringOfLat e) 0x20A 1
    .next (if 2 ≤ s.fld (laneReg j) F.lplLaneState then s
      else if f.phase ≠ s.fld (laneReg j) F.lplLanePhase then drop F.lplDiscWrongPhase
      else if f.src ≠ s.laneSrc j e then drop F.lplDiscWrongSource
      else if e ∈ frameReceivers f then s.takeFrame e t.cyc f
      else s)
  else .fault .noSuchUnit

end Sys2Proof.Machine
end

