-- ==== Sys2Proof/Machine/Boot.lean ====
section
/-! DEFINITION. Power, RESET_N and BOOT: what a start keeps, the incarnation, the choice of an image (R13, R27, R349, R391, R404, R406, R410, R437, R479,
R480). -/

namespace Sys2Proof.Machine

/-! Entering BOOT. -/

/-- What survives the entry to BOOT: fuses, store, memory arrays, the log memory, pins, the latched id, what waits, what was put out; every register
takes its reset value, the port's from the fuses (R6, R454, R470). -/
def State.cleared (s : State) : State :=
  let log := s.onyx.logRing
  let queue := s.onyx.logQueue
  let s0 : State := { State.reset with
    pending := s.pending, dev := s.dev, now := s.now, freeCtr := s.freeCtr, fuses := s.fuses, pins := { s.pins with laserEnN := true }
    store := s.store, start := { pkg := s.start.pkg }, mem := s.mem, marks := s.marks, onyx := { logRing := log, logQueue := queue, bootAt := s.now }, out := s.out }
  let mac := s.fuses.mac
  let byte (i : Nat) : Nat := mac.toNat / 2 ^ (8 * (5 - i)) % 256
  let low : List Nat := [byte 0 ^^^ 2, byte 1, byte 2, 0xFF, 0xFE, byte 3, byte 4, byte 5]
  let s0 := s0.putF Reg.hstMac F.hstMacMac mac.toNat
  (s0.wr (Reg.hstIpv6 0) (BitVec.ofNat 64 0x80FE)).wr (Reg.hstIpv6 1) (BitVec.ofNat 64 (natOf (low.map (BitVec.ofNat 8))))
/-- BOOT is entered (R13). -/
def State.enterBoot (s : State) : State := s.cleared.enter .boot

/-! The incarnation (R349, R391). -/

/-- An incarnation slot is valid (R391). -/
def State.incValid (s : State) (b : List Byte) : Bool :=
  decide (fieldAt b 0 4 = 0x1CA20001 ∧ fieldAt b 0x10 8 = s.fuses.serial.toNat ∧ 64 ≤ b.length ∧ fieldAt b 0x3C 4 = crc32c (b.take 0x3C))
/-- The bytes of an incarnation slot. -/
def State.incSlot (s : State) (inc count : Nat) : List Byte :=
  let b := bytesOf 0x1CA20001 4 ++ bytesOf inc 4 ++ bytesOf count 8 ++ bytesOf s.fuses.serial.toNat 8 ++ List.replicate 36 0
  b ++ bytesOf (crc32c b) 4
/-- The incarnation is raised: the newer valid slot counts, the other is written (R349, R391). -/
def State.raiseInc (s : State) : State :=
  let a := s.store.inc0
  let b := s.store.inc1
  let va := s.incValid a
  let vb := s.incValid b
  let useB := vb && (!va || decide (fieldAt a 8 8 < fieldAt b 8 8))
  let old := if useB then fieldAt b 4 4 else if va then fieldAt a 4 4 else 0
  let count := if useB then fieldAt b 8 8 else if va then fieldAt a 8 8 else 0
  let inc := if old = 0xFFFFFFFF then 1 else old + 1
  let w := s.incSlot inc (count + 1)
  let s := if !useB && va then { s with store := { s.store with inc1 := w } } else { s with store := { s.store with inc0 := w } }
  s.putF Reg.fabIncarnation F.fabIncarnationIncarnation inc
/-- The next record takes one more than the highest valid sequence of the persistent log (R437). -/
def State.numberLog (s : State) : State :=
  let l := s.store.log.filter fun x => decide (fieldAt x.2 0x3C 4 = crc32c (x.2.take 0x3C))
  s.putF Reg.onxLogStatus F.onxLogStatusNextSequence (if l.isEmpty then 0 else (l.map fun x => fieldAt x.2 8 4).foldl max 0 + 1)

/-! Choosing an image (R404, R406). -/

/-- Where byte a of a bank lies: its device, and the address there (R389). -/
def flashPlace (size : Nat) (b : Bool) (a : Nat) : Nat × Nat := (a / 4096 % 2, (if b then (size - 0x4000000) / 2 else 0) + a / 8192 * 4096 + a % 4096)
/-- What lies at a device address: a bank and the byte of it, none in the log region (R389). -/
def bankByte (size dev addr : Nat) : Option (Bool × Nat) :=
  let half := (size - 0x4000000) / 2
  if 2 * half ≤ addr then none
  else
    let x := addr % half
    some (decide (half ≤ addr), x / 4096 * 8192 + dev % 2 * 4096 + x % 4096)
/-- The body block of a bank that a failed read falls in; 2^32 is the header (R389, R392, R404). -/
def flashBlock (size dev addr : Nat) : Option (Nat × Nat) :=
  match bankByte size dev addr with
  | none => none
  | some (b, a) => if a < 4096 then some (b2n b, 2 ^ 32) else if a < 0x10000 then none else some (b2n b, a / 0x10000 - 1)
/-- The field of a bank's state. -/
def bankFld (b : Bool) : Fld := if b then F.onxImgStatusBankB else F.onxImgStatusBankA
/-- The state that header_check gives a bank; a read error counts as a failed block check (R404). -/
def State.headState (s : State) (errs : List (Nat × Nat)) (b : Bool) : Nat :=
  if errs.contains (b2n b, 2 ^ 32) then 6 else s.headerCheck (s.bank b).header
/-- The device boots from a bank whose checks pass; an image for another package ends the start (R406). -/
def State.bootFrom (s : State) (b : Bool) : State :=
  let h := (s.bank b).header
  let a := Reg.onxImgStatus
  let s := ((s.putB a F.onxImgStatusBootedBank b).putF a F.onxImgStatusKeyIndex (hKey h)).putF Reg.onxImgSeq F.onxImgSeqSequence (hSequence h)
  if hPackage h ≠ 0xFF ∧ hPackage h ≠ s.pkg then s.startFail 2 else s
/-- Check the bodies of the banks in order; the first that passes is booted (R404). -/
def State.tryBanks (s : State) (errs : List (Nat × Nat)) : List Bool → State
  | [] => s.startFail 1
  | b :: r =>
    let st := s.bodyCheck (s.bank b) ((errs.filter fun e => decide (e.1 = b2n b)).map fun e => e.2)
    let s := s.putF Reg.onxImgStatus (bankFld b) st
    if st = 1 then s.bootFrom b else s.tryBanks errs r
/-- BANK_SELECTION (R404). -/
def State.selectBank (s : State) (named : Option Bool) (errs : List (Nat × Nat)) : State :=
  let s := (s.phaseTo 1).putB Reg.onxImgStatus F.onxImgStatusForced named.isSome
  let ha := s.headState errs false
  let hb := s.headState errs true
  let s := (s.putF Reg.onxImgStatus F.onxImgStatusBankA (if ha = 1 then 0 else ha)).putF Reg.onxImgStatus F.onxImgStatusBankB (if hb = 1 then 0 else hb)
  let order : List Bool := match named with
    | some y => if (if y then hb else ha) = 1 then [y] else []
    | none =>
      if ha = 1 ∧ hb = 1 then (if hSequence s.store.bankA.header < hSequence s.store.bankB.header then [true, false] else [false, true])
      else if ha = 1 then [false] else if hb = 1 then [true] else []
  s.tryBanks errs order
/-- BOOT runs (R13, R388, R408): the store is identified, the incarnation raised, an id above 31 refused (R27), an image chosen. -/
def State.runBoot (s : State) (named : Option Bool) (sight : BootSight) : State :=
  let s := { s with store := { s.store with size := min sight.size0 sight.size1 }, start := { s.start with named := named, badEngines := sight.badEngines },
                    onyx := { s.onyx with bootAt := s.now } }
  let s := s.raiseInc.numberLog
  if 32 ≤ s.pkg then s.startFail 4 else s.selectBank named (sight.readErrors.filterMap fun x => flashBlock s.store.size x.1 x.2)

/-! Restarts (R410, R466). -/

/-- The CORE_STEP of the lowest core that is enabled and not fenced, plus one; 0 where there is none (R410). -/
def State.keptStep (s : State) : Nat :=
  match (List.range Config.cores).find? fun c => s.flag (Reg.coreCtrl c) F.coreCtrlEnable && !s.coreFenced c with
  | some c => (s.rd (Reg.coreStep c)).toNat + 1
  | none => 0
/-- What a resume keeps (R410): the words of ONX_VAR_SELk, those of ONX_VAR_RUNr, the step. -/
def State.keep (s : State) : List (Nat × Nat) × List (Nat × Nat) × Nat :=
  ((List.range 16).map fun k => (k, (s.rd (Reg.onxVarSel k)).toNat), (List.range 1024).map fun r => (r, (s.rd (Reg.onxVarRun r)).toNat), s.keptStep)
/-- A signed restart is carried out (R410, R466): bit 0 of its flags names a bank, bit 1 the bank, bit 2 resumes a job held in HOLD. -/
def State.reboot (s : State) (flags : Nat) : State :=
  if s.dev ≠ .hold ∧ s.dev ≠ .halted then s
  else
    let kept := if bit flags 2 && decide (s.dev = .hold) then some s.keep else none
    let s := s.enterBoot
    ({ s with start := { s.start with resume := kept } }).runBoot (if bit flags 0 then some (bit flags 1) else none) { size0 := s.store.size, size1 := s.store.size }

/-! Power and RESET_N (R13, R479, R480). -/

/-- Power goes: nothing volatile keeps its contents. -/
def State.unpowered (s : State) : State :=
  { State.reset with dev := .off, pending := s.pending, now := s.now, freeCtr := s.freeCtr, fuses := s.fuses, store := s.store, out := s.out }
/-- POWER_ON (R479): the rails are up with RESET_N low. -/
def execPowerOn (t : At) (s : State) : Result :=
  let s := s.at t
  .next (if s.dev = .off then s.unpowered.enterBoot else s)
/-- POWER_REMOVAL (R480). -/
def execPowerRemoval (t : At) (s : State) : Result := .next (s.at t).unpowered
/-- RESET_N_ASSERT (R15, R480): all activity is abandoned; in TRIPPED it is ignored. -/
def execResetNAssert (t : At) (s : State) : Result :=
  let s := s.at t
  let s := { s with pins := { s.pins with resetN := false } }
  .next (if s.dev = .off ∨ s.dev = .tripped then s
    else
      let s := { s with onyx := { s.onyx with logQueue := [] }, pins := { s.pins with i3cAddr := none, i3cOffset := 0 } }
      s.enterBoot)
/-- RESET_N_RELEASE (R13, R27): the id is latched and BOOT runs. -/
def execResetNRelease (t : At) (straps : BitVec 6) (sight : BootSight) (s : State) : Result :=
  let s := s.at t
  let low := !s.pins.resetN
  if s.dev = .off then .next s
  else
    let s := { s with pins := { s.pins with resetN := true } }
    .next (if low ∧ s.dev = .boot then ({ s with start := { s.start with pkg := straps.toNat } }).runBoot none sight else s)

end Sys2Proof.Machine
end

