-- ==== Sys2Proof/Machine/Routes.lean ====
section
/-! DEFINITION. Route tables and epochs (R332, R335, R336). -/

namespace Sys2Proof.Machine

/-- A route write or flip is refused (R336, R439 code 0x0603). -/
def State.routeRefused (s : State) (a : Nat) (v : Word) : State := s.log 0x0603 (srcUnit 12 0) [a, v.toNat]
/-- FAB_RT_CTRL is written: next_epoch and flip_carat, and pending sets; a next_epoch equal to the current one is refused (R336). -/
def State.flipWrite (s : State) (v : Word) : State :=
  let a := Reg.fabRtCtrl
  if F.fabRtCtrlNextEpoch.get v = s.fld a F.fabRtCtrlCurEpoch then s.routeRefused a v
  else ((s.putF a F.fabRtCtrlNextEpoch (F.fabRtCtrlNextEpoch.get v)).putF a F.fabRtCtrlFlipCarat (F.fabRtCtrlFlipCarat.get v)).putB a F.fabRtCtrlPending true
/-- FLIP_CARAT_WRITE (R336). -/
def execFlipCaratWrite (t : At) (value : BitVec 64) (s : State) : Result := .next ((s.at t).ifAwake fun s => s.flipWrite value)
/-- The flip (R336): the shadow bank becomes current with next_epoch, the old bank previous and locked for 64 carats. -/
def State.flip (s : State) : State :=
  let a := Reg.fabRtCtrl
  let next := s.fld a F.fabRtCtrlNextEpoch
  let old := s.fld a F.fabRtCtrlCurEpoch
  let s := (s.putF a F.fabRtCtrlCurrentBank (1 - s.fld a F.fabRtCtrlCurrentBank)).putF a F.fabRtCtrlCurEpoch next
  { (s.putB a F.fabRtCtrlPending false).putB a F.fabRtCtrlPrevLocked true with lockEnd := s.now + 64 * 1024, prevEpoch := old }
/-- ROUTE_FLIP: at the first carat boundary at or after the flip carat with no bank locked (R336). -/
def execRouteFlip (t : At) (s : State) : Result :=
  let s := s.at t
  if s.dead then .next s else
  let a := Reg.fabRtCtrl
  .next (if s.flag a F.fabRtCtrlPending && !s.flag a F.fabRtCtrlPrevLocked && decide (1024 * s.fld a F.fabRtCtrlFlipCarat ≤ s.tcNat) && decide (s.tcNat % 1024 = 0)
    then s.flip else s)
/-- BANK_LOCK_END: 64 carats after the flip (R336). -/
def execBankLockEnd (t : At) (s : State) : Result :=
  let s := s.at t
  if s.dead then .next s else
  .next (if s.flag Reg.fabRtCtrl F.fabRtCtrlPrevLocked && decide (s.lockEnd ≤ s.now) then s.putB Reg.fabRtCtrl F.fabRtCtrlPrevLocked false else s)
/-- The fields of a route entry (R332). -/
def routeMask : Word := 0xF83FFFF000000000
/-- A route table entry is written: in the shadow bank, unless that bank is locked (R336). -/
def State.routeWrite (s : State) (r b d : Nat) (v : Word) : State :=
  if b = s.fld Reg.fabRtCtrl F.fabRtCtrlCurrentBank ∨ s.flag Reg.fabRtCtrl F.fabRtCtrlPrevLocked then s.routeRefused (Reg.fabRt r b d) v
  else s.wr (Reg.fabRt r b d) (v &&& routeMask)
/-- ROUTE_TABLE_WRITE (R336). -/
def execRouteTableWrite (t : At) (r : Nat) (b : Bool) (d : Nat) (value : BitVec 64) (s : State) : Result :=
  if r < Config.rings ∧ d < 64 then .next ((s.at t).ifAwake fun s => s.routeWrite r (b2n b) d value) else .fault .noSuchUnit

end Sys2Proof.Machine
end

