-- ==== Sys2Proof/Machine/StepBoundary.lean ====
section
/-! DEFINITION. The step boundary: step trees and arrivals, boundary messages, the release or HOLD (R319 to R322), variant selection (R82 to R86). -/

namespace Sys2Proof.Machine

/-! Variant selection (R82 to R86). -/

/-- The selection of a slot (R86). -/
def State.sel (s : State) (slot : Nat) : Nat := (s.rd (Reg.onxVarSel (slot / 16))).toNat / 2 ^ (4 * (slot % 16)) % 8
/-- Set the selection of a slot (R86). -/
def State.setSel (s : State) (slot v : Nat) : State := s.putF (Reg.onxVarSel (slot / 16)) ⟨4 * (slot % 16) + 2, 4 * (slot % 16)⟩ v
/-- The run count of a rule (R86). -/
def State.runOf (s : State) (r : Nat) : Nat := s.fld (Reg.onxVarRun r) F.onxVarRunRun
/-- Set the run count of a rule. -/
def State.setRun (s : State) (r n : Nat) : State := s.putF (Reg.onxVarRun r) F.onxVarRunRun n
/-- The condition "metric > threshold" of a rule (R82); none where neither sense is true. -/
def metricAbove (m threshold : Nat) (i : Incl) : Option Bool :=
  match m with
  | 0 => if i.elem = 0 then none else some (decide (threshold * i.elem < i.sat * 2 ^ 32))
  | 1 => if i.elem = 0 then none else some (decide (threshold * i.elem < i.flush * 2 ^ 32))
  | 2 => some (decide (threshold < i.poisb))
  | 3 => some (decide (threshold < i.rsvd))
  | 4 => if (f32.nanOf [i.maxMag, threshold]).isSome then none else some (f32.lt threshold i.maxMag)
  | 5 => some (decide (threshold < i.faults))
  | 6 => some (decide (threshold < i.capDrop))
  | _ => some (decide (threshold < i.capDef))
/-- A rule's condition under its sense (R81, R82). -/
def VRule.holds (r : VRule) (i : Incl) : Bool :=
  match metricAbove r.metric r.threshold i with
  | none => false
  | some b => if r.sense = 0 then b else !b
/-- One rule's record is read and its run count updated (R83): the record is valid where no word is poisoned, the check matches, mixed is clear and
tensor and step are the rule's. A record in the vault of a fenced core is read and judged as any other (DESIGN CHOICE, assumption 118). -/
def State.evalRule (s : State) (cyc step : Nat) (poisoned : Bool) (n : Nat) (r : VRule) : State :=
  let (b, bad, s) := (s.settle (r.addr % 2 ^ 45) cyc).onyxRead (r.addr % 2 ^ 45) 64
  let (i, tid, st, _, mixed, _, ok) := readRecord b
  if !poisoned && bad.isEmpty && ok && !mixed && decide (tid = r.tid ∧ st = step % 2 ^ 32) then
    s.setRun n (if r.holds i then min (s.runOf n + 1) r.nSteps else 0)
  else s.bump Reg.onxVarStatus F.onxVarStatusMissingRecords 1
/-- The rules of a slot, with their numbers. -/
def VTable.on (v : VTable) (slot : Nat) : List (Nat × VRule) := (v.rules.zipIdx.map fun x => (x.2, x.1)).filter fun x => decide (x.2.slot = slot)
/-- A slot's lowest rule that has reached its count with another target fires (R83); the selection is applied at the boundary (R84). -/
def State.evalSlot (s : State) (slot : Nat) : State :=
  let l := s.start.vtable.on slot
  match l.find? fun x => decide (s.runOf x.1 = x.2.nSteps ∧ x.2.target ≠ s.sel slot) with
  | none => s
  | some f =>
    let s := { s with boundary := { s.boundary with newSel := assocSet s.boundary.newSel slot (f.2.target + 1) } }
    l.foldl (fun s x => s.setRun x.1 0) (s.bump Reg.onxVarStatus F.onxVarStatusSwitches 1)
/-- Onyx evaluates every rule, then every slot (R83). -/
def State.evaluate (s : State) (cyc step : Nat) (poisoned : List Nat) : State :=
  let v := s.start.vtable
  let s := v.rules.zipIdx.foldl (fun s x => s.evalRule cyc step (poisoned.contains x.2) x.2 x.1) s
  let s := (List.range v.slots.length).foldl State.evalSlot s
  s.putF Reg.onxVarStatus F.onxVarStatusLastStep step
/-- The selection of a slot as the coming boundary applies it. -/
def State.nextSel (s : State) (slot : Nat) : Nat :=
  match assoc s.boundary.newSel slot with
  | 0 => s.sel slot
  | n + 1 => n
/-- The selection digest (R85): over the 256 selection bytes that the boundary is about to apply. -/
def State.selDigest (s : State) : Nat := crc32c ((List.range 256).map fun i => BitVec.ofNat 8 (s.nextSel i))

/-! Boundary messages (R319, R320). -/

/-- The current step base (R325). -/
def State.base (s : State) : Nat := (s.rd Reg.onxSchedBase).toNat
/-- The planned step length in ticks (R325). -/
def State.planTicks (s : State) : Nat := 1024 * s.fld Reg.onxSchedCfg F.onxSchedCfgPlanned
/-- The towers of which a boundary waits: those in service with a job core that has not halted (R319). -/
def State.awaited (s : State) : List Nat :=
  (List.range 12).filter fun t => !(s.tower t).fenced && (s.jobCores t).any fun c => !(s.core c).halted
/-- The hold carats of the package (R320). -/
def State.holdCount (s : State) : Nat :=
  b2n (!s.boundary.newSel.isEmpty) + ceilDiv (s.fld Reg.onxTherm F.onxThermD * s.fld Reg.onxSchedCfg F.onxSchedCfgPlanned) 100
/-- The program's fault policy asks for HOLD (R81, R85). -/
def State.faultHold (s : State) : Bool := decide (s.start.vtable.policy = 1) && s.boundary.faulted
/-- The package's boundary message (R319, R328). -/
def State.ownMessage (s : State) (stamp : Nat) : BMsg where
  pkg := s.pkg
  stamp := stamp
  hold := s.holdCount
  request := !s.boundary.causes.isEmpty || s.faultHold
  d := s.fld Reg.onxTherm F.onxThermD
  digest := s.selDigest
/-- The data flit of a boundary message (R328). -/
def BMsg.flit (m : BMsg) : List Byte :=
  bytesOf (m.hold % 2 ^ 16 + 2 ^ 16 * b2n m.request + 2 ^ 24 * (m.d % 256) + 2 ^ 32 * m.digest) 8 ++ bytesOf 0 56
/-- A message is held, the latest of its package (R319). -/
def State.takeMessage (s : State) (m : BMsg) : State :=
  let b := s.boundary
  { s with boundary := { b with msgs := m :: b.msgs.filter (fun x => decide (x.pkg ≠ m.pkg)), lateArrival := some (max (b.lateArrival.getD 0) s.tcNat) } }
/-- A boundary message goes out: it is held, and E0 sends it (R319, R328). -/
def State.sendMessage (s : State) (m : BMsg) : State :=
  (s.takeMessage m).sendAt 0 15 { cls := 0xB, op := 1, hopDst := 31, rxMap := s.boundaryMap, originPkg := s.pkg, dstPkg := s.pkg, incarnation := s.inc, aux := BitVec.ofNat 64 m.stamp, data := m.flit }
/-- Every awaited tower has arrived: the boundary is open (R325), and once the evaluation is complete the message is formed and sent (R84, R319, R329). -/
def State.tryForm (s : State) : State :=
  let b := s.boundary
  let l := s.awaited
  if b.formed || !(l.all fun t => decide (assoc b.arrived t ≠ 0)) then s
  else
    let s := s.putF Reg.onxSchedStatus F.onxSchedStatusInBoundary 1
    if b.evalFor.isSome then s else
    let stamp := max (if l = [] then s.base else (b.arrived.map fun x => x.2 - 1).foldl max 0) (b.evalDone.getD 0)
    let m := s.ownMessage stamp
    let s := { s with boundary := { b with formed := true } }
    s.sendMessage m
/-- TOWER_STEP_TREE_COMPLETE (R319). -/
def execTowerStepTreeComplete (t : At) (tower : Nat) (s : State) : Result :=
  onTower t tower s fun s =>
    let w := s.tower tower
    match w.stepDue with
    | none => s
    | some d =>
      if d ≤ t.cyc ∧ w.stepSent = false then
        (s.setTower tower { w with stepDue := none, stepSent := true }).sendAt (towerRing tower) 15
          { cls := 0xB, op := 0, hopDst := 0, originPkg := s.pkg, dstPkg := s.pkg, incarnation := s.inc, aux := s.copyTc tower }
      else s
/-- TOWER_ARRIVAL (R319). -/
def execTowerArrival (t : At) (tower : Nat) (stamp : BitVec 64) (s : State) : Result :=
  onTower t tower s fun s =>
    if s.running && s.awaited.contains tower && !s.boundary.formed then
      ({ s with boundary := { s.boundary with arrived := assocSet s.boundary.arrived tower (stamp.toNat + 1) } }).tryForm
    else s
/-- BOUNDARY_MESSAGE: a message of a package of the job (R319); the own message may come back with the broadcast. -/
def execBoundaryMessage (t : At) (pkg : Nat) (stamp : BitVec 64) (hold : Nat) (request : Bool) (d : Nat) (digest : BitVec 32) (s : State) : Result :=
  if pkg < 64 then
    let s := s.at t
    if s.dead then .next s else
    .next (if s.running && (decide (pkg = s.pkg) || s.others.contains pkg) then
        s.takeMessage { pkg := pkg, stamp := stamp.toNat, hold := hold % 2 ^ 16, request := request, d := d % 256, digest := digest.toNat }
      else s)
  else .fault .noSuchUnit
/-- VARIANT_EVALUATION: Onyx ends the evaluation of the records of the last step (R83, R84). -/
def execVariantEvaluation (t : At) (poisoned : List Nat) (s : State) : Result :=
  let s := s.at t
  if s.dead then .next s else
  match s.boundary.evalFor with
  | none => .next s
  | some k =>
    if s.running then
      let s := s.evaluate t.cyc k poisoned
      .next ({ s with boundary := { s.boundary with evalFor := none, evalDone := some s.tcNat } }).tryForm
    else .next s

/-! Release or HOLD (R319, R321, R322). -/

/-- The messages of every package of the job are held. -/
def State.allMessages (s : State) : Bool := (s.pkg :: s.others).all fun p => s.boundary.msgs.any fun m => decide (m.pkg = p)
/-- A of R319. -/
def State.boundaryA (s : State) : Nat := (s.boundary.msgs.map fun m => m.stamp).foldl max 0
/-- H of R319. -/
def State.boundaryH (s : State) : Nat := (s.boundary.msgs.map fun m => m.hold).foldl max 0
/-- The release tick (R319): a message that arrives after it moves it to the first carat boundary after the arrival. -/
def State.relTick (s : State) : Nat :=
  let h := 1024 * s.boundaryH
  let rel := max (s.base + s.planTicks) (caratUp (s.boundaryA + s.fld Reg.onxSchedCfg F.onxSchedCfgWStep)) + h
  match s.boundary.lateArrival with
  | some a => if rel < a then caratUp a + h else rel
  | none => rel
/-- The first digest that differs from the package's own (R85). -/
def State.otherDigest (s : State) : Option Nat :=
  match s.boundary.msgs.find? fun m => decide (m.pkg = s.pkg) with
  | none => none
  | some o => ((s.others.filterMap fun p => s.boundary.msgs.find? fun m => decide (m.pkg = p)).find? fun m : BMsg => decide (m.digest ≠ o.digest)).map fun m => m.digest
/-- The step that ends: CORE_STEP of the lowest job core. -/
def State.stepNow (s : State) : Nat :=
  match ((List.range 12).map s.jobCores).flatten with
  | c :: _ => (s.rd (Reg.coreStep c)).toNat
  | [] => 0
/-- The job enters HOLD at this boundary; every cause is kept (R321, R421). -/
def State.enterHold (s : State) (diff : Option Nat) : State :=
  let s := s.wr Reg.onxSchedArrive (BitVec.ofNat 64 s.boundaryA)
  let s := match diff with
    | some d => ((s.holdCause 2).raiseBit Reg.onxVarStatus F.onxVarStatusDigestMismatch).log 0x0801 (srcUnit 12 0)
        [s.stepNow, ((s.boundary.msgs.find? fun m : BMsg => decide (m.pkg = s.pkg)).map fun m : BMsg => m.digest).getD 0, d]
    | none => s
  let s := if s.faultHold then (s.holdCause 1).raiseBit Reg.onxVarStatus F.onxVarStatusFaultHold else s
  let s := if s.boundary.msgs.any fun m => m.request && decide (m.pkg ≠ s.pkg) then s.holdCause 12 else s
  let bits := s.boundary.causes.foldl (fun m b => m + 2 ^ b) 0
  let s := s.wr Reg.onxHoldCause (s.rd Reg.onxHoldCause ||| BitVec.ofNat 64 bits)
  let s := (s.putF Reg.onxSchedStatus F.onxSchedStatusInBoundary 0).putF Reg.onxSchedStatus F.onxSchedStatusHoldRequested 0
  { s.hostHold with boundary := {} }.enter .hold
/-- CORE_STEP of every enabled core advances (R128, R319). -/
def State.advanceSteps (s : State) : State :=
  ((List.range 3072).filter fun c => s.flag (Reg.coreCtrl c) F.coreCtrlEnable).foldl (fun s c => s.wr (Reg.coreStep c) (s.rd (Reg.coreStep c) + 1)) s
/-- A fault of the step that lands after the own message was formed, and before the release: the message is sent again with the request for HOLD, so that the
job enters HOLD at this boundary (R85; DESIGN CHOICE, assumption 115). -/
def State.lateFault (s : State) : State :=
  match s.boundary.msgs.find? fun m => decide (m.pkg = s.pkg) with
  | some m => if s.faultHold && !m.request then s.sendMessage { m with request := true } else s
  | none => s
/-- The first fault of every core in the new step is an event again, also of one that has halted (R80). -/
def State.newStepFaults (s : State) : State :=
  (s.cores.filter fun x => x.2.faultedStep).foldl (fun s x => s.setCore x.1 { x.2 with faultedStep := false }) s
/-- A core's step ends at the release (R149, R319). -/
def State.releaseCore (s : State) (cyc c : Nat) : State :=
  let k := s.core c
  let s := s.setCore c { k with stepped := false, faultedStep := false }
  if k.wait = .step then s.release c cyc else s
/-- The boundary releases (R84, R319, R320, R322). -/
def State.releaseStep (s : State) (cyc : Nat) : State :=
  let rel := s.relTick
  let h := s.boundaryH
  let plan := s.base + s.planTicks + 1024 * h
  let ended := s.stepNow
  let s := s.boundary.newSel.foldl (fun s x => s.setSel x.1 (x.2 - 1)) s
  let s := (s.wr Reg.onxSchedArrive (BitVec.ofNat 64 s.boundaryA)).wr Reg.onxSchedBase (BitVec.ofNat 64 rel)
  let s := s.bump Reg.onxSchedStatus F.onxSchedStatusSteps 1
  let s := if plan < rel then
    ((s.bump Reg.onxSchedStatus F.onxSchedStatusLateSteps 1).bump Reg.onxSchedLate F.onxSchedLateLateCarats ((rel - plan) / 1024)).raise Reg.onxSchedLate F.onxSchedLateLateMax (rel - plan)
  else s
  let s := (s.bump Reg.onxSchedHold F.onxSchedHoldHoldCarats h).putF Reg.onxSchedHold F.onxSchedHoldHLast (min h 0xFFFF)
  let s := s.putF Reg.onxSchedHold F.onxSchedHoldDilApplied ((s.boundary.msgs.map fun m => m.d).foldl max 0)
  let s := s.putF Reg.onxSchedStatus F.onxSchedStatusInBoundary 0
  let s := s.advanceSteps.newStepFaults
  let s := (List.range 12).foldl (fun s t =>
    let s := s.setTower t { s.tower t with stepDue := none, stepSent := false }
    ((s.jobCores t).filter fun c => !(s.core c).halted).foldl (fun s c => s.releaseCore cyc c) s) s
  let eval := if s.start.vtable.rules.isEmpty then none else some ended
  let s := { s with boundary := { causes := s.boundary.causes, evalFor := eval } }
  let s := s.hostStep s.stepNow rel false
  if s.awaited.isEmpty then s.tryForm else s
/-- STEP_RELEASE: the release tick is reached, or HOLD is entered (R319, R321). -/
def execStepRelease (t : At) (s : State) : Result :=
  let s := s.at t
  if s.dead then .next s else
  if s.running then
    let s := s.tryForm
    if s.allMessages && s.boundary.formed then
      let s := s.lateFault
      let diff := s.otherDigest
      .next (if diff.isSome || s.boundary.msgs.any (fun m => m.request) then s.enterHold diff
        else if s.relTick ≤ s.tcNat then s.releaseStep t.cyc else s)
    else .next s
  else .next s
/-- STEP_TIMEOUT (R322). -/
def execStepTimeout (t : At) (s : State) : Result :=
  let s := s.at t
  if s.dead then .next s else
  let limit := s.fld Reg.onxSchedCfg F.onxSchedCfgStepTimeout
  .next (if s.running && decide (limit ≠ 0 ∧ s.base + s.planTicks + 1024 * limit ≤ s.tcNat) then
      let missing := (s.awaited.filter fun u => decide (assoc s.boundary.arrived u = 0)).foldl (fun m u => m + 2 ^ u) 0
      ((s.log 0x0802 (srcUnit 12 0) [s.stepNow, missing]).raiseBit Reg.onxSchedStatus F.onxSchedStatusTimeout).halt 1
    else s)

end Sys2Proof.Machine
end

