-- ==== Sys2Proof/Machine/Thaw.lean ====
section
/-! DEFINITION. Clearing the freeze of an arbiter: what waited at its ports goes on (R192, R338). -/

namespace Sys2Proof.Machine

/-- The order in which accesses that wait at a vault port go (R190): the highest input first. -/
def State.accessPri (s : State) (c : Nat) : Access → Nat
  | .sld .. => s.portPri c 12
  | .vld .. | .vdq .. | .quant _ => s.portPri c 11
  | .write pri _ _ _ => pri
  | .worm _ | .packet .. => s.portPri c 1
/-- Accesses in their order; those of one input as they came. -/
def placeAccess (s : State) (c : Nat) (x : Access) : List Access → List Access
  | [] => [x]
  | y :: r => if s.accessPri c y ≤ s.accessPri c x then y :: placeAccess s c x r else x :: y :: r
/-- The access takes the write port. -/
def Access.writes : Access → Bool
  | .write .. => true
  | _ => false
/-- An access that waited goes on in a cycle (R192). -/
def State.runAccess (s : State) (c cyc : Nat) : Access → State
  | .sld r off => if s.coreFenced c then s else s.sldRead c r off cyc
  | .vld v off => if s.coreFenced c then s else s.vldRead c v off cyc
  | .vdq v fmt tscale data scale => if s.coreFenced c then s else s.vdqRead c v fmt tscale data scale cyc
  | .quant q => if s.coreFenced c then s else s.quantRun c cyc q
  | .write _ off data po => if s.coreFenced c then s else s.vaultWrite c off data po
  | .worm w => s.wormAccess c cyc w
  | .packet r p => s.retake r cyc p
/-- Accesses go on one by one from a cycle on, reads and writes each in a cycle of their own port. -/
def State.runAccesses (s : State) (c rd wr : Nat) : List Access → State
  | [] => s
  | x :: l => if x.writes then ({ s with clk := wr }.runAccess c wr x).runAccesses c rd (wr + 1) l else ({ s with clk := rd }.runAccess c rd x).runAccesses c (rd + 1) wr l
/-- Clearing freeze allows grants from the next cycle; what waited at a vault port, or at a channel, is served then (R192, R338). -/
def State.thaw (s : State) (a : Arbiter) (cyc : Nat) : State :=
  let was := s.flag (arbCtrl a) F.fabTxArbCtrlFreeze
  let s := (s.putB (arbCtrl a) F.fabTxArbCtrlFreeze false).putB (arbCtrl a) F.fabTxArbCtrlDrained false
  if !was then s
  else
    let s := s.setArb a { s.arb a with thawAt := cyc + 1 }
    match a with
    | .vault c =>
      let l := (s.core c).waiting.foldl (fun l x => placeAccess s c x l) []
      if l = [] then s else { (s.modCore c fun k => { k with waiting := [] }).runAccesses c (cyc + 1) (cyc + 1) l with clk := s.clk }
    | .channel _ _ =>
      let l := (s.arb a).waiting
      if l = [] then s else l.foldl (fun s x => s.retake x.1 cyc x.2) (s.setArb a { s.arb a with waiting := [] })
    | .tx _ => s
/-- ARB_FREEZE_CLEAR (R192). -/
def execArbFreezeClear (t : At) (arb : Arbiter) (s : State) : Result := onArb t arb s fun s => s.thaw arb t.cyc

end Sys2Proof.Machine
end

