-- ==== Sys2Proof/Machine/Units.lean ====
section
/-! DEFINITION. Enabling and disabling units (R432 to R435). -/

namespace Sys2Proof.Machine

/-- Set a unit's state. -/
def State.setUnit (s : State) (u v : Nat) : State := s.putF (Reg.onxUnit u) F.onxUnitState v
/-- Freeze arbiters (R192, R338). -/
def State.freezeAll (s : State) (cyc : Nat) (l : List Arbiter) : State := l.foldl (fun s a => s.freeze a cyc) s
/-- Unfreeze arbiters. -/
def State.thawAll (s : State) (cyc : Nat) (l : List Arbiter) : State := l.foldl (fun s a => s.thaw a cyc) s
/-- The arbiters that a disable of a tower, stack or fibre endpoint freezes (R434). -/
def unitArbs (u : Nat) : List Arbiter :=
  if u < 12 then .tx (towerRing u) :: (List.range 256).map fun l => .vault (256 * u + l)
  else if 16 ≤ u ∧ u < 32 then (List.range 32).map fun c => .channel (u - 16) c
  else if 32 ≤ u then [.tx (fibreRing (u - 32))]
  else []
/-- Every ring-plane transmitter of the package. -/
def allTx : List Arbiter := (List.range 21).map fun r => .tx r
/-- Clear a ring-plane endpoint's fence, and its lattice endpoint's removal (R434 in reverse). -/
def State.unfence (s : State) (r : Nat) : State :=
  let s := (List.range 4).foldl (fun s n =>
    let s := s.wr (Reg.rplFence n) (s.rd (Reg.rplFence n) &&& ~~~(BitVec.ofNat 64 (2 ^ r)))
    s.putB (Reg.rplRebal n) F.rplRebalInProgress true) s
  let s := (s.putF (Reg.rplTxStatus r) F.rplTxStatusWidth 0).retarget false
  match latOf r with
  | some e => (List.range 4).foldl (fun s n => s.setLattice n { s.lattice n with removed := (s.lattice n).removed.filter (· ≠ e) }) s
  | none => s
/-- Fence an endpoint on the planes it has (R221, R238). -/
def State.fenceEnd (s : State) (r : Nat) : State :=
  match latOf r with
  | some e => (s.fenceRing r).fenceLat e
  | none => s.fenceRing r
/-- A tower's rails are removed: its cores, vaults and registers hold nothing; which cores are fenced stays known to the image (R434). -/
def State.powerDownTower (s : State) (t : Nat) : State :=
  let w := 0x100000000 + t * 0x1000000
  let fenced := (List.range 256).filter fun l => s.coreFenced (256 * t + l)
  let lo := windowOf (256 * t)
  let hi := windowOf (256 * (t + 1))
  let keep (a : Nat) : Bool := decide (a < lo ∨ hi ≤ a)
  let own (c : Nat) : Bool := decide (towerOf c = t)
  let s := { s with
    mem := s.mem.filter fun c => keep c.1
    marks := s.marks.filter fun c => keep c.1
    cores := s.cores.filter fun c => !own c.1
    engines := s.engines.filter fun e => !own (e.1 / 4)
    mesh := s.mesh.filter fun m => !own (m.1 / 8)
    trees := s.trees.filter fun x => decide (x.1 / 16 ≠ t)
    regs := s.regs.filter fun x => decide (x.1 < w ∨ w + 0x1000000 ≤ x.1) }
  let s := fenced.foldl (fun s l => s.putB (Reg.coreCtrl (256 * t + l)) F.coreCtrlFenced true) s
  s.setTower t { s.tower t with off := true, copyValid := false }
/-- A stack whose tile is held in reset keeps nothing: only a stack's own disable keeps HBM contents (R434). What it holds when it is enabled again is what an
unwritten line holds (DESIGN CHOICE, assumption 125). -/
def State.dropStack (s : State) (k : Nat) : State :=
  let keep (a : Nat) : Bool := match placeOf a with
    | .hbm i _ => decide (i ≠ k)
    | _ => true
  { s with mem := s.mem.filter fun c => keep c.1, marks := s.marks.filter fun c => keep c.1 }
/-- The steps of a disable after its arbiters have drained (R434). -/
def State.stopUnit (s : State) (u : Nat) : State :=
  if u < 12 then
    let s := s.fenceEnd (towerRing u)
    (List.range 64).foldl (fun s g => if s.fld (grpReg u g) F.flrGrpState < 3 then s.putF (grpReg u g) F.flrGrpState 0 else s) s
  else if 32 ≤ u then
    (List.range 8).foldl (fun s i => if s.fld (Reg.fibStatus (u - 32) i) F.fibStatusState < 3 then s.putF (Reg.fibStatus (u - 32) i) F.fibStatusState 0 else s) s
  else s
/-- The units that a tile's disable takes down with it, in order: its towers, its stacks, its fibre endpoint (R434). -/
def tileUnits (n : Nat) : List (List Nat) := [(List.range 3).map (3 * n + ·), (List.range 4).map (16 + 4 * n + ·), [32 + n]]
/-- The ring-plane endpoints of a tile. -/
def tileEnds (n : Nat) : List Nat := (List.range 21).filter fun r => ringTile r = n
/-- The unit whose disable freezes a ring-plane transmitter: a tower, a fibre endpoint, or the tile of the floor and the memory endpoint. -/
def ringUnit (r : Nat) : Nat := match ringTower r, (List.range 4).find? fun n => decide (fibreRing n = r) with
  | some t, _ => t
  | none, some n => 32 + n
  | none, none => 12 + ringTile r
/-- The transmitters that grant once a tile's transition has ended: those whose units, and whose tiles, are on. -/
def State.liveTx (s : State) : List Arbiter :=
  ((List.range 21).filter fun r => decide (s.unitState (ringUnit r) = 2 ∧ s.unitState (12 + ringTile r) = 2)).map .tx
/-- Every arbiter of a list is drained (R192, R338). -/
def State.allDrained (s : State) (l : List Arbiter) : Bool := l.all fun a => s.flag (arbCtrl a) F.fabTxArbCtrlDrained
/-- Every arbiter of a list is frozen. -/
def State.allFrozen (s : State) (l : List Arbiter) : Bool := l.all fun a => s.flag (arbCtrl a) F.fabTxArbCtrlFreeze
/-- A unit is off (R434). -/
def State.unitOff (s : State) (u : Nat) : State :=
  let s := (s.setUnit u 0).bump (Reg.onxUnit u) F.onxUnitTransitions 1
  if u < 12 then s.powerDownTower u else s
/-- A disable freezes the unit's arbiters first (R434). -/
def State.freezeUnit (s : State) (cyc u : Nat) : State := (s.setUnit u 3).freezeAll cyc (unitArbs u)
/-- A tower, stack or fibre endpoint that stops and is drained goes off (R434). -/
def State.endStop (s : State) (u : Nat) : State := (s.stopUnit u).unitOff u
/-- One move of the disables that a tile's disable runs, group by group: a group's units freeze, and go off when all of them are drained. The flag says that
none is left. -/
def State.stopGroups (s : State) (cyc : Nat) : List (List Nat) → State × Bool
  | [] => (s, true)
  | l :: r =>
    let on := l.filter fun u => decide (s.unitState u = 2)
    if l.any fun u => decide (s.unitState u = 1) then (s, false)
    else if on ≠ [] then (on.foldl (fun s u => s.freezeUnit cyc u) s, false)
    else
      let stopping := l.filter fun u => decide (s.unitState u = 3)
      if stopping.all fun u => s.allDrained (unitArbs u) then
        (stopping.foldl State.endStop s).stopGroups cyc r
      else (s, false)
/-- A disable begins (R434). -/
def State.beginDisable (s : State) (cyc u : Nat) : State :=
  if 12 ≤ u ∧ u < 16 then ((s.setUnit u 3).stopGroups cyc (tileUnits (u - 12))).1 else s.freezeUnit cyc u
/-- What a tile's disable does next, and whether the tile is off with it (R434): its units; the freeze of every transmitter; once these have drained, the fences
of its endpoints; once the weights have reached their targets, reset, and the other transmitters go on. -/
def State.stopTile (s : State) (cyc n : Nat) : State :=
  let (s, all) := s.stopGroups cyc (tileUnits n)
  if !all then s
  else if !s.allFrozen allTx then s.freezeAll cyc allTx
  else if !s.allDrained allTx then s
  else if !(tileEnds n).all s.ringFenced then (tileEnds n).foldl State.fenceEnd s
  else if s.flag (Reg.rplRebal 0) F.rplRebalInProgress then s
  else
    let s := ((List.range 4).map (4 * n + ·)).foldl State.dropStack (s.unitOff (12 + n))
    s.thawAll cyc s.liveTx
/-- A unit is on (R434): its arbiters grant again and its endpoints are in service. -/
def State.unitOn (s : State) (cyc u : Nat) : State :=
  let s := ((s.setUnit u 2).bump (Reg.onxUnit u) F.onxUnitTransitions 1).thawAll cyc (unitArbs u)
  if u < 12 then (s.unfence (towerRing u)).setTower u { s.tower u with off := false } else s
/-- A tower's D2D groups train (R279), its bonds are tested (R204) and a fibre endpoint's fibres train: what the enable of a tower, stack or fibre endpoint
begins (R434). -/
def State.startUnit (s : State) (u : Nat) : State :=
  let s := s.setUnit u 1
  if u < 12 then (List.range 64).foldl (fun s g =>
    if s.fld (grpReg u g) F.flrGrpState < 3 then (s.setGroup u g { s.group u g with stepAt := s.now }).putF (grpReg u g) F.flrGrpState 1 else s) s
  else s
/-- A tower's groups are trained or fenced, a fibre endpoint's fibres in use trained or fenced (R434). -/
def State.startDone (s : State) (u : Nat) : Bool :=
  if u < 12 then (List.range 64).all fun g => decide (2 ≤ s.fld (grpReg u g) F.flrGrpState)
  else if 32 ≤ u then !s.untrained.any fun x => decide (x / 8 = u - 32)
  else true
/-- The enable of a tower, stack or fibre endpoint ends: a tower that its training fenced (R284) goes off again (DESIGN CHOICE, assumption 125). -/
def State.endStart (s : State) (cyc u : Nat) : State := if decide (u < 12) && (s.tower u).fenced then s.endStop u else s.unitOn cyc u
/-- A unit can be enabled: it is neither in the fence map nor fenced in service (R435). -/
def State.enableOk (s : State) (u : Nat) : Bool := !s.flag (Reg.onxUnit u) F.onxUnitFenced && !(decide (u < 12) && (s.mapped 2 u || (s.tower u).fenced))
/-- One move of the enables that a tile's enable runs, group by group. -/
def State.startGroups (s : State) (cyc : Nat) : List (List Nat) → State × Bool
  | [] => (s, true)
  | l :: r =>
    let off := l.filter fun u => decide (s.unitState u = 0) && s.enableOk u
    if l.any fun u => decide (s.unitState u = 3) then (s, false)
    else if off ≠ [] then (off.foldl State.startUnit s, false)
    else
      let starting := l.filter fun u => decide (s.unitState u = 1)
      if starting.all s.startDone then
        (starting.foldl (fun s u => s.endStart cyc u) s).startGroups cyc r
      else (s, false)
/-- The rings of a tile that are not parked are off, to be acquired anew (R251, R434). -/
def State.ringsAnew (s : State) (n : Nat) : State :=
  (tileRingIds n).foldl (fun s g => if s.fld (ringAddr g) F.rplModState = 5 then s else s.putF (ringAddr g) F.rplModState 0) s
/-- A tile's logic leaves reset (R434): every transmitter is frozen, its endpoints leave their fences, its start values are chosen again and its rings acquired
from them; then comes its margin test. -/
def State.beginTile (s : State) (cyc n : Nat) : State :=
  let s := ((tileEnds n).foldl State.unfence ((s.setUnit (12 + n) 1).freezeAll cyc allTx)).ringsAnew n
  ({ s with start := { s.start with tested := [] } }.chooseCal n).override n
/-- What a tile's enable does next (R434): once its rings are locked or parked and links have been tested, the transmitters go on and its fibre endpoint, its
stacks and its towers are enabled. -/
def State.startTile (s : State) (cyc n : Nat) : State :=
  if ((tileRingIds n).all fun g => decide (2 ≤ s.ringState g)) && s.internalDone then
    let (s, all) := (s.thawAll cyc (s.liveTx ++ ((tileEnds n).filter fun r => decide (ringUnit r = 12 + n)).map .tx)).startGroups cyc (tileUnits n).reverse
    if all then s.unitOn cyc (12 + n) else s
  else s
/-- An enable begins (R434). -/
def State.beginEnable (s : State) (cyc u : Nat) : State := if 12 ≤ u ∧ u < 16 then s.beginTile cyc (u - 12) else s.startUnit u
/-- A request is refused and logged (R435). -/
def State.unitRefused (s : State) (u : Nat) : State := s.log 0x0301 (srcUnit 12 0) [Reg.onxUnit u, 8, devNum s.dev]
/-- Carry out a request for a unit in state on or off (R433). -/
def State.carryOut (s : State) (cyc u v : Nat) : State :=
  if v = 1 then (if s.unitState u = 2 then s else s.beginEnable cyc u)
  else if s.unitState u = 0 then s else s.beginDisable cyc u
/-- A request is written (R433, R435): v is 1 for enable, 2 for disable. -/
def State.unitRequest (s : State) (cyc u v : Nat) : State :=
  let a := Reg.onxUnit u
  if s.dev ≠ .hold then s.unitRefused u
  else
    let s := s.putF a F.onxUnitRequest v
    if v = 0 ∨ v = 3 then s
    else if (v = 1 ∧ s.enableOk u = false) ∨ (v = 2 ∧ u = 12) then s.unitRefused u
    else if s.unitState u = 1 ∨ s.unitState u = 3 then s.putF a F.onxUnitPending v
    else s.carryOut cyc u v
/-- A command about a unit. -/
def onUnit (t : At) (u : Nat) (s : State) (f : State → State) : Result := if u < Config.units then .next ((s.at t).ifAwake f) else .fault .noSuchUnit
/-- UNIT_ENABLE (R433, R434). -/
def execUnitEnable (t : At) (u : Nat) (s : State) : Result := onUnit t u s fun s => s.unitRequest t.cyc u 1
/-- UNIT_DISABLE (R433, R434). -/
def execUnitDisable (t : At) (u : Nat) (s : State) : Result := onUnit t u s fun s => s.unitRequest t.cyc u 2
/-- Whether any unit is starting or stopping. -/
def State.unitBusy (s : State) : Bool := (List.range Config.units).any fun u => decide (s.unitState u = 1 ∨ s.unitState u = 3)
/-- The next move of a transition: a disable waits for every arbiter that it froze to drain, an enable for its training, acquisition and tests (R434). -/
def State.moveUnit (s : State) (cyc u : Nat) : State :=
  let tile := decide (12 ≤ u ∧ u < 16)
  if s.unitState u = 3 then
    if tile then s.stopTile cyc (u - 12) else if s.allDrained (unitArbs u) then s.endStop u else s
  else if s.unitState u = 1 then
    if tile then s.startTile cyc (u - 12) else if s.startDone u then s.endStart cyc u else s
  else s
/-- A transition moves on; when it has ended, a pending request is carried out (R433). -/
def State.unitEnd (s : State) (cyc u : Nat) : State :=
  if s.unitState u = 1 ∨ s.unitState u = 3 then
    let s := s.moveUnit cyc u
    if s.unitState u = 1 ∨ s.unitState u = 3 then s
    else
      let p := s.fld (Reg.onxUnit u) F.onxUnitPending
      let s := s.putF (Reg.onxUnit u) F.onxUnitPending 0
      if p = 0 ∨ s.dev ≠ .hold then s else s.carryOut cyc u p
  else s

end Sys2Proof.Machine
end

