-- ==== Sys2Proof/Machine/ConfigSpace.lean ====
section
/-! DEFINITION. The configuration space: reads and writes of registers under their access codes (R6 to R10, R487), with what single registers do beside
holding a value. -/

namespace Sys2Proof.Machine

/-! Reads. -/

/-- The state code of a core (R128). -/
def State.coreState (s : State) (c : Nat) : Nat :=
  let k := s.core c
  if s.coreFenced c then 6
  else if k.halted then 5
  else if s.dev = .hold then 7
  else if !s.running || !s.flag (Reg.coreCtrl c) F.coreCtrlEnable then 0
  else match k.wait with
    | .none => if k.heldBy = 0 then 1 else 4
    | .time _ _ => 2
    | .governor => 4
    | _ => 3
/-- A 64-bit word of a byte string. -/
def wordAt (l : List Byte) (off : Nat) : Word := BitVec.ofNat 64 (fieldAt l off 8)
/-- ONX_ID (R421). -/
def State.onxId (s : State) : Word :=
  F.onxIdPatchEntries.put (F.onxIdRomVersion.put (F.onxIdStepping.put (F.onxIdPart.put 0 0x1216) (steppingNum s.fuses.stepping)) Config.romVersion.toNat) (min 64 s.fuses.patches.length)
/-- TWR_BAR_STATE of a tree (R196). -/
def State.barState (s : State) (t i : Nat) : Word :=
  let tr := s.tree t i
  F.twrBarStatePhase.put (F.twrBarStateMembers.put (F.twrBarStateArrived.put 0 tr.arrived.length) (s.members t i).length) (tr.phase % 2)
/-- A register as it reads, from its class and the word held: those that the device computes are given by their rules (R71, R98, R123, R128, R196, R203,
R267, R282, R296, R421). -/
def State.computed (s : State) (base : Nat) (ix : List Nat) (v : Word) : Word :=
  match ix with
  | [] => if base = Reg.onxId then s.onxId else if base = Reg.onxSerial then s.fuses.serial else v
  | [i] =>
    if base = Reg.coreId 0 then BitVec.ofNat 64 i
    else if base = Reg.coreStatus 0 then F.coreStatusState.put v (s.coreState i)
    else if base = Reg.coreTc 0 then s.copyTc (towerOf i)
    else if base = Reg.corePred 0 then v ||| 1
    else if base = Reg.flrCap 0 then F.flrCapTileCap.put v s.tileCap
    else if base = Reg.tcValue 0 then s.tc i
    else v
  | [i, j] =>
    if base = Reg.coreS 0 0 then (if j = 0 then 0 else v)
    else if base = Reg.twrBarState 0 0 then s.barState i j
    else if base = Reg.lplLane 0 0 then
      (if F.lplLaneState.get v = 3 ∧ (s.lane (8 * i + j)).b + 1500 ≤ (s.tc i).toNat then F.lplLaneState.put v 4 else v)
    else if base = Reg.twrGov 0 0 then F.twrGovWindowSum.put v (s.windowSum i j)
    else v
  | [r, t, i] => if (base = Reg.rplMod 0 0 0 ∨ base = Reg.rplDrop 0 0 0) ∧ s.ringOut (if base = Reg.rplMod 0 0 0 then .ringMod r t i else .ringDrop r t i) = true then
      F.rplModState.put v 6 else v
  | [n, j, e, k] => if (base = Reg.lplMod 0 0 0 0 ∨ base = Reg.lplDmx 0 0 0 0) ∧ s.ringOut (.latMod (8 * n + j) e k) = true then F.rplModState.put v 6 else v
  | _ => v
/-- A word of the windows that hold records: telemetry halves, the volatile log, the identity key, the last quote, a tower's samples (R421, R445). -/
def State.windowWord (s : State) (a : Nat) : Option Word :=
  if 0x100000 ≤ a ∧ a < 0x140000 then some (wordAt s.onyx.half0 (a - 0x100000))
  else if 0x140000 ≤ a ∧ a < 0x180000 then some (wordAt s.onyx.half1 (a - 0x140000))
  else if 0x200000 ≤ a ∧ a < 0x300000 then some (wordAt (Sparse.get (fun _ => []) s.onyx.logRing ((a - 0x200000) / 64)) ((a - 0x200000) % 64))
  else if 0x300000 ≤ a ∧ a < 0x300068 then some (wordAt (Config.identityKey s.fuses.serial.toNat) (a - 0x300000))
  else if 0x300080 ≤ a ∧ a < 0x3001C0 then some (wordAt s.onyx.quote (a - 0x300080))
  else if 0x180000000 ≤ a ∧ a < 0x180C00000 ∧ 0x40000 ≤ a % 0x100000 ∧ a % 0x100000 < 0x44000 then
    some (wordAt (Sparse.get (fun _ => []) (s.tower ((a - 0x180000000) / 0x100000)).samples ((a % 0x100000 - 0x40000) / 64)) (a % 64))
  else none
/-- A configuration read of an aligned address: 0 where no register lies (R487). -/
def State.cfgRead (s : State) (a : Nat) : Word :=
  match s.windowWord a with
  | some w => w
  | none =>
    match windowRows a with
    | none => 0
    | some rows => match findRow a rows with
      | some (r, ix) => s.computed r.base ix (s.rd a)
      | none => 0
/-- A configuration access that is refused or outside every window is logged (R6, R487). -/
def State.cfgRefused (s : State) (a size : Nat) : State := s.log 0x0301 (srcUnit 12 0) [a, size, devNum s.dev]
/-- A configuration read as an access (R6, R487). -/
def State.cfgAccess (s : State) (a : Nat) : Word × State :=
  if a % 8 ≠ 0 ∨ 2 ^ 40 ≤ a ∨ windowRows a = none then (0, s.cfgRefused a 8) else (s.cfgRead a, s)

/-! Writes. -/

/-- One field of a write under its access code (R8): RWH fields take the value only with the force of HOLD, and a W1C bit that the device sets in the cycle of
the write stays set (R9). -/
def State.fieldWrite (s : State) (a : Nat) (v : Word) (hold : Bool) (f : FieldRow) : State :=
  match f.acc with
  | .ro => s
  | .rw => s.putF a f.fld (f.fld.get v)
  | .rwh => if hold then s.putF a f.fld (f.fld.get v) else s
  | .w1c => s.wr a (s.rd a &&& ~~~(v &&& f.fld.mask &&& ~~~(s.freshBits a)))
/-- A write under the access codes of a register's fields (R8): one record where a field was RWH and the device not in HOLD. -/
def State.plainWrite (s : State) (a : Nat) (v : Word) (hold : Bool) : State :=
  let l := fieldsAt a
  let s := l.foldl (fun s f => s.fieldWrite a v hold f) s
  if !hold && l.any fun f => decide (f.acc = .rwh) then s.cfgRefused a 8 else s
/-- The counters count under the mode and window in force (R441). -/
def State.pmcMode (s : State) : State :=
  let s := s.countTags
  let on := match s.fld Reg.onxPmcCtrl F.onxPmcCtrlMode with
    | 0 => true
    | 1 => decide (1024 * s.fld Reg.onxPmcStart F.onxPmcStartCarat ≤ s.tcNat ∧ s.tcNat < 1024 * s.fld Reg.onxPmcStop F.onxPmcStopCarat)
    | 2 => false
    | _ => s.onyx.pmcOn
  { s with onyx := { s.onyx with pmcOn := on } }
/-- ONX_THERM_CFG: a value above a default takes the default (R426). -/
def State.thermClamp (s : State) : State :=
  let a := Reg.onxThermCfg
  ((s.putF a F.onxThermCfgHbmThrottle (min 90 (s.fld a F.onxThermCfgHbmThrottle))).putF a F.onxThermCfgTileThrottle (min 90 (s.fld a F.onxThermCfgTileThrottle))).putF a
    F.onxThermCfgTowerThrottle (min 95 (s.fld a F.onxThermCfgTowerThrottle))
/-- A write of FLR_DSK sets deskew targets (R258, R296). -/
def State.deskWrite (s : State) (n tw g d word taps : Nat) (v : Word) : State :=
  let base := n * 102912 + ((tw * 64 + g) * 2 + d) * 268 + 8 * word
  { s with deskews := (List.range taps).foldl (fun l i => assocSet l (base + i) (v.toNat / 2 ^ (8 * i) % 64 + 1)) s.deskews }
/-- An arbiter's control register is written: its counts under their codes, its freeze bit (R192, R338). -/
def State.arbCtrlWrite (s : State) (cyc a : Nat) (arb : Arbiter) (v : Word) (hold : Bool) : State :=
  let old := s.flag a F.fabTxArbCtrlFreeze
  let s := (s.plainWrite a v hold).putB a F.fabTxArbCtrlFreeze old
  let f := F.fabTxArbCtrlFreeze.bit v
  if f = old then s else if f then s.freeze arb cyc else s.thaw arb cyc
/-- A phase entry or lane setting has been loaded: its RWH register has taken a value (R8, R228, R232). -/
def State.noteLoaded (s : State) (n : Nat) (phase setting : Option Nat) : State :=
  let l := s.lattice n
  let add (x : List Nat) (o : Option Nat) : List Nat := match o with
    | some p => if x.contains p then x else p :: x
    | none => x
  s.setLattice n { l with phases := add l.phases phase, settings := add l.settings setting }
/-- A write of a register that does more than hold its value; none where the access codes say all. -/
def State.specialWrite (s : State) (cyc a base : Nat) (ix : List Nat) (v : Word) (hold : Bool) : Option State :=
  match ix with
  | [] =>
    if base = Reg.fabRtCtrl then some (s.flipWrite v)
    else if base = Reg.onxThermCfg then some (s.plainWrite a v hold).thermClamp
    else if base = Reg.onxPmcCtrl ∨ base = Reg.onxPmcStart ∨ base = Reg.onxPmcStop then some (s.countTags.plainWrite a v hold).pmcMode
    else none
  | [i] =>
    if base = Reg.flrClk 0 then some (s.ratioWrite i v)
    else if base = Reg.onxUnit 0 then some (s.unitRequest cyc i (F.onxUnitRequest.get v))
    else if base = Reg.fabTxArbCtrl 0 then some (s.arbCtrlWrite cyc a (.tx i) v hold)
    else if base = Reg.fabTxArbMap 0 then some (s.mapWrite (.tx i) v)
    else if base = Reg.coreSample 0 then some ((s.plainWrite a v hold).putF a F.coreSampleLfsr (if F.coreSampleLfsr.get v = 0 then 1 else F.coreSampleLfsr.get v))
    else none
  | [i, j] =>
    if base = Reg.twrVarbCtrl 0 0 then some (s.arbCtrlWrite cyc a (.vault (256 * i + j)) v hold)
    else if base = Reg.twrVarbMap 0 0 then some (s.mapWrite (.vault (256 * i + j)) v)
    else if base = Reg.hbmArbCtrl 0 0 then some (s.arbCtrlWrite cyc a (.channel i j) v hold)
    else if base = Reg.hbmArbMap 0 0 then some (s.mapWrite (.channel i j) v)
    else if base = Reg.lplSetKind 0 0 ∨ base = Reg.lplSetSrc2 0 0 then some (if hold then (s.plainWrite a v hold).noteLoaded i none (some j) else s.plainWrite a v hold)
    else if base = Reg.coreS 0 0 ∧ j = 0 then some (if hold then s else s.cfgRefused a 8)
    else none
  | [i, j, k] =>
    if base = Reg.fabRt 0 0 0 then some (s.routeWrite i j k v)
    else if base = Reg.lplPhase 0 0 0 then some (if hold then (s.plainWrite a v hold).noteLoaded i (some j) none else s.plainWrite a v hold)
    else if base = Reg.lplSetSrc 0 0 0 ∨ base = Reg.lplSetMzi 0 0 0 then some (if hold then (s.plainWrite a v hold).noteLoaded i none (some j) else s.plainWrite a v hold)
    else none
  | [n, t, g, d] => if base = Reg.flrDskCtl 0 0 0 0 then some (if hold then s.deskWrite n t g d 33 4 v else s.cfgRefused a 8) else none
  | [n, t, g, d, q] => if base = Reg.flrDsk 0 0 0 0 0 then some (if hold then s.deskWrite n t g d q 8 v else s.cfgRefused a 8) else none
  | _ => none
/-- A configuration write of an aligned address (R6 to R8, R487); `hold` gives it the force of a write in HOLD. -/
def State.cfgWrite (s : State) (cyc a : Nat) (v : Word) (hold : Bool) : State :=
  match windowRows a with
  | none => s.cfgRefused a 8
  | some rows => match findRow a rows with
    | none => s
    | some (r, ix) => match s.specialWrite cyc a r.base ix v hold with
      | some s => s
      | none => s.plainWrite a v hold
/-- The core whose window of configuration space holds an address (R128, R487). -/
def cfgCore (a : Nat) : Option Nat := if Reg.coreId 0 ≤ a ∧ a < Reg.coreId 3072 then some ((a - Reg.coreId 0) / 0x10000) else none
/-- An address in the window of a fabric endpoint's counters (R443). -/
def fabCounter (a : Nat) : Bool := decide (0x7700000 ≤ a ∧ a < 0x7702A00)
/-- Bring the core whose window an access names to its cycle, and an endpoint's counters to now (assumption 1, R442). -/
def State.bringCfg (s : State) (cyc a : Nat) : State := match cfgCore a with
  | some c => s.toCycle c cyc
  | none => if fabCounter a then s.countTags else s
/-- CONFIG_WRITE (R6, R8, R487). -/
def execConfigWrite (t : At) (addr size : Nat) (value : BitVec 64) (s : State) : Result :=
  let s := s.at t
  .next (if s.dead then s
    else if size ≠ 8 ∨ addr % 8 ≠ 0 ∨ 2 ^ 40 ≤ addr then s.cfgRefused addr size
    else
      let s := s.bringCfg t.cyc addr
      s.cfgWrite t.cyc addr value (decide (s.dev = .hold)))
/-- PMC_COUNT: mode 0 (R441). -/
def execPmcCount (t : At) (s : State) : Result := .next ((s.at t).ifAwake fun s => (s.countTags.putF Reg.onxPmcCtrl F.onxPmcCtrlMode 0).pmcMode)
/-- PMC_WINDOW: mode 1 (R441). -/
def execPmcWindow (t : At) (s : State) : Result := .next ((s.at t).ifAwake fun s => (s.countTags.putF Reg.onxPmcCtrl F.onxPmcCtrlMode 1).pmcMode)
/-- PMC_FREEZE: mode 2 (R441). -/
def execPmcFreeze (t : At) (s : State) : Result := .next ((s.at t).ifAwake fun s => (s.countTags.putF Reg.onxPmcCtrl F.onxPmcCtrlMode 2).pmcMode)
/-- PMC_WINDOW_EDGE: the start or stop carat is reached (R441). -/
def execPmcWindowEdge (t : At) (s : State) : Result := .next ((s.at t).ifAwake fun s => s.pmcMode)

end Sys2Proof.Machine
end

