-- ==== Sys2Proof/Machine/Fetch.lean ====
section
/-! DEFINITION. Fetch and issue of a bundle (R93 to R97, R129 to R132, R141, R142, R176, R488), the governed issue (R203), and sampling
(R444, R445). -/

namespace Sys2Proof.Machine

/-- The meaning of a slot instruction; another command has none here. -/
def slotMeaning (i : Instr) (s : State) : Result :=
  match i with
  | .nop t g slot => execNop t g slot s
  | .add t g d a b => execAdd t g d a b s
  | .sub t g d a b => execSub t g d a b s
  | .and t g d a b => execAnd t g d a b s
  | .or t g d a b => execOr t g d a b s
  | .xor t g d a b => execXor t g d a b s
  | .shl t g d a b => execShl t g d a b s
  | .shr t g d a b => execShr t g d a b s
  | .sar t g d a b => execSar t g d a b s
  | .mul t g d a b => execMul t g d a b s
  | .min t g d a b => execMin t g d a b s
  | .max t g d a b => execMax t g d a b s
  | .addi t g d a imm => execAddi t g d a imm s
  | .andi t g d a imm => execAndi t g d a imm s
  | .ori t g d a imm => execOri t g d a imm s
  | .xori t g d a imm => execXori t g d a imm s
  | .shli t g d a imm => execShli t g d a imm s
  | .shri t g d a imm => execShri t g d a imm s
  | .sari t g d a imm => execSari t g d a imm s
  | .movi t g d imm => execMovi t g d imm s
  | .insl t g d q imm => execInsl t g d q imm s
  | .insh t g d q imm => execInsh t g d q imm s
  | .cmp t g pd cond a b => execCmp t g pd cond a b s
  | .cmpi t g pd cond a imm => execCmpi t g pd cond a imm s
  | .plog t g pd pa pb op => execPlog t g pd pa pb op s
  | .sld t g d a imm => execSld t g d a imm s
  | .sst t g d a imm => execSst t g d a imm s
  | .srd t g d sel => execSrd t g d sel s
  | .vsel t g d sel => execVsel t g d sel s
  | .capc t g a b => execCapc t g a b s
  | .br t core target => execBr t core target s
  | .bnz t core a target => execBnz t core a target s
  | .bz t core a target => execBz t core a target s
  | .jr t core a => execJr t core a s
  | .loop t core lv last a => execLoop t core lv last a s
  | .loopi t core lv last imm => execLoopi t core lv last imm s
  | .waitt t core a imm => execWaitt t core a imm s
  | .waitse t core mask n => execWaitse t core mask n s
  | .bar t core mode scope id => execBar t core mode scope id s
  | .fset t g f a => execFset t g f a s
  | .fclr t g f => execFclr t g f s
  | .fwait t core f clr => execFwait t core f clr s
  | .ftest t g f pd => execFtest t g f pd s
  | .fence t core => execFence t core s
  | .latr t g a b => execLatr t g a b s
  | .step t core h => execStep t core h s
  | .halt t core => execHalt t core s
  | .mma t g pair acc init ah atHi bh kb => execMma t g pair acc init ah atHi bh kb s
  | .mmac t g pair acc init ah bh kb pd a => execMmac t g pair acc init ah bh kb pd a s
  | .accrd t g vd acc r row a => execAccrd t g vd acc r row a s
  | .accwr t g va acc r row a => execAccwr t g va acc r row a s
  | .accclr t g acc => execAccclr t g acc s
  | .vadd t g vd va vb half => execVadd t g vd va vb half s
  | .vsub t g vd va vb half => execVsub t g vd va vb half s
  | .vmul t g vd va vb half => execVmul t g vd va vb half s
  | .vfma t g vd va vb half => execVfma t g vd va vb half s
  | .vmin t g vd va vb half => execVmin t g vd va vb half s
  | .vmax t g vd va vb half => execVmax t g vd va vb half s
  | .vcmp t g vd va vb cond => execVcmp t g vd va vb cond s
  | .vselm t g vd va vb => execVselm t g vd va vb s
  | .vexp2 t g vd va => execVexp2 t g vd va s
  | .vlog2 t g vd va => execVlog2 t g vd va s
  | .vrcp t g vd va => execVrcp t g vd va s
  | .vrsq t g vd va => execVrsq t g vd va s
  | .vrsum t g vd va => execVrsum t g vd va s
  | .vrmax t g vd va => execVrmax t g vd va s
  | .vbcl t g vd va x => execVbcl t g vd va x s
  | .vbcs t g vd a => execVbcs t g vd a s
  | .vext t g d va x => execVext t g d va x s
  | .vpack t g vd va vb => execVpack t g vd va vb s
  | .vunpk t g vd va hi => execVunpk t g vd va hi s
  | .vld t g d a imm => execVld t g d a imm s
  | .vst t g d a imm => execVst t g d a imm s
  | .vdq t g vd k p => execVdq t g vd k p s
  | .vq t g vs k a dst sr ef p h => execVq t g vs k a dst sr ef p h s
  | .scopy t g e dk pl d a b => execScopy t g e dk pl d a b s
  | .stile t g e dst hi k kb pl => execStile t g e dst hi k kb pl s
  | .sflag t g e a => execSflag t g e a s
  | .satom t g e op w d a b => execSatom t g e op w d a b s
  | .sinv t g e a => execSinv t g e a s
  | .smcast t g e c d a b => execSmcast t g e c d a b s
  | .recst t g e a b => execRecst t g e a b s
  | .recmg t g e d a b => execRecmg t g e d a b s
  | _ => .next s
/-- Run one slot of a bundle; a reserved encoding issues as a no-op (R132). -/
def State.runSlot (s : State) (i : Option Instr) : State :=
  match i with
  | none => s
  | some i => match slotMeaning i s with
    | .next s => s
    | _ => s

/-! What a bundle would do. -/

/-- A control instruction that takes a branch in this cycle (R94, R140, R141). -/
def State.takes (s : State) (c : Nat) (i : Option Instr) : Bool :=
  match i with
  | some (.br _ _ _) | some (.jr _ _ _) => true
  | some (.bnz _ _ a _) => decide (s.sreg c a.toNat ≠ 0)
  | some (.bz _ _ a _) => decide (s.sreg c a.toNat = 0)
  | some (.loop _ _ _ _ a) => decide ((s.sreg c a.toNat).toNat % 2 ^ 32 = 0)
  | _ => false
/-- The occupancy of a matrix-array instruction within its largest K (R104, R108). -/
def occupancy (i : Option Instr) : Option Nat :=
  match i with
  | some (.mma _ _ pair _ _ _ _ _ kb) =>
    (match pairing pair.toNat with
     | some (fa, fb) =>
       let r := arrayRate fa fb
       if 16 * blocksOf kb ≤ r.2 then some (blocksOf kb * (64 / r.1)) else none
     | none => none)
  | some (.mmac _ _ pair _ _ _ _ kb _ _) => if pair.toNat < 5 ∧ 16 * blocksOf kb ≤ 512 then some (blocksOf kb * 32) else none
  | _ => none
/-- The engine that a stream instruction names. -/
def engineOf (i : Option Instr) : Option Nat :=
  match i with
  | some (.scopy _ _ e ..) | some (.stile _ _ e ..) | some (.sflag _ _ e _) | some (.satom _ _ e ..) | some (.sinv _ _ e _)
  | some (.smcast _ _ e ..) | some (.recst _ _ e ..) | some (.recmg _ _ e ..) => some e.toNat
  | _ => none
/-- A bundle stalls (R97): a busy array, a full engine, or a record that is not formed. A matrix instruction whose K is above the largest of R108 occupies no
cycle, and the model does not hold it for a busy array (DESIGN CHOICE, assumption 101). -/
def State.stalls (s : State) (c cyc : Nat) (m st : Option Instr) : Bool :=
  ((occupancy m).isSome && decide (cyc < (s.core c).arrayFree)) ||
  (match engineOf st with
   | some e => decide (4 ≤ (s.engine c e).queue.length)
   | none => false) ||
  (match st with
   | some (.recst ..) => (s.core c).recordDue.isSome
   | _ => false)
/-- The index that follows a bundle without a taken branch, and the loop levels after it (R141). -/
def State.loopEnd (s : State) (c pc : Nat) : List Nat → State
  | [] => s.modCore c fun k => { k with npc := (pc + 1) % 16384 }
  | j :: r =>
    let n := s.loopCount c j
    if n ≠ 0 ∧ s.fld (Reg.coreLoopEnd c j) F.coreLoopEndEnd = pc then
      if 1 < n then
        (s.putF (Reg.coreLoopCount c j) F.coreLoopCountCount (n - 1)).modCore c fun k => { k with npc := s.fld (Reg.coreLoopStart c j) F.coreLoopStartStart }
      else (s.putF (Reg.coreLoopCount c j) F.coreLoopCountCount 0).loopEnd c pc r
    else s.loopEnd c pc r

/-! Sampling (R444, R445). -/

/-- The latency of a control result; none for a no-op or a branch. -/
def controlStage (i : Option Instr) : Option Nat :=
  match i with
  | none | some (.nop ..) | some (.br ..) | some (.bnz ..) | some (.bz ..) | some (.jr ..) | some (.loop ..) | some (.loopi ..)
  | some (.halt ..) => none
  | some (.mul ..) => some 3
  | some (.sld ..) => some 7
  | some (.sst ..) => some 4
  | some _ => some 1
/-- The latency of a matrix result. -/
def matrixStage (i : Option Instr) : Option Nat :=
  match i with
  | some (.accrd ..) | some (.accwr ..) => some 2
  | some (.accclr ..) => some 1
  | _ => (occupancy i).map (· + 10)
/-- The latency of a vector result (R114, R156). -/
def vectorStage (i : Option Instr) : Option Nat :=
  match i with
  | some (.vexp2 ..) | some (.vlog2 ..) | some (.vrcp ..) | some (.vrsq ..) => some 12
  | some (.vrsum ..) | some (.vrmax ..) => some 8
  | some (.vbcl ..) | some (.vbcs ..) => some 2
  | some (.vext ..) => some 3
  | some (.vld ..) => some 7
  | some (.vdq ..) => some 9
  | some (.vq _ _ _ _ _ _ _ ef _ _) => some (if ef then 17 else 10)
  | none | some (.nop ..) => none
  | some _ => some 4
/-- The next state of the sampling LFSR: the XOR of bits 31, 21, 1 and 0 shifts in (R444). -/
def lfsrNext (x : Nat) : Nat := (2 * x + (b2n (bit x 31) + b2n (bit x 21) + b2n (bit x 1) + b2n (bit x 0)) % 2) % 2 ^ 32
/-- At an issued bundle the LFSR shifts, and the bundle may be tagged (R444). -/
def State.tag (s : State) (c cyc pc bundle : Nat) (ctl m v st : Option Instr) : State :=
  let a := Reg.coreSample c
  let x := lfsrNext (s.fld a F.coreSampleLfsr)
  let s := s.putF a F.coreSampleLfsr x
  let k := s.fld (Reg.twrSampleCtrl (towerOf c)) F.twrSampleCtrlK
  if !s.flag a F.coreSampleEnable || k < 4 || 20 < k || x % 2 ^ k ≠ 0 then s
  else
    let r := s.core c
    if r.sample.isSome then s.bump a F.coreSampleSkipped 1
    else
      let e := engineOf st
      let stages : List (Option Nat) := [controlStage ctl, (occupancy m).map fun _ => 0, matrixStage m, vectorStage v, none, none]
      let need := [(controlStage ctl).isSome, (occupancy m).isSome, (matrixStage m).isSome, (vectorStage v).isSome, e.isSome, e.isSome]
      let d := e.map fun e => (e, (s.engine c e).issued)
      let m : Sample := { cyc := cyc, tc := s.copyTc (towerOf c), pc := pc, bundle := bundle, held := min 0xFFFF r.heldBy, stages := stages, need := need, desc := d }
      s.setCore c { r with sample := some m }
/-- A bundle whose control slot waits: the sample's first stage is the release (R445). -/
def State.tagWait (s : State) (c : Nat) : State :=
  let k := s.core c
  if k.wait = .none then s
  else match k.sample with
    | some m => if m.stages.head? = some none ∨ m.waits then s else s.setCore c { k with sample := some { m with stages := none :: m.stages.tail, waits := true } }
    | none => s

/-! Issue. -/

/-- The occupancies of the matrix-array instructions that cores of the column in higher layers are about to issue in a cycle: they go first (R203). -/
def State.dueAbove (s : State) (t : At) (c : Nat) : Nat :=
  ((List.range 4).filter (layerOf c < ·)).foldl (fun n l =>
    let d := 256 * towerOf c + 64 * l + colOf c
    let u := s.toCycle d t.cyc
    let w := u.num (windowOf d + 0xC00000 + 16 * (u.core d).npc) 16
    let m := decodeMatrix t d (bits w 95 64)
    if u.issues d t.cyc && !u.stalls d t.cyc m (decodeStream t d (bits w 31 0)) then n + (occupancy m).getD 0 else n) 0
/-- The bundle at the next index issues, stalls or is delayed by the governor (R93, R97, R126). -/
def State.fetch1 (s : State) (t : At) (c : Nat) (ue : Bool) : State :=
  let pc := (s.core c).npc
  let a := windowOf c + 0xC00000 + 16 * pc
  let s := if ue then s.setMark a .ue else s
  if s.mark a = .ue then
    let s := (s.modCore c fun k => { k with stopped := true }).coreFault c F.coreFaultImemUe
    s.fenceCore c t.cyc
  else
    let w := s.num a 16
    let ctl := decodeControl t c (bits w 127 96)
    let m := decodeMatrix t c (bits w 95 64)
    let v := decodeVector t c (bits w 63 32)
    let st := decodeStream t c (bits w 31 0)
    let due := s.dueCycle c t.cyc
    if s.stalls c t.cyc m st then s.stall c 1
    else if (match occupancy m with | some d => !s.governorLets c (d + s.dueAbove t c) due | none => false) then
      (s.waits c t.cyc .governor).modCore c fun k => { k with governed := some { due := due } }
    else
      let s := s.countGoverned c t.cyc
      let s := s.putF (Reg.coreStatus c) F.coreStatusPc pc
      let s := if s.takes c ctl then s else s.loopEnd c pc [3, 2, 1, 0]
      let s := (s.tag c t.cyc pc w ctl m v st).modCore c fun k => { k with ready := t.cyc + 1, bundle := some t.cyc, heldBy := 0 }
      let s := (((s.runSlot ctl).tagWait c).runSlot m).runSlot v |>.runSlot st
      (s.pmcCore c 0x001 1).modCore c fun k => { k with bundle := none }
/-- BUNDLE_FETCH (R93, R95): `found` is what the stored code met in this fetch; a single-bit error is corrected without delay. -/
def execBundleFetch (t : At) (core : Nat) (found : Mark) (s : State) : Result :=
  onCore t core s fun s =>
    let s := if s.issues core t.cyc ∨ (s.core core).wait = .none then s else (s.reap core).wake core t.cyc
    if s.issues core t.cyc then s.fetch1 t core (found = .ue) else s
/-- GOVERNOR_ISSUE: the governor checks again and lets the delayed instruction or bundle issue where it may (R203). -/
def execGovernorIssue (t : At) (core : Nat) (s : State) : Result :=
  onCore t core s fun s =>
    let k := s.core core
    match k.governed with
    | none => s
    | some g =>
      let s := s.setCore core { k with wait := .none }
      match g.instr with
      | some (.mma _ q pair acc init ah hi bh kb) => s.runSlot (some (.mma t q pair acc init ah hi bh kb))
      | some (.mmac _ q pair acc init ah bh kb pd a) => s.runSlot (some (.mmac t q pair acc init ah bh kb pd a))
      | _ => if s.issues core t.cyc then s.fetch1 t core false else s
/-- A stage time as a record holds it (R445). -/
def stageWord (m : Option Nat) : Nat := match m with
  | some n => min n 0xFFFFFFFF
  | none => 0
/-- The 64 bytes of a sample record (R445). -/
def Sample.bytes (m : Sample) (c step : Nat) : List Byte :=
  let valid := ((List.range 6).map fun i => if (m.stages.getD i none).isSome then 2 ^ i else 0).foldl (· + ·) 0
  bytesOf m.tc.toNat 8 ++ bytesOf c 2 ++ bytesOf m.pc 2 ++ bytesOf step 4 ++ bytesOf m.bundle 16 ++
    ((List.range 6).map fun i => bytesOf (stageWord (m.stages.getD i none)) 4).flatten ++ bytesOf m.held 2 ++ bytesOf valid 1 ++ bytesOf 0 5
/-- Every stage that the bundle has is complete by a cycle, or 2^20 cycles have passed (R445). -/
def Sample.complete (m : Sample) (cyc : Nat) : Bool :=
  decide (m.cyc + 2 ^ 20 ≤ cyc) || (List.range 6).all fun i => !(m.need.getD i false) ||
    match m.stages.getD i none with
    | some n => decide (m.cyc + n ≤ cyc)
    | none => false
/-- A record enters a tower's sample buffer (R445). -/
def State.keepSample (s : State) (t cyc : Nat) (b : List Byte) : State :=
  let w := s.tower t
  let a := Reg.twrSampleCtrl t
  let slot := max (w.sampleCyc + 1) cyc
  if cyc + 16 < slot then s.bump a F.twrSampleCtrlDropped 1
  else
    let n := s.fld a F.twrSampleCtrlCount
    let i := s.fld a F.twrSampleCtrlNext
    let w := { w with sampleCyc := slot }
    if n = 256 ∧ s.flag a F.twrSampleCtrlWrap = false then s.setTower t w
    else
      let s := s.setTower t { w with samples := Sparse.set (fun _ => []) w.samples i b }
      (s.putF a F.twrSampleCtrlNext (i + 1)).putF a F.twrSampleCtrlCount (min 256 (n + 1))
/-- SAMPLE_SEND (R445). -/
def execSampleSend (t : At) (core : Nat) (s : State) : Result :=
  onCore t core s fun s =>
    let k := s.core core
    match k.sample with
    | none => s
    | some m =>
      if m.complete t.cyc then
        (s.setCore core { k with sample := none }).keepSample (towerOf core) t.cyc (m.bytes core ((s.rd (Reg.coreStep core)).toNat % 2 ^ 32))
      else s

end Sys2Proof.Machine
end

