-- ==== Sys2Proof/Machine/House.lean ====
section
/-! DEFINITION. Housekeeping, throttling and the thermal shutdown (R422 to R431), stack temperatures (R354, R426), the laser fault pin (R270). -/

namespace Sys2Proof.Machine

/-! The thermal shutdown (R429, R430). -/

/-- A register of a ring (R267). -/
def isRingReg (a : Nat) : Bool :=
  let o := a % 0x100000
  (decide (0x2000000 ≤ a ∧ a < 0x2400000) && (decide (0x30000 ≤ o ∧ o < 0x31500) || decide (0x60000 ≤ o ∧ o < 0x75000))) ||
    (decide (0x3000000 ≤ a ∧ a < 0x3400000) && decide (0x70000 ≤ o ∧ o < 0x90000))
/-- Modulators and ring heaters are off (R430). -/
def State.ringsOff (s : State) : State :=
  ((s.regs.map fun x => x.1).filter isRingReg).foldl (fun s a => (s.putF a F.rplModHeater 0).putF a F.rplModState 0) (s.putF Reg.onxLockCounts F.onxLockCountsParked 0)
/-- TRIPPED (R15, R430): cores and arbiters stop, pending requests, the update and restarts are abandoned, light and D2D links are off. -/
def State.trip (s : State) (source : Nat) (reading : Int) : State :=
  if s.dev = .tripped ∨ s.dev = .off then s
  else
    let a := Reg.onxThermTrip
    let s := ((s.putF a F.onxThermTripSource source).putF a F.onxThermTripReading (unsigned 16 reading)).putF a F.onxThermTripRound s.onyx.round
    let s := (s.log 0x0702 (srcUnit 12 0) [source, unsigned 16 reading]).enter .tripped
    let s := { s with pins := { s.pins with thermtripN := false, laserEnN := true }, onyx := { s.onyx with update := none, restart := none } }
    let s := (s.putB Reg.onxUpdStatus F.onxUpdStatusBusy false).putB Reg.onxUpdStatus F.onxUpdStatusRestartHeld false
    let s := (List.range Config.units).foldl (fun s u => s.putF (Reg.onxUnit u) F.onxUnitPending 0) s
    let s := (List.range 12).foldl (fun s t => (List.range 64).foldl (fun s g =>
      if s.fld (grpReg t g) F.flrGrpState < 3 then s.putF (grpReg t g) F.flrGrpState 0 else s) s) s
    s.ringsOff

/-! Readings (R423 to R427). -/

/-- The shutdown threshold of a diode's class, in 1/16 °C (R426). -/
def shutdownOf (ch : Nat) : Int := if ch < 192 then 1840 else 1760
/-- The throttle threshold in force for a diode's class, in 1/16 °C (R426). -/
def State.throttleOf (s : State) (ch : Nat) : Int :=
  16 * (s.fld Reg.onxThermCfg (if ch < 192 then F.onxThermCfgTowerThrottle else F.onxThermCfgTileThrottle) : Nat)
/-- The throttle threshold of the stacks, in 1/16 °C. -/
def State.throttleHbm (s : State) : Int := 16 * (s.fld Reg.onxThermCfg F.onxThermCfgHbmThrottle : Nat)
/-- The valid reading of a diode that is not excluded. -/
def State.diode (s : State) (ch : Nat) : Option Int :=
  let w := s.rd (Reg.onxHk ch)
  if F.onxHkValid.bit w && !F.onxHkExcluded.bit w then some (signed 16 (F.onxHkValue.get w)) else none
/-- The last readout of a stack, in 1/16 °C. -/
def State.stackTemp (s : State) (k : Nat) : Option Int := match assoc s.onyx.hbmTemps k with
  | 0 => none
  | n + 1 => some (16 * (n : Nat))
/-- Every valid reading of a throttling class: its source, the reading, its throttle and its shutdown threshold (R426). -/
def State.readings (s : State) : List (Nat × Int × Int × Int) :=
  ((List.range 224).filterMap fun c => (s.diode c).map fun x => (c, x, s.throttleOf c, shutdownOf c)) ++
    ((List.range 16).filterMap fun k => (s.stackTemp k).map fun x => (0xF0 + k, x, s.throttleHbm, 1680))
/-- A logic layer with all four diodes excluded, or a tile with all eight (R425). -/
def State.blind (s : State) : Bool :=
  let out (c : Nat) : Bool := s.flag (Reg.onxHk c) F.onxHkExcluded
  ((List.range 48).any fun l => (List.range 4).all fun d => out (4 * l + d)) || ((List.range 4).any fun n => (List.range 8).all fun d => out (192 + 8 * n + d))
/-- The largest of some readings. -/
def maxOf : List Int → Option Int
  | [] => none
  | x :: r => some (r.foldl max x)
/-- DILATION_UPDATE: the dilation percentage of a round (R427, R428). -/
def State.dilate (s : State) : State :=
  let a := Reg.onxTherm
  let hot : Int × Nat × Int := s.readings.foldl (fun b x => if b.1 < x.2.1 - x.2.2.1 then (x.2.1 - x.2.2.1, x.1, x.2.1) else b) (0, 0, 0)
  let dc := if s.blind then 60 else min 60 (ceilDiv hot.1.toNat 8)
  let old := s.fld a F.onxThermD
  let d := max dc (old - 4)
  let s := (((s.putF a F.onxThermD d).putF a F.onxThermDc dc).putF a F.onxThermHotSource hot.2.1).putF Reg.onxSchedHold F.onxSchedHoldDilRequested d
  let top (l : List Nat) : Nat := match maxOf (l.filterMap s.diode) with
    | some x => unsigned 16 x
    | none => 0
  let s := (s.putF a F.onxThermTowerMax (top (List.range 192))).putF a F.onxThermTileMax (top ((List.range 32).map (192 + ·)))
  if d = old then s else s.log 0x0701 (srcUnit 12 0) [d, hot.2.1, unsigned 16 hot.2.2]
/-- The tiles' start values (R260, R263), with the temperatures of the first complete round of BRINGUP (R261); a start that no_cold ends stops there. -/
def State.calibrate (s : State) : State :=
  if s.dev = .bringup ∧ s.onyx.round = s.start.calAt then
    (List.range 4).foldl (fun s n => if s.dev = .bringup then (s.chooseCal n).override n else s) s
  else s
/-- The start values have been looked for (R260, R261). -/
def State.calibrated (s : State) : Bool := decide (s.start.calAt < s.onyx.round)
/-- The end of a round (R427, R431): in BOOT a round that is not cool is logged once. -/
def State.endRound (s : State) : State :=
  let s := s.dilate.calibrate
  let warm := s.readings.filter fun x => decide (x.2.2.2 - 160 < x.2.1)
  let s := { s with onyx := { s.onyx with round := s.onyx.round + 1, cool := warm.isEmpty } }
  match warm with
  | x :: _ => if s.dev = .boot ∧ s.onyx.waitLogged = false then
      { s with onyx := { s.onyx with waitLogged := true } }.logAt 0x0702 2 (srcUnit 12 0) [x.1, unsigned 16 x.2.1] else s
  | [] => s
/-- Post a value (R425). -/
def State.post (s : State) (ch : Nat) (valid excluded : Bool) (v : Int) : State :=
  s.wr (Reg.onxHk ch) (F.onxHkValue.put (F.onxHkExcluded.put (F.onxHkValid.put (F.onxHkRound.put 0 (s.onyx.round % 2 ^ 32)) (b2n valid)) (b2n excluded)) (unsigned 16 v))
/-- A diode's slot (R424, R425): two invalid readings in a row exclude it; a valid one at its shutdown threshold trips the device (R429). -/
def State.diodeSlot (s : State) (ch : Nat) (x : HkSample) : State :=
  let valid := !x.open_ && decide (-640 ≤ x.value ∧ x.value ≤ 2400)
  let was := s.onyx.excluded.contains ch
  let run := if valid then 0 else assoc s.onyx.invalidRun ch + 1
  let now := was || decide (2 ≤ run)
  let l := if now && !was then ch :: s.onyx.excluded else s.onyx.excluded
  let s := { s with onyx := { s.onyx with invalidRun := assocSet s.onyx.invalidRun ch run, excluded := l } }.post ch valid now x.value
  let s := if now && !was then s.log 0x0703 (srcUnit 12 ch) [ch] else s
  if valid && !now && decide (shutdownOf ch ≤ x.value) then s.trip ch x.value else s
/-- A laser-input slot (R272, R423): eight inputs, the lowest posted; in RUN one more than 3 dB below expected is low. -/
def State.laserSlot (s : State) (n : Nat) (x : HkSample) : State :=
  let s := (List.range 8).foldl (fun s i =>
    let a := Reg.onxLaserP (8 * n + i)
    let got := x.laser.getD i (-32768)
    let want := signed 16 (s.fld a F.onxLaserPExpected)
    let was := s.flag a F.onxLaserPLow
    let s := s.putF a F.onxLaserPMeasured (unsigned 16 got)
    if s.dev = .run then
      let low := decide (got + 300 < want)
      let s := if low then s.raiseBit a F.onxLaserPLow else s
      if low && !was then s.log 0x0505 (srcUnit (12 + n) (8 * n + i)) [8 * n + i, unsigned 16 got, unsigned 16 want] else s
    else s) s
  s.post (228 + n) (!x.open_) false (((List.range 8).map fun i => x.laser.getD i (-32768)).foldl min 32767)
/-- The temperature of a thermistor of a resistance in Ω, in 1/16 °C: 1 / (1/298.15 + ln(R / 10,000) / 3,435) − 273.15 °C (R424, R477), to the nearest
(DESIGN CHOICE, assumption 140). -/
def thermistor (ohms : Nat) : Int :=
  let log2 (n : Nat) : Int := (n.log2 : Int) * ((2 ^ 60 : Nat) : Int) + (log2Frac 60 (n * 2 ^ (320 - n.log2)) 0 : Nat)
  let ln := (log2 ohms - log2 10000) * 693147180559945309 / ((10 ^ 18 : Nat) : Int)
  let den := 343500 * ((2 ^ 60 : Nat) : Int) + 29815 * ln
  (160 * 29815 * 3435 * ((2 ^ 60 : Nat) : Int) - 43699 * den) / (10 * den)
/-- A board thermistor's slot: the sample is the resistance in Ω, valid from 100 Ω to 400 kΩ (R425, R477); what an invalid one leaves as value is open. -/
def State.thermSlot (s : State) (ch : Nat) (x : HkSample) : State :=
  if !x.open_ && decide (100 ≤ x.value ∧ x.value ≤ 400000) then s.post ch true false (thermistor x.value.toNat)
  else
    let (v, s) := s.free
    s.post ch false false v
/-- HOUSEKEEPING_SLOT (R422 to R429): the channels come in order, and the last ends the round. -/
def execHousekeepingSlot (t : At) (ch : BitVec 8) (sample : HkSample) (s : State) : Result :=
  let s := s.at t
  let c := ch.toNat
  .next (if (s.dead && decide (s.dev ≠ .tripped)) || decide (c ≠ s.onyx.nextCh) then s
    else
      let s := { s with onyx := { s.onyx with nextCh := (c + 1) % 256 } }
      let s := if c < 224 then s.diodeSlot c sample else if c < 228 then s.thermSlot c sample
        else if c < 232 then s.laserSlot (c - 228) sample else s.post c (!sample.open_) false sample.value
      if c = 255 then s.endRound else s)
/-- HBM_TEMP_READ: the refresh rate follows the reading, and a shutdown threshold trips the device (R354, R426, R429). -/
def execHbmTempRead (t : At) (k : Nat) (temp : Nat) (s : State) : Result :=
  if k < Config.hbmStacks then
    let s := s.at t
    .next (if s.dead && decide (s.dev ≠ .tripped) then s
      else
        let a := Reg.hbmStatus k
        let s := (s.putF a F.hbmStatusTemp (min 255 temp)).putB a F.hbmStatusFastRefresh (decide (85 < temp))
        let s := { s with onyx := { s.onyx with hbmTemps := assocSet s.onyx.hbmTemps k (temp + 1) } }
        if 105 ≤ temp then s.trip (0xF0 + k) (16 * (temp : Int)) else s)
  else .fault .noSuchUnit
/-- LASER_FAULT_N: asserted in RUN, it is logged and the job enters HOLD at the next boundary (R270). -/
def execLaserFaultN (t : At) (s : State) : Result :=
  let s := s.at t
  let s := { s with pins := { s.pins with laserFaultN := false } }
  .next (if s.dev = .run then (s.log 0x0505 (srcUnit 12 0) [0, 0, 0]).holdCause 9 else s)

end Sys2Proof.Machine
end

