-- ==== Sys2Proof/Machine/Startup.lean ====
section
/-! DEFINITION. BRINGUP and LOAD: stage 0 records, the fence map, units, parked rings, calibration (R248, R260, R263, R396, R397, R403, R432), beacons and
fibre training (R29, R240, R411), and what LOAD writes (R86, R237, R398 to R401, R409, R410). -/

namespace Sys2Proof.Machine

/-! Configuration records (R396). -/

/-- The word 0 of a record, as an image holds it (R396). -/
def CfgRec.word (r : CfgRec) : Nat := r.stage * 2 ^ 62 + r.addr
/-- Onyx writes the records of a stage in order, with the force of a write in HOLD, and keeps what it wrote (R396, R451). -/
def State.writeRecords (s : State) (cyc stage : Nat) : State :=
  (stageOf stage (recordsOf (s.section_ 1))).foldl (fun s r =>
    let s := s.cfgWrite cyc r.addr r.value true
    { s with start := { s.start with records := s.start.records ++ [(r.word, r.value)] } }) s

/-! The fence map (R402, R403). -/

/-- Fence one element of the fence map, whether or not it works (R403). A fibre of the map stays off and is not trained; an endpoint of a lane takes no
part on it (R402). -/
def State.fenceMapped (s : State) (e : FenceEl) : State :=
  let v := e.value
  match e.kind with
  | 1 => if v < Config.cores then s.putB (Reg.coreCtrl v) F.coreCtrlFenced true else s
  | 2 => if v < Config.towers then ((s.markTowerFenced v).markRing (towerRing v)).fenceLat v else s
  | 3 => if v / 256 < Config.towers ∧ v % 256 < 64 then s.putF (grpReg (v / 256) (v % 256)) F.flrGrpState 3 else s
  | 4 => if v / 256 = 0x1F then s.putF (laneReg (v % 32)) F.lplLaneState 6 else s
  | _ => s
/-- The fence map is applied, and every weight starts at its target (R219, R403). -/
def State.applyFences (s : State) : State :=
  let l := (fenceEntries (s.section_ 8)).map fun e => e.1
  let s := l.foldl State.fenceMapped { s with start := { s.start with fences := l } }
  (List.range 4).foldl (fun s n => s.putB (Reg.rplRebal n) F.rplRebalInProgress false) (s.retarget true)

/-! What BRINGUP starts (R248, R279, R292, R401, R432). -/

/-- Every unit that is not fenced is enabled (R432). -/
def State.unitsOn (s : State) : State :=
  (List.range Config.units).foldl (fun s u =>
    if s.flag (Reg.onxUnit u) F.onxUnitFenced then s else (s.setUnit u 2).bump (Reg.onxUnit u) F.onxUnitTransitions 1) s
/-- Every group that is not fenced trains (R279). -/
def State.groupsTrain (s : State) : State :=
  s.liveGroups.foldl (fun s x =>
    if s.fld (grpReg x.1 x.2) F.flrGrpState = 0 then (s.setGroup x.1 x.2 { s.group x.1 x.2 with stepAt := s.now }).putF (grpReg x.1 x.2) F.flrGrpState 1 else s) s
/-- The time units of the tiles begin their discipline (R292). -/
def State.timesBegin (s : State) : State := (List.range 4).foldl (fun s n => s.setTime n { s.time n with began := s.now }) s
/-- The rings of the lock engines that failed their self-test are parked (R248): engine e serves the items 128 e to 128 e + 127 of its tile. -/
def State.parkEngines (s : State) : State :=
  s.start.badEngines.foldl (fun s b =>
    ((tileRingIds (b.1 % 4)).filter fun g => decide ((ringItem g).2 / 128 = b.2)).foldl State.park s) s
/-- BRINGUP writes every vault line to zero (R401). -/
def State.zeroVaults (s : State) : State :=
  let vault (a : Nat) : Bool := match placeOf a with
    | .vault _ _ => true
    | _ => false
  { s with mem := s.mem.filter (fun x => !vault x.1), marks := s.marks.filter (fun x => !vault x.1) }
/-- BRINGUP begins (R408): stage 0 records, the fence map, units, the time base, D2D training, vaults. Calibration waits for the first round of housekeeping
that begins in BRINGUP (R261). -/
def State.bringUp (s : State) (cyc : Nat) : State :=
  let s := ((s.writeRecords cyc 0).enter .bringup).phaseTo 2
  let s := (s.applyFences.unitsOn.timesBegin.phaseTo 3).groupsTrain
  let s := s.zeroVaults.parkEngines
  { s with start := { s.start with calAt := s.onyx.round + if s.onyx.nextCh = 0 then 0 else 1 } }
/-- BOOT is over: RESET_N is high, an image is booted, a round found every reading cool (R13, R404, R431). -/
def State.mayBringUp (s : State) : Bool :=
  decide (s.dev = .boot) && s.pins.resetN && decide (s.rd Reg.onxImgSeq ≠ 0) && s.onyx.cool
/-- BRINGUP_ENTRY (R403, R431). -/
def execBringupEntry (t : At) (s : State) : Result :=
  let s := s.at t
  .next (if s.mayBringUp then s.bringUp t.cyc else s)
/-- A cold calibration is due on a tile: its start values have been looked for and none found, or force_cold is set, and the supply gives light (R260, R272). -/
def State.coldDue (s : State) (tile : Nat) : Bool :=
  (decide (s.dev = .bringup) || s.starting (12 + tile)) && s.start.laserDone && s.calibrated && decide (s.calSource tile = 3)
/-- D2D deskew starts from default taps (R260): those of the tile's groups that are not in service are 0. -/
def State.defaultTaps (s : State) (tile : Nat) : State :=
  (List.range 3).foldl (fun s tw => (List.range 64).foldl (fun s g =>
    if s.fld (grpReg (3 * tile + tw) g) F.flrGrpState = 2 then s
    else (List.range 2).foldl (fun s d => (List.range 33).foldl (fun s q => s.wr (Reg.flrDsk tile tw g d q) 0) (s.wr (Reg.flrDskCtl tile tw g d) 0)) s) s) s
/-- A ring after its full sweep (R251, R260): locked at the code found as its start value, or parked where none was found. -/
def State.coldRing (s : State) (tile cyc : Nat) (items : List CalItem) (g : RingId) : State :=
  let i := (ringItem g).2
  if 5 ≤ s.ringState g then s
  else match items.find? fun x => decide (x.cls = 1 ∧ x.index = i) with
    | none => s.park g
    | some x =>
      let code := clampCode x.value
      ((s.putF (ringAddr g) F.rplModBias code).setRing (ringAddr g) { start := code, gain := (s.calVal 7 tile i).toNat }).lockAt g code cyc
/-- COLD_CALIBRATION: every ring of the tile is acquired by full sweep, its interferometers are characterised and its D2D groups train from default taps; what
was found becomes the tile's values and its anchor set, and the image's overrides then apply (R260, R262, R263). -/
def execColdCalibration (t : At) (tile : Nat) (items : List CalItem) (s : State) : Result :=
  if tile < Config.tiles then
    let s := s.at t
    if s.dead || !s.coldDue tile then .next s
    else
      let s := items.foldl (fun s i => s.setItem i.cls tile i.index i.value) (s.defaultTaps tile)
      let s := (tileRingIds tile).foldl (fun s g => s.coldRing tile t.cyc items g) s
      .next (((s.noteSource tile 2).writeSlot tile 5).override tile)
  else .fault .noSuchUnit

/-! Fibres (R29, R240, R411). -/

/-- The own carat of a beacon: its number mod 32 is the package id (R411). -/
def State.ownCarat (s : State) : Bool := decide (s.tcNat / 1024 % 32 = s.pkg)
/-- A training frame of a fibre: the package's id and the fibre's number, and the identification of R213; the fibre is in training (R29, R213, R244). -/
def State.trainFrame (s : State) (x : Nat) : State :=
  (s.putF (Reg.fibStatus (x / 8) (x % 8)) F.fibStatusState 1).emit (.training (.fibreOut x) (identFlit 2 (16 + x / 8) fun k => 2 * k + 1) s.pkg x)
/-- TRAINING_BEACON (R411). -/
def execTrainingBeacon (t : At) (s : State) : Result :=
  let s := s.at t
  .next (if s.start.laserDone && s.ownCarat then (s.untrained.filter s.fibreStarts).foldl State.trainFrame s else s)
/-- The far end that a fibre is expected to have (R29). -/
def State.farOk (s : State) (x farPkg farFibre : Nat) : Bool :=
  let a := Reg.fibCtrl (x / 8) (x % 8)
  decide (farPkg = s.fld a F.fibCtrlFarPackage ∧ farFibre = s.fld a F.fibCtrlFarFibre)
/-- What a fibre's training found: a wrong far end and a delay over its target fence the fibre (R29, R240). -/
def State.trainFibre (s : State) (x delay farPkg farFibre : Nat) : State :=
  let a := Reg.fibStatus (x / 8) (x % 8)
  let s := ((s.putF a F.fibStatusMeasuredDelay (min 0xFFFF delay)).putF a F.fibStatusFarPackageSeen farPkg).putF a F.fibStatusFarFibreSeen farFibre
  if !s.farOk x farPkg farFibre then s.fenceFibre x 3
  else if s.fld (Reg.fibCtrl (x / 8) (x % 8)) F.fibCtrlDelayTarget < delay then s.fenceFibre x 5
  else s.putF a F.fibStatusState 2
/-- FIBRE_TRAINING (R29, R240, R411): after the laser check and the internal margin test. -/
def execFibreTraining (t : At) (x delay farPkg farFibre : Nat) (s : State) : Result :=
  if x < Config.fibres then
    let s := s.at t
    .next (if s.fibreStarts x && s.start.laserDone && s.internalDone && s.untrained.contains x then
        (if s.dev = .bringup then s.phaseTo 8 else s).trainFibre x delay farPkg farFibre
      else s)
  else .fault .noSuchUnit

/-! LOAD (R398 to R401, R409, R410). -/

/-- A start that ends in HALTED (R409, R413, R417). -/
def State.startHalt (s : State) (cause haltCause : Nat) : State :=
  ((s.putF Reg.onxImgStatus F.onxImgStatusStartCause cause).logStart cause).halt haltCause
/-- Bank A takes the route tables (R398). -/
def State.loadRoutes (s : State) (l : List Byte) : State :=
  (List.range 21).foldl (fun s r => (List.range 64).foldl (fun s d => s.wr (Reg.fabRt r 0 d) (wordAt l (512 * r + 8 * d) &&& routeMask)) s) s
/-- The job contexts and their windows (R399). -/
def State.loadJobs (s : State) (l : List Byte) : State :=
  (jobsOf l).foldl (fun s e =>
    let j := e.1
    let s := ((s.putB (Reg.fabJobCtrl j) F.fabJobCtrlValid true).wr (Reg.fabJobSrc j) (wordAt l (e.2 + 8))).wr (Reg.fabJobSeed j) (wordAt l (e.2 + 16))
    (List.range 64).foldl (fun s w =>
      (s.forceWrite (Reg.fabWin0 j w) (wordAt l (e.2 + 32 + 16 * w))).forceWrite (Reg.fabWin1 j w) (wordAt l (e.2 + 40 + 16 * w))) s) s
/-- Instruction memory is zero before the bundles are written (R400). -/
def State.clearImem (s : State) : State :=
  let imem (a : Nat) : Bool := match placeOf a with
    | .imem _ _ => true
    | _ => false
  { s with mem := s.mem.filter (fun x => !imem x.1), marks := s.marks.filter (fun x => !imem x.1) }
/-- The local address of a core's bundle 0 (R116). -/
def imemAt (c : Nat) : Nat := windowOf c + 0xC00000
/-- A core's program (R400): its bundles, or those of source_core, and its control registers. -/
def State.loadProg (s : State) (l : List Byte) (ps : List Prog) (step : Nat) (p : Prog) : State :=
  let q := if bit p.flags 1 then (ps.find? fun q => decide (q.core = p.source ∧ q.count ≠ 0)).getD p else p
  let s := s.setBytes (imemAt p.core) ((l.drop q.at_).take (16 * q.count))
  let a := Reg.coreCtrl p.core
  let s := (s.putB a F.coreCtrlEnable (bit p.flags 0)).putF a F.coreCtrlStartPc p.pc
  ((s.putF (Reg.coreJob p.core) F.coreJobJob p.job).wr (Reg.coreSeed p.core) (s.rd (Reg.fabJobSeed p.job))).wr (Reg.coreStep p.core) (BitVec.ofNat 64 step)
/-- The programs, and the start step in every core (R392, R400). -/
def State.loadProgs (s : State) (l : List Byte) (step : Nat) : State :=
  let s := (List.range Config.cores).foldl (fun s c => s.wr (Reg.coreStep c) (BitVec.ofNat 64 step)) s.clearImem
  (progsOf l).foldl (fun s p => s.loadProg l (progsOf l) step p) s
/-- The preloads, in order (R401). -/
def State.loadData (s : State) (l : List Byte) : State := (preloadsOf l).foldl (fun s p => s.writeAt p.1 ((l.drop p.2.2).take p.2.1) []) s
/-- The variant state: the values of the table, or those that a resume kept (R81, R86, R410). -/
def State.loadVariants (s : State) : State :=
  let v := if s.section_ 6 = [] then {} else vtableOf (s.section_ 6)
  let s := { s with start := { s.start with vtable := v } }
  match s.start.resume with
  | some (sels, runs, _) => runs.foldl (fun s r => s.wr (Reg.onxVarRun r.1) (BitVec.ofNat 64 r.2)) (sels.foldl (fun s k => s.wr (Reg.onxVarSel k.1) (BitVec.ofNat 64 k.2)) s)
  | none => v.rules.zipIdx.foldl (fun s r => s.setRun r.2 r.1.initialRun) (v.slots.zipIdx.foldl (fun s x => s.setSel x.2 x.1.2) s)
/-- The step number that the cores take: start_step, or the one that a resume kept (R400, R410). -/
def State.loadStep (s : State) : Nat :=
  match s.start.resume with
  | some (_, _, n + 1) => n
  | _ => hStartStep s.booted.header
/-- Phase 0 is applied to every lane that is not fenced (R237). -/
def State.phaseZero (s : State) : State :=
  (List.range 32).foldl (fun s j =>
    let a := laneReg j
    if s.fld a F.lplLaneState = 6 then s
    else
      let n := j / 8
      let s := ((s.putF a F.lplLanePhase 0).putF a F.lplLaneSetting (s.phaseEntry n 0 (j % 8)).2).putF a F.lplLaneState 0
      let gone := if s.fld (Reg.lplSetKind n (s.fld a F.lplLaneSetting)) F.lplSetKindKind = 0 then (s.lattice n).removed else []
      s.setLane j { s.lane j with relocked := true, gone := gone }) s
/-- What LOAD writes (R398 to R401, R86, R237, R410). -/
def State.loadImage (s : State) (cyc : Nat) : State :=
  let set := hJoinSet s.booted.header
  let s := (s.loadRoutes (s.section_ 2)).loadJobs (s.section_ 3)
  let s := (s.loadProgs (s.section_ 4) s.loadStep).loadData (s.section_ 5)
  let s := (s.writeRecords cyc 1).loadVariants.phaseZero
  { s with start := { s.start with joinSet := set } }
/-- BRINGUP is over (R408): time is disciplined, the capability word fixed, every group trained or fenced, every stack zero, the laser checked, no tile's
calibration due (R260), the internal margin test done, every fibre in use trained or fenced. -/
def State.mayLoad (s : State) : Bool :=
  decide (s.dev = .bringup) && ((List.range 4).all s.locked) && s.start.capFixed &&
    (s.liveGroups.all fun x => decide (2 ≤ s.fld (grpReg x.1 x.2) F.flrGrpState)) && ((List.range 16).all fun k => s.start.hbmDone.contains k) &&
    s.start.laserDone && s.calibrated && ((List.range 4).all fun n => decide (s.calSource n ≠ 3)) && s.internalDone && s.untrained.isEmpty
/-- A block of the second body read fails: its check, or the flash (R409). -/
def State.loadFails (s : State) (bad : List Nat) : Bool := (List.range (hBlocks s.booted.header)).any fun i => bad.contains i || !blockOk (s.booted.block i)
/-- LOAD_ENTRY: LOAD with all that it writes (R408, R409). The margin test has ended, and kept sets are written (R262). -/
def execLoadEntry (t : At) (badBlocks : List Nat) (s : State) : Result :=
  let s := s.at t
  .next (if s.mayLoad then
      let s := (((List.range 4).foldl State.writeKept s).enter .load).phaseTo 9
      if s.loadFails badBlocks then s.startHalt 12 4 else s.loadImage t.cyc
    else s)

end Sys2Proof.Machine
end

