-- ==== Sys2Proof/Machine/Join.lean ====
section
/-! DEFINITION. The rack join and the entry to RUN (R290, R299, R349, R411 to R413). -/

namespace Sys2Proof.Machine

/-! The agreed carat (R413). -/

/-- A join failure: HALTED, with its cause and the member (R413, R439 code 0x0803). -/
def State.joinFail (s : State) (cause member : Nat) : State := (s.log 0x0803 (srcUnit 12 0) [cause, member]).startHalt cause 5
/-- A message has come from a member of join_set (R417). -/
def State.joinHeard (s : State) (p : Nat) : Bool := bit (s.rd Reg.onxJoinHeard).toNat p
/-- The agreed carat; 0 until it is fixed (R417). -/
def State.joinCarat (s : State) : Nat := s.fld Reg.onxJoinCarat F.onxJoinCaratCarat
/-- The largest of the proposals, the own included (R413). -/
def State.largestProposal (s : State) : Nat := (s.others.map fun p => assoc s.start.proposals p).foldl max s.start.proposal
/-- The cores that are enabled and not fenced wait for the first step base (R96, R299). -/
def State.armCores (s : State) (cyc base : Nat) : State :=
  ((List.range Config.cores).filter fun c => s.flag (Reg.coreCtrl c) F.coreCtrlEnable && !s.coreFenced c).foldl (fun s c =>
    s.setCore c { s.core c with npc := s.fld (Reg.coreCtrl c) F.coreCtrlStartPc, wait := .time (BitVec.ofNat 64 base) true, waitFrom := cyc }) s
/-- Once a message from every member is held the carat is fixed; later than one carat before it, the join fails (R413). -/
def State.tryJoin (s : State) (cyc : Nat) : State :=
  if s.joinCarat ≠ 0 ∨ !(s.others.all s.joinHeard) then s
  else
    let c := s.largestProposal
    let s := s.putF Reg.onxJoinCarat F.onxJoinCaratCarat c
    if 1024 * (c - 1) ≤ s.tcNat then s.joinFail 11 s.pkg else s.armCores cyc (1024 * c)

/-! Entry to JOIN (R290, R412). -/

/-- Both halves of a tile run at 1:1 and no ratio waits (R290). -/
def State.oneToOne (s : State) (n : Nat) : Bool := decide (s.ratioOf n = 0 ∧ assoc s.ratios n = 0 ∧ assoc s.ratios (4 + n) = 0)
/-- Onyx sets both halves of a tile to 1:1 (R290). -/
def State.setOneToOne (s : State) (n : Nat) : State := if s.oneToOne n ∨ (assoc s.ratios n = 0 ∧ assoc s.ratios (4 + n) = 1) then s else s.ratioWrite n 0
/-- JOIN begins at the package's tick (R412): its proposal is fixed, its own incarnation recorded (R349). -/
def State.enterJoin (s : State) (cyc : Nat) : State :=
  let s := (s.enter .join).phaseTo 10
  let own := ceilDiv s.tcNat 1024 + hJoinLead s.booted.header
  let s := { s with start := { s.start with beganJoin := s.now, proposal := own, proposals := [], joinMsgs := 0 } }
  (s.putF (Reg.fabPeerInc s.pkg) F.fabPeerIncIncarnation s.inc).tryJoin cyc
/-- JOIN_ENTRY: where a half is clocked down, Onyx first sets it to 1:1 and waits until the change completes (R290). -/
def execJoinEntry (t : At) (s : State) : Result :=
  let s := s.at t
  .next (if s.dev = .load then (if (List.range 4).all s.oneToOne then s.enterJoin t.cyc else (List.range 4).foldl State.setOneToOne s) else s)

/-! Join messages (R412, R413). -/

/-- The data flit of a join message (R412). -/
def State.joinFlit (s : State) : List Byte :=
  padTo 48 (hDigest s.booted.header) ++ bytesOf s.start.proposal 8 ++ bytesOf s.inc 4 ++ bytesOf s.pkg 1 ++ bytesOf 0 3
/-- A join message to a package, on the route of E0's table (R412). -/
def State.sendJoin (s : State) (p : Nat) : State :=
  let m : Packet := { cls := 0xD, op := Config.joinOp.toNat, dstPkg := p, dstEp := 0, originPkg := s.pkg, incarnation := s.inc, data := s.joinFlit }
  match s.routed 0 m with
  | some q => s.sendAt 0 14 q
  | none => s.bump Reg.fabRtStat F.fabRtStatNoRoute 1
/-- JOIN_MESSAGE_SEND: every 64 carats from entry to JOIN on (R412). -/
def execJoinMessageSend (t : At) (s : State) : Result :=
  let s := s.at t
  .next (if s.dev = .join ∧ s.start.beganJoin + 65536 * s.start.joinMsgs ≤ s.now then
      let s := s.others.foldl State.sendJoin s
      { s with start := { s.start with joinMsgs := s.start.joinMsgs + 1 } }
    else s)
/-- A join message of a member is taken (R412, R413). -/
def State.takeJoin (s : State) (cyc : Nat) (digest : List Byte) (proposal inc pkg : Nat) : State :=
  if digest ≠ padTo 48 (hDigest s.booted.header) then s.joinFail 10 pkg
  else if s.joinCarat ≠ 0 then (if inc ≠ s.fld (Reg.fabPeerInc pkg) F.fabPeerIncIncarnation then s.joinFail 10 pkg else s)
  else
    let s := s.putF (Reg.fabPeerInc pkg) F.fabPeerIncIncarnation inc
    let s := s.wr Reg.onxJoinHeard (s.rd Reg.onxJoinHeard ||| BitVec.ofNat 64 (2 ^ pkg))
    let l := assocSet s.start.proposals pkg proposal
    ({ s with start := { s.start with proposals := l } }).tryJoin cyc
/-- JOIN_MESSAGE (R411 to R413): in RUN and HOLD it is discarded and logged; outside JOIN, and from a package outside join_set, discarded. -/
def execJoinMessage (t : At) (digest : List Byte) (proposal : Nat) (incarnation : BitVec 32) (pkg : Nat) (s : State) : Result :=
  if pkg < 64 then
    let s := s.at t
    .next (if s.dev = .run ∨ s.dev = .hold then s.log 0x0804 (srcUnit 12 0) [pkg, devNum s.dev]
      else if decide (s.dev = .join) && s.others.contains pkg then s.takeJoin t.cyc digest proposal incarnation.toNat pkg
      else s)
  else .fault .noSuchUnit
/-- JOIN_TIMEOUT: join_timeout has passed without a message from every member (R413). -/
def execJoinTimeout (t : At) (s : State) : Result :=
  let s := s.at t
  .next (if s.dev = .join ∧ s.joinCarat = 0 ∧ s.start.beganJoin + 1000000 * hJoinTimeout s.booted.header ≤ s.now then
      s.joinFail 9 ((s.others.find? fun p => !s.joinHeard p).getD s.pkg)
    else s)

/-! Entry to RUN (R299, R413). -/

/-- A register of an accumulator window (R102, R128). -/
def isAccReg (a : Nat) : Bool := decide (Reg.coreAcc 0 0 0 0 ≤ a ∧ a < 0x10C000000 ∧ Reg.coreAcc 0 0 0 0 % 0x10000 ≤ a % 0x10000 ∧ a % 0x10000 ≤ Reg.coreAcc 0 1 63 31 % 0x10000)
/-- Every accumulator element is +0.0 at entry to RUN (R102). -/
def State.zeroAccs (s : State) : State := { s with regs := s.regs.filter fun x => !isAccReg x.1 }
/-- RUN begins at the agreed carat, which is the first step's base; a package without a tower to wait for forms its message (R299, R319, R413). -/
def State.enterRun (s : State) : State :=
  let base := 1024 * s.joinCarat
  let s := ((s.zeroAccs.enter .run).phaseTo 11).wr Reg.onxSchedBase (BitVec.ofNat 64 base)
  let s := { s with boundary := {} }.hostStep s.stepNow base true
  if s.awaited.isEmpty then s.tryForm else s
/-- RUN_ENTRY (R299, R413). -/
def execRunEntry (t : At) (s : State) : Result :=
  let s := s.at t
  .next (if s.dev = .join ∧ s.joinCarat ≠ 0 ∧ 1024 * s.joinCarat ≤ s.tcNat then s.enterRun else s)

end Sys2Proof.Machine
end

