-- ==== Sys2Proof/Machine/Logs.lean ====
section
/-! DEFINITION. The logs (R437, R438) and the watchdog (R419). -/

namespace Sys2Proof.Machine

/-- LOG_RECORD_WRITE: an event of a code of R439 is recorded (R437, R438); no other code is written. -/
def execLogRecordWrite (t : At) (code : BitVec 16) (source : BitVec 32) (args : List (BitVec 64)) (s : State) : Result :=
  let s := s.at t
  .next (if (s.dead && decide (s.dev ≠ .tripped)) || decide (code.toNat ∉ logCodes) then s else s.log code.toNat source.toNat ((args.take 4).map BitVec.toNat))
/-- LOG_MERGE_FLUSH (R438). -/
def execLogMergeFlush (t : At) (code : BitVec 16) (source : BitVec 32) (s : State) : Result :=
  let s := s.at t
  .next (if s.dead && decide (s.dev ≠ .tripped) then s else s.flushMerge code.toNat source.toNat)
/-- Records of a sector of the persistent log, and its sectors (R437). -/
def logSectors : Nat := 13056
/-- Write a record at the head of the persistent log; entering a sector erases the one ahead (R437). -/
def Store.append (x : Store) (b : List Byte) : Store :=
  let h := x.logHead
  let ahead := (h / 64 + 1) % logSectors
  let l := if h % 64 = 0 then x.log.filter fun e => decide (e.1 / 64 ≠ ahead) else x.log
  { x with log := Sparse.set (fun _ => []) l h b, logHead := (h + 1) % (64 * logSectors) }
/-- PERSISTENT_LOG_WRITE: the oldest queued record goes to both store devices, which hold the same log region (R390, R437). -/
def execPersistentLogWrite (t : At) (s : State) : Result :=
  let s := s.at t
  match s.onyx.logQueue with
  | [] => .next s
  | r :: rest =>
    .next (if s.dev = .off ∨ (s.dev = .boot ∧ s.pins.resetN = false) then s
      else { s with onyx := { s.onyx with logQueue := rest }, store := s.store.append r.2.bytes })
/-- WATCHDOG_EXPIRY: Onyx alone restarts; in LOAD, JOIN and RUN the device halts (R419). -/
def execWatchdogExpiry (t : At) (s : State) : Result :=
  let s := s.at t
  .next (if s.dead && decide (s.dev ≠ .tripped) then s
    else
      let d := s.dev
      let s := (s.putB Reg.onxState F.onxStateWatchdogRestarted true).log 0x0901 (srcUnit 12 0) [devNum d]
      if d = .load ∨ d = .join ∨ d = .run then s.halt 6 else s)

end Sys2Proof.Machine
end

