-- ==== Sys2Proof/Machine/Mgmt.lean ====
section
/-! DEFINITION. Management requests (R414 to R416, R450, R451, R466 to R469): reads and writes, updates of the store, restarts, quotes; the end of a unit's
transition (R433, R435). -/

namespace Sys2Proof.Machine

/-! Answers. -/

/-- Onyx answers the port: the device is powered and Onyx out of reset (R13). -/
def State.awake (s : State) : Bool := decide (s.dev ≠ .off) && !(decide (s.dev = .boot) && !s.pins.resetN)
/-- Answer a request: the response's type is the request's plus 0x40 (R456). -/
def State.reply (s : State) (type status number : Nat) (payload : List Byte) : State := s.emit (.msg 64 (type + 0x40) status number 0 0 payload)
/-- A signed request's slot, key, bit of HST_MGMT_KEYS and incarnation are good (R393, R467). -/
def State.signedOk (s : State) (q : Signed) : Bool :=
  s.sigOk q.trailer.keyIndex q.trailer.publicKey q.covered q.trailer.signature && bit (s.fld Reg.hstMgmtKeys F.hstMgmtKeysMgmtKeys) q.trailer.keyIndex &&
    decide (q.incarnation = s.inc)
/-- A request is accepted, and its response kept (R467). -/
def State.accept (s : State) (type status number : Nat) (payload : List Byte) : State :=
  let o := { s.onyx with lastNumber := some number, lastType := type, lastStatus := status, lastPayload := payload }
  { s with onyx := o }.reply type status number payload
/-- A signed request (R466 to R468): a repeat of the last accepted one receives its response again; one that the state does not allow, whose signature is
not good or whose number is not higher is turned away; `f` gives the status, the payload and the state before the response leaves, `g` what follows it. -/
def State.onSigned (s : State) (type : Nat) (allowed : Bool) (q : Signed) (f : State → Nat × List Byte × State) (g : State → State) : State :=
  if !s.awake || decide (s.dev = .tripped) then s
  else if s.signedOk q && decide (s.onyx.lastNumber = some q.number) then s.reply s.onyx.lastType s.onyx.lastStatus q.number s.onyx.lastPayload
  else if !allowed then s.reply type 1 q.number []
  else if !s.signedOk q then (s.log 0x0902 (srcUnit 12 0) [q.trailer.keyIndex, type]).reply type 2 q.number []
  else if s.onyx.lastNumber.any fun n => decide (q.number ≤ n) then s.reply type 3 q.number []
  else
    let (st, b, s) := f s
    if st = 1 ∨ st = 5 then s.reply type st q.number b
    else
      let s := s.accept type st q.number b
      if st = 0 then g s else s

/-! READ and WRITE (R469). -/

/-- What a management address word names. -/
inductive MgmtPlace where
  | cfg (a : Nat)
  | data (a : Nat)
deriving DecidableEq, Repr
/-- The core whose window holds a place. -/
def Place.core : Place → Option Nat
  | .vault c _ | .imem c _ | .buffer c _ _ => some c
  | _ => none
/-- The place that an address word names, if the request may name it in this state (R469). -/
def State.mgmtPlace (s : State) (w : Nat) (write : Bool) : Option MgmtPlace :=
  if bit w 63 = false then (if bits w 62 40 = 0 then some (.cfg (w % 2 ^ 40)) else none)
  else
    let a := w % 2 ^ 45
    let p := placeOf a
    let named : Bool := match p with
      | .vault _ _ | .imem _ _ | .hbm _ _ => true
      | .buffer _ _ _ | .info => !write
      | .nowhere => false
    if bits w 62 45 ≠ 0 ∨ a % 8 ≠ 0 ∨ named = false ∨ (p.core.map s.coreFenced) = some true then none
    else if s.dev = .hold ∨ (s.dev = .halted ∧ write = false) then some (.data a) else none
/-- The core that a place belongs to: its window of configuration space (R6, R128), its vault, buffer or instruction memory. -/
def MgmtPlace.core : MgmtPlace → Option Nat
  | .cfg a => cfgCore a
  | .data a => (placeOf a).core
/-- Bring the cores that a request names to its cycle (assumption 1). -/
def State.bring (s : State) (cyc : Nat) (l : List MgmtPlace) : State :=
  let s := if l.any fun p => (match p with | .cfg a => fabCounter a | .data _ => false) then s.countTags else s
  (l.filterMap MgmtPlace.core).foldl (fun s c => s.toCycle c cyc) s
/-- Read a word by Onyx's direct access: whether its code could not be corrected (R117, R352, R469). -/
def State.directRead (s : State) (a : Nat) : Word × Bool × State :=
  match placeOf a with
  | .info => (wordAt s.infoLine (a % 64), false, s)
  | .imem _ _ | .buffer _ _ _ => (BitVec.ofNat 64 (s.num a 8), decide (s.mark (codeKey a) = .ue ∨ s.mark (codeKey a) = .poison), s)
  | _ =>
    let (b, bad, s) := s.onyxRead a 8
    (BitVec.ofNat 64 (natOf b), !bad.isEmpty, s)
/-- Write a word by Onyx's direct access: new check bits, the line's poison mark cleared (R469). -/
def State.directWrite (s : State) (a : Nat) (v : Word) : State :=
  match placeOf a with
  | .imem _ _ => (s.setBytes a (bytesOf v.toNat 8)).setMark (codeKey a) .good
  | _ => s.writeAt a (bytesOf v.toNat 8) []
/-- Read the words of a request in increasing order: the words, whether one could not be corrected. -/
def State.mgmtRead (s : State) : List MgmtPlace → List Byte × Bool × State
  | [] => ([], false, s)
  | p :: r =>
    let (w, bad, s1) := match p with
      | .cfg a => ((s.cfgAccess a).1, false, (s.cfgAccess a).2)
      | .data a => s.directRead a
    let (l, b, s2) := s1.mgmtRead r
    (bytesOf w.toNat 8 ++ l, bad || b, s2)
/-- READ (R466, R469): configuration space in every powered state, data space in HOLD and HALTED; the status reads of R411 and R430 are such requests
(DEDUCED, assumption 139). -/
def execRead (t : At) (number : Nat) (addr : BitVec 64) (count : Nat) (s : State) : Result :=
  let s := s.at t
  .next (if !s.awake then s
    else if count = 0 ∨ 1024 < count then s.reply 0x81 5 number []
    else
      let l := (List.range count).map fun i => s.mgmtPlace (addr.toNat + 8 * i) false
      if l.any fun p => p.isNone then s.reply 0x81 1 number []
      else
        let (b, bad, s) := (s.bring t.cyc (l.filterMap id)).mgmtRead (l.filterMap id)
        s.reply 0x81 (if bad then 7 else 0) number b)
/-- A configuration write as a management access (R6, R8). -/
def State.cfgPut (s : State) (cyc a : Nat) (v : Word) : State := if a % 8 ≠ 0 then s.cfgRefused a 8 else s.cfgWrite cyc a v (decide (s.dev = .hold))
/-- Write the pairs of a request in order. -/
def State.mgmtWrite (s : State) (cyc : Nat) : List (MgmtPlace × Word) → State
  | [] => s
  | (.cfg a, v) :: r => (s.cfgPut cyc a v).mgmtWrite cyc r
  | (.data a, v) :: r => (s.directWrite a v).mgmtWrite cyc r
/-- WRITE (R466, R469). -/
def execWrite (t : At) (req : Signed) (pairs : List (BitVec 64 × BitVec 64)) (s : State) : Result :=
  let s := s.at t
  .next (s.onSigned 0x82 (decide (s.dev = .run ∨ s.dev = .hold ∨ s.dev = .halted)) req (fun s =>
    let l := pairs.map fun p => (s.mgmtPlace p.1.toNat true).map fun q => (q, p.2)
    if pairs.isEmpty || decide (64 < pairs.length) then (5, [], s)
    else if l.any fun p => p.isNone then (1, [], s)
    else (0, [], (s.bring t.cyc ((l.filterMap id).map Prod.fst)).mgmtWrite t.cyc (l.filterMap id))) id)

/-! Restarts (R410, R416, R435, R466). -/

/-- A held restart is carried out once no update and no transition of a unit runs (R416, R435). -/
def State.tryRestart (s : State) : State :=
  match s.onyx.restart with
  | none => s
  | some f =>
    if s.onyx.update.isSome || s.unitBusy then s
    else { s with onyx := { s.onyx with restart := none } }.reboot f
/-- RESTART (R466): the response leaves before BOOT; pending requests of units are discarded (R435). -/
def execRestart (t : At) (req : Signed) (flags : BitVec 32) (s : State) : Result :=
  let s := s.at t
  .next (s.onSigned 0x87 (decide (s.dev = .hold ∨ s.dev = .halted)) req (fun s => (0, [], s)) fun s =>
    let s := (List.range Config.units).foldl (fun s u => s.putF (Reg.onxUnit u) F.onxUnitPending 0) s
    let s := if s.onyx.update.isSome then s.putB Reg.onxUpdStatus F.onxUpdStatusRestartHeld true else s
    { s with onyx := { s.onyx with restart := some flags.toNat } }.tryRestart)
/-- UNIT_TRANSITION_END (R433, R435). -/
def execUnitTransitionEnd (t : At) (u : Nat) (s : State) : Result := onUnit t u s fun s => (s.unitEnd t.cyc u).tryRestart

/-! Updates (R414 to R416). -/

/-- An erased sector. -/
def erased (n : Nat) : List Byte := List.replicate n 0xFF
/-- The inactive bank (R414): the one that the last start did not boot; with none booted, the one of the lower valid sequence, else A. -/
def State.inactive (s : State) : Bool :=
  if s.rd Reg.onxImgSeq ≠ 0 then !s.flag Reg.onxImgStatus F.onxImgStatusBootedBank
  else
    let a := decide (s.headerCheck s.store.bankA.header = 1)
    let b := decide (s.headerCheck s.store.bankB.header = 1)
    if a && b then decide (hSequence s.store.bankB.header < hSequence s.store.bankA.header) else a
/-- Write over bytes from an offset on. -/
def overlay (l : List Byte) (off : Nat) (d : List Byte) : List Byte := l.take off ++ d ++ l.drop (off + d.length)
/-- The update ends with a result (R415 to R417): code 0x0103 records it, and a held restart is carried out. -/
def State.endUpdate (s : State) (u : Update) (result : Nat) : State :=
  let a := Reg.onxUpdStatus
  let s := ((s.putF a F.onxUpdStatusResult result).putB a F.onxUpdStatusBusy false).log 0x0103 (srcUnit 12 0) [result, hSequence u.header]
  let s := { s with onyx := { s.onyx with update := none } }
  if s.onyx.restart.isSome then (s.putB a F.onxUpdStatusRestartHeld false).tryRestart else s
/-- UPD_BEGIN (R414, R415): the header is checked and the sector that holds the inactive bank's header erased. -/
def State.beginUpdate (s : State) (header : List Byte) (eraseOk : Bool) : Nat × List Byte × State :=
  let a := Reg.onxUpdStatus
  if header.length ≠ 4096 then (5, [], s)
  else if hSequence header ≤ s.fld Reg.onxImgSeq F.onxImgSeqSequence then (6, [], s.putF a F.onxUpdStatusResult 2)
  else if s.headerSig header = false then (6, [], s.putF a F.onxUpdStatusResult 3)
  else
    let b := s.inactive
    let s := ((s.putF a F.onxUpdStatusBlocksWritten 0).putF a F.onxUpdStatusResult 0).putB a F.onxUpdStatusBusy true
    let n := s.onyx.sessions + 1
    let u : Update := { session := n, bankB := b, header := header }
    let s := { s with onyx := { s.onyx with sessions := n, update := some u } }
    if eraseOk then (0, bytesOf n 4, s.setBank b { s.bank b with header := erased 4096 })
    else (6, [], s.endUpdate u 5)
/-- UPD_BEGIN (R415). -/
def execUpdBegin (t : At) (req : Signed) (header : List Byte) (eraseOk : Bool) (s : State) : Result :=
  let s := s.at t
  .next (s.onSigned 0x83 (decide (s.dev = .run ∨ s.dev = .hold ∨ s.dev = .halted) && s.onyx.update.isNone) req (fun s => s.beginUpdate header eraseOk) id)
/-- The update that takes body data under a session number. -/
def State.openUpdate (s : State) (session : Nat) : Option Update := s.onyx.update.filter fun u => decide (u.session = session) && !u.ended
/-- A segment of an update's body is written (R415): its block is erased with the first one, and counted with the last. -/
def State.writeSegment (s : State) (u : Update) (block offset : Nat) (data : List Byte) : State :=
  let k := s.bank u.bankB
  let old := if block = u.nextBlock ∧ u.nextOff ≠ 0 then k.block block else erased 65536
  let s := s.setBank u.bankB { k with blocks := Sparse.set (fun _ => []) k.blocks block (overlay old offset data) }
  let last := decide (offset = 57344)
  let u := { u with nextBlock := if last then block + 1 else block, nextOff := if last then 0 else offset + 8192 }
  let s := { s with onyx := { s.onyx with update := some u } }
  if last then s.bump Reg.onxUpdStatus F.onxUpdStatusBlocksWritten 1 else s
/-- UPD_DATA (R415, R466): segments come in increasing order of block and offset. -/
def execUpdData (t : At) (number session block offset : Nat) (data : List Byte) (flashOk : Bool) (s : State) : Result :=
  let s := s.at t
  .next (if !s.awake || decide (s.dev = .tripped) then s
    else if s.onyx.update.isNone then s.reply 0x84 1 number []
    else match s.openUpdate session with
      | none => s.reply 0x84 5 number []
      | some u =>
        let early := decide (block < u.nextBlock) || (decide (block = u.nextBlock) && decide (offset < u.nextOff))
        if early || decide (hBlocks u.header ≤ block ∨ 65536 ≤ offset ∨ offset % 8192 ≠ 0 ∨ 8192 < data.length) then s.reply 0x84 5 number []
        else if flashOk then (s.writeSegment u block offset data).reply 0x84 0 number []
        else (s.reply 0x84 6 number []).endUpdate u 5)
/-- UPD_END (R415): the read-back begins; UPDATE_FINISH tells how it ends. The response carries ONX_UPD_STATUS. -/
def execUpdEnd (t : At) (req : Signed) (session : Nat) (s : State) : Result :=
  let s := s.at t
  .next (s.onSigned 0x85 s.onyx.update.isSome req (fun s =>
    match s.openUpdate session with
    | none => (5, [], s)
    | some u => (0, bytesOf (s.rd Reg.onxUpdStatus).toNat 8, { s with onyx := { s.onyx with update := some { u with ended := true } } })) id)
/-- UPDATE_FINISH (R415): the body is read back and checked, then the header written, read back and checked. -/
def execUpdateFinish (t : At) (flashOk : Bool) (s : State) : Result :=
  let s := s.at t
  match s.onyx.update with
  | none => .next s
  | some u =>
    if !s.awake || !u.ended then .next s
    else
      let k := { s.bank u.bankB with header := u.header }
      .next (if flashOk = false then s.endUpdate u 5
        else if !((List.range (hBlocks u.header)).all fun i => blockOk (k.block i)) || decide (Config.sha384 k.body ≠ (u.header.drop 0x20).take 48) then s.endUpdate u 4
        else if fieldAt u.header 0xFFC 4 ≠ crc32c (padTo 0xFFC u.header) then s.endUpdate u 5
        else if s.headerSig u.header = false then s.endUpdate u 3
        else (s.setBank u.bankB k).endUpdate u 1)
/-- UPD_ABANDON (R416): the header sector is left erased. -/
def execUpdAbandon (t : At) (req : Signed) (session : Nat) (s : State) : Result :=
  let s := s.at t
  .next (s.onSigned 0x86 s.onyx.update.isSome req (fun s =>
    match s.onyx.update.filter fun u => decide (u.session = session) with
    | none => (5, [], s)
    | some _ => (0, [], s)) fun s => match s.onyx.update with
      | some u => s.endUpdate u 6
      | none => s)

/-! Quotes (R450, R451). -/

/-- A fence-map entry (R402). -/
def FenceEl.bytes (e : FenceEl) : List Byte := bytesOf (e.kind * 2 ^ 56 + e.value) 8
/-- Insert an entry by kind and then by field. -/
def insertFence (e : FenceEl) : List FenceEl → List FenceEl
  | [] => [e]
  | x :: r => if e.kind < x.kind ∨ (e.kind = x.kind ∧ e.value ≤ x.value) then e :: x :: r else x :: insertFence e r
/-- What the configuration hash covers (R451). -/
def State.configBytes (s : State) : List Byte :=
  (s.start.records.map fun r => bytesOf r.1 8 ++ bytesOf r.2.toNat 8).flatten ++ (s.start.fences.map FenceEl.bytes).flatten ++
    ((s.start.extra.foldr insertFence []).map FenceEl.bytes).flatten
/-- The 320 bytes of a quote over a nonce (R451); the hash of an image is free where none is booted. -/
def State.quote (s : State) (nonce : List Byte) : List Byte × State :=
  let booted := decide (s.rd Reg.onxImgSeq ≠ 0)
  let (v, s) := if booted then (0, s) else s.free
  let image := if booted then Config.sha384 s.booted.header else bytesOf v 48
  let f := s.fuses
  let fuse := Config.sha384 (Config.fuseArray f.serial.toNat f.keys f.revoked (f.patches.map fun p => (p.1, p.2.toNat)) f.trims)
  let i := s.rd Reg.onxImgStatus
  let timed := s.flag (Reg.tcStatus 0) F.tcStatusLocked || s.flag (Reg.tcStatus 0) F.tcStatusHoldover
  let b := bytesOf 0x51540001 4 ++ bytesOf 1 2 ++ bytesOf 0 2 ++ bytesOf f.serial.toNat 8 ++ bytesOf s.inc 4 ++ bytesOf (steppingNum f.stepping) 1 ++
    bytesOf (devNum s.dev) 1 ++ bytesOf (F.onxImgStatusBootedBank.get i) 1 ++ bytesOf (F.onxImgStatusKeyIndex.get i) 1 ++
    bytesOf (s.rd Reg.onxImgSeq).toNat 8 ++ image ++ Config.sha384 s.configBytes ++ fuse ++ nonce ++ bytesOf (if timed then s.tcNat else 0) 8 ++ bytesOf 0 8
  (b ++ Config.identitySign f.serial.toNat b, s)
/-- QUOTE (R450, R451): the eleventh request within a second is refused. -/
def execQuote (t : At) (number : Nat) (nonce : List Byte) (s : State) : Result :=
  let s := s.at t
  .next (if !s.awake then s
    else if s.dev = .tripped then s
    else if nonce.length ≠ 32 then s.reply 0x88 5 number []
    else
      let l := s.onyx.quotes.filter fun q => decide (s.now < q + 1000000000)
      let s := { s with onyx := { s.onyx with quotes := s.now :: l } }
      if 10 ≤ l.length then (s.bump Reg.onxAttStatus F.onxAttStatusRefused 1).reply 0x88 4 number []
      else
        let (b, s) := s.quote nonce
        ({ s with onyx := { s.onyx with quote := b } }.bump Reg.onxAttStatus F.onxAttStatusSigned 1).reply 0x88 0 number b)

end Sys2Proof.Machine
end

