-- ==== Sys2Proof/Machine/Side.lean ====
section
/-! DEFINITION. The sideband (R471) and the test access port (R472). -/

namespace Sys2Proof.Machine

/-- The sideband answers: in every powered state, Onyx not held in reset (R13, R471). -/
def State.sideOn (s : State) : Bool := !s.dead || decide (s.dev = .tripped)
/-- The bytes of the sideband's register table (R471). -/
def State.sideBytes (s : State) : List Byte :=
  bytesOf 0x1216 2 ++ bytesOf (steppingNum s.fuses.stepping) 1 ++ bytesOf (devNum s.dev) 1 ++ bytesOf s.inc 4 ++ bytesOf (s.fld Reg.onxTherm F.onxThermD) 1 ++
    bytesOf (b2n (!s.pins.thermtripN)) 1 ++ bytesOf (s.fld Reg.onxTherm F.onxThermTowerMax) 2 ++ bytesOf (s.fld Reg.onxTherm F.onxThermTileMax) 2 ++ bytesOf 0 2 ++
    ((List.range 32).map fun i => bytesOf (s.fld (Reg.onxHk (224 + i)) F.onxHkValue) 2).flatten
/-- I3C_PRIVATE_WRITE: the first byte sets the offset, the rest is ignored (R471). -/
def execI3cPrivateWrite (t : At) (bytes : List Byte) (s : State) : Result :=
  let s := s.at t
  .next (if s.sideOn then (match bytes with
    | [] => s
    | b :: _ => { s with pins := { s.pins with i3cOffset := b.toNat } }) else s)
/-- I3C_PRIVATE_READ: bytes from the offset, which advances with each (R471). -/
def execI3cPrivateRead (t : At) (count : Nat) (s : State) : Result :=
  let s := s.at t
  .next (if s.sideOn then
      let l := (List.range count).map fun i => s.sideBytes.getD ((s.pins.i3cOffset + i) % 256) 0
      { s with pins := { s.pins with i3cOffset := (s.pins.i3cOffset + count) % 256 } }.emit (.i3c l)
    else s)
/-- DYNAMIC_ADDRESS_ASSIGN: through ENTDAA, or through SETDASA that names the static address 0x3A (R471). -/
def execDynamicAddressAssign (t : At) (assign : AddrAssign) (s : State) : Result :=
  let s := s.at t
  .next (if s.sideOn then (match assign with
    | .entdaa a => { s with pins := { s.pins with i3cAddr := some a } }
    | .setdasa st a => if st = 0x3A then { s with pins := { s.pins with i3cAddr := some a } } else s) else s)
/-- The code that IDCODE reads (R472). -/
def idCode : Stepping → BitVec 32
  | .b0 => 0x21216B47
  | .a1 => 0x11216B47
  | .a0 => 0x01216B47
/-- JTAG_INSTRUCTION: an instruction that the port does not offer selects BYPASS; EXTEST drives the lands only while RESET_N is low (R472). -/
def execJtagInstruction (t : At) (tap : Tap) (s : State) : Result :=
  let s := s.at t
  .next (if s.dev = .off then s
    else
      let s := { s with pins := { s.pins with tap := if tap = .other then .bypass else tap } }
      match tap with
      | .idcode => s.emit (.tapId (idCode s.fuses.stepping))
      | .extest => s.emit (.extest (!s.pins.resetN))
      | _ => s)

end Sys2Proof.Machine
end

