-- ==== Sys2Proof/Machine/Telemetry.lean ====
section
/-! DEFINITION. Telemetry maps (R446 to R448). -/

namespace Sys2Proof.Machine

/-- A field of a map: its register, the field, whether the map holds the value itself (R447). -/
structure MapField where
  addr : Nat
  fld : Fld
  current : Bool := false
deriving DecidableEq, Repr
/-- A map: its number and its entries (R447). -/
structure TMap where
  id : Nat
  entries : List (List MapField)
deriving DecidableEq, Repr
/-- The maps of R447. -/
def telemetryMaps : List TMap := [
  { id := 1, entries := (List.range 3072).map fun c => let a := Reg.twrVarbWait (towerOf c) (localOf c); [⟨a, F.twrVarbWaitReadWait, false⟩, ⟨a, F.twrVarbWaitWriteWait, false⟩, ⟨Reg.twrVarbCtrl (towerOf c) (localOf c), F.twrVarbCtrlDeadCycles, false⟩] },
  { id := 2, entries := (List.range 21).map fun r => let a := Reg.fabTxArbCtrl r; [⟨a, F.fabTxArbCtrlWaitSlots, false⟩, ⟨a, F.fabTxArbCtrlBgWaitSlots, false⟩, ⟨a, F.fabTxArbCtrlDeadSlots, false⟩] },
  { id := 3, entries := (List.range 512).map fun i => let a := Reg.hbmArbCtrl (i / 32) (i % 32); [⟨a, F.hbmArbCtrlWaitSlots, false⟩, ⟨a, F.hbmArbCtrlBgWaitSlots, false⟩, ⟨a, F.hbmArbCtrlDeadSlots, false⟩] },
  { id := 4, entries := (List.range 21).map fun r => [⟨Reg.rplRxIngest r, F.rplRxIngestFullTicks, false⟩] },
  { id := 5, entries := (List.range 768).map fun i => let a := Reg.flrGerr (i / 64 / 3) (i / 64 % 3) (i % 64); [⟨a, F.flrGerrElasticFull, false⟩, ⟨a, F.flrGerrReplays, false⟩] },
  { id := 6, entries := (List.range 768).map fun i => [⟨Reg.twrGov (i / 64) (i % 64), F.twrGovEvents, false⟩] },
  { id := 7, entries := (List.range 3072).map fun c => [⟨Reg.coreLate c, F.coreLateLateCount, false⟩, ⟨Reg.coreLate c, F.coreLateLateMax, true⟩, ⟨Reg.coreStretch c, F.coreStretchCount, false⟩] },
  { id := 8, entries := ((List.range 21).map fun r => [⟨Reg.rplTxErr r, F.rplTxErrReplays, false⟩]) ++ (List.range 32).map fun x => [⟨Reg.fibErr (x / 8) (x % 8), F.fibErrReplays, false⟩] },
  { id := 9, entries := [[⟨Reg.onxSchedStatus, F.onxSchedStatusSteps, false⟩, ⟨Reg.onxSchedStatus, F.onxSchedStatusLateSteps, false⟩, ⟨Reg.onxSchedLate, F.onxSchedLateLateCarats, false⟩, ⟨Reg.onxSchedHold, F.onxSchedHoldHoldCarats, false⟩]] }]
/-- The counters that entries hold as differences, each once: an address and the lowest bit of the field name it. -/
def MapField.key (m : MapField) : Nat := m.addr * 64 + m.fld.lo
/-- The 32-bit value of a field of an entry (R446). -/
def State.entryValue (s : State) (m : MapField) : Nat :=
  let v := s.fld m.addr m.fld
  let old := assoc s.onyx.prev m.key
  if m.current then v
  else if v = m.fld.max ∨ v < old ∨ 2 ^ 32 ≤ v - old then 0xFFFFFFFF
  else v - old
/-- The bytes of a section (R447). -/
def State.sectionBytes (s : State) (m : TMap) : List Byte :=
  bytesOf m.id 2 ++ bytesOf (4 * (m.entries.headD []).length) 2 ++ bytesOf m.entries.length 4 ++ bytesOf 0 8 ++
    (m.entries.map fun e => (e.map fun f => bytesOf (s.entryValue f) 4).flatten).flatten
/-- The bytes of a snapshot that began at a tick (R447). -/
def State.snapshot (s : State) (start seq : Nat) : List Byte :=
  let body := (telemetryMaps.map s.sectionBytes).flatten
  let step := match (List.range Config.cores).find? fun c => s.flag (Reg.coreCtrl c) F.coreCtrlEnable with
    | some c => (s.rd (Reg.coreStep c)).toNat
    | none => 0
  let head := bytesOf 0x7E1E0001 4 ++ bytesOf seq 4 ++ bytesOf start 8 ++ bytesOf s.tcNat 8 ++ bytesOf s.inc 4 ++ bytesOf s.pkg 1 ++ bytesOf (devNum s.dev) 1 ++
    bytesOf telemetryMaps.length 2 ++ bytesOf step 8 ++ bytesOf (64 + body.length) 4 ++ bytesOf 0 16
  head ++ bytesOf (crc32c (head ++ body)) 4 ++ body
/-- TELEMETRY_SNAPSHOT: at every multiple of 10,000,000 ticks in LOAD, JOIN, RUN and HOLD (R446). -/
def execTelemetrySnapshot (t : At) (s : State) : Result :=
  let s := s.at t
  .next (if (s.dev = .load ∨ s.dev = .join ∨ s.dev = .run ∨ s.dev = .hold) ∧ s.tcNat % 10000000 = 0 ∧ s.onyx.snap = none then
      { s with onyx := { s.onyx with snap := some s.tcNat } }.putB Reg.onxTelemStatus F.onxTelemStatusBusy true
    else s)
/-- SNAPSHOT_COMPLETE: the half that does not hold the latest snapshot takes this one (R448). -/
def execSnapshotComplete (t : At) (s : State) : Result :=
  let s := s.at t
  if s.dead then .next s else
  match s.onyx.snap with
  | none => .next s
  | some t0 =>
    let a := Reg.onxTelemStatus
    let half := 1 - s.fld a F.onxTelemStatusLatestHalf
    let seq := (s.fld a F.onxTelemStatusSequence + 1) % 2 ^ 32
    let b := s.snapshot t0 seq
    let prev := ((telemetryMaps.map fun m => (m.entries.map fun e => e.map fun f => (f.key, s.fld f.addr f.fld)).flatten).flatten).filter fun x => decide (x.2 ≠ 0)
    let o := { s.onyx with snap := none, prev := prev }
    let s := { s with onyx := if half = 0 then { o with half0 := b } else { o with half1 := b } }
    .next (((s.putF a F.onxTelemStatusSequence seq).putF a F.onxTelemStatusLatestHalf half).putB a F.onxTelemStatusBusy false)

end Sys2Proof.Machine
end

