-- ==== Sys2Proof/Machine/Dispatch.lean ====
section
/-! DEFINITION. One arm per command. -/

namespace Sys2Proof.Machine

/-- The meaning of every command: its effect on everything but the queue. -/
def exec (i : Instr) (s : State) : Host.Outcome State Fault Refusal :=
  match i with
  | .powerOn t => Sys2Proof.Machine.execPowerOn t s
  | .powerRemoval t => Sys2Proof.Machine.execPowerRemoval t s
  | .resetNAssert t => Sys2Proof.Machine.execResetNAssert t s
  | .resetNRelease t straps sight => Sys2Proof.Machine.execResetNRelease t straps sight s
  | .bringupEntry t => Sys2Proof.Machine.execBringupEntry t s
  | .coldCalibration t tile items => Sys2Proof.Machine.execColdCalibration t tile items s
  | .hbmInitialization t k => Sys2Proof.Machine.execHbmInitialization t k s
  | .disciplineTimeout t => Sys2Proof.Machine.execDisciplineTimeout t s
  | .d2dTraining t tower g sight => Sys2Proof.Machine.execD2dTraining t tower g sight s
  | .trainingStepTimeout t tower g step => Sys2Proof.Machine.execTrainingStepTimeout t tower g step s
  | .capabilityWordFixed t => Sys2Proof.Machine.execCapabilityWordFixed t s
  | .bondTest t tower failing => Sys2Proof.Machine.execBondTest t tower failing s
  | .laserCheck t sight measured => Sys2Proof.Machine.execLaserCheck t sight measured s
  | .ringAcquisition t ring sight => Sys2Proof.Machine.execRingAcquisition t ring sight s
  | .marginTest t link found locked raised => Sys2Proof.Machine.execMarginTest t link found locked raised s
  | .keptSetPeriodicWrite t tile => Sys2Proof.Machine.execKeptSetPeriodicWrite t tile s
  | .trainingBeacon t => Sys2Proof.Machine.execTrainingBeacon t s
  | .fibreTraining t x delay farPkg farFibre => Sys2Proof.Machine.execFibreTraining t x delay farPkg farFibre s
  | .loadEntry t badBlocks => Sys2Proof.Machine.execLoadEntry t badBlocks s
  | .joinEntry t => Sys2Proof.Machine.execJoinEntry t s
  | .joinMessageSend t => Sys2Proof.Machine.execJoinMessageSend t s
  | .joinMessage t digest proposal incarnation pkg => Sys2Proof.Machine.execJoinMessage t digest proposal incarnation pkg s
  | .joinTimeout t => Sys2Proof.Machine.execJoinTimeout t s
  | .runEntry t => Sys2Proof.Machine.execRunEntry t s
  | .bundleFetch t core found => Sys2Proof.Machine.execBundleFetch t core found s
  | .sampleSend t core => Sys2Proof.Machine.execSampleSend t core s
  | .nop t g slot => Sys2Proof.Machine.execNop t g slot s
  | .add t g d a b => Sys2Proof.Machine.execAdd t g d a b s
  | .sub t g d a b => Sys2Proof.Machine.execSub t g d a b s
  | .and t g d a b => Sys2Proof.Machine.execAnd t g d a b s
  | .or t g d a b => Sys2Proof.Machine.execOr t g d a b s
  | .xor t g d a b => Sys2Proof.Machine.execXor t g d a b s
  | .shl t g d a b => Sys2Proof.Machine.execShl t g d a b s
  | .shr t g d a b => Sys2Proof.Machine.execShr t g d a b s
  | .sar t g d a b => Sys2Proof.Machine.execSar t g d a b s
  | .mul t g d a b => Sys2Proof.Machine.execMul t g d a b s
  | .min t g d a b => Sys2Proof.Machine.execMin t g d a b s
  | .max t g d a b => Sys2Proof.Machine.execMax t g d a b s
  | .addi t g d a imm => Sys2Proof.Machine.execAddi t g d a imm s
  | .andi t g d a imm => Sys2Proof.Machine.execAndi t g d a imm s
  | .ori t g d a imm => Sys2Proof.Machine.execOri t g d a imm s
  | .xori t g d a imm => Sys2Proof.Machine.execXori t g d a imm s
  | .shli t g d a imm => Sys2Proof.Machine.execShli t g d a imm s
  | .shri t g d a imm => Sys2Proof.Machine.execShri t g d a imm s
  | .sari t g d a imm => Sys2Proof.Machine.execSari t g d a imm s
  | .movi t g d imm => Sys2Proof.Machine.execMovi t g d imm s
  | .insl t g d q imm => Sys2Proof.Machine.execInsl t g d q imm s
  | .insh t g d q imm => Sys2Proof.Machine.execInsh t g d q imm s
  | .cmp t g pd cond a b => Sys2Proof.Machine.execCmp t g pd cond a b s
  | .cmpi t g pd cond a imm => Sys2Proof.Machine.execCmpi t g pd cond a imm s
  | .plog t g pd pa pb op => Sys2Proof.Machine.execPlog t g pd pa pb op s
  | .sld t g d a imm => Sys2Proof.Machine.execSld t g d a imm s
  | .sst t g d a imm => Sys2Proof.Machine.execSst t g d a imm s
  | .srd t g d sel => Sys2Proof.Machine.execSrd t g d sel s
  | .vsel t g d sel => Sys2Proof.Machine.execVsel t g d sel s
  | .capc t g a b => Sys2Proof.Machine.execCapc t g a b s
  | .br t core target => Sys2Proof.Machine.execBr t core target s
  | .bnz t core a target => Sys2Proof.Machine.execBnz t core a target s
  | .bz t core a target => Sys2Proof.Machine.execBz t core a target s
  | .jr t core a => Sys2Proof.Machine.execJr t core a s
  | .loop t core lv last a => Sys2Proof.Machine.execLoop t core lv last a s
  | .loopi t core lv last imm => Sys2Proof.Machine.execLoopi t core lv last imm s
  | .waitt t core a imm => Sys2Proof.Machine.execWaitt t core a imm s
  | .waittRelease t core => Sys2Proof.Machine.execWaittRelease t core s
  | .waitse t core mask n => Sys2Proof.Machine.execWaitse t core mask n s
  | .bar t core mode scope id => Sys2Proof.Machine.execBar t core mode scope id s
  | .barrierTreeRelease t tower id => Sys2Proof.Machine.execBarrierTreeRelease t tower id s
  | .barrierArrival t r p => Sys2Proof.Machine.execBarrierArrival t r p s
  | .packageBarrierRelease t tower id => Sys2Proof.Machine.execPackageBarrierRelease t tower id s
  | .fset t g f a => Sys2Proof.Machine.execFset t g f a s
  | .flagLand t core => Sys2Proof.Machine.execFlagLand t core s
  | .fclr t g f => Sys2Proof.Machine.execFclr t g f s
  | .fwait t core f clr => Sys2Proof.Machine.execFwait t core f clr s
  | .ftest t g f pd => Sys2Proof.Machine.execFtest t g f pd s
  | .fence t core => Sys2Proof.Machine.execFence t core s
  | .latr t g a b => Sys2Proof.Machine.execLatr t g a b s
  | .step t core h => Sys2Proof.Machine.execStep t core h s
  | .halt t core => Sys2Proof.Machine.execHalt t core s
  | .mma t g pair acc init ah atHi bh kb => Sys2Proof.Machine.execMma t g pair acc init ah atHi bh kb s
  | .governorIssue t core => Sys2Proof.Machine.execGovernorIssue t core s
  | .arrayFoldWrite t core => Sys2Proof.Machine.execArrayFoldWrite t core s
  | .mmac t g pair acc init ah bh kb pd a => Sys2Proof.Machine.execMmac t g pair acc init ah bh kb pd a s
  | .checksumResult t core => Sys2Proof.Machine.execChecksumResult t core s
  | .accrd t g vd acc r row a => Sys2Proof.Machine.execAccrd t g vd acc r row a s
  | .accwr t g va acc r row a => Sys2Proof.Machine.execAccwr t g va acc r row a s
  | .accclr t g acc => Sys2Proof.Machine.execAccclr t g acc s
  | .vadd t g vd va vb half => Sys2Proof.Machine.execVadd t g vd va vb half s
  | .vsub t g vd va vb half => Sys2Proof.Machine.execVsub t g vd va vb half s
  | .vmul t g vd va vb half => Sys2Proof.Machine.execVmul t g vd va vb half s
  | .vfma t g vd va vb half => Sys2Proof.Machine.execVfma t g vd va vb half s
  | .vmin t g vd va vb half => Sys2Proof.Machine.execVmin t g vd va vb half s
  | .vmax t g vd va vb half => Sys2Proof.Machine.execVmax t g vd va vb half s
  | .vcmp t g vd va vb cond => Sys2Proof.Machine.execVcmp t g vd va vb cond s
  | .vselm t g vd va vb => Sys2Proof.Machine.execVselm t g vd va vb s
  | .vexp2 t g vd va => Sys2Proof.Machine.execVexp2 t g vd va s
  | .vlog2 t g vd va => Sys2Proof.Machine.execVlog2 t g vd va s
  | .vrcp t g vd va => Sys2Proof.Machine.execVrcp t g vd va s
  | .vrsq t g vd va => Sys2Proof.Machine.execVrsq t g vd va s
  | .vrsum t g vd va => Sys2Proof.Machine.execVrsum t g vd va s
  | .vrmax t g vd va => Sys2Proof.Machine.execVrmax t g vd va s
  | .vbcl t g vd va x => Sys2Proof.Machine.execVbcl t g vd va x s
  | .vbcs t g vd a => Sys2Proof.Machine.execVbcs t g vd a s
  | .vext t g d va x => Sys2Proof.Machine.execVext t g d va x s
  | .vpack t g vd va vb => Sys2Proof.Machine.execVpack t g vd va vb s
  | .vunpk t g vd va hi => Sys2Proof.Machine.execVunpk t g vd va hi s
  | .vld t g d a imm => Sys2Proof.Machine.execVld t g d a imm s
  | .vst t g d a imm => Sys2Proof.Machine.execVst t g d a imm s
  | .vdq t g vd k p => Sys2Proof.Machine.execVdq t g vd k p s
  | .vq t g vs k a dst sr ef p h => Sys2Proof.Machine.execVq t g vs k a dst sr ef p h s
  | .scopy t g e dk pl d a b => Sys2Proof.Machine.execScopy t g e dk pl d a b s
  | .stile t g e dst hi k kb pl => Sys2Proof.Machine.execStile t g e dst hi k kb pl s
  | .sflag t g e a => Sys2Proof.Machine.execSflag t g e a s
  | .sflagRelease t core e => Sys2Proof.Machine.execSflagRelease t core e s
  | .satom t g e op w d a b => Sys2Proof.Machine.execSatom t g e op w d a b s
  | .sinv t g e a => Sys2Proof.Machine.execSinv t g e a s
  | .smcast t g e c d a b => Sys2Proof.Machine.execSmcast t g e c d a b s
  | .recst t g e a b => Sys2Proof.Machine.execRecst t g e a b s
  | .recordForm t core => Sys2Proof.Machine.execRecordForm t core s
  | .recmg t g e d a b => Sys2Proof.Machine.execRecmg t g e d a b s
  | .descriptorStart t core e => Sys2Proof.Machine.execDescriptorStart t core e s
  | .tagAcquire t core e slot => Sys2Proof.Machine.execTagAcquire t core e slot s
  | .transferComplete t core e => Sys2Proof.Machine.execTransferComplete t core e s
  | .droopDetect t tower => Sys2Proof.Machine.execDroopDetect t tower s
  | .vaultPortGrant t core reqs withdraws upsets => Sys2Proof.Machine.execVaultPortGrant t core reqs withdraws upsets s
  | .mergedRead t core req => Sys2Proof.Machine.execMergedRead t core req s
  | .wormExit t core w headerBad => Sys2Proof.Machine.execWormExit t core w headerBad s
  | .wormTimeout t core e seq => Sys2Proof.Machine.execWormTimeout t core e seq s
  | .portBlockRewrite t tower p layer w plane => Sys2Proof.Machine.execPortBlockRewrite t tower p layer w plane s
  | .layerFlitCrc t tower crossing dead => Sys2Proof.Machine.execLayerFlitCrc t tower crossing dead s
  | .wirePairDisagree t tower again => Sys2Proof.Machine.execWirePairDisagree t tower again s
  | .ringService t ring photo ref trim => Sys2Proof.Machine.execRingService t ring photo ref trim s
  | .reacquireRetry t ring sight => Sys2Proof.Machine.execReacquireRetry t ring sight s
  | .flitReceive t link rx flit sight => Sys2Proof.Machine.execFlitReceive t link rx flit sight s
  | .linkControlSend t link => Sys2Proof.Machine.execLinkControlSend t link s
  | .linkControlReceive t link rx entries => Sys2Proof.Machine.execLinkControlReceive t link rx entries s
  | .ackTimeout t link silent => Sys2Proof.Machine.execAckTimeout t link silent s
  | .weightStep t src => Sys2Proof.Machine.execWeightStep t src s
  | .txArbGrant t r ready => Sys2Proof.Machine.execTxArbGrant t r ready s
  | .latrForward t tile cmd at_ => Sys2Proof.Machine.execLatrForward t tile cmd at_ s
  | .requestBoundary t tile => Sys2Proof.Machine.execRequestBoundary t tile s
  | .startBoundary t tile => Sys2Proof.Machine.execStartBoundary t tile s
  | .shiftersSettled t tile heard => Sys2Proof.Machine.execShiftersSettled t tile heard s
  | .laneReopen t tile relocked => Sys2Proof.Machine.execLaneReopen t tile relocked s
  | .laneLateRelock t lane => Sys2Proof.Machine.execLaneLateRelock t lane s
  | .laneFenceTimeout t lane => Sys2Proof.Machine.execLaneFenceTimeout t lane s
  | .frameReceive t lane e f => Sys2Proof.Machine.execFrameReceive t lane e f s
  | .d2dFrameReceive t tower g dir f => Sys2Proof.Machine.execD2dFrameReceive t tower g dir f s
  | .d2dReplayTimeout t tower g dir => Sys2Proof.Machine.execD2dReplayTimeout t tower g dir s
  | .d2dRetrain t tower g sight => Sys2Proof.Machine.execD2dRetrain t tower g sight s
  | .tileReset t tile => Sys2Proof.Machine.execTileReset t tile s
  | .syncEdge t => Sys2Proof.Machine.execSyncEdge t s
  | .timeMark t tower mark => Sys2Proof.Machine.execTimeMark t tower mark s
  | .todMessage t preamble flags nextSync check stopBit => Sys2Proof.Machine.execTodMessage t preamble flags nextSync check stopBit s
  | .refclkLoss t => Sys2Proof.Machine.execRefclkLoss t s
  | .flipCaratWrite t value => Sys2Proof.Machine.execFlipCaratWrite t value s
  | .routeFlip t => Sys2Proof.Machine.execRouteFlip t s
  | .bankLockEnd t => Sys2Proof.Machine.execBankLockEnd t s
  | .routeTableWrite t r b d value => Sys2Proof.Machine.execRouteTableWrite t r b d value s
  | .arbFreezeSet t arb => Sys2Proof.Machine.execArbFreezeSet t arb s
  | .arbFreezeClear t arb => Sys2Proof.Machine.execArbFreezeClear t arb s
  | .arbMapWrite t arb value => Sys2Proof.Machine.execArbMapWrite t arb value s
  | .arbMapApply t arb => Sys2Proof.Machine.execArbMapApply t arb s
  | .hbmChannelGrant t k c reqs withdraws upset => Sys2Proof.Machine.execHbmChannelGrant t k c reqs withdraws upset s
  | .hbmMerge t k c req => Sys2Proof.Machine.execHbmMerge t k c req s
  | .hbmRefresh t k c group => Sys2Proof.Machine.execHbmRefresh t k c group s
  | .hbmTempRead t k temp => Sys2Proof.Machine.execHbmTempRead t k temp s
  | .scrubRead t k upset => Sys2Proof.Machine.execScrubRead t k upset s
  | .load t r p => Sys2Proof.Machine.execLoad t r p s
  | .store t r p => Sys2Proof.Machine.execStore t r p s
  | .mstore t r p => Sys2Proof.Machine.execMstore t r p s
  | .inv t r p => Sys2Proof.Machine.execInv t r p s
  | .invh t r p => Sys2Proof.Machine.execInvh t r p s
  | .copyld t r p => Sys2Proof.Machine.execCopyld t r p s
  | .atomic t r p => Sys2Proof.Machine.execAtomic t r p s
  | .flagPacket t r p => Sys2Proof.Machine.execFlagPacket t r p s
  | .response t r p => Sys2Proof.Machine.execResponse t r p s
  | .attemptTimeout t r tag => Sys2Proof.Machine.execAttemptTimeout t r tag s
  | .tagRelease t r tag => Sys2Proof.Machine.execTagRelease t r tag s
  | .refetch t k e => Sys2Proof.Machine.execRefetch t k e s
  | .towerStepTreeComplete t tower => Sys2Proof.Machine.execTowerStepTreeComplete t tower s
  | .towerArrival t tower stamp => Sys2Proof.Machine.execTowerArrival t tower stamp s
  | .boundaryMessage t pkg stamp hold request d digest => Sys2Proof.Machine.execBoundaryMessage t pkg stamp hold request d digest s
  | .stepRelease t => Sys2Proof.Machine.execStepRelease t s
  | .stepTimeout t => Sys2Proof.Machine.execStepTimeout t s
  | .variantEvaluation t poisoned => Sys2Proof.Machine.execVariantEvaluation t poisoned s
  | .shardData t stream shard offset data incarnation => Sys2Proof.Machine.execShardData t stream shard offset data incarnation s
  | .ingestStoreIssue t stream shard tag => Sys2Proof.Machine.execIngestStoreIssue t stream shard tag s
  | .shardRetransmit t stream shard => Sys2Proof.Machine.execShardRetransmit t stream shard s
  | .shardAbandon t stream shard => Sys2Proof.Machine.execShardAbandon t stream shard s
  | .egressLoadIssue t e tag => Sys2Proof.Machine.execEgressLoadIssue t e tag s
  | .egrAck t e inst bytes incarnation => Sys2Proof.Machine.execEgrAck t e inst bytes incarnation s
  | .egressRetransmit t e => Sys2Proof.Machine.execEgressRetransmit t e s
  | .egressTimeout t e => Sys2Proof.Machine.execEgressTimeout t e s
  | .arpRequest t ip fromMac fromIp => Sys2Proof.Machine.execArpRequest t ip fromMac fromIp s
  | .neighbourSolicitation t target fromMac fromIp => Sys2Proof.Machine.execNeighbourSolicitation t target fromMac fromIp s
  | .echoRequest t v6 target fromIp body => Sys2Proof.Machine.execEchoRequest t v6 target fromIp body s
  | .frameDiscard t kind => Sys2Proof.Machine.execFrameDiscard t kind s
  | .read t number addr count => Sys2Proof.Machine.execRead t number addr count s
  | .write t req pairs => Sys2Proof.Machine.execWrite t req pairs s
  | .updBegin t req header eraseOk => Sys2Proof.Machine.execUpdBegin t req header eraseOk s
  | .updData t number session block offset data flashOk => Sys2Proof.Machine.execUpdData t number session block offset data flashOk s
  | .updEnd t req session => Sys2Proof.Machine.execUpdEnd t req session s
  | .updateFinish t flashOk => Sys2Proof.Machine.execUpdateFinish t flashOk s
  | .updAbandon t req session => Sys2Proof.Machine.execUpdAbandon t req session s
  | .restart t req flags => Sys2Proof.Machine.execRestart t req flags s
  | .quote t number nonce => Sys2Proof.Machine.execQuote t number nonce s
  | .logRecordWrite t code source args => Sys2Proof.Machine.execLogRecordWrite t code source args s
  | .logMergeFlush t code source => Sys2Proof.Machine.execLogMergeFlush t code source s
  | .persistentLogWrite t => Sys2Proof.Machine.execPersistentLogWrite t s
  | .watchdogExpiry t => Sys2Proof.Machine.execWatchdogExpiry t s
  | .housekeepingSlot t ch sample => Sys2Proof.Machine.execHousekeepingSlot t ch sample s
  | .laserFaultN t => Sys2Proof.Machine.execLaserFaultN t s
  | .unitEnable t u => Sys2Proof.Machine.execUnitEnable t u s
  | .unitDisable t u => Sys2Proof.Machine.execUnitDisable t u s
  | .unitTransitionEnd t u => Sys2Proof.Machine.execUnitTransitionEnd t u s
  | .ratioWrite t n value => Sys2Proof.Machine.execRatioWrite t n value s
  | .pmcCount t => Sys2Proof.Machine.execPmcCount t s
  | .pmcWindow t => Sys2Proof.Machine.execPmcWindow t s
  | .pmcFreeze t => Sys2Proof.Machine.execPmcFreeze t s
  | .pmcWindowEdge t => Sys2Proof.Machine.execPmcWindowEdge t s
  | .telemetrySnapshot t => Sys2Proof.Machine.execTelemetrySnapshot t s
  | .snapshotComplete t => Sys2Proof.Machine.execSnapshotComplete t s
  | .i3cPrivateWrite t bytes => Sys2Proof.Machine.execI3cPrivateWrite t bytes s
  | .i3cPrivateRead t count => Sys2Proof.Machine.execI3cPrivateRead t count s
  | .dynamicAddressAssign t assign => Sys2Proof.Machine.execDynamicAddressAssign t assign s
  | .jtagInstruction t tap => Sys2Proof.Machine.execJtagInstruction t tap s
  | .configWrite t addr size value => Sys2Proof.Machine.execConfigWrite t addr size value s
  | .syncMissed t => Sys2Proof.Machine.execSyncMissed t s
  | .wormHop t core port waiting credits headerBad => Sys2Proof.Machine.execWormHop t core port waiting credits headerBad s
  | .d2dFrameSend t tower g dir => Sys2Proof.Machine.execD2dFrameSend t tower g dir s
  | .laneFrameStart t lane e => Sys2Proof.Machine.execLaneFrameStart t lane e s
  | .hostPortLinkUp t up => Sys2Proof.Machine.execHostPortLinkUp t up s
  | .ratioChangeComplete t => Sys2Proof.Machine.execRatioChangeComplete t s
  | .qualityMeasurement t link k q => Sys2Proof.Machine.execQualityMeasurement t link k q s
  | .calibrationAdaptation t item target => Sys2Proof.Machine.execCalibrationAdaptation t item target s

end Sys2Proof.Machine
end

