-- ==== Sys2Proof/Safety.lean ====
section
/-! DEFINITION. The terms in which claims about a run are stated: when a core issues, what an instruction sends on its way, which
parts of the state a command leaves alone. -/

namespace Sys2Proof.Machine

/-! When a command acts. -/

/-- The core exists, the device acts at the moment, and the core issues in that cycle (R93, R97, R128). -/
abbrev Issuing (t : At) (c : Nat) (s : State) : Prop :=
  c < Config.cores ∧ (s.at t).dead = false ∧ (s.toCore t c).issues c t.cyc = true
/-- The core issues and the governing predicate enables the slot's instruction (R99, R130). -/
abbrev Enabled (t : At) (g : Gate) (s : State) : Prop := Issuing t g.core s ∧ (s.toCore t g.core).on g = true
/-- The core issues and the governing predicate disables the slot's instruction (R99, R130). -/
abbrev Disabled (t : At) (g : Gate) (s : State) : Prop := Issuing t g.core s ∧ (s.toCore t g.core).on g = false
/-- The device acts on a command at its moment (R13, R15, R430). -/
abbrev Awake (t : At) (s : State) : Prop := (s.at t).dead = false

/-! What a command changes. -/

/-- Two states agree on every byte of memory. -/
abbrev SameBytes (s u : State) : Prop := ∀ a, u.byte a = s.byte a
/-- Two states agree on every configuration register outside a list. -/
abbrev SameRegs (s u : State) (but : List Nat) : Prop := ∀ a, a ∉ but → u.rd a = s.rd a
/-- Nothing changes but the performance counters CORE_PMC0 to CORE_PMC7 of a core, and the moments at which their overflow bits were set (R9). -/
def Counts (s u : State) (c : Nat) : Prop :=
  u = { s with regs := u.regs, fresh := u.fresh } ∧ SameRegs s u ((List.range 8).map (Reg.corePmc c))
/-- One write is put on its way in a core, to land from cycle `due` on among the slot's writes of rank `pri`; beside it nothing changes
but the core's performance counters and the model's counter of free values. -/
def Sends (s u : State) (c due pri : Nat) (e : Eff) : Prop :=
  ∃ n first, Counts ({ s with freeCtr := n }.setCore c { s.core c with landing := landInto first ⟨due, pri, e⟩ (s.core c).landing }) u c
/-- Nothing changes but the record of one core, its performance counters and the listed registers, the moments at which W1C bits were set (R9)
and the model's counter of free values. -/
def OwnCore (s u : State) (c : Nat) (but : List Nat) : Prop :=
  u = { s with cores := u.cores, regs := u.regs, fresh := u.fresh, freeCtr := u.freeCtr } ∧ (∀ d, d ≠ c → u.core d = s.core d) ∧
    SameRegs s u ((List.range 8).map (Reg.corePmc c) ++ but)
/-- An enabled slot instruction answers a next state in which one write is on its way, `lat` cycles after its issue. -/
def Gives (t : At) (g : Gate) (s : State) (i : Instr) (lat pri : Nat) (e : State → Eff) : Prop :=
  ∃ u, exec i s = .next u ∧ Sends (s.toCore t g.core) u g.core (t.cyc + lat) pri (e (s.toCore t g.core))
/-- A target endpoint has sent an answer to a request on its way: over the floor network where the request came that way, else, where a response
to the origin has a route, in the response input of its transmitter (R24, R333, R339). -/
def Answers (s u : State) (r : Nat) (p a : Packet) : Prop :=
  (s.onFloor p = true → .floor { a with hopSrc := r, hopDst := originEp p } ∈ u.out) ∧
    (s.onFloor p = false → ∀ q, s.routedBack r a = some q → u.queue r 13 = packetInto (packetRank r 13) { q with hopSrc := r, reached := if (ringTower r).isSome then s.clk else s.now } (s.queue r 13))

/-- The canonical form of the data space and of its stored-code marks (R116, R117, R352): addresses rise strictly, and no entry says what an unlisted
address reads as. -/
abbrev State.canonical (s : State) : Prop := memWf s.mem = true ∧ Sparse.wf (fun _ => Mark.good) s.marks = true

end Sys2Proof.Machine
end

