-- ==== Sys2Proof/Certificates/Slice0/Obligations.lean ====
section
/-! DEFINITION. The statements for the provers. Each docstring names the rules of spec/ that its statement formalises; a number in parentheses after the word
assumption names an entry of the assumption log, whose choice is the model's own. -/

open Sys2Proof Sys2Proof.Machine

/-! The queue and the step. -/

/-- The model's step: a block takes its commands from a queue, first in, first out (assumptions 1 and 2). -/
def Obligations.StepRunsTheFrontCommand : Prop :=
  ∀ (c : Instr) (rest : List Instr) (s : State),
    step { s with pending := c :: rest } = exec c { s with pending := rest } ∧ step { s with pending := [] } = .next { s with pending := [] }

/-- The model's queue and clock (assumptions 1 and 2; R293): no command touches the queue of commands, and none turns the device's time back. -/
def Obligations.CommandsKeepTheQueueAndTheClock : Prop :=
  ∀ (i : Instr) (s u : State), exec i s = .next u → u.pending = s.pending ∧ s.now ≤ u.now

/-- R11, R13, R15, R17, R25, R480: a command completes exactly where every unit that it names exists; and a device without power takes note of power,
RESET_N and the laser's fault pin alone: any other command moves its clock and changes nothing. -/
def Obligations.WellFormedCommandsComplete : Prop :=
  (∀ (i : Instr) (s : State), (wellFormed i = true → ∃ u, exec i s = .next u) ∧ (wellFormed i = false → exec i s = .fault .noSuchUnit)) ∧
  ∀ (i : Instr) (s : State), s.dev = .off → wellFormed i = true →
    (∀ t, i ≠ .powerOn t) → (∀ t, i ≠ .powerRemoval t) → (∀ t, i ≠ .resetNAssert t) → (∀ t, i ≠ .laserFaultN t) →
    ∃ n k, s.now ≤ n ∧ exec i s = .next { s with now := n, clk := k }

/-- R12: a core's number holds its tower, layer, row and column; x grows eastward and y southward from the north-west core (0,0), as the mesh's links go;
the local index is the number's low byte. CORE_ID reads the number, and the core's windows lie where it says. -/
def Obligations.CoreNumbering : Prop :=
  ∀ (s : State) (t l y x c : Nat), t < 12 → l < 4 → y < 8 → x < 8 → c = 256 * t + 64 * l + 8 * y + x →
    c < Config.cores ∧ bits c 11 8 = t ∧ bits c 7 6 = l ∧ bits c 5 3 = y ∧ bits c 2 0 = x ∧ towerOf c = t ∧ layerOf c = l ∧ colOf c = 8 * y + x ∧
      localOf c = bits c 7 0 ∧ s.cfgRead (Reg.coreId c) = BitVec.ofNat 64 c ∧
      Reg.coreId c = 0x100000000 + t * 0x1000000 + localOf c * 0x10000 ∧ placeOf (0x020000000000 + c * 0x1000000) = .vault c 0 ∧
      neighbour c 2 = (if x = 7 then none else some (256 * t + 64 * l + 8 * y + (x + 1), 0)) ∧
      neighbour c 0 = (if x = 0 then none else some (256 * t + 64 * l + 8 * y + (x - 1), 2)) ∧
      neighbour c 1 = (if y = 7 then none else some (256 * t + 64 * l + 8 * (y + 1) + x, 3)) ∧
      neighbour c 3 = (if y = 0 then none else some (256 * t + 64 * l + 8 * (y - 1) + x, 1))

/-- The machine after reset: BOOT (R13, R421) with no command waiting, memory in canonical form with every byte at the value of one that nothing has
written (assumption 5), every register at its reset value but the port's IPv6 address (R454, over the fuses of assumption 3), no core, engine or
remote operation active. -/
def Obligations.ResetState : Prop :=
  State.reset.pending = [] ∧ State.reset.dev = .boot ∧ State.canonical State.reset ∧ (∀ a, State.reset.byte a = 0 ∧ State.reset.mark a = .good) ∧
    (∀ a, a ≠ Reg.hstIpv6 0 → a ≠ Reg.hstIpv6 1 → State.reset.rd a = resetWord a) ∧ State.reset.rd Reg.onxState = 1 ∧ (∀ c, State.reset.core c = {} ∧
    ∀ e, State.reset.engine c e = {}) ∧ (∀ r tag, State.reset.op r tag = none) ∧ State.reset.pins.laserEnN = true ∧ State.reset.pins.thermtripN = true

/-- R116, R117, R352: every step keeps the canonical form of the data space and of its stored-code marks (addresses rise strictly, and no entry says what
an unlisted address reads as), in every state that has it, whatever command stands in front. -/
def Obligations.MemoryStaysCanonical : Prop :=
 ∀ s u : State, State.canonical s → step s = .next u → State.canonical u

/-- R130 to R132, R138, R139, R152, R156, R157, R164, R166: a bundle's slots are read as they are encoded: a slot instruction without a reserved field
value is decoded from its own word, with every operand at every value. -/
def Obligations.SlotWordsRoundTrip : Prop :=
  ∀ (i : Instr) (t : At) (c w : Nat), reservedFree i = true →
    (encodeControl i = some (t, c, w) → w < 2 ^ 32 ∧ decodeControl t c w = some i) ∧ (encodeMatrix i = some (t, c, w) → w < 2 ^ 32 ∧ decodeMatrix t c w = some i) ∧
    (encodeVector i = some (t, c, w) → w < 2 ^ 32 ∧ decodeVector t c w = some i) ∧ (encodeStream i = some (t, c, w) → w < 2 ^ 32 ∧ decodeStream t c w = some i)

/-! The core. -/

/-- R99, R130: an instruction whose governing predicate disables it changes nothing; NOP changes nothing whether enabled or not. -/
def Obligations.DisabledInstructionsChangeNothing : Prop :=
  ∀ (t : At) (g : Gate) (s : State) (i : Instr), Disabled t g s →
    ((∃ d a b, i = .add t g d a b ∨ i = .sub t g d a b ∨ i = .and t g d a b ∨ i = .or t g d a b ∨ i = .xor t g d a b ∨ i = .shl t g d a b ∨
        i = .shr t g d a b ∨ i = .sar t g d a b ∨ i = .mul t g d a b ∨ i = .min t g d a b ∨ i = .max t g d a b) ∨
     (∃ d a imm, i = .addi t g d a imm ∨ i = .andi t g d a imm ∨ i = .ori t g d a imm ∨ i = .xori t g d a imm ∨ i = .shli t g d a imm ∨
        i = .shri t g d a imm ∨ i = .sari t g d a imm ∨ i = .sld t g d a imm ∨ i = .sst t g d a imm) ∨
     (∃ d q imm wide, i = .movi t g d wide ∨ i = .insl t g d q imm ∨ i = .insh t g d q imm) ∨
     (∃ p c a b imm, i = .cmp t g p c a b ∨ i = .cmpi t g p c a imm) ∨ (∃ p q r o, i = .plog t g p q r o) ∨
     (∃ d sel, i = .srd t g d sel ∨ i = .vsel t g d sel) ∨
     (∃ f a p, i = .fset t g f a ∨ i = .fclr t g f ∨ i = .ftest t g f p) ∨ (∃ a b, i = .latr t g a b) ∨ (∃ k, i = .nop t g k) ∨
     (∃ d a b h, i = .vadd t g d a b h ∨ i = .vsub t g d a b h ∨ i = .vmul t g d a b h ∨ i = .vfma t g d a b h ∨ i = .vmin t g d a b h ∨
        i = .vmax t g d a b h) ∨
     (∃ d a b c h, i = .vcmp t g d a b c ∨ i = .vselm t g d a b ∨ i = .vpack t g d a b ∨ i = .vunpk t g d a h ∨ i = .vbcl t g d a b) ∨
     (∃ d a, i = .vexp2 t g d a ∨ i = .vlog2 t g d a ∨ i = .vrcp t g d a ∨ i = .vrsq t g d a ∨ i = .vrsum t g d a ∨ i = .vrmax t g d a) ∨
     (∃ d r v x a imm, i = .vbcs t g d r ∨ i = .vext t g r v x ∨ i = .vld t g d a imm ∨ i = .vst t g d a imm)) →
    exec i s = .next (s.toCore t g.core)

/-- R98, R133: a register write on its way is seen from its cycle on and not before, the registers that it does not name and all of memory keep what they
hold, and s0 and p0 discard it (R99, R101). -/
def Obligations.ResultsLandInTheirCycle : Prop :=
  ∀ (s : State) (c cyc due pri : Nat) (e : Eff), c < Config.cores → (s.core c).array = none → (s.core c).landing = [⟨due, pri, e⟩] →
    (cyc < due → (s.toCycle c cyc).sreg c = s.sreg c ∧ (s.toCycle c cyc).preg c = s.preg c ∧ ((s.toCycle c cyc).core c).landing = (s.core c).landing) ∧
    (due ≤ cyc →
      (∀ d v, e = .setS d v → d < 32 →
        ((s.toCycle c cyc).core c).landing = [] ∧ (s.toCycle c cyc).sreg c d = (if d = 0 then 0 else v) ∧
        (∀ r, r < 32 → r ≠ d → (s.toCycle c cyc).sreg c r = s.sreg c r) ∧ SameBytes s (s.toCycle c cyc)) ∧
      (∀ p v, e = .setP p v → p < 8 →
        ((s.toCycle c cyc).core c).landing = [] ∧ (s.toCycle c cyc).preg c p = (p = 0 || v) ∧
        (∀ r, r < 8 → r ≠ p → (s.toCycle c cyc).preg c r = s.preg c r) ∧ (∀ r, r < 32 → (s.toCycle c cyc).sreg c r = s.sreg c r) ∧
        SameBytes s (s.toCycle c cyc)))

/-- R138, R139, R151: the value that each scalar instruction writes, one cycle after its issue (MUL three), from the registers of the issuing cycle;
immediates are signed in ADDI to XORI, MOVI and CMPI; CMP, CMPI, PLOG and FTEST write a predicate. SHLI, SHRI and SARI shift by imm12[5:0] (what
imm12[11:6] holds changes nothing: assumption 29); condition codes 6 and 7 are reserved encodings and do nothing (R132). -/
def Obligations.ScalarAndPredicateResults : Prop :=
  (∀ (t : At) (g : Gate) (d a b : BitVec 5) (s : State), Enabled t g s →
    Gives t g s (.add t g d a b) 1 3 (fun s => .setS d.toNat (s.sreg g.core a.toNat + s.sreg g.core b.toNat)) ∧
    Gives t g s (.sub t g d a b) 1 3 (fun s => .setS d.toNat (s.sreg g.core a.toNat - s.sreg g.core b.toNat)) ∧
    Gives t g s (.and t g d a b) 1 3 (fun s => .setS d.toNat (s.sreg g.core a.toNat &&& s.sreg g.core b.toNat)) ∧
    Gives t g s (.or t g d a b) 1 3 (fun s => .setS d.toNat (s.sreg g.core a.toNat ||| s.sreg g.core b.toNat)) ∧
    Gives t g s (.xor t g d a b) 1 3 (fun s => .setS d.toNat (s.sreg g.core a.toNat ^^^ s.sreg g.core b.toNat)) ∧
    Gives t g s (.shl t g d a b) 1 3 (fun s => .setS d.toNat (s.sreg g.core a.toNat <<< ((s.sreg g.core b.toNat).toNat % 64))) ∧
    Gives t g s (.shr t g d a b) 1 3 (fun s => .setS d.toNat (s.sreg g.core a.toNat >>> ((s.sreg g.core b.toNat).toNat % 64))) ∧
    Gives t g s (.sar t g d a b) 1 3
      (fun s => .setS d.toNat (BitVec.ofInt 64 ((s.sreg g.core a.toNat).toInt / 2 ^ ((s.sreg g.core b.toNat).toNat % 64)))) ∧
    Gives t g s (.mul t g d a b) 3 3
      (fun s => .setS d.toNat (BitVec.ofNat 64 ((s.sreg g.core a.toNat).toNat * (s.sreg g.core b.toNat).toNat))) ∧
    Gives t g s (.min t g d a b) 1 3
      (fun s => .setS d.toNat (BitVec.ofInt 64 (min (s.sreg g.core a.toNat).toInt (s.sreg g.core b.toNat).toInt))) ∧
    Gives t g s (.max t g d a b) 1 3
      (fun s => .setS d.toNat (BitVec.ofInt 64 (max (s.sreg g.core a.toNat).toInt (s.sreg g.core b.toNat).toInt)))) ∧
  (∀ (t : At) (g : Gate) (d a : BitVec 5) (imm : BitVec 12) (wide : BitVec 17) (q : Bool) (piece : BitVec 16) (sel : BitVec 8) (s : State),
    Enabled t g s →
    Gives t g s (.addi t g d a imm) 1 3 (fun s => .setS d.toNat (s.sreg g.core a.toNat + BitVec.ofInt 64 imm.toInt)) ∧
    Gives t g s (.andi t g d a imm) 1 3 (fun s => .setS d.toNat (s.sreg g.core a.toNat &&& BitVec.ofInt 64 imm.toInt)) ∧
    Gives t g s (.ori t g d a imm) 1 3 (fun s => .setS d.toNat (s.sreg g.core a.toNat ||| BitVec.ofInt 64 imm.toInt)) ∧
    Gives t g s (.xori t g d a imm) 1 3 (fun s => .setS d.toNat (s.sreg g.core a.toNat ^^^ BitVec.ofInt 64 imm.toInt)) ∧
    Gives t g s (.movi t g d wide) 1 3 (fun _ => .setS d.toNat (BitVec.ofInt 64 wide.toInt)) ∧
    Gives t g s (.shli t g d a imm) 1 3 (fun s => .setS d.toNat (s.sreg g.core a.toNat <<< (imm.toNat % 64))) ∧
    Gives t g s (.shri t g d a imm) 1 3 (fun s => .setS d.toNat (s.sreg g.core a.toNat >>> (imm.toNat % 64))) ∧
    Gives t g s (.sari t g d a imm) 1 3 (fun s => .setS d.toNat (BitVec.ofInt 64 ((s.sreg g.core a.toNat).toInt / 2 ^ (imm.toNat % 64)))) ∧
    (∃ v : Word, Gives t g s (.insl t g d q piece) 1 3 (fun _ => .setS d.toNat v) ∧
      ∀ j, j < 64 → v.getLsbD j = if 16 * b2n q ≤ j ∧ j < 16 * b2n q + 16 then piece.getLsbD (j - 16 * b2n q)
        else ((s.toCore t g.core).sreg g.core d.toNat).getLsbD j) ∧
    (∃ v : Word, Gives t g s (.insh t g d q piece) 1 3 (fun _ => .setS d.toNat v) ∧
      ∀ j, j < 64 → v.getLsbD j = if 16 * b2n q + 32 ≤ j ∧ j < 16 * b2n q + 48 then piece.getLsbD (j - (16 * b2n q + 32))
        else ((s.toCore t g.core).sreg g.core d.toNat).getLsbD j) ∧
    Gives t g s (.vsel t g d sel) 1 3
      (fun s => .setS d.toNat (BitVec.ofNat 64 ((s.rd (Reg.onxVarSel (sel.toNat / 16))).toNat / 2 ^ (4 * (sel.toNat % 16)) % 8)))) ∧
  (∀ (t : At) (g : Gate) (pd cond pa pb : BitVec 3) (a b : BitVec 5) (imm : BitVec 11) (op : BitVec 2) (f : BitVec 8) (s : State), Enabled t g s →
    (∀ holds : Word → Word → Bool,
      (cond = 0 ∧ holds = (fun x y => decide (x = y)) ∨ cond = 1 ∧ holds = (fun x y => decide (x ≠ y)) ∨
       cond = 2 ∧ holds = (fun x y => decide (x.toInt < y.toInt)) ∨ cond = 3 ∧ holds = (fun x y => decide (y.toInt ≤ x.toInt)) ∨
       cond = 4 ∧ holds = (fun x y => decide (x.toNat < y.toNat)) ∨ cond = 5 ∧ holds = (fun x y => decide (y.toNat ≤ x.toNat))) →
      Gives t g s (.cmp t g pd cond a b) 1 3 (fun s => .setP pd.toNat (holds (s.sreg g.core a.toNat) (s.sreg g.core b.toNat))) ∧
      Gives t g s (.cmpi t g pd cond a imm) 1 3 (fun s => .setP pd.toNat (holds (s.sreg g.core a.toNat) (BitVec.ofInt 64 imm.toInt)))) ∧
    (6 ≤ cond.toNat →
      exec (.cmp t g pd cond a b) s = .next (s.toCore t g.core) ∧ exec (.cmpi t g pd cond a imm) s = .next (s.toCore t g.core)) ∧
    (∀ f2 : Bool → Bool → Bool,
      (op = 0 ∧ f2 = and ∨ op = 1 ∧ f2 = or ∨ op = 2 ∧ f2 = xor ∨ op = 3 ∧ f2 = (fun x y => x && !y)) →
      Gives t g s (.plog t g pd pa pb op) 1 3 (fun s => .setP pd.toNat (f2 (s.preg g.core pa.toNat) (s.preg g.core pb.toNat)))) ∧
    Gives t g s (.ftest t g f pd) 1 3 (fun s => .setP pd.toNat (s.flagBit g.core f.toNat)))

/-- R98, R134, R138, R192: SLD writes the eight bytes at sa + 8 × imm12, mod 2^24, of the own vault seven cycles on, with 0 for a byte beyond the vault;
at a vault whose arbiter is frozen it waits, its register unwritten. SST sends the register that field d names to the vault four cycles on, the bytes
beyond the vault left out. Neither changes a byte of memory in its own cycle. -/
def Obligations.ScalarVaultAccess : Prop :=
  ∀ (t : At) (g : Gate) (d a : BitVec 5) (imm : BitVec 12) (s : State), Enabled t g s →
    ∃ (s1 : State) (off : Nat), s1 = s.toCore t g.core ∧ off = (s1.sreg g.core a.toNat + BitVec.ofInt 64 (8 * imm.toInt)).toNat % 2 ^ 24 ∧
    (∃ u v, exec (.sld t g d a imm) s = .next u ∧ SameBytes s1 u ∧
      v = natOf ((List.range 8).map fun i => if off + i < 0xA00000 then s1.byte (windowOf g.core + off + i) else 0) ∧
      (s1.frozen g.core = false ∨ 0xA00000 ≤ off →
        Sends (s1.ownRead g.core 12 off 8).2.2 u g.core (t.cyc + 7) 3 (.setS d.toNat (BitVec.ofNat 64 v))) ∧
      (s1.frozen g.core = true → off < 0xA00000 →
        OwnCore s1 u g.core [] ∧ u.core g.core = { s1.core g.core with waiting := (s1.core g.core).waiting ++ [.sld d.toNat off] })) ∧
    Gives t g s (.sst t g d a imm) 4 (s1.portPri g.core 12)
      (fun s => .vault off ((bytesOf (s.sreg g.core d.toNat).toNat 8).take (0xA00000 - off)) [])

/-- R10, R150, R174: the special values of SRD, and that reading an engine's status word clears its RC fields; where a transfer completes in the cycle of
the read, the read returns the word from before that completion, and what the completion records stands after the clear. -/
def Obligations.SpecialValues : Prop :=
  ∀ (t : At) (g : Gate) (d : BitVec 5) (sel : BitVec 8) (s s1 : State) (e : Nat), Enabled t g s → s1 = s.toCore t g.core → e < 4 →
    ∃ u v, exec (.srd t g d sel) s = .next u ∧ Sends (s1.specialRead g.core sel.toNat t.cyc) u g.core (t.cyc + 1) 3 (.setS d.toNat v) ∧
      (sel = 0x00 → v = s1.copyTc (g.core / 256)) ∧ (sel = 0x01 → v = s1.rd (Reg.coreStep g.core)) ∧
      (sel = 0x02 → v = s1.rd (Reg.coreSeed g.core)) ∧ (sel = 0x03 → v.toNat = (s1.pkg * 4096 + g.core) % 2 ^ 64) ∧
      (sel = 0x04 → v = s1.rd Reg.onxSchedBase) ∧
      (sel.toNat = 8 + e → (s1.engine g.core e).endCyc ≠ t.cyc + 1 →
        v.toNat = ((s1.engine g.core e).firstSeq * 2 ^ 32 + (s1.engine g.core e).bad * 2 ^ 16 + (s1.engine g.core e).firstStatus * 2 ^ 4 +
          (s1.engine g.core e).lastStatus) % 2 ^ 64 ∧
        u.engine g.core e = { s1.engine g.core e with firstSeq := 0, bad := 0, firstStatus := 0 }) ∧
      (sel.toNat = 8 + e → (s1.engine g.core e).endCyc = t.cyc + 1 → ∀ q b f l, (s1.engine g.core e).before = [q, b, f, l] →
        v.toNat = (q * 2 ^ 32 + b * 2 ^ 16 + f * 2 ^ 4 + l) % 2 ^ 64 ∧ (u.engine g.core e).lastStatus = (s1.engine g.core e).lastStatus ∧
        (u.engine g.core e).bad = (if (s1.engine g.core e).lastStatus = 0 then 0 else 1) ∧
        (u.engine g.core e).firstStatus = (s1.engine g.core e).lastStatus ∧
        ((s1.engine g.core e).lastStatus ≠ 0 → (u.engine g.core e).firstSeq = (s1.engine g.core e).endSeq)) ∧
      (sel.toNat = 12 + e → v.toNat = (s1.engine g.core e).completed % 2 ^ 32 ∧ u.engine g.core e = s1.engine g.core e) ∧
      (sel = 0x10 → v = s1.rd (Reg.coreLate g.core)) ∧
      ((5 ≤ sel.toNat ∧ sel.toNat < 8 ∨ 16 < sel.toNat) → v = 0)

/-- R138, R140, R141: a taken branch issues its target, an absolute bundle index, in the third cycle after it and closes every loop level whose body does
not contain the target: its count becomes 0. A level with count 0 is inactive: the sequencer passes its end. BNZ and BZ take the branch by the
register, JR goes to bits [13:0] of the register. LOOP and LOOPI open a level at the next bundle index with its end and its count; LOOP with a count
of 0 closes the level and goes on after its end; an immediate of 0 means 64. NOP does nothing. -/
def Obligations.BranchesLoopsAndNop : Prop :=
  (∀ (t : At) (c : Nat) (target : BitVec 14) (a : BitVec 5) (s s1 : State), Issuing t c s → s1 = s.toCore t c →
    ∀ took : Nat → State → Prop,
      took = (fun n u => OwnCore s1 u c ((List.range 4).map (Reg.coreLoopCount c)) ∧ (u.core c).npc = n ∧ (u.core c).ready = t.cyc + 3 ∧
        ∀ j, j < 4 → u.loopCount c j =
          if s1.fld (Reg.coreLoopStart c j) F.coreLoopStartStart ≤ n ∧ n ≤ s1.fld (Reg.coreLoopEnd c j) F.coreLoopEndEnd then s1.loopCount c j else 0) →
      (∃ u, exec (.br t c target) s = .next u ∧ took target.toNat u) ∧
      (∃ u, exec (.bnz t c a target) s = .next u ∧ (s1.sreg c a.toNat ≠ 0 → took target.toNat u) ∧ (s1.sreg c a.toNat = 0 → Counts s1 u c)) ∧
      (∃ u, exec (.bz t c a target) s = .next u ∧ (s1.sreg c a.toNat = 0 → took target.toNat u) ∧ (s1.sreg c a.toNat ≠ 0 → Counts s1 u c)) ∧
      (∃ u, exec (.jr t c a) s = .next u ∧ took ((s1.sreg c a.toNat).toNat % 2 ^ 14) u)) ∧
  (∀ (t : At) (c : Nat) (lv : BitVec 2) (last : BitVec 14) (a : BitVec 5) (imm : BitVec 6) (s s1 : State), Issuing t c s → s1 = s.toCore t c →
    ∀ opened : Nat → State → Prop,
      opened = (fun n u =>
        OwnCore s1 u c [Reg.coreLoopStart c lv.toNat, Reg.coreLoopEnd c lv.toNat, Reg.coreLoopCount c lv.toNat] ∧
        u.fld (Reg.coreLoopStart c lv.toNat) F.coreLoopStartStart = (s1.fld (Reg.coreStatus c) F.coreStatusPc + 1) % 2 ^ 14 ∧
        u.fld (Reg.coreLoopEnd c lv.toNat) F.coreLoopEndEnd = last.toNat ∧ u.loopCount c lv.toNat = n) →
      (∃ u, exec (.loop t c lv last a) s = .next u ∧
        ((s1.sreg c a.toNat).toNat % 2 ^ 32 ≠ 0 → opened ((s1.sreg c a.toNat).toNat % 2 ^ 32) u) ∧
        ((s1.sreg c a.toNat).toNat % 2 ^ 32 = 0 →
          u.loopCount c lv.toNat = 0 ∧ (u.core c).npc = (last.toNat + 1) % 2 ^ 14 ∧ (u.core c).ready = t.cyc + 3 ∧
          OwnCore s1 u c ((List.range 4).map (Reg.coreLoopCount c)))) ∧
      (∃ u, exec (.loopi t c lv last imm) s = .next u ∧ opened (if imm = 0 then 64 else imm.toNat) u)) ∧
  ((∀ (s : State) (c pc : Nat), (∀ j, j < 4 → s.loopCount c j = 0) →
    s.loopEnd c pc [3, 2, 1, 0] = s.modCore c fun k => { k with npc := (pc + 1) % 16384 })) ∧
  ((∀ (t : At) (g : Gate) (k : Slot) (s : State), Issuing t g.core s → exec (.nop t g k) s = .next (s.toCore t g.core)))

/-- R124, R143: WAITT whose target the valid local copy has reached is late: it counts in CORE_LATE, holds nothing and only raises the largest lateness;
before that it waits, and WAITT_RELEASE ends the wait once the copy has reached the target, not earlier, and never while the copy is invalid (R285).
R144, R146, R147, R488: WAITSE, which covers the descriptors issued before it, FWAIT and FENCE go on at once where what they wait for holds, FWAIT
clearing its flag if told to, and hold the next bundle otherwise. -/
def Obligations.Waits : Prop :=
  ((∀ (t : At) (c : Nat) (a : BitVec 5) (imm : BitVec 17) (s s1 : State) (target now : Word), Issuing t c s → s1 = s.toCore t c →
    target = s1.sreg c a.toNat + BitVec.ofNat 64 imm.toNat → now = s1.copyTc (c / 256) →
    ∃ u, exec (.waitt t c a imm) s = .next u ∧
      ((s1.tower (c / 256)).copyValid = true ∧ target.toNat ≤ now.toNat →
        OwnCore s1 u c [Reg.coreLate c] ∧ (u.core c).wait = (s1.core c).wait ∧
        u.fld (Reg.coreLate c) F.coreLateLateCount = min (2 ^ 32 - 1) (s1.fld (Reg.coreLate c) F.coreLateLateCount + 1) ∧
        u.fld (Reg.coreLate c) F.coreLateLateMax =
          max (s1.fld (Reg.coreLate c) F.coreLateLateMax) (min (2 ^ 32 - 1) (now.toNat - target.toNat))) ∧
      (¬ ((s1.tower (c / 256)).copyValid = true ∧ target.toNat ≤ now.toNat) →
        OwnCore s1 u c [] ∧ (u.core c).wait = .time target false)) ∧
  (∀ (t : At) (c : Nat) (s s1 : State) (target : Word) (entry : Bool), c < 3072 → Awake t s → s1 = s.toCore t c → s1.dev = .run →
    (s1.core c).wait = .time target entry →
    ∃ u, exec (.waittRelease t c) s = .next u ∧ OwnCore s1 u c [] ∧
      ((s1.tower (c / 256)).copyValid = true ∧ target.toNat ≤ (s1.copyTc (c / 256)).toNat →
        (u.core c).wait = .none ∧ (u.core c).ready = max (s1.core c).ready t.cyc) ∧
      (¬ ((s1.tower (c / 256)).copyValid = true ∧ target.toNat ≤ (s1.copyTc (c / 256)).toNat) → u = s1))) ∧
  (∀ (t : At) (c : Nat) (mask : BitVec 4) (n : BitVec 2) (f : BitVec 8) (clr : Bool) (s s1 : State), Issuing t c s → s1 = s.toCore t c →
    (∃ u issued, issued = (List.range 4).map (fun e => (s1.engine c e).issued) ∧ exec (.waitse t c mask n) s = .next u ∧
      ∀ few : Prop, few = (∀ e, e < 4 → mask.getLsbD e = true → ((s1.engine c e).queue.filter fun x => decide (x.seq < issued.getD e 0)).length ≤ n.toNat) →
      (few → Counts s1 u c) ∧ (¬ few → OwnCore s1 u c [] ∧ (u.core c).wait = .engines mask.toNat n.toNat issued)) ∧
    (∃ u, exec (.fwait t c f clr) s = .next u ∧
      (s1.flagBit c f.toNat = false → OwnCore s1 u c [] ∧ (u.core c).wait = .flag f.toNat clr) ∧
      (s1.flagBit c f.toNat = true → (u.core c).wait = (s1.core c).wait ∧ u.flagBit c f.toNat = !clr ∧
        OwnCore s1 u c [Reg.twrFlags (c / 256) (c % 256) (f.toNat / 64)])) ∧
    (∃ u issued, issued = (List.range 4).map (fun e => (s1.engine c e).issued) ∧ exec (.fence t c) s = .next u ∧
      (s1.fenceClear c issued = true → Counts s1 u c) ∧
      (s1.fenceClear c issued = false → OwnCore s1 u c [] ∧ (u.core c).wait = .fence issued)))

/-- R145, R196, R197: BAR of a member arrives, waits or both by its mode; a core that is no member only leaves a log record; the reserved mode and scope
do nothing (R132); with the last arrival of a phase the tree completes 20 cycles on. R196, R197, R198, R311: from that cycle a tower phase is
released, and a package or rack phase is stamped with its tower's time, a rack phase's arrival sent to E0. A package phase is released 160 ticks after
the latest stamp of its member towers, a rack phase w_rack ticks after the latest stamp of the job's packages: the phase number goes up, the count
returns to 0, and the waiting members go on. A package barrier's stamp is kept where it arrives. -/
def Obligations.Barriers : Prop :=
  (∀ (t : At) (c : Nat) (mode scope : BitVec 2) (id : BitVec 4) (s s1 : State) (tr : Tree), Issuing t c s → s1 = s.toCore t c →
    tr = s1.tree (c / 256) id.toNat →
    ∃ u, exec (.bar t c mode scope id) s = .next u ∧ SameBytes s1 u ∧
      (mode = 3 ∨ scope = 3 → u = s1) ∧
      (mode ≠ 3 → scope ≠ 3 → c % 256 ∉ s1.members (c / 256) id.toNat → u.trees = s1.trees ∧ u.cores = s1.cores) ∧
      (mode = 2 → scope ≠ 3 → c % 256 ∈ s1.members (c / 256) id.toNat →
        u.trees = s1.trees ∧ OwnCore s1 u c [] ∧
        (u.core c).wait = if assoc (s1.core c).arrivals id.toNat = tr.phase + 1 then .barrier id.toNat tr.phase else (s1.core c).wait) ∧
      (mode.toNat < 2 → scope ≠ 3 → c % 256 ∈ s1.members (c / 256) id.toNat → assoc (s1.core c).arrivals id.toNat ≠ tr.phase + 1 →
        (u.tree (c / 256) id.toNat).arrived = c % 256 :: tr.arrived ∧ (u.tree (c / 256) id.toNat).phase = tr.phase ∧
        assoc (u.core c).arrivals id.toNat = tr.phase + 1 ∧
        (u.core c).wait = (if mode = 0 then .barrier id.toNat tr.phase else (s1.core c).wait) ∧
        (u.tree (c / 256) id.toNat).scope = (if tr.arrived = [] then scope.toNat else tr.scope) ∧
        (tr.due = none → tr.sent = false →
          (∀ m ∈ s1.members (c / 256) id.toNat, m = c % 256 ∨ m ∈ tr.arrived) →
          (u.tree (c / 256) id.toNat).due = some (t.cyc + 20))) ∧
      (mode.toNat < 2 → scope ≠ 3 → c % 256 ∈ s1.members (c / 256) id.toNat → assoc (s1.core c).arrivals id.toNat = tr.phase + 1 →
        (u.tree (c / 256) id.toNat).later = tr.later ++ [(c % 256, 4 * scope.toNat + mode.toNat)] ∧
        (u.core c).wait = .barrier id.toNat tr.phase)) ∧
  ((∀ (t : At) (tower : Nat) (id : BitVec 4) (s s1 : State) (tr : Tree), tower < 12 → Awake t s → s1 = s.at t → tr = s1.tree tower id.toNat →
    tr.later = [] →
    ∀ released : State → Prop,
      released = (fun u => u.tree tower id.toNat = { phase := tr.phase + 1 } ∧ SameBytes s1 u ∧
        (∀ c, c / 256 = tower → (s1.core c).wait = .barrier id.toNat tr.phase →
          (u.core c).wait = .none ∧ (u.core c).ready = max (s1.core c).ready t.cyc) ∧
        (∀ c, c / 256 ≠ tower → u.core c = s1.core c)) →
      (∀ d, tr.due = some d → d ≤ t.cyc → tr.scope = 0 → ∃ u, exec (.barrierTreeRelease t tower id) s = .next u ∧ released u) ∧
      (∀ d, tr.due = some d → d ≤ t.cyc → tr.scope ≠ 0 → ∃ u, exec (.barrierTreeRelease t tower id) s = .next u ∧ SameBytes s1 u ∧ u.cores = s1.cores ∧
        (∃ st, u.tree tower id.toNat = { tr with due := none, sent := true, stamps := st } ∧
          (tr.scope = 1 → assoc st tower = (s1.copyTc tower).toNat + 1) ∧ (tr.scope ≠ 1 → st = tr.stamps)) ∧
        (tr.scope ≠ 1 → ∃ p, u.queue (towerRing tower) 15 = packetInto (packetRank (towerRing tower) 15) p (s1.queue (towerRing tower) 15) ∧ p.cls = 0xA ∧ p.hopDst = 0 ∧ p.aux = s1.copyTc tower)) ∧
      (tr.due = none ∨ (∃ d, tr.due = some d ∧ t.cyc < d) → exec (.barrierTreeRelease t tower id) s = .next s1) ∧
      (tr.sent = true → tr.scope = 1 →
        (∀ v ∈ s1.memberTowers id.toNat, assoc tr.stamps v ≠ 0 ∧ assoc tr.stamps v - 1 + 160 ≤ (s1.copyTc tower).toNat) →
        160 ≤ (s1.copyTc tower).toNat → ∃ u, exec (.packageBarrierRelease t tower id) s = .next u ∧ released u) ∧
      (tr.sent = true → tr.scope ≠ 1 →
        (∀ k, k = s1.pkg ∨ k ∈ s1.others → assoc tr.stamps (64 + k) ≠ 0 ∧
          assoc tr.stamps (64 + k) - 1 + s1.fld Reg.onxSchedCfg F.onxSchedCfgWRack ≤ (s1.copyTc tower).toNat) →
        ∃ u, exec (.packageBarrierRelease t tower id) s = .next u ∧ released u)) ∧
  (∀ (t : At) (r tower : Nat) (p : Packet) (s : State), r < 21 → Awake t s → ringTower r = some tower → p.cls = 0xA →
    ∃ u, exec (.barrierArrival t r p) s = .next u ∧ u = { s.at t with trees := u.trees } ∧
      assoc (u.tree tower (p.op % 16)).stamps (if bit p.op 4 then 64 + p.originPkg else (ringTower p.hopSrc).getD 0) = p.aux.toNat + 1))

/-- R146, R199: FSET toward the own tower enters the target's flag network 16 cycles on; one set lands in a cycle: of those that have arrived, the
earliest and among these the highest source; FCLR and a landing write one flag and no other register. -/
def Obligations.Flags : Prop :=
  (∀ (t : At) (g : Gate) (f : BitVec 8) (a : BitVec 5) (s s1 : State) (target : Nat), Enabled t g s → s1 = s.toCore t g.core →
    target = (s1.sreg g.core a.toNat).toNat / 256 % 4096 →
    (∃ u, exec (.fset t g f a) s = .next u ∧ SameBytes s1 u ∧
      ((s1.sreg g.core a.toNat).toNat / 2 ^ 20 % 64 = s1.pkg → target / 256 = g.core / 256 →
        (u.core target).flagsIn = (s1.core target).flagsIn ++ [{ at_ := t.cyc + 16, src := g.core, flag := f.toNat }] ∧
        u = { s1 with cores := u.cores, regs := u.regs, fresh := u.fresh } ∧ SameRegs s1 u ((List.range 8).map (Reg.corePmc g.core)))) ∧
    (∃ u, exec (.fclr t g f) s = .next u ∧ u.flagBit g.core f.toNat = false ∧
      OwnCore s1 u g.core [Reg.twrFlags (g.core / 256) (g.core % 256) (f.toNat / 64)])) ∧
  (∀ (t : At) (c : Nat) (s s1 : State) (x : FlagSet), c < 3072 → Awake t s → s1 = s.toCore t c → nextSet t.cyc (s1.core c).flagsIn = some x →
    (s1.core c).flagAt ≤ t.cyc → x.flag < 256 → (∀ y ∈ (s1.core c).clears, y.1 ≠ x.flag) →
    ∃ u, exec (.flagLand t c) s = .next u ∧ SameBytes s1 u ∧ (∀ d, d ≠ c → u.core d = s1.core d) ∧
      (x.answer = none → OwnCore s1 u c [Reg.twrFlags (c / 256) (c % 256) (x.flag / 64)]) ∧
      (∀ r p q, x.answer = some (r, p) → (ringTower r).isSome = true → s1.routedBack r p = some q →
        u.queue r 13 = packetInto (packetRank r 13) { q with hopSrc := r, reached := t.cyc } (s1.queue r 13)) ∧ (u.core c).flagAt = t.cyc + 1 ∧
      (u.core c).flagsIn = (s1.core c).flagsIn.erase x ∧ x.at_ ≤ t.cyc ∧
      (∀ y ∈ (s1.core c).flagsIn, y.at_ ≤ t.cyc → x.at_ < y.at_ ∨ x.at_ = y.at_ ∧ y.src ≤ x.src) ∧
      ((∀ clr, (s1.core c).wait ≠ .flag x.flag clr) → u.flagBit c x.flag = true ∧ (u.core c).wait = (s1.core c).wait) ∧
      (∀ clr, (s1.core c).wait = .flag x.flag clr → (u.core c).wait = .none ∧ (clr = false → u.flagBit c x.flag = true)))

/-- R148, R149, R151, R319, R321: CAPC reports its two counts, LATR puts its command out to the core's tile, STEP waits for the boundary and asks for HOLD
where it is told to, HALT ends the program; with the last job core of a tower the step tree completes 20 cycles on. -/
def Obligations.StepHaltLatticeAndCapacity : Prop :=
  ∀ (t : At) (g : Gate) (a b : BitVec 5) (h : Bool) (s s1 : State), Enabled t g s → s1 = s.toCore t g.core →
    ∀ others : Prop,
      others = (∀ d, d ∈ s1.jobCores (g.core / 256) → d ≠ g.core → (s1.core d).halted = true ∨ (s1.core d).stepped = true) →
      (∃ u, exec (.capc t g a b) s = .next u ∧ OwnCore s1 u g.core [] ∧
        ∃ gen, ⟨t.cyc + 1, 8, .report gen { capDrop := (s1.sreg g.core a.toNat).toNat % 2 ^ 32, capDef := (s1.sreg g.core b.toNat).toNat % 2 ^ 32 }⟩ ∈ (u.core g.core).landing) ∧
      (∃ u, exec (.latr t g a b) s = .next u ∧
        u.out = .latr (g.core / 256 / 3) (s1.sreg g.core b.toNat) (s1.sreg g.core a.toNat).toNat :: s1.out ∧
        Counts { s1 with out := u.out } u g.core) ∧
      (∃ u, exec (.step t g.core h) s = .next u ∧ SameBytes s1 u ∧ (u.core g.core).wait = .step ∧ (u.core g.core).stepped = true ∧
        (∀ d, d ≠ g.core → u.core d = s1.core d) ∧
        (h = true → 0 ∈ u.boundary.causes ∧ u.fld Reg.onxSchedStatus F.onxSchedStatusHoldRequested = 1) ∧
        ((s1.tower (g.core / 256)).stepDue = none → (s1.tower (g.core / 256)).stepSent = false → (s1.core g.core).halted = false → others →
          (u.tower (g.core / 256)).stepDue = some (t.cyc + 20))) ∧
      (∃ u, exec (.halt t g.core) s = .next u ∧ SameBytes s1 u ∧ (u.core g.core).halted = true ∧ (u.core g.core).wait = (s1.core g.core).wait ∧
        SameRegs s1 u ((List.range 8).map (Reg.corePmc g.core)) ∧ ∀ d, d ≠ g.core → u.core d = s1.core d)

/-- R103 to R106, R108, R153, R154, R203: MMA and MMAC take the array for K / 16 × 64 / rows cycles with the formats and rate of their pairing, where the
array is free and the column governor lets them, or has let their bundle (R176); a K above the largest sets CORE_FAULT.matrix_range and takes no
cycle; a busy array stalls; the governor keeps what it delays; a reserved pairing does nothing (R132). -/
def Obligations.MatrixIssue : Prop :=
  ∀ (t : At) (g : Gate) (pair : BitVec 4) (acc init ah hi bh : Bool) (kb : BitVec 6) (pd : BitVec 3) (a : BitVec 5) (s s1 : State)
    (blocks due : Nat), Enabled t g s → s1 = s.toCore t g.core → blocks = (if kb = 0 then 64 else kb.toNat) →
    due = (match (s1.core g.core).governed with | some x => x.due | none => t.cyc) →
    (∀ fa fb rows largest, (pair.toNat, fa, fb, rows, largest) ∈ [(0, Elem.f4, Elem.f4, 4, 1024), (1, .f3, .f3, 4, 1024), (2, .t2, .f4, 8, 1024),
        (3, .t2, .f8a, 4, 512), (4, .t2, .f8b, 4, 512), (5, .f8a, .f8a, 2, 512), (6, .f8a, .f8b, 2, 512), (7, .f8b, .f8a, 2, 512),
        (8, .f8b, .f8b, 2, 512), (9, .b16, .b16, 1, 256)] →
      ∃ u, exec (.mma t g pair acc init ah hi bh kb) s = .next u ∧ SameBytes s1 u ∧
        (largest < 16 * blocks → u.flag (Reg.coreFault g.core) F.coreFaultMatrixRange = true ∧ (u.core g.core).array = (s1.core g.core).array) ∧
        (16 * blocks ≤ largest → t.cyc < (s1.core g.core).arrayFree → (u.core g.core).array = (s1.core g.core).array ∧
          u.fld (Reg.coreStall g.core) F.coreStallCount = min (2 ^ 48 - 1) (s1.fld (Reg.coreStall g.core) F.coreStallCount + 1)) ∧
        (16 * blocks ≤ largest → (s1.core g.core).arrayFree ≤ t.cyc → s1.governorLets g.core (blocks * (64 / rows)) due = false →
          (s1.core g.core).bundle ≠ some t.cyc →
          (u.core g.core).wait = .governor ∧ (u.core g.core).array = (s1.core g.core).array ∧
          (u.core g.core).governed = some { due := due, instr := some (.mma t g pair acc init ah hi bh kb) }) ∧
        (16 * blocks ≤ largest → (s1.core g.core).arrayFree ≤ t.cyc → s1.governorLets g.core (blocks * (64 / rows)) due = true ∨ (s1.core g.core).bundle = some t.cyc →
          (u.core g.core).governed = none ∧ (u.core g.core).arrayFree = t.cyc + blocks * (64 / rows) ∧
          ∃ gen, (u.core g.core).array = some { cyc := t.cyc, fa := fa, fb := fb, acc := b2n acc, init := init, aHalf := 2 + b2n ah, aOff := (if hi then 0x8000 else 0), bHalf := 4 + b2n bh, blocks := blocks, rows := rows, gen := gen })) ∧
    (10 ≤ pair.toNat → exec (.mma t g pair acc init ah hi bh kb) s = .next s1) ∧
    (5 ≤ pair.toNat → exec (.mmac t g pair acc init ah bh kb pd a) s = .next s1) ∧
    (∀ fa fb, (pair.toNat, fa, fb) ∈ [(0, Elem.f4, Elem.f4), (1, .f3, .f3), (2, .t2, .f4), (3, .t2, .f8a), (4, .t2, .f8b)] →
      ∃ u, exec (.mmac t g pair acc init ah bh kb pd a) s = .next u ∧ SameBytes s1 u ∧
        (512 < 16 * blocks → u.flag (Reg.coreFault g.core) F.coreFaultMatrixRange = true) ∧
        (16 * blocks ≤ 512 → (s1.core g.core).arrayFree ≤ t.cyc → s1.governorLets g.core (blocks * 32) due = true ∨ (s1.core g.core).bundle = some t.cyc →
          (u.core g.core).arrayFree = t.cyc + blocks * 32 ∧
          ∃ gen, (u.core g.core).array = some { cyc := t.cyc, fa := fa, fb := fb, acc := b2n acc, init := init, aHalf := 2 + b2n ah, bHalf := 4 + b2n bh, blocks := blocks, rows := 2, gen := gen, cols := List.replicate 64 {}, check := some (pd.toNat, (s1.sreg g.core a.toNat).toNat % 2 ^ 32, (s1.sreg g.core a.toNat).toNat / 2 ^ 32) }))

/-- R126, R203: a matrix-array instruction that the column governor delayed issues once the governor lets it, and CORE_GOV counts the cycles of the delay.
R80, R106: a fold writes its accumulator row in its write cycle and no other row; a checksum instruction's result writes its predicate, true where a
checked column faults. -/
def Obligations.GovernedIssueAndArrayWrites : Prop :=
  (∀ (t t0 : At) (g : Gate) (acc init ah hi bh : Bool) (kb : BitVec 6) (s s1 : State) (blocks due : Nat),
    g.core < 3072 → Awake t s → s1 = s.toCore t g.core → (s1.core g.core).landing = [] → (s1.core g.core).array = none →
    (s1.core g.core).governed = some { due := due, instr := some (.mma t0 g 0 acc init ah hi bh kb) } →
    blocks = (if kb = 0 then 64 else kb.toNat) → (s1.core g.core).arrayFree ≤ t.cyc → s1.governorLets g.core (blocks * 16) due = true →
    (s1.setCore g.core { s1.core g.core with wait := .none }).issues g.core t.cyc = true →
    ∃ u, exec (.governorIssue t g.core) s = .next u ∧ SameBytes s1 u ∧ (u.core g.core).wait = .none ∧ (u.core g.core).governed = none ∧
      (u.core g.core).arrayFree = t.cyc + blocks * 16 ∧
      u.fld (Reg.coreGov g.core) F.coreGovCount = min (2 ^ 48 - 1) (s1.fld (Reg.coreGov g.core) F.coreGovCount + (t.cyc - due)) ∧
      ∃ o, (u.core g.core).array = some o ∧ o.cyc = t.cyc ∧ o.blocks = blocks ∧ o.fa = .f4 ∧ o.fb = .f4 ∧ o.rows = 4 ∧
        o.enabled = s1.on g ∧ o.acc = b2n acc) ∧
  (∀ (t : At) (c due : Nat) (s : State), c < 3072 → Awake t s → due ≤ t.cyc → (s.core c).array = none →
    (∀ a m row, (s.core c).landing = [⟨due, 2, .fold a m row⟩] → a < 2 → m < 64 → row.length = 64 →
      ∃ u, exec (.arrayFoldWrite t c) s = .next u ∧ (u.core c).landing = [] ∧ SameBytes s u ∧
        u.accRow c a m = (List.zipWith foldAcc (s.accRow c a m) row).map (· % 2 ^ 32) ∧
        (∀ b n, b < 2 → n < 64 → (b ≠ a ∨ n ≠ m) → u.accRow c b n = s.accRow c b n) ∧ (∀ r, r < 32 → u.sreg c r = s.sreg c r)) ∧
    (∀ pd gen cols alpha beta, (s.core c).landing = [⟨due, 2, .check pd gen cols alpha beta⟩] → pd < 8 →
      ∃ u, exec (.checksumResult t c) s = .next u ∧ (u.core c).landing = [] ∧ SameBytes s u ∧
        u.preg c pd = (pd = 0 || cols.any fun k => k.faults alpha beta) ∧ (∀ p, p < 8 → p ≠ pd → u.preg c p = s.preg c p)))

/-- R155, R107: ACCRD copies an accumulator row into a vector register and ACCWR a vector register into a row, two cycles on; ACCCLR sets every element of
the accumulator set to +0.0 in the next cycle. The row is the immediate, or bits [5:0] of sa with r set. -/
def Obligations.AccumulatorAccess : Prop :=
  (∀ (t : At) (g : Gate) (v : BitVec 6) (acc r : Bool) (row : BitVec 6) (a : BitVec 5) (s s1 : State) (m : Nat), Enabled t g s →
    s1 = s.toCore t g.core → m = (if r then (s1.sreg g.core a.toNat).toNat % 64 else row.toNat) →
    (∃ u, exec (.accrd t g v acc r row a) s = .next u ∧
      Sends (s1.reportTime g.core (t.cyc + 2)) u g.core (t.cyc + 2) 2 (.setV v.toNat (s1.accRow g.core (b2n acc) m))) ∧
    (∃ u, exec (.accwr t g v acc r row a) s = .next u ∧
      Sends (s1.reportTime g.core (t.cyc + 2)) u g.core (t.cyc + 2) 2 (.accRow (b2n acc) m (s1.vreg g.core v.toNat))) ∧
    (∃ u, exec (.accclr t g acc) s = .next u ∧ Sends (s1.reportTime g.core (t.cyc + 1)) u g.core (t.cyc + 1) 2 (.accClear (b2n acc)))) ∧
  (∀ (s : State) (c v acc m : Nat) (l : List Nat), c < Config.cores → v < 64 → acc < 2 → m < 64 → l.length = 64 → (∀ x ∈ l, x < 2 ^ 32) →
    ((s.apply c (.setV v l)).vreg c v = l ∧ SameRegs s (s.apply c (.setV v l)) ((List.range 32).map (Reg.coreV c v))) ∧
    ((s.apply c (.accRow acc m l)).accRow c acc m = l ∧ SameRegs s (s.apply c (.accRow acc m l)) ((List.range 32).map (Reg.coreAcc c acc m))) ∧
    (s.apply c (.accClear acc)).accRow c acc m = List.replicate 64 0 ∧
    ∀ b, b < 2 → b ≠ acc → (s.apply c (.accClear acc)).accRow c b m = s.accRow c b m)

/-- R156, R157, R161: the lane operations of the vector slot, four cycles on, with F32 lanes or B16 elements; VCMP codes above 3 are reserved. R158, R159,
R160: the elementary functions twelve cycles on, the reductions eight, broadcasts two, VEXT's scalar three. -/
def Obligations.VectorResults : Prop :=
  (∀ (t : At) (g : Gate) (vd va vb : BitVec 6) (half hi : Bool) (cond : BitVec 3) (s : State), Enabled t g s →
    ∀ lanes : (Fmt → Nat → Nat → Nat) → State → List Nat,
      lanes = (fun f s => if half then joinHalves (List.zipWith (f b16) (halves (s.vreg g.core va.toNat)) (halves (s.vreg g.core vb.toNat)))
        else List.zipWith (f f32) (s.vreg g.core va.toNat) (s.vreg g.core vb.toNat)) →
      Gives t g s (.vadd t g vd va vb half) 4 1 (fun s => .setV vd.toNat (lanes Fmt.add s)) ∧
      Gives t g s (.vsub t g vd va vb half) 4 1 (fun s => .setV vd.toNat (lanes Fmt.sub s)) ∧
      Gives t g s (.vmul t g vd va vb half) 4 1 (fun s => .setV vd.toNat (lanes Fmt.mul s)) ∧
      Gives t g s (.vmin t g vd va vb half) 4 1 (fun s => .setV vd.toNat (lanes Fmt.min s)) ∧
      Gives t g s (.vmax t g vd va vb half) 4 1 (fun s => .setV vd.toNat (lanes Fmt.max s)) ∧
      (half = false → Gives t g s (.vfma t g vd va vb half) 4 1 (fun s => .setV vd.toNat ((List.range 64).map fun i =>
        f32.fma ((s.vreg g.core va.toNat).getD i 0) ((s.vreg g.core vb.toNat).getD i 0) ((s.vreg g.core vd.toNat).getD i 0)))) ∧
      (half = true → Gives t g s (.vfma t g vd va vb half) 4 1 (fun s => .setV vd.toNat (joinHalves ((List.range 128).map fun i =>
        b16.fma ((halves (s.vreg g.core va.toNat)).getD i 0) ((halves (s.vreg g.core vb.toNat)).getD i 0) ((halves (s.vreg g.core vd.toNat)).getD i 0))))) ∧
      (cond.toNat < 4 → Gives t g s (.vcmp t g vd va vb cond) 4 1
        (fun s => .setV vd.toNat (List.zipWith (cmpLane cond.toNat) (s.vreg g.core va.toNat) (s.vreg g.core vb.toNat)))) ∧
      (4 ≤ cond.toNat → exec (.vcmp t g vd va vb cond) s = .next (s.toCore t g.core)) ∧
      Gives t g s (.vselm t g vd va vb) 4 1 (fun s => .setV vd.toNat ((List.range 64).map fun i =>
        selectLane ((s.vreg g.core vd.toNat).getD i 0) ((s.vreg g.core va.toNat).getD i 0) ((s.vreg g.core vb.toNat).getD i 0))) ∧
      Gives t g s (.vpack t g vd va vb) 4 1 (fun s => .setV vd.toNat ((List.range 64).map fun i =>
        f32ToB16 ((s.vreg g.core va.toNat).getD i 0) + 65536 * f32ToB16 ((s.vreg g.core vb.toNat).getD i 0))) ∧
      Gives t g s (.vunpk t g vd va hi) 4 1 (fun s => .setV vd.toNat ((List.range 64).map fun i =>
        b16ToF32 ((s.vreg g.core va.toNat).getD i 0 / (if hi then 65536 else 1) % 65536)))) ∧
  (∀ (t : At) (g : Gate) (vd va x : BitVec 6) (d a : BitVec 5) (s : State), Enabled t g s →
    Gives t g s (.vexp2 t g vd va) 12 1 (fun s => .setV vd.toNat ((s.vreg g.core va.toNat).map exp2)) ∧
    Gives t g s (.vlog2 t g vd va) 12 1 (fun s => .setV vd.toNat ((s.vreg g.core va.toNat).map log2F)) ∧
    Gives t g s (.vrcp t g vd va) 12 1 (fun s => .setV vd.toNat ((s.vreg g.core va.toNat).map recip)) ∧
    Gives t g s (.vrsq t g vd va) 12 1 (fun s => .setV vd.toNat ((s.vreg g.core va.toNat).map rsqrt)) ∧
    Gives t g s (.vrsum t g vd va) 8 1 (fun s => .setV vd.toNat (treeOf f32.add (s.vreg g.core va.toNat) :: List.replicate 63 0)) ∧
    Gives t g s (.vrmax t g vd va) 8 1 (fun s => .setV vd.toNat (treeOf f32.max (s.vreg g.core va.toNat) :: List.replicate 63 0)) ∧
    Gives t g s (.vbcl t g vd va x) 2 1 (fun s => .setV vd.toNat (List.replicate 64 ((s.vreg g.core va.toNat).getD x.toNat 0))) ∧
    Gives t g s (.vbcs t g vd a) 2 1 (fun s => .setV vd.toNat (List.replicate 64 ((s.sreg g.core a.toNat).toNat % 2 ^ 32))) ∧
    Gives t g s (.vext t g d va x) 3 1 (fun s => .setS d.toNat (BitVec.ofNat 64 ((s.vreg g.core va.toNat).getD x.toNat 0))))

/-- R49, R134, R156, R162, R192: VLD reads 256 bytes at the line that holds sa + 64 × imm11, seven cycles on; a lane of a poisoned word reads 0x7FFF_FFFF;
at a vault whose arbiter is frozen it waits. VST sends its 64 lanes to the vault four cycles on. Neither changes a byte of memory in its own cycle.
R38, R65, R163, R165, R192: VDQ of a narrow tensor dequantizes four blocks into a vector register nine cycles on, or waits at a frozen port, and with
p set its descriptor's data and scale bases advance; a tensor that is not narrow loads nothing, and k = 0 is reserved (R132). R57 to R64, R75, R112,
R164, R165: VQ quantizes its blocks into a vault or a buffer half, data and scales, ten cycles on, or seventeen with error feedback, which adds the
residuals at its base and writes the new ones there; it reports what it counted, and with p set advances its descriptor; a reserved encoding does
nothing (R132). -/
def Obligations.VectorVaultAccessAndFormats : Prop :=
  (∀ (t : At) (g : Gate) (d : BitVec 6) (a : BitVec 5) (imm : BitVec 11) (s s1 : State) (off : Nat), Enabled t g s → s1 = s.toCore t g.core →
    off = (s1.sreg g.core a.toNat + BitVec.ofInt 64 (64 * imm.toInt)).toNat % 2 ^ 24 / 64 * 64 →
    (∃ u lanes, exec (.vld t g d a imm) s = .next u ∧ lanes.length = 64 ∧ SameBytes s1 u ∧
      (s1.frozen g.core = false ∨ 0xA00000 ≤ off → Sends (s1.ownRead g.core 11 off 256).2.2 u g.core (t.cyc + 7) 1 (.setV d.toNat lanes)) ∧
      (s1.frozen g.core = true → off < 0xA00000 →
        OwnCore s1 u g.core [] ∧ u.core g.core = { s1.core g.core with waiting := (s1.core g.core).waiting ++ [.vld d.toNat off] }) ∧
      ∀ i, i < 64 → off + 4 * i < 0xA00000 →
        (s1.mark (windowOf g.core + (off + 4 * i) / 8 * 8) = .good ∨ s1.mark (windowOf g.core + (off + 4 * i) / 8 * 8) = .ce →
          lanes[i]? = some (natOf (s1.bytes (windowOf g.core + off + 4 * i) 4))) ∧
        (s1.mark (windowOf g.core + (off + 4 * i) / 8 * 8) = .ue ∨ s1.mark (windowOf g.core + (off + 4 * i) / 8 * 8) = .poison ∨
          s1.mark (windowOf g.core + (off + 4 * i) / 8 * 8) = .cePoison →
          lanes[i]? = some 0x7FFFFFFF)) ∧
    Gives t g s (.vst t g d a imm) 4 (s1.portPri g.core 11)
      (fun s => .vault off ((((s.vreg g.core d.toNat).map fun l => bytesOf l 4).flatten).take (0xA00000 - off)) [])) ∧
  (∀ (t : At) (g : Gate) (vd : BitVec 6) (k : BitVec 3) (p : Bool) (s s1 : State) (f : Elem), Enabled t g s → s1 = s.toCore t g.core →
    (k = 0 → exec (.vdq t g vd k p) s = .next s1) ∧
    (k ≠ 0 → (∀ x, Elem.ofCode (s1.tensor g.core k.toNat).fmt = some x → x.narrow = false) →
      ∃ u, exec (.vdq t g vd k p) s = .next u ∧ OwnCore s1 u g.core [] ∧ (u.core g.core).landing = (s1.core g.core).landing) ∧
    (k ≠ 0 → Elem.ofCode (s1.tensor g.core k.toNat).fmt = some f → f.narrow = true →
    ∃ u, exec (.vdq t g vd k p) s = .next u ∧ SameBytes s1 u ∧
      (s1.frozen g.core = true → (u.core g.core).waiting = (s1.core g.core).waiting ++ [.vdq vd.toNat (s1.tensor g.core k.toNat).fmt
        (s1.tensor g.core k.toNat).tscale ((s1.tensor g.core k.toNat).data % 2 ^ 24) ((s1.tensor g.core k.toNat).scale % 2 ^ 24)]) ∧
      (s1.frozen g.core = false → ⟨t.cyc + 9, 1, .setV vd.toNat (((s1.vaultBlocks g.core f ((s1.tensor g.core k.toNat).data % 2 ^ 24)
        ((s1.tensor g.core k.toNat).scale % 2 ^ 24) 4).1.map fun b => dequantize f (s1.tensor g.core k.toNat).tscale b).flatten)⟩ ∈ (u.core g.core).landing) ∧
      (p = true → ⟨t.cyc + 1, 1, .setS (4 * k.toNat) (addField (s1.sreg g.core (4 * k.toNat)) ⟨50, 0⟩ (4 * f.blockSize))⟩ ∈ (u.core g.core).landing ∧
        ⟨t.cyc + 1, 1, .setS (4 * k.toNat + 1) (addField (s1.sreg g.core (4 * k.toNat + 1)) ⟨50, 0⟩ 4)⟩ ∈ (u.core g.core).landing))) ∧
  (∀ (t : At) (g : Gate) (vs : BitVec 6) (k : BitVec 3) (a : BitVec 5) (dst : BitVec 3) (sr ef p h : Bool) (s s1 : State), Enabled t g s →
    s1 = s.toCore t g.core →
    (k = 0 ∨ dst = 1 ∨ dst = 6 ∨ dst = 7 ∨ ef = true ∧ a.toNat % 2 = 1 → exec (.vq t g vs k a dst sr ef p h) s = .next s1) ∧
    (∀ (f : Elem) (d : Tensor) (n lat base : Nat) (os : List BlockOut),
      k ≠ 0 → dst = 0 ∨ (2 ≤ dst.toNat ∧ dst.toNat ≤ 5) → (ef = true → a.toNat % 2 = 0 ∧ s1.frozen g.core = false) → d = s1.tensor g.core k.toNat → Elem.ofCode d.fmt = some f → f.narrow = true →
      n = (if h then 8 else 4) → lat = (if ef then 17 else 10) → base = (s1.sreg g.core (a.toNat + 1)).toNat % 2 ^ 24 →
      os = quantizeBlocks f ((s1.sreg g.core a.toNat).toNat % 2 ^ 32)
        (if sr then some (draw (s1.rd (Reg.coreSeed g.core)) ((s1.rd (Reg.coreStep g.core)).toNat % 2 ^ 32) d.tid) else none) n d.index
        (if h then (halves (s1.vreg g.core vs.toNat)).map b16ToF32 else s1.vreg g.core vs.toNat) (if ef then (s1.residuals g.core base n).1 else []) →
      ∃ u, exec (.vq t g vs k a dst sr ef p h) s = .next u ∧ SameBytes s1 u ∧
        (dst = 0 → d.data % 2 ^ 24 + n * f.blockSize ≤ 0xA00000 → ∃ pri,
          ⟨t.cyc + lat, pri, .vault (d.data % 2 ^ 24) ((os.map (·.bytes)).flatten) []⟩ ∈ (u.core g.core).landing) ∧
        (dst ≠ 0 → d.data + n * f.blockSize ≤ dataSize dst.toNat →
          ⟨t.cyc + lat, 1, .buffer dst.toNat d.data ((os.map (·.bytes)).flatten) []⟩ ∈ (u.core g.core).landing) ∧
        (dst ≠ 0 → d.scale + n ≤ scaleSize dst.toNat →
          ⟨t.cyc + lat, 1, .buffer dst.toNat (dataSize dst.toNat + d.scale) (os.map fun b => BitVec.ofNat 8 b.k8) []⟩ ∈ (u.core g.core).landing) ∧
        (∃ gen, ⟨t.cyc + lat, 8, .report gen (inclSum os)⟩ ∈ (u.core g.core).landing) ∧
        (ef = true → base + 32 * n ≤ 0xA00000 → ∃ pri,
          ⟨t.cyc + lat, pri, .vault base (((os.map fun b => (b.resid.map fun r => bytesOf r 2).flatten).flatten)) []⟩ ∈ (u.core g.core).landing) ∧
        (p = true → ⟨t.cyc + (if h then 2 else 1), 1, .setS (4 * k.toNat) (addField (s1.sreg g.core (4 * k.toNat)) ⟨50, 0⟩ (n * f.blockSize))⟩ ∈
          (u.core g.core).landing)))

/-- R166 to R172: an enabled stream instruction puts its descriptor, with the operands of its issue cycle, behind those of its engine, or stalls where
four are there; reserved encodings do nothing (R132). -/
def Obligations.StreamIssue : Prop :=
  ∀ (t : At) (g : Gate) (e : BitVec 2) (dk k : BitVec 3) (pl tile : BitVec 2) (hi w : Bool) (kb : BitVec 6) (op : BitVec 4) (c d a b : BitVec 5)
    (s s1 : State) (r : BitVec 5 → Nat), Enabled t g s → s1 = s.toCore t g.core → r = (fun x => (s1.sreg g.core x.toNat).toNat) →
    ∀ puts : Instr → Act → Prop,
      puts = (fun i act => ∃ u, exec i s = .next u ∧ SameBytes s1 u ∧
        ((s1.engine g.core e.toNat).queue.length < 4 →
          u = { s1 with engines := u.engines, regs := u.regs, fresh := u.fresh } ∧ SameRegs s1 u ((List.range 8).map (Reg.corePmc g.core)) ∧
          u.engine g.core e.toNat = { s1.engine g.core e.toNat with queue := (s1.engine g.core e.toNat).queue ++ [{ act := act, seq := (s1.engine g.core e.toNat).issued, issueCyc := t.cyc, issueTick := s1.now }], issued := (s1.engine g.core e.toNat).issued + 1 }) ∧
        (4 ≤ (s1.engine g.core e.toNat).queue.length → u.engines = s1.engines ∧
          u.fld (Reg.coreStall g.core) F.coreStallCount = min (2 ^ 48 - 1) (s1.fld (Reg.coreStall g.core) F.coreStallCount + 1))) →
      (dk ≠ 1 → dk ≠ 7 → pl ≠ 3 → b.toNat % 2 = 0 →
        puts (.scopy t g e dk pl d a b) (.scopy dk.toNat pl.toNat (if dk = 6 then r d % 64 else r d % 2 ^ 51) (r a % 2 ^ 51)
          (r b / 2 ^ 48) (r b / 2 ^ 24 % 2 ^ 24) (r b % 2 ^ 24) ((s1.sreg g.core (b.toNat + 1)).toNat % 2 ^ 24))) ∧
      ((dk = 1 ∨ dk = 7 ∨ pl = 3 ∨ b.toNat % 2 = 1) → exec (.scopy t g e dk pl d a b) s = .next s1) ∧
      (k ≠ 0 → pl ≠ 3 → (hi = false ∨ tile.toNat < 2) →
        puts (.stile t g e tile hi k kb pl) (.stile (2 + tile.toNat) (if hi then 0x8000 else 0) (s1.tensor g.core k.toNat).fmt
          (s1.tensor g.core k.toNat).data (s1.tensor g.core k.toNat).scale (s1.tensor g.core k.toNat).pitch (if kb = 0 then 64 else kb.toNat) pl.toNat)) ∧
      puts (.sflag t g e a) (.sflag (r a / 2 ^ 20 % 64) (r a / 256 % 4096) (r a % 256)) ∧
      (op.toNat < 10 → ¬ (w = true ∧ op = 1) → ¬ (op = 2 ∧ b.toNat % 2 = 1) →
        puts (.satom t g e op w d a b) (.satom op.toNat w (r a % 2 ^ 51) (r d % 2 ^ 24) (s1.sreg g.core b.toNat)
          (if op = 2 then s1.sreg g.core (b.toNat + 1) else 0))) ∧
      puts (.sinv t g e a) (.sinv (r a % 2 ^ 51)) ∧
      puts (.smcast t g e c d a b) (.smcast (r a % 2 ^ 51) (r b % 2 ^ 13) (r d % 2 ^ 45) (r b / 2 ^ 24 % 2 ^ 24) (r c % 2 ^ 32) (r c / 2 ^ 32 % 2 ^ 12)) ∧
      puts (.recmg t g e d a b) (.recmg (r d % 2 ^ 51) (r a % 2 ^ 24) (r b % 2 ^ 24))

/-- R72, R73, R97, R171: RECST fixes the cycle in which its record is formed, that of the latest earlier report and never its own cycle, and stalls while
an earlier record is not formed; RECORD_FORM makes the record from the live counters, which go on from the reports held since. -/
def Obligations.InclusionRecords : Prop :=
  (∀ (t : At) (g : Gate) (e : BitVec 2) (a b : BitVec 5) (s s1 : State) (due : Nat), Enabled t g s → s1 = s.toCore t g.core →
    due = max (t.cyc + 1) (s1.core g.core).lastReport →
    ∃ u, exec (.recst t g e a b) s = .next u ∧ SameBytes s1 u ∧
      ((s1.core g.core).recordDue = none → (s1.engine g.core e.toNat).queue.length < 4 →
        (u.core g.core).recordDue = some due ∧ (u.core g.core).gen = (s1.core g.core).gen + 1 ∧
        ⟨due, 9, .form ((s1.sreg g.core b.toNat).toNat % 2 ^ 32) due true⟩ ∈ (u.core g.core).landing ∧
        (u.engine g.core e.toNat).queue = (s1.engine g.core e.toNat).queue ++ [{ act := .recst ((s1.sreg g.core a.toNat).toNat % 2 ^ 51) due, seq := (s1.engine g.core e.toNat).issued, issueCyc := t.cyc, issueTick := s1.now }]) ∧
      ((s1.core g.core).recordDue ≠ none ∨ 4 ≤ (s1.engine g.core e.toNat).queue.length →
        u.engines = s1.engines ∧ (u.core g.core).recordDue = (s1.core g.core).recordDue ∧
        u.fld (Reg.coreStall g.core) F.coreStallCount = min (2 ^ 48 - 1) (s1.fld (Reg.coreStall g.core) F.coreStallCount + 1))) ∧
  (∀ (t : At) (c due tid : Nat) (s : State), c < 3072 → Awake t s → due ≤ t.cyc → (s.core c).array = none →
    (s.core c).landing = [⟨due, 9, .form tid due true⟩] →
    ∃ u, exec (.recordForm t c) s = .next u ∧ SameBytes s u ∧ (u.core c).recordDue = none ∧ (u.core c).held = {} ∧
      (u.core c).formed = (s.core c).formed + 1 ∧
      (u.core c).records = (due, (s.live c).record tid ((s.rd (Reg.coreStep c)).toNat % 2 ^ 32) 1 false) :: (s.core c).records ∧
      u.fld (Reg.coreInclElem c) F.coreInclElemCount = (s.core c).held.elem % 2 ^ 48 ∧
      u.fld (Reg.coreInclStatus c) F.coreInclStatusArithFaults = (s.core c).held.faults % 2 ^ 16)

/-- R119, R167, R168, R170 to R172: a free engine starts the descriptor at its head. A copy of which a row may not be made moves nothing and completes
with DENIED one cycle on; one row from the own vault to the own vault takes a port cycle for each 512 bytes read, or for each 256 written if these are
more, and 7 cycles (R120, R135); a record store takes 8 cycles, a merge 10; an atomic of the own vault 7 cycles and 16 ticks (R372). An SINV and an
SFLAG beyond the tower wait for a tag; an SFLAG waits for the stores before it and then sets its flag 16 cycles on inside the tower. -/
def Obligations.DescriptorStart : Prop :=
  (∀ (t : At) (c : Nat) (e : BitVec 2) (s s1 : State) (d : Desc) (rest : List Desc), c < 3072 → Awake t s → s1 = s.toCore t c →
    (s1.engine c e.toNat).freeAt ≤ t.cyc → s1.engine c e.toNat = { s1.engine c e.toNat with queue := d :: rest, stage := .queued, pieces := [], statuses := [] } →
    d.issueCyc ≤ t.cyc → s1.frozen c = false → s1.startWaits c d.act = false →
    ∃ u, exec (.descriptorStart t c e) s = .next u ∧ (u.engine c e.toNat).queue = d :: rest ∧
      (d.act.rows = [] ∨ d.enabled = false → (∀ a b x y p q, d.act ≠ .smcast a b x y p q) → SameBytes s1 u) ∧
      (∀ pkg core f, d.act = .sflag pkg core f → (u.engine c e.toNat).stage = .remote 0) ∧
      (∀ addr, d.act = .sinv addr → (u.engine c e.toNat).stage = .local_ (t.cyc + 1) ∧
        ∃ lat, (u.engine c e.toNat).waiting = [{ src := addr, dst := addr, remote := true, due := lat }]) ∧
      ((∃ dk pl dst src rows ds bytes ss, d.act = .scopy dk pl dst src rows ds bytes ss) ∨ (∃ half off fmt data scale pitch blocks pl, d.act = .stile half off fmt data scale pitch blocks pl) →
        d.enabled = true → d.act.shapeOk = false ∨ (∃ r ∈ d.act.rows, s1.rowOk c r = false) →
        (u.engine c e.toNat).stage = .refused (t.cyc + 1) ∧ (u.engine c e.toNat).statuses = [.denied] ∧ SameBytes s1 u) ∧
      (∀ pl dst src ds len ss, d.act = .scopy 0 pl dst src 1 ds len ss → d.enabled = true → d.act.shapeOk = true → (∀ r ∈ d.act.rows, s1.rowOk c r = true) →
        s1.path c src = .own → s1.path c dst = .own → s1.coreFenced c = false → s1.start.compat = false →
        (u.engine c e.toNat).stage = .local_ (t.cyc + max (windows 512 (localAddr src) len) (windows 256 (localAddr dst) len) + 7) ∧
        (u.engine c e.toNat).pieces.map (fun p => (p.dst, p.data)) = [(localAddr dst, s1.bytes (localAddr src) len)] ∧ SameBytes s1 u) ∧
      (∀ addr due data, d.act = .recst addr due → d.enabled = true → due ≤ t.cyc → (s1.core c).records.find? (fun x => x.1 = due) = some (due, data) →
        addr % 64 = 0 → s1.path c addr = .own → s1.endOk c addr 64 = true → s1.start.compat = false →
        (u.engine c e.toNat).stage = .local_ (t.cyc + 8) ∧ (u.engine c e.toNat).pieces.map (fun p => (p.dst, p.data)) = [(localAddr addr, data)]) ∧
      (∀ addr due, d.act = .recst addr due → t.cyc < due → (u.engine c e.toNat).stage = .queued) ∧
      (∀ dst a b, d.act = .recmg dst a b → d.enabled = true → dst % 64 = 0 → s1.path c dst = .own → s1.endOk c dst 64 = true → s1.start.compat = false →
        (u.engine c e.toNat).stage = .local_ (t.cyc + 10) ∧ (u.engine c e.toNat).pieces.map (fun p => (p.dst, p.data)) =
          [(localAddr dst, mergeRecords (s1.ownRead c (7 + e.toNat) a 64).1 (s1.ownRead c (7 + e.toNat) b 64).1)]) ∧
      (∀ op w addr sd x y, d.act = .satom op w addr sd x y → s1.path c addr = .own → s1.start.compat = false →
        (u.engine c e.toNat).stage = .local_ (t.cyc + 36))) ∧
  (∀ (t : At) (c pkg target f : Nat) (e : BitVec 2) (s s1 : State) (d : Desc) (rest : List Desc), c < 3072 → Awake t s → s1 = s.toCore t c →
    (s1.engine c e.toNat).stage = .remote 0 → (s1.engine c e.toNat).queue = d :: rest → d.act = .sflag pkg target f →
    ∃ u, exec (.sflagRelease t c e) s = .next u ∧ SameBytes s1 u ∧ SameRegs s1 u [] ∧
      (s1.storesDone c d.issueCyc = false → u = s1) ∧
      (s1.storesDone c d.issueCyc = true → pkg = s1.pkg → target / 256 = c / 256 →
        (u.core target).flagsIn = (s1.core target).flagsIn ++ (if d.enabled then [{ at_ := t.cyc + 16, src := c, flag := f }] else []) ∧
        (u.engine c e.toNat).stage = .local_ (t.cyc + 16)) ∧
      (s1.storesDone c d.issueCyc = true → pkg ≠ s1.pkg ∨ target / 256 ≠ c / 256 →
        ∃ lat, (u.engine c e.toNat).waiting = [{ remote := true, src := pkg * 2 ^ 20 + target * 2 ^ 8 + f, due := lat }]))

/-- R121, R167, R173, R373: the next piece of a started descriptor, from the cycle on in which its run starts, takes the free tag slot that it is given
and is sent; an atomic waits while one toward its target that is 32 or more numbers older is outstanding. An operation of a descriptor that is not
enabled holds its tag until its fixed latency is over and sends nothing. R120, R174: a descriptor completes once its local runs and its operations are
done, with the worst of its statuses, among them PATH_FENCED for a row to a fenced vault (R205); a refused one from its cycle on. The engine counts it
and keeps the first and the last status that was not OK. -/
def Obligations.TagsAndCompletions : Prop :=
  (∀ (t : At) (c : Nat) (e : BitVec 2) (slot : BitVec 5) (s s1 : State) (d : Desc) (rest : List Desc) (p : Piece) (more : List Piece) (due tag : Nat),
    c < 3072 → Awake t s → s1 = (s.toCore t c).reap c →
    (s1.engine c e.toNat).stage = .local_ due → (s1.engine c e.toNat).queue = d :: rest → (s1.engine c e.toNat).waiting = p :: more →
    (p.store = true → s1.frozenAt (localAddr p.src) = false) → tag = 32 * (c % 256) + slot.toNat →
    (∀ op w addr sd x y, d.act = .satom op w addr sd x y →
      s1.atomFree (towerRing (c / 256)) (s1.fromCore c 8 (16 + op) addr).dstPkg (s1.fromCore c 8 (16 + op) addr).dstEp = true) →
    ∃ u, exec (.tagAcquire t c e slot) s = .next u ∧ (p.store = false ∨ s1.path c p.src = .own → SameBytes s1 u) ∧
      ((s1.op (towerRing (c / 256)) tag).isSome = true ∨ t.cyc < (s1.engine c e.toNat).from_ → u = s1) ∧
      (s1.op (towerRing (c / 256)) tag = none → (s1.engine c e.toNat).from_ ≤ t.cyc → more ≠ [] ∨ (s1.engine c e.toNat).plan = [] →
        (u.engine c e.toNat).waiting = more) ∧
      (s1.op (towerRing (c / 256)) tag = none → (s1.engine c e.toNat).from_ ≤ t.cyc → d.enabled = true → (s1.core c).fsets = [] →
        ∀ o, u.op (towerRing (c / 256)) tag = some o →
          o.core = c ∧ o.engine = some e.toNat ∧ o.seq = d.seq ∧ o.enabled = true ∧ o.piece = p ∧ o.pkt.tag = tag ∧ o.pkt.originCore = c) ∧
      (s1.op (towerRing (c / 256)) tag = none → (s1.engine c e.toNat).from_ ≤ t.cyc → d.enabled = false →
        (u.engine c e.toNat).inFlight = (s1.engine c e.toNat).inFlight + 1 ∧ u.txq = s1.txq ∧ u.out = s1.out ∧
        ∃ o, u.op (towerRing (c / 256)) tag = some o ∧ o.enabled = false ∧ o.engine = some e.toNat ∧ o.seq = d.seq ∧ o.doneAt = max p.due s1.now)) ∧
  (∀ (t : At) (c : Nat) (e : BitVec 2) (s s1 : State) (g : Engine) (d : Desc) (rest : List Desc) (due : Nat),
    c < 3072 → Awake t s → s1 = (s.at t).reap c → g = s1.engine c e.toNat → g.queue = d :: rest →
    (g.stage = .refused due ∨ g.stage = .local_ due ∧ g.waiting = [] ∧ g.plan = [] ∧ g.inFlight = 0 ∧ d.seq % 128 ∉ g.lost ∧ s1.endWaits c g d = false) →
    ∃ u l st, exec (.transferComplete t c e) s = .next u ∧ st = worst (g.statuses ++ l) ∧
      (due ≤ t.cyc → (u.engine c e.toNat).queue = rest ∧ (u.engine c e.toNat).stage = .queued ∧ (u.engine c e.toNat).completed = g.completed + 1 ∧
        (u.engine c e.toNat).lastStatus = statusCode st ∧ (u.engine c e.toNat).freeAt = t.cyc ∧
        (st = .ok → (u.engine c e.toNat).bad = g.bad ∧ (u.engine c e.toNat).firstSeq = g.firstSeq) ∧
        (st ≠ .ok → (u.engine c e.toNat).bad = min 0xFFFF (g.bad + 1) ∧ u.flag (Reg.coreFault c) F.coreFaultRemoteStatus = true ∧
          (g.bad = 0 → (u.engine c e.toNat).firstSeq = d.seq ∧ (u.engine c e.toNat).firstStatus = statusCode st))) ∧
      (t.cyc < due → u.engines = s1.engines) ∧
      (g.stage = .refused due ∨ g.pieces = [] ∧ (∀ op w addr sd x y, d.act ≠ .satom op w addr sd x y) → l = []) ∧
      (∀ v off p, g.stage = .local_ due → g.pieces = [p] → p.dstHalf = 0 → placeOf p.dst = .vault v off → s1.coreFenced v = true → .pathFenced ∈ l))

/-- R93, R95, R97, R126, R129, R141, R176, R444, R445, R488: BUNDLE_FETCH with an uncorrectable code fences the core. A bundle that stalls counts a cycle,
one that the column governor delays waits; any other issues: CORE_STATUS.pc names it and its slots act on the state in the order control, matrix,
vector, stream, as their decodings say. A bundle of four no-ops goes on at the next index. SAMPLE_SEND moves a complete sample into the tower's
buffer, where there is room. -/
def Obligations.FetchAndSampling : Prop :=
  (∀ (t : At) (c : Nat) (found : Mark) (s s1 : State) (pc w : Nat) (m st : Option Instr), Issuing t c s → s1 = s.toCore t c → pc = (s1.core c).npc →
    w = s1.num (windowOf c + 0xC00000 + 16 * pc) 16 → m = decodeMatrix t c (w / 2 ^ 64 % 2 ^ 32) → st = decodeStream t c (w % 2 ^ 32) →
    (found = .ue → ∃ u, exec (.bundleFetch t c found) s = .next u ∧ SameBytes s1 u ∧ u.coreFenced c = true ∧
      u.flag (Reg.coreFault c) F.coreFaultImemUe = true ∧ u.mark (windowOf c + 0xC00000 + 16 * pc) = .ue) ∧
    (found ≠ .ue → s1.mark (windowOf c + 0xC00000 + 16 * pc) ≠ .ue →
      (s1.stalls c t.cyc m st = true → exec (.bundleFetch t c found) s = .next (s1.stall c 1)) ∧
      (∀ n, s1.stalls c t.cyc m st = false → occupancy m = some n → s1.governorLets c (n + s1.dueAbove t c) (s1.dueCycle c t.cyc) = false →
        ∃ u, exec (.bundleFetch t c found) s = .next u ∧ OwnCore s1 u c [] ∧ (u.core c).wait = .governor ∧
          (u.core c).governed = some { due := s1.dueCycle c t.cyc }) ∧
      (s1.stalls c t.cyc m st = false → (∀ n, occupancy m = some n → s1.governorLets c (n + s1.dueAbove t c) (s1.dueCycle c t.cyc) = true) →
        ∃ s2, SameBytes s1 s2 ∧ s2.fld (Reg.coreStatus c) F.coreStatusPc = pc % 2 ^ 14 ∧ (s2.core c).ready = t.cyc + 1 ∧ (s2.core c).bundle = some t.cyc ∧
          s2.engines = s1.engines ∧ (∀ r, s2.sreg c r = s1.sreg c r) ∧ (s2.core c).landing = (s1.core c).landing ∧
          ((∀ j, j < 4 → s1.loopCount c j = 0) → s1.takes c (decodeControl t c (w / 2 ^ 96 % 2 ^ 32)) = false → (s2.core c).npc = (pc + 1) % 2 ^ 14) ∧
          exec (.bundleFetch t c found) s = .next ((((((s2.runSlot (decodeControl t c (w / 2 ^ 96 % 2 ^ 32))).tagWait c).runSlot m).runSlot
            (decodeVector t c (w / 2 ^ 32 % 2 ^ 32))).runSlot st).pmcCore c 0x001 1 |>.modCore c fun k => { k with bundle := none }))) ∧
    (found ≠ .ue → s1.mark (windowOf c + 0xC00000 + 16 * pc) ≠ .ue → w = 0 →
      (s1.core c).landing = [] → (s1.core c).array = none → (s1.core c).governed = none → (∀ j, j < 4 → s1.loopCount c j = 0) →
      ∃ u, exec (.bundleFetch t c found) s = .next u ∧ SameBytes s1 u ∧ u.fld (Reg.coreStatus c) F.coreStatusPc = pc % 2 ^ 14 ∧
        (u.core c).npc = (pc + 1) % 2 ^ 14 ∧ (u.core c).ready = t.cyc + 1 ∧ (u.core c).landing = []) ∧
    (∀ n g d a b, found ≠ .ue → s1.mark (windowOf c + 0xC00000 + 16 * pc) ≠ .ue → w = n * 2 ^ 96 →
      n < 2 ^ 32 → decodeControl t c n = some (.add t g d a b) → g.core = c → s1.on g = true →
      (s1.core c).landing = [] → (s1.core c).array = none → (s1.core c).governed = none →
      ∃ u, exec (.bundleFetch t c found) s = .next u ∧ SameBytes s1 u ∧
        (u.core c).landing = [⟨t.cyc + 1, 3, .setS d.toNat (s1.sreg c a.toNat + s1.sreg c b.toNat)⟩])) ∧
  (∀ (t : At) (c : Nat) (s s1 : State) (m : Sample) (n i slot : Nat), c < 3072 → Awake t s → s1 = s.toCore t c → (s1.core c).sample = some m →
    m.complete t.cyc = true → slot = max ((s1.tower (c / 256)).sampleCyc + 1) t.cyc → n = s1.fld (Reg.twrSampleCtrl (c / 256)) F.twrSampleCtrlCount →
    i = s1.fld (Reg.twrSampleCtrl (c / 256)) F.twrSampleCtrlNext →
    ∃ u, exec (.sampleSend t c) s = .next u ∧ SameBytes s1 u ∧ (u.core c).sample = none ∧ SameRegs s1 u [Reg.twrSampleCtrl (c / 256)] ∧
      (t.cyc + 16 < slot → (u.tower (c / 256)).samples = (s1.tower (c / 256)).samples ∧
        u.fld (Reg.twrSampleCtrl (c / 256)) F.twrSampleCtrlDropped =
          satAdd F.twrSampleCtrlDropped.max (s1.fld (Reg.twrSampleCtrl (c / 256)) F.twrSampleCtrlDropped) 1) ∧
      (slot ≤ t.cyc + 16 → n = 256 → s1.flag (Reg.twrSampleCtrl (c / 256)) F.twrSampleCtrlWrap = false →
        (u.tower (c / 256)).samples = (s1.tower (c / 256)).samples ∧ SameRegs s1 u []) ∧
      (slot ≤ t.cyc + 16 → n ≠ 256 ∨ s1.flag (Reg.twrSampleCtrl (c / 256)) F.twrSampleCtrlWrap = true →
        Sparse.get (fun _ => []) (u.tower (c / 256)).samples i = m.bytes c ((s1.rd (Reg.coreStep c)).toNat % 2 ^ 32) ∧
        u.fld (Reg.twrSampleCtrl (c / 256)) F.twrSampleCtrlNext = (i + 1) % 256 ∧
        u.fld (Reg.twrSampleCtrl (c / 256)) F.twrSampleCtrlCount = min 256 (n + 1) ∧ (u.tower (c / 256)).sampleCyc = slot))

/-! The tower. -/

/-- R125, R190 to R195, R200: a droop found in a cycle stretches the period two cycles on, once for the droops of one cycle, and every core of the tower
counts the stretched periods that have come; the vault port writes the bytes of the one write that waits, keeps the lines of a granted read for
merging, counts a withdrawn read as a dead cycle, and under freeze grants nothing and drains; a merged read takes no grant. -/
def Obligations.TowerCyclesAndVaultPort : Prop :=
  (∀ (t : At) (tower : Nat) (s : State), tower < 12 → Awake t s →
    ∃ u, exec (.droopDetect t tower) s = .next u ∧ u = { s.at t with regs := u.regs, fresh := u.fresh, towers := u.towers } ∧
      (∀ v, v ≠ tower → u.tower v = s.tower v) ∧
      (∀ p, p ∈ (u.tower tower).droops ↔ p = t.cyc + 2 ∨ (p ∈ (s.tower tower).droops ∧ t.cyc < p)) ∧
      (∀ c, c / 256 = tower → u.fld (Reg.coreStretch c) F.coreStretchCount =
        min (2 ^ 48 - 1) (s.fld (Reg.coreStretch c) F.coreStretchCount + ((s.tower tower).droops.filter fun p => decide (p ≤ t.cyc)).length)) ∧
      (∀ c r, c / 256 = tower → r < 32 → u.rd (Reg.coreS c r) = s.rd (Reg.coreS c r))) ∧
  (∀ (t : At) (c : Nat) (q : PortReq) (withdraws : Bool) (s s1 : State) (ls : List Nat), c < 3072 → Awake t s → s1 = s.toCore t c → 0 < q.code →
    (∃ i, i < 13 ∧ s1.vaultCode c i = q.code) → clientOk c q = true → (s1.core c).wbq = [] → ls = lineSet q →
    (s1.arb (.vault c)).thawAt ≤ t.cyc → (s1.arb (.vault c)).busyRead ≤ t.cyc → (s1.arb (.vault c)).busyWrite ≤ t.cyc →
    ∃ u, exec (.vaultPortGrant t c [q] withdraws []) s = .next u ∧
      (s1.frozen c = true → SameBytes s1 u ∧ u.flag (Reg.twrVarbCtrl (c / 256) (c % 256)) F.twrVarbCtrlDrained = true ∧
        (u.arb (.vault c)).merge = (s1.arb (.vault c)).merge) ∧
      (s1.frozen c = false → q.write = true →
        (∀ a, u.byte a = if windowOf c + q.addr ≤ a ∧ a < windowOf c + q.addr + (q.data.take (64 * ls.length)).length
          then (q.data.take (64 * ls.length)).getD (a - (windowOf c + q.addr)) 0 else s1.byte a) ∧
        (u.arb (.vault c)).busyWrite = t.cyc + 1 ∧ ∀ e ∈ (u.arb (.vault c)).merge, ∀ l ∈ e.1, l ∉ ls) ∧
      (s1.frozen c = false → q.write = false → s1.follows c q.code ls t.cyc = false →
        SameBytes s1 u ∧ (u.arb (.vault c)).busyRead = t.cyc + 1 ∧
        (withdraws = false → (q.code, ls) ∉ (s1.arb (.vault c)).served →
          (u.arb (.vault c)).merge = ((ls, t.cyc) :: (s1.arb (.vault c)).merge).take 32) ∧
        (withdraws = true → (u.arb (.vault c)).merge = (s1.arb (.vault c)).merge ∧
          u.fld (Reg.twrVarbCtrl (c / 256) (c % 256)) F.twrVarbCtrlDeadCycles =
            min (2 ^ 16 - 1) (s1.fld (Reg.twrVarbCtrl (c / 256) (c % 256)) F.twrVarbCtrlDeadCycles + 1))) ∧
      (s1.frozen c = false → q.write = false → s1.follows c q.code ls t.cyc = true → SameBytes s1 u ∧ (u.arb (.vault c)).busyRead = (s1.arb (.vault c)).busyRead)) ∧
  (∀ (t : At) (c : Nat) (q : PortReq) (s : State), c < 3072 → Awake t s →
    ∃ u, exec (.mergedRead t c q) s = .next u ∧ Counts (s.toCore t c) u c)

/-- R181 to R186: a worm goes by the port of its axis, where the router has it and the neighbour's buffer has room, to the neighbour, one hop nearer, its
header rewritten; at its vault a read is answered with the lines and a write lands, where the arbiter is not frozen (R192); a damaged header discards
the worm, whose transfer completes with TIMEOUT 10 µs after its issue; a port block sends a worm on to its destination layer, and nothing twice to the
transmitter. -/
def Obligations.Worms : Prop :=
  (∀ (t : At) (c i port : Nat) (w : Worm) (credits : List Nat) (bad : Bool) (s s1 : State), c < 3072 → i < 7 → Awake t s → s1 = s.toCore t c →
    (∀ k, k < 7 → s1.worms c k = []) → port = wormLeaves w → hasPort c port = true → 0 < (s1.portCredits c port credits).getD (wormVc w) 0 →
    ∃ u, exec (.wormHop t c port [(i, w)] credits bad) s = .next u ∧ SameBytes s1 u ∧
      (bad = false → u.out = .worm c port (wormHeader (wormHop w) * (2 ^ 128 + 1)) (wormHop w) :: s1.out ∧
        (port < 4 → (wormHop w).dx.natAbs + (wormHop w).dy.natAbs + 1 = w.dx.natAbs + w.dy.natAbs) ∧
        (∀ d k, neighbour c port = some (d, k) → u.worms d k = s1.worms d k ++ [wormHop w])) ∧
      (bad = true → u.out = s1.out ∧ w.seq % 128 ∈ (u.engine (wormOwner w) w.engine).lost)) ∧
  (∀ (t : At) (c : Nat) (w : Worm) (bad : Bool) (s s1 : State), c < 3072 → Awake t s → s1 = s.toCore t c → s1.coreFenced c = false →
    (s1.core c).landing = [] → (s1.core c).array = none →
    ∃ u, exec (.wormExit t c w bad) s = .next u ∧
      (bad = true ∨ w.dst % 256 ≠ c % 256 → SameBytes s1 u ∧ w.seq % 128 ∈ (u.engine (wormOwner w) w.engine).lost) ∧
      (bad = false → w.dst % 256 = c % 256 → w.kind < 2 → s1.frozen c = true → OwnCore s1 u c [] ∧ (u.core c).waiting = (s1.core c).waiting ++ [.worm w]) ∧
      (bad = false → w.dst % 256 = c % 256 → w.kind = 0 → s1.frozen c = false → w.line * 64 + 64 * w.flits ≤ 0xA00000 → SameBytes s1 u ∧ ∃ r, u.worms c 5 = s1.worms c 5 ++ [r] ∧ r.kind = 8 ∧ r.dst = w.src ∧
        r.seq = w.seq ∧ r.data = (List.range (64 * w.flits)).map fun j => s1.byte (windowOf c + w.line * 64 + j)) ∧
      (bad = false → w.dst % 256 = c % 256 → w.kind = 1 → s1.frozen c = false → w.line * 64 + w.data.length ≤ 0xA00000 →
        (∀ a, u.byte a = if windowOf c + w.line * 64 ≤ a ∧ a < windowOf c + w.line * 64 + w.data.length
          then w.data.getD (a - (windowOf c + w.line * 64)) 0 else s1.byte a) ∧
        ∃ r, u.worms c 5 = s1.worms c 5 ++ [r] ∧ r.kind = 9 ∧ r.dst = w.src ∧ r.seq = w.seq ∧ r.data = [])) ∧
  (∀ (t : At) (c : Nat) (e : BitVec 2) (seq : BitVec 7) (s s1 : State) (d : Desc) (rest : List Desc), c < 3072 → Awake t s → s1 = s.toCore t c →
    (s1.engine c e.toNat).queue = d :: rest → d.seq % 128 = seq.toNat → seq.toNat ∈ (s1.engine c e.toNat).lost → d.issueTick + 10000 ≤ s1.now →
    ∃ u, exec (.wormTimeout t c e seq) s = .next u ∧ SameBytes s1 u ∧ (u.engine c e.toNat).queue = rest ∧ seq.toNat ∉ (u.engine c e.toNat).lost ∧
      (u.engine c e.toNat).completed = (s1.engine c e.toNat).completed + 1 ∧ (u.engine c e.toNat).lastStatus = 5) ∧
  (∀ (t : At) (tower : Nat) (p : BitVec 4) (layer plane : BitVec 2) (w : Worm) (s : State), tower < 12 → Awake t s →
    ∃ u, exec (.portBlockRewrite t tower p layer w plane) s = .next u ∧ SameBytes s u ∧
      (w.kind ≠ 2 → ∃ r, r.src = w.src ∧ r.dst = w.dst ∧ r.data = w.data ∧ r.seq = w.seq ∧
        u.worms (portCore tower (layerOf w.dst) p.toNat) 4 = s.worms (portCore tower (layerOf w.dst) p.toNat) 4 ++ [r] ∧
        r.dx = (xOf w.dst : Int) - xOf (portCore tower (layerOf w.dst) p.toNat) ∧
        r.dy = (yOf w.dst : Int) - yOf (portCore tower (layerOf w.dst) p.toNat)) ∧
      (∀ k o, w.kind = 2 → w.carried = some k → s.op (towerRing tower) k.tag = some o → 0 < o.attempts → u = s.at t))

/-- R204, R205: a flit CRC failure counts; the third in a row, each six cycles after the one before, a wire pair that disagrees twice in a row, or more
than four failing bonds at a start fence what the crossing carries, and the start ends in HOLD where the fence map does not list it; up to four
failing bonds take spares. -/
def Obligations.BondFailures : Prop :=
  (∀ (t : At) (tower c : Nat) (dead : Bool) (s : State), tower < 12 → Awake t s → c / 256 = tower →
    ∃ u, exec (.layerFlitCrc t tower (.vault c) dead) s = .next u ∧ SameBytes s u ∧
      u.fld (Reg.twrBond tower) F.twrBondCrcErrors = min (2 ^ 16 - 1) (s.fld (Reg.twrBond tower) F.twrBondCrcErrors + 1) ∧
      (dead = false → (s.tower tower).crcRun (.vault c) t.cyc < 3 → SameRegs s u [Reg.twrBond tower] ∧ u.coreFenced c = s.coreFenced c) ∧
      (dead = true ∨ 3 ≤ (s.tower tower).crcRun (.vault c) t.cyc → u.coreFenced c = true ∧
        u.fld (Reg.twrBond tower) F.twrBondFailed = min (2 ^ 8 - 1) (s.fld (Reg.twrBond tower) F.twrBondFailed + 1))) ∧
  (∀ (t : At) (tower : Nat) (again : Bool) (s : State), tower < 12 → Awake t s →
    ∃ u, exec (.wirePairDisagree t tower again) s = .next u ∧
      (again = false ∨ (s.tower tower).wireBad = false → u = (s.at t).setTower tower { s.tower tower with wireBad := true }) ∧
      (again = true → (s.tower tower).wireBad = true → (u.tower tower).fenced = true ∧ (u.tower tower).wireBad = false ∧
        (∀ c, c / 256 = tower → u.coreFenced c = true) ∧ u.ringFenced (towerRing tower) = true)) ∧
  (∀ (t : At) (tower c n : Nat) (s : State), tower < 12 → Awake t s → c / 256 = tower → s.dev = .bringup ∨ s.starting tower = true →
    ∃ u, exec (.bondTest t tower [(.vault c, n)]) s = .next u ∧
      (n ≤ 4 → u = { s.at t with regs := u.regs } ∧ SameRegs s u [Reg.twrBond tower] ∧
        u.fld (Reg.twrBond tower) F.twrBondSparesUsed = min (2 ^ 16 - 1) (s.fld (Reg.twrBond tower) F.twrBondSparesUsed + n) ∧
        u.fld (Reg.twrBond tower) F.twrBondGroupsFull = min (2 ^ 8 - 1) (s.fld (Reg.twrBond tower) F.twrBondGroupsFull + (if n = 4 then 1 else 0))) ∧
      (4 < n → u.coreFenced c = true ∧ (s.dev = .bringup → u.dev = if s.mapped 1 c then .bringup else .hold)))

/-! Die links and the time base. -/

/-- R275 to R277, R283, R292: a group in training sends training frames; one that is up sends an idle frame where nothing may go, a data frame of the
highest channel that is ready, or again what it was asked for, each with its CRC and with what its own receiver has freed; the receiver takes frames
in order into its buffer, asks again for a damaged one, and a training frame takes the group down. -/
def Obligations.DieLinkFrames : Prop :=
  (∀ (t : At) (tower g : Nat) (dir : Dir) (s : State) (x : D2dDir), tower < 12 → g < 64 → Awake t s →
    s.fld (grpReg tower g) F.flrGrpState = 2 → x = (s.group tower g).dir dir →
    ∃ u f, exec (.d2dFrameSend t tower g dir) s = .next u ∧ SameBytes s u ∧ (.d2d tower g dir f) ∈ u.out ∧
      f.ack = ((s.group tower g).dir (otherDir dir)).expect ∧ f.width = s.fld (grpReg tower g) F.flrGrpWidth ∧ f.crc = d2dCrc f ∧ (∀ v ∈ f.credit, v ≤ 31) ∧
      (∀ r rest, x.resend = r :: rest → f.seq = r.seq ∧ f.data = (s.at t).frameData tower r ∧ ((u.group tower g).dir dir).resend = rest ∧
        u.fld (Reg.flrGerr (tower / 3) (tower % 3) g) F.flrGerrReplays =
          min F.flrGerrReplays.max (s.fld (Reg.flrGerr (tower / 3) (tower % 3) g) F.flrGerrReplays + 1)) ∧
      (x.resend = [] → s.d2dChoice tower g dir = none → f.type = 1 ∧ ((u.group tower g).dir dir).queue = x.queue) ∧
      (∀ vc l, x.resend = [] → s.d2dChoice tower g dir = some (vc, l) → f.type = 0 ∧ f.vc = vc ∧ f.seq = x.next ∧ f.count = l.length ∧
        ((u.group tower g).dir dir).next = (x.next + 1) % 64 ∧ (l ≠ [[]] → f.data = l.flatten) ∧
        (∃ r, ((u.group tower g).dir dir).replay = x.replay ++ [(r, (s.at t).now)] ∧ r.seq = f.seq ∧ r.data = f.data))) ∧
  (∀ (t : At) (tower g : Nat) (dir : Dir) (s : State), tower < 12 → g < 64 → Awake t s → s.fld (grpReg tower g) F.flrGrpState = 1 →
    ∃ u f, exec (.d2dFrameSend t tower g dir) s = .next u ∧ u = { s.at t with out := .d2d tower g dir f :: s.out } ∧ f.type = 2 ∧ f.crc = d2dCrc f) ∧
  (∀ (t : At) (tower g : Nat) (dir : Dir) (f : D2dFrame) (s : State) (x : D2dDir), tower < 12 → g < 64 → Awake t s →
    s.fld (grpReg tower g) F.flrGrpState = 2 → x = (s.group tower g).dir dir →
    ∃ u, exec (.d2dFrameReceive t tower g dir f) s = .next u ∧
      (f.type ≠ 2 → f.crc ≠ d2dCrc f → ((u.group tower g).dir dir).nak = true ∧ ((u.group tower g).dir dir).expect = x.expect) ∧
      (f.type = 0 → f.crc = d2dCrc f → f.width = s.fld (grpReg tower g) F.flrGrpWidth → f.quarters = s.fld (grpReg tower g) F.flrGrpQuarters →
        SameBytes s u ∧ ((u.group tower g).dir dir).expect = (if f.seq = x.expect then (x.expect + 1) % 64 else x.expect) ∧
        (f.seq = x.expect → ∃ l, ((u.group tower g).dir dir).buf = l ++ (List.range f.count).map fun i => (f.vc, (f.data.drop (32 * i)).take 32))) ∧
      (f.type = 2 → (∀ b, (s.group tower g).upAt = some b → b + 1000000 ≤ (s.at t).now) → u.fld (grpReg tower g) F.flrGrpState = 1)) ∧
  (∀ (t : At) (tower g : Nat) (dir : Dir) (s : State) (x : D2dDir) (r : D2dFrame) (sent : Nat) (rest : List (D2dFrame × Nat)), tower < 12 → g < 64 →
    Awake t s → s.fld (grpReg tower g) F.flrGrpState = 2 → x = (s.group tower g).dir dir → x.replay = (r, sent) :: rest → sent + 100 ≤ (s.at t).now →
    ∃ u, exec (.d2dReplayTimeout t tower g dir) s = .next u ∧ u = { s.at t with d2d := u.d2d } ∧
      ((u.group tower g).dir dir).resend = x.replay.map (·.1) ∧ ((u.group tower g).dir (otherDir dir)) = (s.group tower g).dir (otherDir dir))

/-- R279 to R284: a training that completes with four good quarters brings the group up at full width, one that finds no width counts a failure; before
the package word is fixed a group goes as far as step 3; a retraining counts; a step over its bound fails the training. R282, R285, R407: once every
group has met step 3 the package word fixes the mode, native where its bit 0 is set, and a required word that it does not meet ends the start in HOLD
with start_cause 3; an uncommanded reset of a tile halts the device with halt_cause 2, its towers' copies invalid. -/
def Obligations.DieLinkTrainingAndCapability : Prop :=
  ((∀ (t : At) (tower g : Nat) (w : TrainSight) (s : State), tower < 12 → g < 64 → Awake t s → s.dev = .bringup ∨ s.starting tower = true →
    s.fld (grpReg tower g) F.flrGrpState < 2 → (s.tower tower).fenced = false →
    ∃ u, exec (.d2dTraining t tower g w) s = .next u ∧ SameBytes s u ∧
      (∀ q spares, s.start.capFixed = true → chooseWidth w = some (0, q, spares) → s.trainOk w = true →
        u.fld (grpReg tower g) F.flrGrpState = 2 ∧ u.fld (grpReg tower g) F.flrGrpWidth = 0 ∧ u.fld (grpReg tower g) F.flrGrpQuarters = q % 16 ∧
        u.fld (grpReg tower g) F.flrGrpFailRun = 0 ∧ (u.group tower g).upAt = some (s.at t).now) ∧
      (s.start.capFixed = true → chooseWidth w = none → s.fld (grpReg tower g) F.flrGrpFailRun < 2 →
        u.fld (grpReg tower g) F.flrGrpState = 0 ∧ u.fld (grpReg tower g) F.flrGrpFailRun = s.fld (grpReg tower g) F.flrGrpFailRun + 1) ∧
      (s.start.capFixed = false → (s.group tower g).step3 ≠ some true → w.clockUp = true → w.clockDown = true → bit w.peerCap 1 = true →
        u.fld (grpReg tower g) F.flrGrpState = 1 ∧ (u.group tower g).step3 = some true ∧ u.start.firstStep3 ≠ none)) ∧
  (∀ (t : At) (tower g : Nat) (w : TrainSight) (q : Nat) (spares : List Nat) (s : State), tower < 12 → g < 64 → Awake t s → s.start.capFixed = true →
    s.fld (grpReg tower g) F.flrGrpState < 3 → (∀ b, (s.group tower g).upAt = some b → b + 1000000 ≤ (s.at t).now) →
    chooseWidth w = some (0, q, spares) → s.trainOk w = true →
    ∃ u, exec (.d2dRetrain t tower g w) s = .next u ∧ SameBytes s u ∧ u.fld (grpReg tower g) F.flrGrpState = 2 ∧
      u.fld (grpReg tower g) F.flrGrpRetrains = min F.flrGrpRetrains.max (s.fld (grpReg tower g) F.flrGrpRetrains + 1)) ∧
  (∀ (t : At) (tower g n began : Nat) (s : State), tower < 12 → g < 64 → Awake t s → s.start.capFixed = true → s.start.compat = false →
    s.fld (grpReg tower g) F.flrGrpState = 1 → 1 ≤ n → n ≤ 9 →
    (s.group tower g).stepAt ≤ began → began + ([0, 20000, 20000, 5000, 10000, 20000, 1000, 100000, 6000, 2000] : List Nat).getD n 0 ≤ (s.at t).now →
    s.fld (grpReg tower g) F.flrGrpFailRun < 2 →
    ∃ u, exec (.trainingStepTimeout t tower g ⟨n, began⟩) s = .next u ∧ SameBytes s u ∧ u.fld (grpReg tower g) F.flrGrpState = 0 ∧
      u.fld (grpReg tower g) F.flrGrpFailRun = s.fld (grpReg tower g) F.flrGrpFailRun + 1)) ∧
  ((∀ (t : At) (s : State), Awake t s → s.dev = .bringup → s.start.capFixed = false → (s.at t).capDue = true →
    ∃ u, exec (.capabilityWordFixed t) s = .next u ∧ SameBytes s u ∧ u.start.capFixed = true ∧ u.start.compat = !(bit s.packageCap 0) ∧
      (capPasses (hRequired s.booted.header) s.packageCap = false → u.dev = .hold ∧ u.fld Reg.onxImgStatus F.onxImgStatusStartCause = 3)) ∧
  (∀ (t : At) (tile : Nat) (s : State), tile < 4 → Awake t s → s.dev = .run ∨ s.dev = .load ∨ s.dev = .join →
    ∃ u, exec (.tileReset t tile) s = .next u ∧ u.dev = .halted ∧ u.fld Reg.onxState F.onxStateHaltCause = 2 ∧
      ∀ tower, tower / 3 = tile → (u.tower tower).copyValid = false))

/-- R291 to R294: of two TOD messages in a row that differ by 2^20 the second names the edge at which a tile loads its counter; the next edge within 4
ticks makes it disciplined; a disciplined tile whose edge is out of the window, or whose edge fails to come twice, holds over and the job is asked to
hold. A time mark loads a tower's copy, and one that disagrees by more than a tick is a loss. R289, R290, R292, R295: the loss of REFCLK asks a
running job to hold, halts a device in LOAD or JOIN and ends a start in HOLD; so does a time base that is not disciplined 150 ms after it began. A
seam ratio waits in RUN and JOIN and otherwise begins to change, and the register shows it once it has. -/
def Obligations.TimeBase : Prop :=
  ((∀ (t : At) (preamble flags : BitVec 8) (v : BitVec 64) (check : BitVec 16) (stop : Bool) (s : State) (n : Nat), n < 4 → Awake t s → s.monitors = true →
    ∃ u, exec (.todMessage t preamble flags v check stop) s = .next u ∧ u = { s.at t with regs := u.regs, times := u.times } ∧
      (todOk preamble flags v check stop = true → SameRegs s u [] ∧ (u.time n).named = some v.toNat ∧ (u.time n).lastNext = some v.toNat ∧
        (u.time n).pairOk = decide ((s.time n).lastNext.map (· + 2 ^ 20) = some v.toNat)) ∧
      (todOk preamble flags v check stop = false → (u.time n).pairOk = false ∧ (u.time n).lastNext = none ∧
        u.fld (Reg.tcStatus n) F.tcStatusTodErrors = min (2 ^ 16 - 1) (s.fld (Reg.tcStatus n) F.tcStatusTodErrors + 1))) ∧
  (∀ (t : At) (s s1 : State), Awake t s → s1 = s.at t → s.monitors = true → (∀ n, n < 4 → s.holdover n = false) →
    ∃ u, exec (.syncEdge t) s = .next u ∧ SameBytes s u ∧
      (∀ n v, n < 4 → (s.time n).loaded = false → (s.time n).pairOk = true → (s.time n).named = some v → (s.time n).namedAt + 100000 ≤ s1.now → s1.now ≤ (s.time n).namedAt + 900000 →
        (u.time n).loaded = true ∧ u.tc n = BitVec.ofInt 64 ((v : Int) + s.syncComp n)) ∧
      ((∀ n, n < 4 → (s.time n).loaded = true ∧ (s.time n).checked = false ∧ -4 ≤ s1.syncError n ∧ s1.syncError n ≤ 4) →
        u.dev = s.dev ∧ ∀ n, n < 4 → u.locked n = true ∧ u.tc n = s1.tc n) ∧
      ((∃ n, n < 4 ∧ (s.time n).loaded = true ∧ (s1.syncError n < -4 ∨ 4 < s1.syncError n)) → s.dev = .run →
        8 ∈ u.boundary.causes ∧ ∀ n, n < 4 → u.holdover n = true ∧ u.locked n = false)) ∧
  (∀ (t : At) (s s1 : State), Awake t s → s1 = s.at t →
    ∃ u, exec (.syncMissed t) s = .next u ∧ SameBytes s u ∧
      ((∀ n, n < 4 → (s.time n).loaded = false ∨ s.holdover n = true ∨ s1.now ≤ (s.time n).expectAt + 4) → u = s1) ∧
      ((∃ n, n < 4 ∧ (s.time n).loaded = true ∧ s.holdover n = false ∧ (s.time n).expectAt + 4 < s1.now ∧ 1 ≤ (s.time n).misses) → s.dev = .run →
        8 ∈ u.boundary.causes ∧ ∀ n, n < 4 → u.holdover n = true)) ∧
  (∀ (t : At) (tower : Nat) (m : BitVec 64) (s s1 : State) (d : Int), tower < 12 → Awake t s → s1 = s.at t → d = ((s1.copyTc tower).toNat : Int) - (m.toNat : Int) →
    ∃ u, exec (.timeMark t tower m) s = .next u ∧ SameBytes s u ∧
      ((s.tower tower).copyValid = false ∨ (-1 ≤ d ∧ d ≤ 1) → u.copyTc tower = m ∧ (u.tower tower).copyValid = true ∧ SameRegs s u []) ∧
      ((s.tower tower).copyValid = true → d < -1 ∨ 1 < d → s.dev = .run → 8 ∈ u.boundary.causes ∧ ∀ n, n < 4 → u.holdover n = true))) ∧
  ((∀ (t : At) (s : State), Awake t s → s.monitors = true →
    ∃ u, exec (.refclkLoss t) s = .next u ∧ SameBytes s u ∧
      (∀ n, n < 4 → u.holdover n = true ∧ u.locked n = false ∨ s.holdover n = true) ∧ (∀ n, n < 4 → u.flag (Reg.tcStatus n) F.tcStatusRefclkLost = true) ∧
      (s.dev = .run → u.dev = .run ∧ 8 ∈ u.boundary.causes ∧ u.flag Reg.onxSchedStatus F.onxSchedStatusHoldRequested = true) ∧
      (s.dev = .load ∨ s.dev = .join → u.dev = .halted ∧ u.fld Reg.onxState F.onxStateHaltCause = 3) ∧
      (s.dev = .bringup → u.dev = .hold ∧ u.fld Reg.onxImgStatus F.onxImgStatusStartCause = 5)) ∧
  (∀ (t : At) (s s1 : State) (late : Prop), Awake t s → s1 = s.at t → (late ↔ s.dev = .bringup ∧ ∃ n, n < 4 ∧ s.locked n = false ∧ (s.time n).began + 150000000 ≤ s1.now) →
    ∃ u, exec (.disciplineTimeout t) s = .next u ∧ (¬late → u = s1) ∧ (late → u.dev = .hold ∧ u.fld Reg.onxImgStatus F.onxImgStatusStartCause = 5)) ∧
  (∀ (t : At) (n w e : Nat) (v : BitVec 64) (s : State), n < 4 → Awake t s → w = F.flrClkRatioW.get v → e = F.flrClkRatioE.get v →
    ∃ u, exec (.ratioWrite t n v) s = .next u ∧ SameBytes s u ∧ u.ratioOf n = s.ratioOf n ∧
      (bit (s.fld (Reg.flrCap n) F.flrCapPackageCap) 5 = false → 0 < w + e → u.ratios = s.ratios ∧ u.rd (Reg.flrClk n) = s.rd (Reg.flrClk n)) ∧
      (bit (s.fld (Reg.flrCap n) F.flrCapPackageCap) 5 = true → w < 3 → e < 3 →
        (s.dev = .run ∨ s.dev = .join → assoc u.ratios n = w + 4 * e + 1 ∧ u.flag (Reg.flrClk n) F.flrClkRatioPending = true) ∧
        (s.dev ≠ .run → s.dev ≠ .join → assoc s.ratios (4 + n) = 0 →
          assoc u.ratios n = 0 ∧ assoc u.ratios (4 + n) = w + 4 * e + 1 ∧ u.flag (Reg.flrClk n) F.flrClkRatioPending = false))) ∧
  (∀ (t : At) (s : State), Awake t s →
    ∃ u, exec (.ratioChangeComplete t) s = .next u ∧ SameBytes s u ∧ ∀ n k, n < 4 → k < 16 → assoc s.ratios (4 + n) = k + 1 → assoc s.ratios n = 0 →
      u.ratioOf n = k ∧ assoc u.ratios (4 + n) = 0))

/-! Light. -/

/-- R249 to R252, R254, R267: a service, once in 10 µs, moves a ring's code by the rounded gain times the error of its quantity from its setpoint, within
48 taps, and by the bias tap, the dither and the trim; a ring whose step is small for eight services is locked; a locked drop ring that hears a wrong
channel steps by one spacing toward its own. An acquisition that finds a response locks at its code and one that finds none parks the ring; so does
the third failed retry. Parked, fenced and unserved rings stay as they are. -/
def Obligations.Rings : Prop :=
  (∀ (t : At) (g : RingId) (photo ref : Nat) (trim : Int) (s s1 : State) (h : Ring) (step : Int) (code : Nat), g.ok = true → Awake t s → s1 = s.at t →
    h = s.ring (ringAddr g) → step = loopStep h.gain (s.loopError g (s.loopQuantity g photo ref)) →
    code = clampCode ((s.heater g : Int) - h.dither - h.trim + step + s.biasTap g + s.ditherOf g + s.trimOf g trim) →
    ∃ u, exec (.ringService t g photo ref trim) s = .next u ∧ SameBytes s u ∧
      (s.ringState g < 1 ∨ 4 < s.ringState g ∨ h.again = true ∨ s1.now < h.nextAt → u = s1) ∧
      (1 ≤ s.ringState g → s.ringState g ≤ 4 → h.again = false → h.nextAt ≤ s1.now → s1.misheard g = none → headroomLow code = false →
        u.heater g = code ∧ (u.ring (ringAddr g)).rotation = h.rotation + 1 ∧ (u.ring (ringAddr g)).nextAt = s1.now + 10000 ∧ SameRegs s u [ringAddr g] ∧
        u.ringState g = if s.ringState g = 2 ∨ s.ringState g = 3 ∨ (8 ≤ h.smallRun + 1 ∧ -2 ≤ step ∧ step ≤ 2) then 2 else s.ringState g) ∧
      (∀ r k i m (to_ : Int), g = .ringDrop r k i → s.ringState g = 2 ∨ s.ringState g = 3 → h.again = false → h.nextAt ≤ s1.now → s1.misheard g = some m →
        h.hopRun < 3 → to_ = (if ringChannel (chanSrc r i) (i % 2) < m then (s.heater g : Int) + s.spacing g else (s.heater g : Int) - s.spacing g) →
        0 ≤ to_ → to_ ≤ 16383 → u.ringState g = 4 ∧ (u.heater g : Int) = to_)) ∧
  (∀ (t : At) (g : RingId) (sight : LockSight) (s : State) (start : Nat), g.ok = true → Awake t s →
    start = clampCode (s.calVal 1 (ringItem g).1 (ringItem g).2) →
    ∃ u, exec (.ringAcquisition t g sight) s = .next u ∧ SameBytes s u ∧ (s.acquirable g = false → u = s.at t) ∧
      (s.acquirable g = true → ∀ c, lockFound sight start = some c → u.heater g = c ∧ u.fld (ringAddr g) F.rplModState = lockedCode c) ∧
      (s.acquirable g = true → ∀ c, sight.direct = some c → c ≤ 16383 → u.heater g = c) ∧
      (s.acquirable g = true → sight.direct = none → sight.search = none → sight.sweep = [] → u.fld (ringAddr g) F.rplModState = 5)) ∧
  (∀ (t : At) (g : RingId) (sight : LockSight) (s : State) (h : Ring), g.ok = true → Awake t s → h = s.ring (ringAddr g) →
    ∃ u, exec (.reacquireRetry t g sight) s = .next u ∧ SameBytes s u ∧
      (s.ringState g ≠ 1 ∨ h.again = false ∨ (s.at t).now < h.retryAt → u = s.at t) ∧
      (s.ringState g = 1 → h.again = true → h.retryAt ≤ (s.at t).now →
        u.fld Reg.onxLockCounts F.onxLockCountsReacquisitions =
          min F.onxLockCountsReacquisitions.max (s.fld Reg.onxLockCounts F.onxLockCountsReacquisitions + 1) ∧
        (∀ c, lockFound sight h.start.toNat = some c → u.heater g = c ∧ u.fld (ringAddr g) F.rplModState = lockedCode c) ∧
        (lockFound sight h.start.toNat = none → h.tries < 2 → u.ringState g = 1 ∧ (u.ring (ringAddr g)).tries = h.tries + 1 ∧
          (u.ring (ringAddr g)).retryAt = (s.at t).now + 1000000) ∧
        (lockFound sight h.start.toNat = none → h.tries = 2 → u.fld (ringAddr g) F.rplModState = 5)))

/-- R257 to R264, R259: a step of 10 µs moves an applied weight at most 512 units toward its target, at most 10,240 where its receiver is fenced, and
nothing where all have reached it; kept sets are written to the calibration area of the store only, in RUN; a cold calibration takes the values found;
an adaptation moves one value one tap toward its target. -/
def Obligations.WeightsAndCalibration : Prop :=
  (∀ (t : At) (src : Nat) (s : State), src < 21 → Awake t s →
    ∃ u, exec (.weightStep t src) s = .next u ∧ SameBytes s u ∧
      (∀ r tr q, r < 21 → r ≠ src → tr < 8 → q < 2 → ∀ a, a = Reg.rplWgt r tr (chanIx r src q) →
        u.fld a F.rplWgtTarget = s.fld a F.rplWgtTarget ∧
        (s.fld a F.rplWgtApplied = s.fld a F.rplWgtTarget → u.fld a F.rplWgtApplied = s.fld a F.rplWgtApplied) ∧
        (s.fld a F.rplWgtApplied ≤ s.fld a F.rplWgtTarget →
          s.fld a F.rplWgtApplied ≤ u.fld a F.rplWgtApplied ∧ u.fld a F.rplWgtApplied ≤ s.fld a F.rplWgtTarget) ∧
        (s.fld a F.rplWgtTarget ≤ s.fld a F.rplWgtApplied →
          s.fld a F.rplWgtTarget ≤ u.fld a F.rplWgtApplied ∧ u.fld a F.rplWgtApplied ≤ s.fld a F.rplWgtApplied) ∧
        (s.pendingWeights src tr q = [r] → s.ringFenced r = true →
          u.fld a F.rplWgtApplied = stepWeight (s.fld a F.rplWgtApplied) (s.fld a F.rplWgtTarget) 10240) ∧
        (s.pendingWeights src tr q = [r] → s.ringFenced r = false →
          u.fld a F.rplWgtApplied = stepWeight (s.fld a F.rplWgtApplied) (s.fld a F.rplWgtTarget) 512))) ∧
  (∀ (t : At) (tile : Nat) (s : State), tile < 4 → Awake t s →
    ∃ u, exec (.keptSetPeriodicWrite t tile) s = .next u ∧ u = { s.at t with store := { s.store with cal := u.store.cal } } ∧
      (s.dev ≠ .run → u = s.at t) ∧ ∀ k, k < 12 * tile ∨ 12 * tile + 10 ≤ k → u.slot k = s.slot k) ∧
  (∀ (t : At) (tile : Nat) (items : List CalItem) (s : State), tile < 4 → Awake t s →
    ∃ u, exec (.coldCalibration t tile items) s = .next u ∧ SameBytes s u ∧ (s.coldDue tile = false → u = s.at t) ∧
      (∀ i, items = [i] → s.coldDue tile = true → overridesOf (s.section_ 7) = [] → i.cls ≠ 4 →
        u.calVal i.cls tile i.index = clampItem i.cls i.value ∧ u.fld Reg.onxCalStatus (calField tile true) = 2)) ∧
  (∀ (t : At) (item : AdaptItem) (target : Int) (s s1 : State), item.ok = true → Awake t s → s1 = s.at t →
    ∃ u, exec (.calibrationAdaptation t item target) s = .next u ∧ SameBytes s u ∧
      (∀ n i, item = .threshold n i → s1.tapDue 3 n i = true → u.item 3 n i = clampItem 3 (tapToward (s.item 3 n i) target) ∧ SameRegs s u [] ∧
        u.tapDue 3 n i = false) ∧
      (∀ n i, item = .threshold n i → s1.tapDue 3 n i = false → u = s1) ∧
      (∀ tower g d w ix, item = .deskew tower g d w → ix = ((tower % 3 * 64 + g) * 2 + d) * 268 + w → assoc s.deskews (tower / 3 * 102912 + ix) = 0 →
        s1.tapDue 4 (tower / 3) ix = true → u.item 4 (tower / 3) ix = clampItem 4 (tapToward (s.item 4 (tower / 3) ix) target)))

/-- R264 to R272: a laser check of inputs within 3 dB marks none failed and writes every line to the supply; a supply that does not answer ready, with no
policy, ends the start in HOLD with start_cause 8. A link with 3 dB of margin and locked rings passes; one below 0.5 dB, or without lock, counts as
failed, and a lane or a fibre that fails so is fenced. A quality measurement writes its register; a laser fault in RUN requests HOLD. -/
def Obligations.LaserMarginAndQuality : Prop :=
  (∀ (t : At) (sight : LaserSight) (measured : List Int) (s : State), Awake t s → s.dev = .bringup →
    ∃ u, exec (.laserCheck t sight measured) s = .next u ∧ SameBytes s u ∧ u.pins.laserEnN = false ∧ u.start.laserDone = true ∧ u.start.maxes = sight.maxes ∧
      ((∃ v ∈ sight.status, bit v 0 = true) → (∀ f c, f < 32 → c ∈ inputLines f → .spi (spiSet f c (s.line f c)) ∈ u.out) ∧
        ((∀ f, f < 32 → (totalPower ((inputLines f).map fun c => (s.line f c).toNat) - measured.getD f (-32768)).natAbs ≤ 300) →
        u.dev = .bringup ∧ ∀ f, f < 32 → u.flag (Reg.onxLaserP f) F.onxLaserPFailed = false ∧
          u.fld (Reg.onxLaserP f) F.onxLaserPMeasured = unsigned 16 (measured.getD f (-32768)))) ∧
      ((∀ v ∈ sight.status, bit v 0 = false) → s.fld (Reg.rplTxStatus 0) F.rplTxStatusWlFailed = 0 →
        s.flag Reg.onxLightPolicy F.onxLightPolicyHalfWidthPolicy = false → u.dev = .hold ∧ u.fld Reg.onxImgStatus F.onxImgStatusStartCause = 8)) ∧
  (∀ (t : At) (l : MarginLink) (q : List Quality) (locked : Bool) (raised : List (List Quality)) (s : State), l.ok = true → Awake t s → s.marginDue l = true →
    ∃ u, exec (.marginTest t l q locked raised) s = .next u ∧ SameBytes s u ∧
      (300 ≤ linkMargin q → locked = true → s.ringsLocked l = true →
        u.dev = s.dev ∧ SameRegs s u (Reg.onxMarginSummary :: (List.range 32).filterMap fun k => qualAddr k l) ∧
        u.fld Reg.onxMarginSummary F.onxMarginSummaryFailed = s.fld Reg.onxMarginSummary F.onxMarginSummaryFailed) ∧
      ((linkMargin q < 50 ∧ raised = []) ∨ locked = false ∨ s.ringsLocked l = false → u.fld Reg.onxMarginSummary F.onxMarginSummaryFailed =
          min F.onxMarginSummaryFailed.max (s.fld Reg.onxMarginSummary F.onxMarginSummaryFailed + 1) ∧
        (∀ j e r, l = .lane j e r → u.fld (laneReg j) F.lplLaneState = 6) ∧ (∀ x, l = .fibre x → u.fibreState x = 4))) ∧
  (∀ (t : At) (l : MarginLink) (k : Nat) (q : Quality) (s : State), l.ok = true → k < 16 → Awake t s →
    ∃ u, exec (.qualityMeasurement t l k q) s = .next u ∧
      (∀ a, qualAddr k l = some a → u.rd a = qualWord q ∧ SameRegs s u [a] ∧ u = { s.at t with regs := u.regs }) ∧
      (qualAddr k l = none → u = s.at t)) ∧
  (∀ (t : At) (s : State), ∃ u, exec (.laserFaultN t) s = .next u ∧ SameBytes s u ∧ u.pins.laserFaultN = false ∧
      (s.dev = .run → 9 ∈ u.boundary.causes ∧ u.flag Reg.onxSchedStatus F.onxSchedStatusHoldRequested = true) ∧
      (s.dev ≠ .run → SameRegs s u []))

/-- R210, R212, R214 to R217, R220, R234, R338, R339: a receiver that a link's light does not reach hears nothing. An uncorrectable flit is discarded and
its number asked for again; a flit out of sequence is discarded; one in sequence advances the receiver's number. A header starts a packet, or one to
be skipped where it does not name the receiver; data joins its packet, which is taken in with its last flit. In a control slot a link with a control
channel reports at most 16 entries, once; a lane has none. An entry heard about an own link acts on it: an acknowledgement frees flits of the replay
buffer, a NAK sends them again and the third in a row for a number fails the link, a credit counts on. Entries act in their order. The oldest flit
that stays unacknowledged for 2,000 ticks is sent again with all after it; a receiver silent three times in a row has failed. A transmitter's slot
sends the packet of the eligible input of highest code, an idle flit where there is none, and nothing under freeze. -/
def Obligations.OpticalLinks : Prop :=
  (∀ (t : At) (l : Link) (rx n : Nat) (f : Flit) (sight : FlitSight) (s s1 : State) (h : RxLink) (p : Packet) (named : Bool),
    l.ok = true → rx < 64 → Awake t s → s1 = s.at t → h = s.rx l rx → p = bodyAny f.body →
    n = (match l with | .lane _ _ => bits f.body 462 456 | _ => bodyFlits f.body) →
    named = (match l with | .lane _ _ => decide (rx ∈ frameReceivers (bodyFrame f.body)) | .ring _ => (Packet.names p).contains rx | _ => true) →
    ∃ u, exec (.flitReceive t l rx f sight) s = .next u ∧
      (s1.hears l rx = false → u = s1) ∧
      (s1.hears l rx = true → badFlit f sight = true →
        (u.rx l rx).nak = some h.expect ∧ (u.rx l rx).expect = h.expect ∧ (u.rx l rx).pkt = h.pkt ∧ (f.seq = h.expect → (u.rx l rx).nakDue = true) ∧
        (sight.channels = [] → SameBytes s u ∧ u.txq = s.txq ∧ u.out = s.out)) ∧
      (s1.hears l rx = true → badFlit f sight = false → f.type ≠ 0 → f.seq ≠ h.expect ∨ f.type = 3 →
        u = { s1 with regs := u.regs, rxLinks := u.rxLinks, ingests := u.ingests } ∧ (u.rx l rx).expect = h.expect ∧ (u.rx l rx).pkt = h.pkt ∧
          (u.rx l rx).left = h.left) ∧
      (s1.hears l rx = true → badFlit f sight = false → f.type = 0 → (∀ r, l ≠ .ring r) → u = { s1 with regs := u.regs }) ∧
      (s1.hears l rx = true → badFlit f sight = false → (f.type = 1 ∨ f.type = 2) → f.seq = h.expect →
        SameBytes s u ∧ (u.rx l rx).expect = (h.expect + 1) % 4096 ∧ (u.rx l rx).nak = none ∧ (u.rx l rx).nakDue = false ∧
        (f.type = 1 → (u.rx l rx).left = n ∧ (u.rx l rx).skip = !named ∧ (named = false ∨ 0 < n → u.txq = s.txq ∧ u.out = s.out) ∧
          (named = true → 0 < n → (∀ e j, l ≠ .lane e j) → (u.rx l rx).pkt = some p) ∧
          (named = true → n = 0 → (∀ e j, l ≠ .lane e j) → ∃ v, v.txq = s.txq ∧ v.out = s.out ∧ SameBytes s v ∧ u = v.takeIn l rx p)) ∧
        (f.type = 2 → h.skip = true → (u.rx l rx).left = h.left - 1 ∧ u.txq = s.txq ∧ u.out = s.out) ∧
        (f.type = 2 → h.skip = false → (u.rx l rx).left = h.left - 1 ∧ ∀ q, h.pkt = some q →
          (1 < h.left → (u.rx l rx).pkt = some { q with data := q.data ++ bytesOf f.body 64 } ∧ u.txq = s.txq ∧ u.out = s.out) ∧
          (h.left ≤ 1 → (u.rx l rx).pkt = none ∧
            ∃ v, v.txq = s.txq ∧ v.out = s.out ∧ SameBytes s v ∧ u = v.takeIn l rx { q with data := q.data ++ bytesOf f.body 64 })))) ∧
  (∀ (t : At) (l : Link) (s s1 v : State), l.ok = true → Awake t s → s1 = s.at t →
    v = (match l with | .ring r => s1.ingestTo r | .fibreOut x => s1.drainFibre x (s1.queue (fibreQueue x) 0).length | _ => s1) →
    ∃ u, exec (.linkControlSend t l) s = .next u ∧ SameBytes s u ∧
      ((∀ r, l ≠ .ring r) → (∀ x, l ≠ .fibreOut x) → u = s1) ∧
      ((∃ r, l = .ring r ∧ s.ringFenced r = true) ∨ (∃ x, l = .fibreOut x ∧ s1.fibreUp x = false) ∨ s1.controlSlot l = none → u = s1) ∧
      (∀ m, ((∃ r, l = .ring r ∧ s.ringFenced r = false) ∨ (∃ x, l = .fibreOut x ∧ s1.fibreUp x = true)) → s1.controlSlot l = some m →
        ((s.tx l).control = m + 1 → u = s1) ∧
        ((s.tx l).control ≠ m + 1 → (u.tx l).control = m + 1 ∧ (v.dueEntries l).length ≤ 16 ∧
          u.out = .control l ((v.dueEntries l).map v.entryFor) (controlFlit ((v.dueEntries l).map v.entryFor)) :: v.out ∧
          ∀ x ∈ v.dueEntries l, (x.1 = 2 → (u.rx x.2.2.2.1 x.2.2.2.2).nakDue = false) ∧
            (x.1 = 3 → (u.rx x.2.2.2.1 x.2.2.2.2).sentCredit = (v.rx x.2.2.2.1 x.2.2.2.2).freed) ∧
            (x.1 = 1 → (u.rx x.2.2.2.1 x.2.2.2.2).sentAck = (v.rx x.2.2.2.1 x.2.2.2.2).expect ∧ (u.rx x.2.2.2.1 x.2.2.2.2).ackAge = 0)))) ∧
  (∀ (t : At) (l : Link) (rx : Nat) (e : CtlEntry) (s s1 : State), l.ok = true → rx < 64 → Awake t s → s1 = s.at t →
    ∃ u, exec (.linkControlReceive t l rx [e]) s = .next u ∧
      (∀ es : List CtlEntry, es.length ≤ 15 → exec (.linkControlReceive t l rx (e :: es)) s = exec (.linkControlReceive t l rx es) u) ∧
      (ownLink l rx e = none → u = s1) ∧
      ∀ (o : Link) (r run : Nat) (x : TxLink), ownLink l rx e = some (o, r) → x = s.tx o →
        run = (match x.naks.find? fun k => decide (k.1 = r) with | some k => if k.2.1 = e.value then k.2.2 + 1 else 1 | none => 1) →
        (e.kind = 1 → u = { s1 with txLinks := u.txLinks } ∧ assoc (u.tx o).silentRuns r = 0 ∧ ∃ n, (u.tx o).replay = x.replay.drop n) ∧
        (e.kind = 2 → run ≠ 3 → SameBytes s u ∧ (u.tx o).replay = x.replay ∧
          ((∀ k, o = .ring k → s.ringFenced k = false) →
            u.out = ((x.replay.dropWhile fun k => decide (k.1.seq ≠ e.value)).map fun k => Emit.flit o k.1).reverse ++ s.out) ∧
          (∀ k, o = .ring k → u.fld (Reg.rplTxErr k) F.rplTxErrReplays = min F.rplTxErrReplays.max (s.fld (Reg.rplTxErr k) F.rplTxErrReplays + 1))) ∧
        (e.kind = 2 → run = 3 → ∃ v : State, v = { s1 with txLinks := v.txLinks } ∧ (v.tx o).replay = x.replay ∧ u = v.linkFail o r t.cyc) ∧
        (e.kind = 3 → e.value < 4096 → SameBytes s u ∧ assoc x.freed r ≤ assoc (u.tx o).freed r ∧ assoc (u.tx o).freed r < assoc x.freed r + 4096 ∧
          assoc (u.tx o).freed r % 4096 = e.value ∧ ((∀ y, o ≠ .fibreOut y) → u = { s1 with txLinks := u.txLinks })) ∧
        (e.kind = 0 ∨ 3 < e.kind → u = s1)) ∧
  (∀ (t : At) (l : Link) (silent : List Nat) (s s1 : State), l.ok = true → silent.Nodup → Awake t s → s1 = s.at t →
    ∃ u, exec (.ackTimeout t l silent) s = .next u ∧ ((s.tx l).replay = [] → u = s1) ∧
      ∀ f first rest, (s.tx l).replay = (f, first) :: rest → (s1.now < first + 2000 → u = s1) ∧
        (first + 2000 ≤ s1.now → ∃ v, SameBytes s v ∧ (v.tx l).replay = (f, s1.now) :: rest ∧
          ((∀ k, l = .ring k → s.ringFenced k = false) → v.out = (((s.tx l).replay.map fun k => Emit.flit l k.1).reverse) ++ s.out) ∧
          (∀ r ∈ silent, r ∈ s1.ackers l → assoc (v.tx l).silentRuns r = assoc (s.tx l).silentRuns r + 1) ∧
          u = ((silent.filter fun r => decide (r ∈ s1.ackers l)).filter fun r => decide (3 ≤ assoc (v.tx l).silentRuns r)).foldl
            (fun w r => w.linkFail l r t.cyc) v)) ∧
  (∀ (t : At) (r : Nat) (ready : Bool) (s s1 : State), r < 21 → Awake t s → s1 = (s.at t).purge r t.cyc →
    ∃ u, exec (.txArbGrant t r ready) s = .next u ∧ SameBytes s1 u ∧
      (s1.arbBusy (.tx r) t.cyc = true → u = { s1 with regs := u.regs }) ∧
      (s1.arbBusy (.tx r) t.cyc = false → s1.flag (Reg.fabTxArbCtrl r) F.fabTxArbCtrlFreeze = true →
        u.txq = s1.txq ∧ u.out = s1.out ∧ u.flag (Reg.fabTxArbCtrl r) F.fabTxArbCtrlDrained = true) ∧
      (t.cyc < (s1.arb (.tx r)).thawAt → u.txq = s1.txq ∧ u.out = s1.out) ∧
      (s1.arbBusy (.tx r) t.cyc = false → s1.flag (Reg.fabTxArbCtrl r) F.fabTxArbCtrlFreeze = false → (s1.arb (.tx r)).thawAt ≤ t.cyc →
        ((∀ k, k < 16 → s1.eligible r (s1.codeAt (.tx r) k) = false) → u.txq = s1.txq ∧
          u.out = if s1.ringFenced r then s1.out else .idle (.ring r) (identFlit 0 r (ringChannel r)) :: s1.out) ∧
        ∀ i c p rest, i < 16 → s1.codeAt (.tx r) i = c → c < 16 → s1.eligible r c = true → (∀ k, i < k → k < 16 → s1.eligible r (s1.codeAt (.tx r) k) = false) →
          s1.queue r c = p :: rest →
          (ready = true → u.queue r c = rest ∧ (∀ j, j < 16 → j ≠ c → u.queue r j = s1.queue r j) ∧
            (u.tx (.ring r)).replay.length = (s1.tx (.ring r)).replay.length + (packetFlits p).length) ∧
          (ready = false → u.txq = s1.txq ∧ u.out = s1.out ∧
            u.fld (Reg.fabTxArbCtrl r) F.fabTxArbCtrlDeadSlots = min (2 ^ 16 - 1) (s1.fld (Reg.fabTxArbCtrl r) F.fabTxArbCtrlDeadSlots + 1))))

/-- R232, R233, R236, R256: a lattice command with reserved bits set changes nothing; one whose phase, or a setting it needs, has not been loaded, or that
finds 16 requests waiting, is discarded and counted; one that changes a lane waits with its request boundary R, the first carat boundary at or after
its time and after the reopening of its lanes that are busy. Two with one R become one, the higher phase taking a lane that both name, a conflict
counted; a rotation that waits for a named lane runs with it. At R the lanes affected let no more frames start: neither fenced lanes nor those already
in the phase. -/
def Obligations.LatticeRequests : Prop :=
  (∀ (t : At) (tile when_ p : Nat) (cmd : BitVec 64) (s s1 : State) (c : Lattice) (named lanes : List Nat) (q : LatReq), tile < 4 → Awake t s → s1 = s.at t →
    c = s.lattice tile → p = bits cmd.toNat 63 56 →
    named = (List.range 8).filter (fun j => bit (bits cmd.toNat 31 0) (8 * tile + j) && decide (s.fld (Reg.lplLane tile j) F.lplLaneState ≠ 6)) →
    lanes = named.filter (fun j => !(s.phaseEntry tile p j).1) →
    q = { lanes := lanes.map fun j => (j, p),
          r := caratUp (max (max when_ (s1.tc tile).toNat)
            (((lanes.filterMap c.busyLane).map fun w => w.b.getD (caratUp (max w.r (s1.tc tile).toNat)) + 2048).foldl max 0)) } →
    ∃ u, exec (.latrForward t tile cmd when_) s = .next u ∧ SameBytes s u ∧ u.lanes = s.lanes ∧
      (bits cmd.toNat 55 32 ≠ 0 → u.lattices = s.lattices ∧
        u.fld (Reg.lplCounts tile) F.lplCountsDiscardedRequests = s.fld (Reg.lplCounts tile) F.lplCountsDiscardedRequests) ∧
      (bits cmd.toNat 55 32 = 0 → u.fld (Reg.lplCounts tile) F.lplCountsLateRequests =
        min F.lplCountsLateRequests.max (s.fld (Reg.lplCounts tile) F.lplCountsLateRequests + if when_ < (s1.tc tile).toNat then 1 else 0)) ∧
      (bits cmd.toNat 55 32 = 0 → p ∉ c.phases ∨ (∃ j ∈ lanes, (s.phaseEntry tile p j).2 ∉ c.settings) ∨ (lanes ≠ [] ∧ 16 ≤ c.queue.length) →
        u.lattices = s.lattices ∧
        u.fld (Reg.lplCounts tile) F.lplCountsDiscardedRequests = min (2 ^ 16 - 1) (s.fld (Reg.lplCounts tile) F.lplCountsDiscardedRequests + 1)) ∧
      (bits cmd.toNat 55 32 = 0 → p ∈ c.phases → (∀ j ∈ lanes, (s.phaseEntry tile p j).2 ∈ c.settings) → lanes = [] ∨ c.queue.length < 16 →
        u.fld (Reg.lplCounts tile) F.lplCountsDiscardedRequests = s.fld (Reg.lplCounts tile) F.lplCountsDiscardedRequests ∧
        (u.lattice tile).active = c.active ∧ (lanes = [] → u.lattices = s.lattices) ∧
        (lanes ≠ [] → u.fld (Reg.lplStatus tile) F.lplStatusQueued = (u.lattice tile).queue.length ∧
          (∀ j ∈ lanes, ∃ w ∈ (u.lattice tile).queue, w.r = q.r ∧ ∃ k, p ≤ k ∧ (j, k) ∈ w.lanes) ∧
          (∀ w ∈ (u.lattice tile).queue, ∀ j ∈ lanes, (j, 256) ∉ w.lanes) ∧
          ((∀ w ∈ c.queue, w.lanes ≠ [] ∧ ∀ j ∈ lanes, (j, 256) ∉ w.lanes) →
            ((∀ w ∈ c.queue, w.r ≠ q.r) → (u.lattice tile).queue = c.queue ++ [q]) ∧
            ∀ w, (c.queue.find? fun x => decide (x.r = q.r)) = some w →
              (u.lattice tile).queue = (c.queue.map fun x => if x = w then joinReqs w q else x) ∧
              u.fld (Reg.lplCounts tile) F.lplCountsConflicts =
                min F.lplCountsConflicts.max (s.fld (Reg.lplCounts tile) F.lplCountsConflicts + if clashes w q = [] then 0 else 1))))) ∧
  (∀ (t : At) (tile : Nat) (s s1 : State) (c : Lattice) (ready : LatReq → Bool), tile < 4 → Awake t s → s1 = s.at t → c = s.lattice tile →
    ready = (fun q => decide (q.r ≤ (s1.tc tile).toNat) && q.lanes.all fun x => (c.busyLane x.1).isNone) → (∀ q ∈ c.queue, ∀ x ∈ q.lanes, x.1 < 8) →
    ∃ u, exec (.requestBoundary t tile) s = .next u ∧ SameBytes s u ∧ (u.lattice tile).queue = c.queue.filter (fun q => !ready q) ∧
      (u.lattice tile).active = c.active ++ ((c.queue.filter ready).map (s1.affected tile)).filter (fun q => decide (q.lanes ≠ [])) ∧
      ∀ j, j < 8 → u.fld (Reg.lplLane tile j) F.lplLaneState =
        if ∃ q ∈ c.queue, ready q = true ∧ ∃ x ∈ (s1.affected tile q).lanes, x.1 = j then 1 else s.fld (Reg.lplLane tile j) F.lplLaneState) ∧
  (∀ (s : State) (tile : Nat) (q : LatReq) (x : Nat × Nat), x ∈ (s.affected tile q).lanes ↔ x ∈ q.lanes ∧ s.fld (Reg.lplLane tile x.1) F.lplLaneState ≠ 6 ∧
    (x.2 = 256 ∨ s.fld (Reg.lplLane tile x.1) F.lplLanePhase ≠ x.2 ∨ (s.lane (8 * tile + x.1)).rotations ≠ []))

/-- R225, R233 to R235, R252, R255: at a carat boundary a drained lane takes its new phase and setting, its banks rotate and its shifters are driven; 600
ticks on it trains, and a bank that hears a rotation of its channels adopts it while another is acquired again; 2,048 ticks on it reopens, or waits
and counts an overrun. A late lane reopens at a carat boundary; one that does not by B plus 16 carats is fenced, and what was outstanding on it
completes. -/
def Obligations.LatticeReconfiguration : Prop :=
  (∀ (t : At) (tile j p : Nat) (q : LatReq) (s s1 : State), tile < 4 → j < 8 → p ≤ 256 → Awake t s → s1 = s.at t → (s.lattice tile).active = [q] → q.b = none →
    q.lanes = [(j, p)] → s.fld (Reg.lplLane tile j) F.lplLaneState ≠ 6 →
    ∃ u, exec (.startBoundary t tile) s = .next u ∧ SameBytes s u ∧
      ((s1.tc tile).toNat % 1024 ≠ 0 ∨ s1.drained (8 * tile + j) = false → u = { s1 with lattices := u.lattices } ∧ (u.lattice tile).active = [q]) ∧
      ((s1.tc tile).toNat % 1024 = 0 → s1.drained (8 * tile + j) = true → (u.lattice tile).active = [{ q with b := some (s1.tc tile).toNat }] ∧
        u.fld (Reg.lplLane tile j) F.lplLaneState = 2 ∧
        (p < 256 → u.fld (Reg.lplLane tile j) F.lplLanePhase = p ∧ u.fld (Reg.lplLane tile j) F.lplLaneSetting = (s.phaseEntry tile p j).2) ∧
        (p = 256 → u.fld (Reg.lplLane tile j) F.lplLanePhase = s.fld (Reg.lplLane tile j) F.lplLanePhase) ∧
        (u.lane (8 * tile + j)).rotations = [] ∧ (u.lane (8 * tile + j)).b = (s1.tc tile).toNat ∧
        u.out = .shifters (8 * tile + j) (u.laneDrive (8 * tile + j)) :: s.out ∧
        ((s.lane (8 * tile + j)).rotations = [] → SameRegs s u [Reg.lplLane tile j]) ∧
        ∀ e mods up, e < 20 → (s.lane (8 * tile + j)).rotations = [(e, mods, up)] → ∀ k, k < 16 →
          u.heater (bankRing (8 * tile + j) e mods k) = clampCode ((s.heater (bankRing (8 * tile + j) e mods k) : Int) +
            (if up then 2 * (s.spacing (bankRing (8 * tile + j) e mods k) : Int) else -(2 * (s.spacing (bankRing (8 * tile + j) e mods k) : Int)))))) ∧
  (∀ (t : At) (tile j p b : Nat) (heard : List (Nat × Nat × List Nat)) (q : LatReq) (s s1 : State), tile < 4 → j < 8 → Awake t s → s1 = s.at t →
    (s.lattice tile).active = [q] → q.b = some b → q.lanes = [(j, p)] →
    ∃ u, exec (.shiftersSettled t tile heard) s = .next u ∧ SameBytes s u ∧
      (s.fld (Reg.lplLane tile j) F.lplLaneState ≠ 2 ∨ (s1.tc tile).toNat < b + 600 → u = s1) ∧
      (s.fld (Reg.lplLane tile j) F.lplLaneState = 2 → b + 600 ≤ (s1.tc tile).toNat → u.fld (Reg.lplLane tile j) F.lplLaneState = 3 ∧
        (∀ e, e < 20 → (∃ i, i < 20 ∧ s.laneSrc (8 * tile + j) i = e) →
          .training (.lane e (8 * tile + j)) (identFlit 2 e fun k => 2 * k + 1) s.pkg 0 ∈ u.out) ∧
        (heard = [] → u = { s1 with regs := u.regs, out := u.out } ∧ SameRegs s u [Reg.lplLane tile j]) ∧
        ∀ e ch, e < 20 → heard = [(8 * tile + j, e, ch)] →
          (∀ d, rotationOf ch = some d → u.fld (Reg.lplRot tile j e) F.lplRotRxRot = d) ∧
          (rotationOf ch = none → (u.lane (8 * tile + j)).relocked = false ∧
            ∀ k, k < 16 → s.ringState (.latDmx (8 * tile + j) e k) ≠ 5 → u.fld (ringAddr (.latDmx (8 * tile + j) e k)) F.rplModState = 1))) ∧
  (∀ (t : At) (tile j p b : Nat) (relocked : List Nat) (q : LatReq) (s s1 : State), tile < 4 → j < 8 → Awake t s → s1 = s.at t → (s.lattice tile).active = [q] →
    q.b = some b → q.lanes = [(j, p)] →
    ∃ u, exec (.laneReopen t tile relocked) s = .next u ∧ SameBytes s u ∧
      ((s1.tc tile).toNat < b + 2048 ∨ s.fld (Reg.lplLane tile j) F.lplLaneState = 5 ∨ s.fld (Reg.lplLane tile j) F.lplLaneState = 6 →
        u.fld (Reg.lplLane tile j) F.lplLaneState = s.fld (Reg.lplLane tile j) F.lplLaneState ∧
        u.fld (Reg.lplCounts tile) F.lplCountsRelockOverruns = s.fld (Reg.lplCounts tile) F.lplCountsRelockOverruns ∧
        (s.fld (Reg.lplLane tile j) F.lplLaneState = 5 → (u.lattice tile).active = [q])) ∧
      (b + 2048 ≤ (s1.tc tile).toNat → s.fld (Reg.lplLane tile j) F.lplLaneState < 5 →
        (8 * tile + j ∈ relocked → (s.lane (8 * tile + j)).relocked = true → u.fld (Reg.lplLane tile j) F.lplLaneState = 0 ∧ (u.lattice tile).active = []) ∧
        (8 * tile + j ∉ relocked ∨ (s.lane (8 * tile + j)).relocked = false → u.fld (Reg.lplLane tile j) F.lplLaneState = 5 ∧ (u.lattice tile).active = [q] ∧
          u.fld (Reg.lplCounts tile) F.lplCountsRelockOverruns = min (2 ^ 16 - 1) (s.fld (Reg.lplCounts tile) F.lplCountsRelockOverruns + 1)))) ∧
  (∀ (t : At) (j : BitVec 5) (s s1 : State), Awake t s → s1 = s.at t →
    ∃ u, exec (.laneLateRelock t j) s = .next u ∧ u = { s1 with regs := u.regs, lattices := u.lattices } ∧
      SameRegs s u [laneReg j.toNat, Reg.lplStatus (j.toNat / 8)] ∧
      u.fld (laneReg j.toNat) F.lplLaneState =
        if s.fld (laneReg j.toNat) F.lplLaneState = 5 ∧ (s1.tc (j.toNat / 8)).toNat % 1024 = 0 then 0 else s.fld (laneReg j.toNat) F.lplLaneState) ∧
  (∀ (t : At) (j : BitVec 5) (s s1 : State), Awake t s → s1 = s.at t →
    ∃ u, exec (.laneFenceTimeout t j) s = .next u ∧
      (s.fld (laneReg j.toNat) F.lplLaneState ≠ 5 ∨ (s1.tc (j.toNat / 8)).toNat < (s.lane j.toNat).b + 16384 → u = s1) ∧
      (s.fld (laneReg j.toNat) F.lplLaneState = 5 → (s.lane j.toNat).b + 16384 ≤ (s1.tc (j.toNat / 8)).toNat →
        (∃ v, SameBytes s v ∧ v.ops = s.ops ∧ v.fld (laneReg j.toNat) F.lplLaneState = 6 ∧ u = (v.failLane j.toNat t.cyc).settleActive (j.toNat / 8)) ∧
        (s.ops = [] → SameBytes s u ∧ u.fld (laneReg j.toNat) F.lplLaneState = 6 ∧
          ∀ e, e < 20 → u.framesAt e j.toNat = [] ∧ (u.tx (.lane e j.toNat)).replay = [])))

/-- R212, R227 to R231, R234, R238, R243: a frame starts on an open lane whose phase connects it, with the phase in its header; it moves to the lane that
its number takes of those that connect it, and goes on the ring plane where none does; a lane with nothing to send sends an idle flit. A squelched
receiver takes nothing; a receiver discards a frame of another phase or from another source than its lane connects, which the lane's tile counts; an
output that the frame does not address ignores it. What is accepted is a store, a member's part of a multicast store or a response, and a fibre
endpoint forwards it. -/
def Obligations.LatticeFrames : Prop :=
  (∀ (t : At) (j : BitVec 5) (e turn : Nat) (s s1 : State) (on lanes : List Nat) (f : Frame) (rest : List Frame), e < 20 → Awake t s → s1 = s.at t →
    lanes = (List.range 32).filter (fun i => decide (s.fld (laneReg i) F.lplLaneState ≠ 6) && on.all fun d => decide (s.laneSrc i d = e)) →
    turn = (if f.dst = 31 then lanes.getD 0 j.toNat else lanes.getD (f.index % lanes.length) j.toNat) →
    ∃ u, exec (.laneFrameStart t j e) s = .next u ∧ SameBytes s u ∧
      (s.laneOpen j.toNat = false → u = s1) ∧
      (s.framesAt e j.toNat = [] → s.laneOpen j.toNat = true → u =
        if (s.tx (.lane e j.toNat)).busyUntil ≤ 32 * s1.now then { s1 with out := .idle (.lane e j.toNat) (identFlit 0 e fun k => 2 * k + 1) :: s.out } else s1) ∧
      (s.framesAt e j.toNat = f :: rest → on = frameReceivers f → s.laneOpen j.toNat = true →
        (lanes ≠ [] → turn ≠ j.toNat → u.framesAt e j.toNat = rest ∧ u.out = s.out ∧ turn ∈ lanes ∧
          u.framesAt e turn = frameInto { f with reached := if e < 12 then t.cyc else s1.now } (s.framesAt e turn)) ∧
        (lanes ≠ [] → turn = j.toNat → s.mayStart (.lane e j.toNat) on (frameFlits f).length = false → u = s1) ∧
        (lanes ≠ [] → turn = j.toNat → s.mayStart (.lane e j.toNat) on (frameFlits f).length = true → u.framesAt e j.toNat = rest ∧
          (u.tx (.lane e j.toNat)).replay.length = (s.tx (.lane e j.toNat)).replay.length + (frameFlits f).length ∧
          ∃ l, u.out = .frame j.toNat e { f with phase := s.fld (laneReg j.toNat) F.lplLanePhase } :: l) ∧
        (lanes = [] → u.framesAt e j.toNat = rest ∧ u.out = s.out ∧
          u.fld (Reg.lplFallback (latTile e) e) F.lplFallbackRingFallbacks =
            min F.lplFallbackRingFallbacks.max (s.fld (Reg.lplFallback (latTile e) e) F.lplFallbackRingFallbacks + 1) ∧
          ∃ p : Packet, p.data = f.data ∧ p.addr = f.addr ∧ p.tag = f.tag ∧ (∀ d, d < 20 → d ∈ on → f.dst ≠ 31 → p.hopDst = ringOfLat d) ∧
            u.queue (ringOfLat e) 11 = packetInto (packetRank (ringOfLat e) 11) p (s.queue (ringOfLat e) 11)))) ∧
  (∀ (t : At) (j : BitVec 5) (e : Nat) (f : Frame) (s s1 v : State), e < 20 → Awake t s → s1 = s.at t → v = s1.overTower (ringOfLat e) 2 (framePacket f) →
    ∃ u, exec (.frameReceive t j e f) s = .next u ∧
      (2 ≤ s.fld (laneReg j.toNat) F.lplLaneState → u = s1) ∧
      (s.fld (laneReg j.toNat) F.lplLaneState < 2 →
        (f.phase ≠ s.fld (laneReg j.toNat) F.lplLanePhase → u = { s1 with regs := u.regs } ∧
          u.fld (Reg.lplDisc (j.toNat / 8) e) F.lplDiscWrongPhase = min F.lplDiscWrongPhase.max (s.fld (Reg.lplDisc (j.toNat / 8) e) F.lplDiscWrongPhase + 1)) ∧
        (f.phase = s.fld (laneReg j.toNat) F.lplLanePhase → f.src ≠ s.laneSrc j.toNat e → u = { s1 with regs := u.regs } ∧
          u.fld (Reg.lplDisc (j.toNat / 8) e) F.lplDiscWrongSource = min F.lplDiscWrongSource.max (s.fld (Reg.lplDisc (j.toNat / 8) e) F.lplDiscWrongSource + 1)) ∧
        (f.phase = s.fld (laneReg j.toNat) F.lplLanePhase → f.src = s.laneSrc j.toNat e →
          (e ∉ frameReceivers f → u = s1) ∧
          (e ∈ frameReceivers f →
            (16 ≤ e → u = s1.forwardFrame (e - 16) f) ∧
            (e < 16 → (f.kind = 1 → exec (.store t (ringOfLat e) (framePacket f)) v = .next u) ∧
              (f.kind = 2 → exec (.mstore t (ringOfLat e) (framePacket f)) v = .next u) ∧
              (f.kind = 3 → exec (.response t (ringOfLat e) { framePacket f with status := statusCode (if f.poison then .poison else .ok) }) v = .next u)) ∧
            ∀ a k o, e < 16 → f.kind = 1 → f.poison = false →
              s1.check (framePacket f) f.data.length .wr (linesOk (localAddr f.addr) f.data.length) false = .at_ a → placeOf a = .hbm k o →
              s1.frozenFor a f.data.length = none →
              ∀ b, u.byte b = if a ≤ b ∧ b < a + f.data.length then f.data.getD (b - a) 0 else s.byte b))))

/-! Arbiters, routes and memory. -/

/-- R192, R193, R338, R343: freeze stops an arbiter, which has drained once no grant is outstanding; clearing it allows grants from the next cycle on, and
what waited at a vault's port, each in a cycle of its own from then on, or at a channel, goes on. A map that names every code once waits, and takes
effect in a slot with no grant outstanding; any other is discarded. -/
def Obligations.ArbiterFreezeAndMap : Prop :=
  (∀ (t : At) (a : Arbiter) (s s1 : State), a.ok = true → Awake t s → s1 = s.at t →
    ∃ u, exec (.arbFreezeSet t a) s = .next u ∧ u = { s1 with regs := u.regs, arbs := u.arbs } ∧ SameRegs s u [arbCtrl a, arbMap a] ∧
      u.flag (arbCtrl a) F.fabTxArbCtrlFreeze = true ∧
      u.flag (arbCtrl a) F.fabTxArbCtrlDrained = (s.flag (arbCtrl a) F.fabTxArbCtrlDrained || !s1.arbBusy a t.cyc)) ∧
  (∀ (t : At) (a : Arbiter) (s s1 : State), a.ok = true → Awake t s → s1 = s.at t →
    ∃ u, exec (.arbFreezeClear t a) s = .next u ∧ u.flag (arbCtrl a) F.fabTxArbCtrlFreeze = false ∧
      (s.flag (arbCtrl a) F.fabTxArbCtrlFreeze = false → u = { s1 with regs := u.regs } ∧ SameRegs s u [arbCtrl a] ∧
        u.flag (arbCtrl a) F.fabTxArbCtrlDrained = false) ∧
      (∀ r, s.flag (arbCtrl a) F.fabTxArbCtrlFreeze = true → a = .tx r → u = { s1 with regs := u.regs, arbs := u.arbs } ∧ SameRegs s u [arbCtrl a] ∧
        u.flag (arbCtrl a) F.fabTxArbCtrlDrained = false ∧ u.arb a = { s.arb a with thawAt := t.cyc + 1 }) ∧
      (∀ c, s.flag (arbCtrl a) F.fabTxArbCtrlFreeze = true → a = .vault c → (u.arb a).thawAt = t.cyc + 1 ∧ (u.core c).waiting = [] ∧
        ((s.core c).waiting = [] → u = { s1 with regs := u.regs, arbs := u.arbs } ∧ SameRegs s u [arbCtrl a]) ∧
        (∀ pri off data bad, (s.core c).waiting = [.write pri off data bad] → s.coreFenced c = false →
          ∀ b, u.byte b = if windowOf c + off ≤ b ∧ b < windowOf c + off + data.length then data.getD (b - (windowOf c + off)) 0 else s.byte b) ∧
        ∃ v : State, v = { s1 with regs := v.regs, arbs := v.arbs, cores := v.cores } ∧ SameRegs s v [arbCtrl a] ∧ v.core c = { s.core c with waiting := [] } ∧
          (∀ d, d ≠ c → v.core d = s.core d) ∧
          u = { v.runAccesses c (t.cyc + 1) (t.cyc + 1) ((s.core c).waiting.foldl (fun l x => placeAccess s c x l) []) with clk := t.cyc }) ∧
      (∀ k c, s.flag (arbCtrl a) F.fabTxArbCtrlFreeze = true → a = .channel k c →
        ∃ v : State, v = { s1 with regs := v.regs, arbs := v.arbs } ∧ SameRegs s v [arbCtrl a] ∧ (v.arb a).waiting = [] ∧ (v.arb a).thawAt = t.cyc + 1 ∧
          v.flag (arbCtrl a) F.fabTxArbCtrlDrained = false ∧ u = (s.arb a).waiting.foldl (fun w x => w.retake x.1 t.cyc x.2) v)) ∧
  (∀ (t : At) (a : Arbiter) (v : BitVec 64) (s : State), a.ok = true → Awake t s →
    ∃ u, exec (.arbMapWrite t a v) s = .next u ∧ SameBytes s u ∧ u.rd (arbMap a) = s.rd (arbMap a) ∧
      (mapOk a v = true → (u.arb a).pendingMap = some (v &&& BitVec.ofNat 64 (2 ^ (4 * arbInputs a) - 1)) ∧
        u.flag (arbCtrl a) F.fabTxArbCtrlMapPending = true ∧ SameRegs s u [arbCtrl a]) ∧
      (mapOk a v = false → u.arbs = s.arbs ∧ u.rd (arbCtrl a) = s.rd (arbCtrl a))) ∧
  (∀ (t : At) (a : Arbiter) (s s1 : State), a.ok = true → Awake t s → s1 = s.at t →
    ∃ u, exec (.arbMapApply t a) s = .next u ∧ u = { s1 with regs := u.regs, arbs := u.arbs } ∧ SameRegs s u [arbCtrl a, arbMap a] ∧
      (s1.arbBusy a t.cyc = true → u = s1) ∧
      (∀ m, s1.arbBusy a t.cyc = false → (s.arb a).pendingMap = some m →
        u.rd (arbMap a) = m ∧ (u.arb a).pendingMap = none ∧ u.flag (arbCtrl a) F.fabTxArbCtrlMapPending = false))

/-- R338, R342, R351, R352, R354 to R356: a slot goes to the eligible request of the highest input, of one input to the one that arrived first, of one
slot to the lower line; a granted write stores its line with the mark of its data; a granted read counts what its stored code has met and is kept for
merging; a read that the model has already done with its request is not done twice (assumption 99). A withdrawn read costs a slot and changes no
memory; a read of a line granted at most 16 ticks before follows it and takes no slot; a request that would break a distance of R351 waits. A refresh
holds eight banks, in a slot that is free. R353 to R355, R426, R429: in BRINGUP a stack's initialization leaves it zero with good codes; the scrub
goes to the next line in a slot that is free, correcting and poisoning what it finds; a temperature over 85 °C doubles the refresh, and one of 105 °C
trips the device. -/
def Obligations.HbmChannelsAndUpkeep : Prop :=
  ((∀ (t : At) (k c i : Nat) (q : PortReq) (reqs : List PortReq) (withdraws : Bool) (upset m : Mark) (s s1 : State) (a : Nat) (free : PortReq → Bool),
    k < 16 → c < 32 → Awake t s → s1 = s.at t → s1.arbBusy (.channel k c) t.cyc = false → (s.arb (.channel k c)).thawAt ≤ t.cyc →
    free = (fun x => decide (x.code ≠ 0 ∧ x.addr < stackSize ∧ lineChannel x.addr = c) && !s1.channelFollows k c x && (s.arb (.channel k c)).takes x s1.now) →
    i < 8 → s.codeAt (.channel k c) i = q.code → (∀ j, i < j → j < 8 → ∀ x ∈ reqs, free x = true → s.codeAt (.channel k c) j ≠ x.code) →
    q ∈ reqs → free q = true → (∀ x ∈ reqs, free x = true → x.code = q.code → x = q ∨ q.since < x.since ∨ (q.since = x.since ∧ q.addr / 64 < x.addr / 64)) →
    a = stackAt k + q.addr / 64 * 64 → m = upsetMark (s.mark a) upset →
    ∃ u, exec (.hbmChannelGrant t k c reqs withdraws upset) s = .next u ∧
      (s.flag (Reg.hbmArbCtrl k c) F.hbmArbCtrlFreeze = true → SameBytes s u ∧ u.marks = s.marks ∧ u.flag (Reg.hbmArbCtrl k c) F.hbmArbCtrlDrained = true) ∧
      (s.flag (Reg.hbmArbCtrl k c) F.hbmArbCtrlFreeze = false → q.write = true → q.data.length = 64 →
        (∀ b, u.byte b = if a ≤ b ∧ b < a + 64 then q.data.getD (b - a) 0 else s.byte b) ∧ u.mark a = (if q.poison then .poison else .good) ∧
        (∀ b, b ≠ a → u.mark b = s.mark b) ∧ (u.arb (.channel k c)).merge = (s.arb (.channel k c)).merge.filter fun e => !(e.1.contains (q.addr / 64))) ∧
      (s.flag (Reg.hbmArbCtrl k c) F.hbmArbCtrlFreeze = false → q.write = false → withdraws = false →
        SameBytes s u ∧ u.mark a = m ∧ (∀ b, b ≠ a → u.mark b = s.mark b) ∧
        ((0, [a]) ∈ (s.arb (.channel k c)).served → (u.arb (.channel k c)).served = dropFirst (s.arb (.channel k c)).served (0, [a]) ∧
          u.rd (Reg.hbmEcc k) = s.rd (Reg.hbmEcc k)) ∧
        ((0, [a]) ∉ (s.arb (.channel k c)).served →
          (u.arb (.channel k c)).merge = (([q.addr / 64], s1.now) :: (s.arb (.channel k c)).merge).take 32 ∧
          (m = .good ∨ m = .poison → SameRegs s u [Reg.hbmStatus k, Reg.hbmArbCtrl k c]) ∧
          (m = .ce ∨ m = .cePoison → u.fld (Reg.hbmEcc k) F.hbmEccCeLines = min F.hbmEccCeLines.max (s.fld (Reg.hbmEcc k) F.hbmEccCeLines + 1) ∧
            ((s.arb (.channel k c)).wbq.length < 8 → (u.arb (.channel k c)).wbq = (s.arb (.channel k c)).wbq ++ [a])) ∧
          (m = .ue → u.fld (Reg.hbmEcc k) F.hbmEccUeLines = min (2 ^ 16 - 1) (s.fld (Reg.hbmEcc k) F.hbmEccUeLines + 1)))) ∧
      (s.flag (Reg.hbmArbCtrl k c) F.hbmArbCtrlFreeze = false → q.write = false → withdraws = true →
        u = { s1 with regs := u.regs, arbs := u.arbs } ∧ SameRegs s u [Reg.hbmArbCtrl k c, Reg.hbmStatus k] ∧
        u.fld (Reg.hbmArbCtrl k c) F.hbmArbCtrlDeadSlots = min (2 ^ 16 - 1) (s.fld (Reg.hbmArbCtrl k c) F.hbmArbCtrlDeadSlots + 1))) ∧
  (∀ (t : At) (k c : Nat) (q : PortReq) (withdraws : Bool) (upset : Mark) (s s1 : State), k < 16 → c < 32 → Awake t s → s1 = s.at t → q.code ≠ 0 →
    q.addr < stackSize → lineChannel q.addr = c → s1.channelFree k c t.cyc = true →
    ∃ u, exec (.hbmChannelGrant t k c [q] withdraws upset) s = .next u ∧
      (s1.channelFollows k c q = true → SameBytes s u ∧
        u.fld (Reg.hbmStatus k) F.hbmStatusMerges = min (2 ^ 32 - 1) (s.fld (Reg.hbmStatus k) F.hbmStatusMerges + 1)) ∧
      (s1.channelFollows k c q = false → (s.arb (.channel k c)).held (lineBank q.addr) s1.now = false → (s.arb (.channel k c)).spaced q s1.now = false →
        SameBytes s u ∧ u.fld (Reg.hbmArbCtrl k c) F.hbmArbCtrlWaitSlots = min F.hbmArbCtrlWaitSlots.max (s.fld (Reg.hbmArbCtrl k c) F.hbmArbCtrlWaitSlots + 1))) ∧
  (∀ (t : At) (k c : Nat) (q : PortReq) (s s1 : State), k < 16 → c < 32 → Awake t s → s1 = s.at t →
    ∃ u, exec (.hbmMerge t k c q) s = .next u ∧ u = { s1 with regs := u.regs } ∧ SameRegs s u [Reg.hbmStatus k] ∧
      u.fld (Reg.hbmStatus k) F.hbmStatusMerges =
        (if (lineChannel q.addr = c ∧ q.addr < stackSize) ∧ s1.channelFollows k c q = true
        then min (2 ^ 32 - 1) (s.fld (Reg.hbmStatus k) F.hbmStatusMerges + 1) else s.fld (Reg.hbmStatus k) F.hbmStatusMerges) ∧
      ∀ i, i < 8 → s.codeAt (.channel k c) i = q.code → (∀ j, j < i → s.codeAt (.channel k c) j ≠ q.code) → lineChannel q.addr = c → q.addr < stackSize →
        (s1.channelFollows k c q = true ↔ q.write = false ∧ 2 ≤ i ∧ i ≤ 5 ∧ (0, [stackAt k + q.addr / 64 * 64]) ∉ (s.arb (.channel k c)).served ∧
          ∃ e ∈ (s.arb (.channel k c)).merge, e.1 = [q.addr / 64] ∧ e.2 ≤ s1.now ∧ s1.now ≤ e.2 + 16)) ∧
  (∀ (t : At) (k c : Nat) (g : BitVec 2) (s s1 : State), k < 16 → c < 32 → Awake t s → s1 = s.at t →
    s1.channelFree k c t.cyc = decide (s1.arbBusy (.channel k c) t.cyc = false ∧ s.flag (Reg.hbmArbCtrl k c) F.hbmArbCtrlFreeze = false ∧
      (s.arb (.channel k c)).thawAt ≤ t.cyc) ∧
    ∃ u, exec (.hbmRefresh t k c g) s = .next u ∧ u = { s1 with arbs := u.arbs } ∧ (s1.channelFree k c t.cyc = false → u = s1) ∧ (s1.channelFree k c t.cyc = true →
      (∀ bank, bank / 8 = g.toNat → (u.arb (.channel k c)).held bank s1.now = true) ∧
      (∀ bank, bank / 8 ≠ g.toNat → (u.arb (.channel k c)).held bank s1.now = (s.arb (.channel k c)).held bank s1.now)))) ∧
  ((∀ (t : At) (k : Nat) (s : State), k < 16 → Awake t s → s.dev = .bringup →
    ∃ u, exec (.hbmInitialization t k) s = .next u ∧ u.flag (Reg.hbmStatus k) F.hbmStatusReady = true ∧ k ∈ u.start.hbmDone ∧
      ∀ a, u.byte a = (if stackAt k ≤ a ∧ a < stackAt (k + 1) then 0 else s.byte a) ∧ u.mark a = if stackAt k ≤ a ∧ a < stackAt (k + 1) then .good else s.mark a) ∧
  (∀ (t : At) (k p a : Nat) (upset m : Mark) (s s1 : State) (due : Prop), k < 16 → Awake t s → s1 = s.at t → s.dev = .load ∨ s.dev = .join ∨ s.dev = .run ∨ s.dev = .hold →
    p = s.fld (Reg.hbmScrub k) F.hbmScrubPosition → p < stackSize → a = stackAt k + p → m = upsetMark (s.mark a) upset →
    (due ↔ s1.channelFree k (lineChannel p) t.cyc = true ∧ (s.arb (.channel k (lineChannel p))).takes { code := 6, addr := p } s1.now = true) →
    ∃ u, exec (.scrubRead t k upset) s = .next u ∧ SameBytes s u ∧ (¬due → u = s1) ∧ (due → (∀ b, b ≠ a → u.mark b = s.mark b) ∧
      s1.arbBusy (.channel k (lineChannel p)) t.cyc = false ∧ u.arbBusy (.channel k (lineChannel p)) t.cyc = true ∧
      u.mark a = (if m = .ue then .poison else correctedMark m) ∧
      u.fld (Reg.hbmScrub k) F.hbmScrubPosition = (if stackSize ≤ p + 64 then 0 else p + 64) ∧
      u.fld (Reg.hbmScrub k) F.hbmScrubPasses = (if stackSize ≤ p + 64 then min (2 ^ 16 - 1) (s.fld (Reg.hbmScrub k) F.hbmScrubPasses + 1)
        else s.fld (Reg.hbmScrub k) F.hbmScrubPasses) ∧
      u.fld (Reg.hbmEcc k) F.hbmEccCeLines = (if m = .ce ∨ m = .cePoison then min (2 ^ 32 - 1) (s.fld (Reg.hbmEcc k) F.hbmEccCeLines + 1) else s.fld (Reg.hbmEcc k) F.hbmEccCeLines) ∧
      u.fld (Reg.hbmEcc k) F.hbmEccUeLines = (if m = .ue then min (2 ^ 16 - 1) (s.fld (Reg.hbmEcc k) F.hbmEccUeLines + 1) else s.fld (Reg.hbmEcc k) F.hbmEccUeLines))) ∧
  (∀ (t : At) (k temp : Nat) (s : State), k < 16 → Awake t s →
    ∃ u, exec (.hbmTempRead t k temp) s = .next u ∧ SameBytes s u ∧ u.fld (Reg.hbmStatus k) F.hbmStatusTemp = min 255 temp ∧
      u.flag (Reg.hbmStatus k) F.hbmStatusFastRefresh = decide (85 < temp) ∧
      (temp < 105 → u.dev = s.dev ∧ SameRegs s u [Reg.hbmStatus k]) ∧
      (105 ≤ temp → u.dev = .tripped ∧ u.pins.thermtripN = false ∧ u.pins.laserEnN = true ∧ u.fld Reg.onxThermTrip F.onxThermTripSource = 0xF0 + k)))

/-- R332, R336: a flip is named with an epoch other than the current one; at a carat boundary from the flip carat on, with no bank locked, the shadow bank
becomes current and the old one is locked for 64 carats. A route entry is written in the shadow bank, and in no bank while one is locked. -/
def Obligations.RoutesAndEpochs : Prop :=
  (∀ (t : At) (v : BitVec 64) (s : State), Awake t s →
    ∃ u, exec (.flipCaratWrite t v) s = .next u ∧ SameBytes s u ∧
      (F.fabRtCtrlNextEpoch.get v = s.fld Reg.fabRtCtrl F.fabRtCtrlCurEpoch → u.rd Reg.fabRtCtrl = s.rd Reg.fabRtCtrl) ∧
      (F.fabRtCtrlNextEpoch.get v ≠ s.fld Reg.fabRtCtrl F.fabRtCtrlCurEpoch → u = { s.at t with regs := u.regs } ∧ SameRegs s u [Reg.fabRtCtrl] ∧
        u.flag Reg.fabRtCtrl F.fabRtCtrlPending = true ∧ u.fld Reg.fabRtCtrl F.fabRtCtrlNextEpoch = F.fabRtCtrlNextEpoch.get v ∧
        u.fld Reg.fabRtCtrl F.fabRtCtrlFlipCarat = F.fabRtCtrlFlipCarat.get v ∧
        u.fld Reg.fabRtCtrl F.fabRtCtrlCurEpoch = s.fld Reg.fabRtCtrl F.fabRtCtrlCurEpoch)) ∧
  (∀ (t : At) (s s1 : State) (due : Prop), Awake t s → s1 = s.at t →
    (due ↔ s.flag Reg.fabRtCtrl F.fabRtCtrlPending = true ∧ s.flag Reg.fabRtCtrl F.fabRtCtrlPrevLocked = false ∧
      1024 * s.fld Reg.fabRtCtrl F.fabRtCtrlFlipCarat ≤ s1.tcNat ∧ s1.tcNat % 1024 = 0) →
    ∃ u, exec (.routeFlip t) s = .next u ∧ (¬due → u = s1) ∧
      (due → u = { s1 with regs := u.regs, lockEnd := s1.now + 65536, prevEpoch := s.fld Reg.fabRtCtrl F.fabRtCtrlCurEpoch } ∧ SameRegs s u [Reg.fabRtCtrl] ∧
        u.fld Reg.fabRtCtrl F.fabRtCtrlCurrentBank = 1 - s.fld Reg.fabRtCtrl F.fabRtCtrlCurrentBank ∧
        u.fld Reg.fabRtCtrl F.fabRtCtrlCurEpoch = s.fld Reg.fabRtCtrl F.fabRtCtrlNextEpoch ∧
        u.flag Reg.fabRtCtrl F.fabRtCtrlPending = false ∧ u.flag Reg.fabRtCtrl F.fabRtCtrlPrevLocked = true)) ∧
  (∀ (t : At) (s s1 : State), Awake t s → s1 = s.at t →
    ∃ u, exec (.bankLockEnd t) s = .next u ∧ u = { s1 with regs := u.regs } ∧ SameRegs s u [Reg.fabRtCtrl] ∧
      u.flag Reg.fabRtCtrl F.fabRtCtrlPrevLocked = (s.flag Reg.fabRtCtrl F.fabRtCtrlPrevLocked && decide (s1.now < s.lockEnd))) ∧
  (∀ (t : At) (r d : Nat) (b : Bool) (v : BitVec 64) (s : State), r < 21 → d < 64 → Awake t s →
    ∃ u, exec (.routeTableWrite t r b d v) s = .next u ∧ SameBytes s u ∧
      (b2n b = s.fld Reg.fabRtCtrl F.fabRtCtrlCurrentBank ∨ s.flag Reg.fabRtCtrl F.fabRtCtrlPrevLocked = true →
        ∀ q x c, q < 21 → x < 64 → u.rd (Reg.fabRt q (b2n c) x) = s.rd (Reg.fabRt q (b2n c) x)) ∧
      (b2n b ≠ s.fld Reg.fabRtCtrl F.fabRtCtrlCurrentBank → s.flag Reg.fabRtCtrl F.fabRtCtrlPrevLocked = false →
        u = { s.at t with regs := u.regs } ∧ SameRegs s u [Reg.fabRt r (b2n b) d] ∧ u.rd (Reg.fabRt r (b2n b) d) = v &&& 0xF83FFFF000000000))

/-- R348, R352, R353, R357 to R363, R368, R383: a request with a reserved op is answered DENIED; outside RUN a request is answered NOT_READY; one without
a valid job, source, shape, window or permission DENIED, which FAB_OP_STAT counts; one for a fenced core's vault PATH_FENCED; one for a frozen memory
waits. An allowed LOAD is answered with its bytes, POISON where a word or line is poisoned; an allowed STORE writes them, poisoned where it is; an
MSTORE writes at a member tower what its address names there, and a fibre endpoint copies it for each member package under a tag of its own. -/
def Obligations.LoadsAndStores : Prop :=
  (∀ (t : At) (r : Nat) (p : Packet) (s s1 : State), r < 21 → Awake t s → s1 = s.at t → p.cls = 8 → reservedOp p.op = true → (ringTower r).isSome ∨ (ringMem r).isSome →
    ∃ u, exec (.load t r p) s = .next u ∧ SameBytes s u ∧ Answers s1 u r p (s1.answerOf r p .denied 0 [] false)) ∧
  (∀ (t : At) (r : Nat) (p : Packet) (s s1 : State), r < 21 → Awake t s → s1 = s.at t → p.cls = 8 → p.op = 1 → (ringTower r).isSome ∨ (ringMem r).isSome →
    ∃ u, exec (.load t r p) s = .next u ∧
      (∀ st co, s1.checkLoad p true = .ends st co → SameBytes s u ∧ Answers s1 u r p (s1.answerOf r p st 0 [] false) ∧
        (s.dev ≠ .run → st = .notReady) ∧
        (st = .denied → u.fld Reg.fabOpStat F.fabOpStatDenied = min (2 ^ 16 - 1) (s.fld Reg.fabOpStat F.fabOpStatDenied + 1) ∧
          ∀ c, co = some c → u.flag (Reg.coreFault c) F.coreFaultAccessDenied = true)) ∧
      (s1.checkLoad p true = .info → SameBytes s u ∧ (s1.latticeReply r p = false → Answers s1 u r p (s1.answerOf r p .ok 0 s1.infoLine false)) ∧
        ∃ v : State, v.txq = s.txq ∧ v.frames = s.frames ∧ u = v.answer r p .ok 0 s1.infoLine false) ∧
      (∀ a, s1.checkLoad p true = .at_ a →
        (∀ k e, s1.copyAt a = some (k, e) → s1.flag (Reg.hbmCopy0 k e) F.hbmCopy0Valid = false → SameBytes s u ∧ u.txq = s.txq ∧ u.out = s.out ∧
          u.flag (Reg.hbmCopy0 k e) F.hbmCopy0Fetching = true ∧
          (u.fetchOf k e).waiting = (if s.flag (Reg.hbmCopy0 k e) F.hbmCopy0Fetching then (s.fetchOf k e).waiting else []) ++ [p]) ∧
        ((∀ k e, s1.copyAt a = some (k, e) → s1.flag (Reg.hbmCopy0 k e) F.hbmCopy0Valid = true) →
          (s1.shut a = true → SameBytes s u ∧ Answers s1 u r p (s1.answerOf r p .pathFenced 0 [] false)) ∧
          (∀ x, s1.shut a = false → s1.frozenFor a (loadBytes p) = some x → SameBytes s u ∧ u.txq = s.txq ∧ u.out = s.out ∧
            (∀ c, x = .vault c → (u.core c).waiting = (s.core c).waiting ++ [.packet r p]) ∧
            ∀ k c, x = .channel k c → (u.arb x).waiting = (s.arb x).waiting ++ [(r, p)]) ∧
          (∀ k o bad, placeOf a = .hbm k o → s1.frozenFor a (loadBytes p) = none → a % 64 = 0 →
            bad = (List.range (loadBytes p / 64)).any (fun i => decide (s.mark (a + 64 * i) = .ue ∨ s.mark (a + 64 * i) = .poison ∨ s.mark (a + 64 * i) = .cePoison)) →
            SameBytes s u ∧ (s1.latticeReply r p = false →
              Answers s1 u r p (s1.answerOf r p (if bad then .poison else .ok) ((loadBytes p / 64 - 1) * 2 ^ 53) (s.bytes a (loadBytes p)) bad)) ∧
              ∃ v : State, v.txq = s.txq ∧ v.frames = s.frames ∧ u = v.answer r p (if bad then .poison else .ok) ((loadBytes p / 64 - 1) * 2 ^ 53) (s.bytes a (loadBytes p)) bad) ∧
          (∀ c o bad, placeOf a = .vault c o → s1.shut a = false → s1.frozenFor a (loadBytes p) = none → a % 64 = 0 →
            (s.core c).landing = [] → (s.core c).array = none → (∀ w ∈ (s.core c).wbq, s.mark w = .ce ∨ s.mark w = .good) →
            bad = (List.range (loadBytes p / 8)).any (fun i => decide (s.mark (a + 8 * i) = .ue ∨ s.mark (a + 8 * i) = .poison ∨ s.mark (a + 8 * i) = .cePoison)) →
            SameBytes s u ∧ (s1.latticeReply r p = false →
              Answers s1 u r p (s1.answerOf r p (if bad then .poison else .ok) ((loadBytes p / 64 - 1) * 2 ^ 53) (s.bytes a (loadBytes p)) bad)) ∧
              ∃ v : State, v.txq = s.txq ∧ v.frames = s.frames ∧ u = v.answer r p (if bad then .poison else .ok) ((loadBytes p / 64 - 1) * 2 ^ 53) (s.bytes a (loadBytes p)) bad)))) ∧
  (∀ (t : At) (r : Nat) (p : Packet) (s s1 : State), r < 21 → Awake t s → s1 = s.at t → p.cls = 8 → p.op = 2 → (ringTower r).isSome ∨ (ringMem r).isSome →
    ∃ u, exec (.store t r p) s = .next u ∧
      (∀ st co, s1.check p p.data.length .wr (linesOk (localAddr p.addr) p.data.length) false = .ends st co →
        SameBytes s u ∧ Answers s1 u r p (s1.answerOf r p st 0 [] false)) ∧
      (∀ a, s1.check p p.data.length .wr (linesOk (localAddr p.addr) p.data.length) false = .at_ a →
        (s1.shut a = true → SameBytes s u ∧ Answers s1 u r p (s1.answerOf r p .pathFenced 0 [] false)) ∧
        (∀ x, s1.shut a = false → s1.frozenFor a p.data.length = some x → SameBytes s u ∧ u.txq = s.txq ∧ u.out = s.out ∧
          (∀ c, x = .vault c → (u.core c).waiting = (s.core c).waiting ++ [.packet r p]) ∧
          ∀ k c, x = .channel k c → (u.arb x).waiting = (s.arb x).waiting ++ [(r, p)]) ∧
        (∀ k o, placeOf a = .hbm k o → s1.frozenFor a p.data.length = none →
          Answers s1 u r p (s1.answerOf r p .ok 0 [] false) ∧
          (∀ b, u.byte b = if a ≤ b ∧ b < a + p.data.length then p.data.getD (b - a) 0 else s.byte b) ∧
          (∀ b, (∀ i, i < (a + p.data.length + 63) / 64 - a / 64 → b ≠ a / 64 * 64 + 64 * i) → u.mark b = s.mark b) ∧
          (a % 64 = 0 → ∀ i, i < p.data.length / 64 → u.mark (a + 64 * i) = if p.poison then .poison else .good)) ∧
        (∀ c o, placeOf a = .vault c o → s1.shut a = false → s1.frozenFor a p.data.length = none → (s.core c).landing = [] → (s.core c).array = none →
          Answers s1 u r p (s1.answerOf r p .ok 0 [] false) ∧
          (∀ b, u.byte b = if a ≤ b ∧ b < a + p.data.length then p.data.getD (b - a) 0 else s.byte b) ∧
          (a % 8 = 0 → ∀ i, i < p.data.length / 8 → u.mark (a + 8 * i) = if p.poison then .poison else .good)))) ∧
  (∀ (t : At) (r : Nat) (p : Packet) (s s1 : State), r < 21 → Awake t s → s1 = s.at t → p.cls = 8 → p.op = 3 →
    ∃ u, exec (.mstore t r p) s = .next u ∧
      (∀ q : Packet, (ringTower r).isSome ∨ (ringMem r).isSome → q = { p with addr := castAddr r p.addr } →
        (∀ st co, s1.check q p.data.length .wr (linesOk (localAddr q.addr) p.data.length) false = .ends st co →
          SameBytes s u ∧ Answers s1 u r q (s1.answerOf r q st 0 [] false)) ∧
        ∀ a, s1.check q p.data.length .wr (linesOk (localAddr q.addr) p.data.length) false = .at_ a →
          (s1.shut a = true → SameBytes s u ∧ Answers s1 u r q (s1.answerOf r q .pathFenced 0 [] false)) ∧
          (s1.shut a = false → s1.frozenFor a p.data.length = none → ((∃ k o, placeOf a = .hbm k o) ∨
              ∃ c o, placeOf a = .vault c o ∧ (s.core c).landing = [] ∧ (s.core c).array = none) →
            Answers s1 u r q (s1.answerOf r q .ok 0 [] false) ∧
            ∀ b, u.byte b = if a ≤ b ∧ b < a + p.data.length then p.data.getD (b - a) 0 else s.byte b)) ∧
      (∀ n, ringFibre r = some n → SameBytes s u ∧ (s.op (originEp p) p.tag = none → u = s1) ∧
        ∀ o m, s.op (originEp p) p.tag = some o → o.members.filter (fun m => decide (m < 64 ∧ m ≠ s.pkg)) = [m] →
          (∀ x, token (bits (s.routeEntry r m) 53 36) 0 = some x → x / 8 ≠ n → u = s1) ∧
          (∀ x tag, token (bits (s.routeEntry r m) 53 36) 0 = some x → x / 8 = n → s.fibreUp x = true → s.freeTag r = some tag →
            ∃ c, u.op r tag = some c ∧ c.host = some (originEp p, p.tag, m) ∧ c.pkt.addr = m * 2 ^ 45 + localAddr p.addr ∧ c.pkt.tag = tag ∧ c.pkt.data = p.data) ∧
          (∀ x, token (bits (s.routeEntry r m) 53 36) 0 = some x → x / 8 = n → s.fibreUp x = true → s.freeTag r = none →
            u.queue (castQueue n) 0 = s.queue (castQueue n) 0 ++ [castPacket p m]) ∧
          ((∀ x, token (bits (s.routeEntry r m) 53 36) 0 = some x → x / 8 = n ∧ s.fibreUp x = false) →
            u.fld Reg.fabRtStat F.fabRtStatFencedDrops = min F.fabRtStatFencedDrops.max (s.fld Reg.fabRtStat F.fabRtStatFencedDrops + 1) ∧ u.ops = s.ops)))

/-- R16, R192, R338, R361, R364, R371 to R374: an atomic applies its operation once: what it read is answered and kept, and the same atomic again is
answered from the reply cache and applies nothing; one for another incarnation is answered UNKNOWN, one that finds poison POISON; one for a frozen
memory waits. A flag packet is answered NOT_READY outside RUN; for a core of the packet's job it reaches the core's flag network, is answered
PATH_FENCED where the core is fenced; any other is DENIED. -/
def Obligations.AtomicsAndFlags : Prop :=
  (∀ (t : At) (r : Nat) (p : Packet) (s s1 : State) (n : Nat), r < 21 → Awake t s → s1 = s.at t → p.cls = 8 → 16 ≤ p.op → p.op ≤ 25 →
    (ringTower r).isSome ∨ (ringMem r).isSome → n = (if bit p.aux.toNat 52 then 8 else 4) →
    ∃ u, exec (.atomic t r p) s = .next u ∧
      (∀ st co, s1.check p n .at_ (decide (localAddr p.addr % n = 0)) false = .ends st co → SameBytes s u ∧ Answers s1 u r p (s1.answerOf r p st 0 [] false)) ∧
      ∀ a, s1.check p n .at_ (decide (localAddr p.addr % n = 0)) false = .at_ a →
        (s1.shut a = true → SameBytes s u ∧ u.cache = s.cache ∧ Answers s1 u r p (s1.answerOf r p .pathFenced 0 [] false)) ∧
        (s1.shut a = false → bits p.aux.toNat 31 0 ≠ s.inc → SameBytes s u ∧ u.cache = s.cache ∧
          Answers s1 u r p (s1.answerOf r p .unknown (bits p.aux.toNat 47 32 * 2 ^ 32) [] false)) ∧
        (∀ e, s1.shut a = false → bits p.aux.toNat 31 0 = s.inc → s.cached (unitOf a) p = some e → SameBytes s u ∧ u.cache = s.cache ∧
          Answers s1 u r p (s1.answerOf r p (statusOf e.status) (bits p.aux.toNat 47 32 * 2 ^ 32) (padTo 64 (bytesOf e.old.toNat 8)) false)) ∧
        (∀ x, s1.shut a = false → bits p.aux.toNat 31 0 = s.inc → s.cached (unitOf a) p = none → s1.frozenFor a n = some x → SameBytes s u ∧ u.cache = s.cache ∧
          u.txq = s.txq ∧ (∀ c, x = .vault c → (u.core c).waiting = (s.core c).waiting ++ [.packet r p]) ∧
          ∀ k c, x = .channel k c → (u.arb x).waiting = (s.arb x).waiting ++ [(r, p)]) ∧
        (∀ m, s1.shut a = false → bits p.aux.toNat 31 0 = s.inc → s.cached (unitOf a) p = none → s1.frozenFor a n = none → a % n = 0 →
          ((∃ k o, placeOf a = .hbm k o ∧ m = a / 64 * 64) ∨ (∃ c o, placeOf a = .vault c o ∧ m = a / 8 * 8 ∧ (s.core c).landing = [] ∧ (s.core c).array = none ∧
            (s.core c).wbq = [])) →
          (s.mark m = .good ∨ s.mark m = .ce →
            (∀ b, u.byte b = if a ≤ b ∧ b < a + n then
              (bytesOf (atomicValue (p.op - 16) n (s.num a n) (fieldAt p.data 0 8) (fieldAt p.data 8 8)) n).getD (b - a) 0 else s.byte b) ∧
            Answers s1 u r p (s1.answerOf r p .ok (bits p.aux.toNat 47 32 * 2 ^ 32) (padTo 64 (bytesOf (s.num a n) 8)) false) ∧
            ∃ e, u.cached (unitOf a) p = some e ∧ e.old.toNat = s.num a n ∧ e.status = 0) ∧
          (s.mark m = .poison ∨ s.mark m = .cePoison ∨ s.mark m = .ue → SameBytes s u ∧
            Answers s1 u r p (s1.answerOf r p .poison (bits p.aux.toNat 47 32 * 2 ^ 32) (padTo 64 (bytesOf (2 ^ (8 * n) - 1) 8)) false)))) ∧
  (∀ (t : At) (r c : Nat) (p q : Packet) (s s1 : State), r < 21 → Awake t s → s1 = s.at t → p.cls = 0xC → p.op ≤ 1 → (ringTower r).isSome →
    c = bits p.aux.toNat 19 8 → q = { p with aux := BitVec.ofNat 64 ((if p.originPkg = s.pkg then p.hopSrc else endpointOf (windowOf p.originCore)) * 2 ^ 59) } →
    ∃ u, exec (.flagPacket t r p) s = .next u ∧ SameBytes s u ∧
      (s.dev ≠ .run → u.cores = s.cores ∧ Answers s1 u r q (s1.answerOf r q .notReady 0 [] false)) ∧
      (s.dev = .run → some (towerOf c) ≠ ringTower r ∨ s.fld (Reg.coreJob c) F.coreJobJob ≠ p.job ∨ s.jobAllows p.job p.originPkg = false → u.cores = s.cores ∧
        Answers s1 u r q (s1.answerOf r q .denied 0 [] false) ∧
        u.fld Reg.fabOpStat F.fabOpStatDenied = min (2 ^ 16 - 1) (s.fld Reg.fabOpStat F.fabOpStatDenied + 1)) ∧
      (s.dev = .run → some (towerOf c) = ringTower r → s.fld (Reg.coreJob c) F.coreJobJob = p.job → s.jobAllows p.job p.originPkg = true →
        (s.coreFenced c = true → u.cores = s.cores ∧ Answers s1 u r q (s1.answerOf r q .pathFenced 0 [] false)) ∧
        (s.coreFenced c = false → u.txq = s.txq ∧ (u.core c).flagsIn = (s.core c).flagsIn ++
          [{ at_ := t.cyc, src := p.originCore, flag := bits p.aux.toNat 7 0, answer := some (r, s1.answerOf r q .ok 0 [] false) }])))

/-- R192, R378 to R382: a COPYLD records its holder and is answered as a load is, a read of an invalid copy range waiting for its re-fetch; while an
invalidation runs on the region it waits. An INV of an address in no region is DENIED, one of a region without holders that can be reached is answered
at once, PARTIAL where some could not, one with holders keeps the region busy until they have answered; an INVH marks the holder's copies invalid. A
re-fetch sends its next COPYLD under a free tag, or ends where its source has no route. -/
def Obligations.Copies : Prop :=
  (∀ (t : At) (r : Nat) (p : Packet) (s s1 : State), r < 21 → Awake t s → s1 = s.at t → p.cls = 8 → p.op = 6 → (ringTower r).isSome ∨ (ringMem r).isSome →
    p.originPkg < 64 →
    ∃ u, exec (.copyld t r p) s = .next u ∧
      (∀ st co, s1.checkLoad p false = .ends st co → SameBytes s u ∧ Answers s1 u r p (s1.answerOf r p st 0 [] false)) ∧
      ∀ a, s1.checkLoad p false = .at_ a →
        (∀ i v, s.regionAt a = some i → s.invOf i = some v → SameBytes s u ∧ u.txq = s.txq ∧ ∃ w, u.invOf i = some w ∧ w.waiting = v.waiting ++ [p] ∧ w.left = v.left) ∧
        ((∀ i, s.regionAt a = some i → s.invOf i = none) →
          (∀ i, s.regionAt a = some i → bit (u.rd (Reg.fabReg1 i)).toNat p.originPkg = true ∧ u.holderTile i p.originPkg = bits p.aux.toNat 51 50) ∧
          (∀ k e, s1.copyAt a = some (k, e) → s1.flag (Reg.hbmCopy0 k e) F.hbmCopy0Valid = false → SameBytes s u ∧ u.txq = s.txq ∧ u.out = s.out ∧
            u.flag (Reg.hbmCopy0 k e) F.hbmCopy0Fetching = true ∧
            (u.fetchOf k e).waiting = (if s.flag (Reg.hbmCopy0 k e) F.hbmCopy0Fetching then (s.fetchOf k e).waiting else []) ++ [p]) ∧
          (∀ k o bad, (∀ x y, s1.copyAt a = some (x, y) → s1.flag (Reg.hbmCopy0 x y) F.hbmCopy0Valid = true) → placeOf a = .hbm k o →
            s1.frozenFor a (loadBytes p) = none → a % 64 = 0 →
            bad = (List.range (loadBytes p / 64)).any (fun i => decide (s.mark (a + 64 * i) = .ue ∨ s.mark (a + 64 * i) = .poison ∨ s.mark (a + 64 * i) = .cePoison)) →
            SameBytes s u ∧ Answers s1 u r p (s1.answerOf r p (if bad then .poison else .ok) ((loadBytes p / 64 - 1) * 2 ^ 53) (s.bytes a (loadBytes p)) bad)))) ∧
  (∀ (t : At) (r : Nat) (p : Packet) (s s1 : State), r < 21 → Awake t s → s1 = s.at t → p.cls = 8 → p.op = 4 → (ringTower r).isSome ∨ (ringMem r).isSome →
    ∃ u, exec (.inv t r p) s = .next u ∧ SameBytes s u ∧
      (∀ st co, s1.check p 1 .wr true false = .ends st co → Answers s1 u r p (s1.answerOf r p st 0 [] false)) ∧
      ∀ a, s1.check p 1 .wr true false = .at_ a →
        (s.regionAt a = none → Answers s1 u r p (s1.answerOf r p .denied 0 [] false)) ∧
        (∀ i v, s.regionAt a = some i → s.invOf i = some v → u.txq = s.txq ∧ ∃ w, u.invOf i = some w ∧ w.waiting = v.waiting ++ [p]) ∧
        ∀ i (holders reach : List Nat), s.regionAt a = some i → s.invOf i = none → holders = (List.range 64).filter (fun h => bit (s.rd (Reg.fabReg1 i)).toNat h) →
          reach = holders.filter (s1.reaches r i) →
          (reach = [] → Answers s1 u r p (s1.answerOf r p (if holders = [] then .ok else .partialDone) 0 [] false) ∧ u.invs = s.invs ∧ u.rd (Reg.fabReg1 i) = 0) ∧
          (reach ≠ [] → u.flag (Reg.fabReg0 i) F.fabReg0InvBusy = true ∧
            ∃ v, u.invOf i = some v ∧ v.req = p ∧ v.left = reach ∧ v.notReached = decide (reach ≠ holders))) ∧
  (∀ (t : At) (r n : Nat) (p : Packet) (s s1 : State), r < 21 → Awake t s → s1 = s.at t → p.cls = 8 → p.op = 5 → ringMem r = some n →
    ∃ u, exec (.invh t r p) s = .next u ∧ SameBytes s u ∧
      (s.dev ≠ .run → Answers s1 u r p (s1.answerOf r p .notReady 0 [] false)) ∧
      (s.dev = .run → s.jobAllows p.job p.originPkg = false → Answers s1 u r p (s1.answerOf r p .denied 0 [] false)) ∧
      (s.dev = .run → s.jobAllows p.job p.originPkg = true → Answers s1 u r p (s1.answerOf r p .ok 0 [] false) ∧
        ∀ k e, k / 4 = n → e < 256 → s.flag (Reg.hbmCopy0 k e) F.hbmCopy0Enable = true → s.fld (Reg.hbmCopy1 k e) F.hbmCopy1Source = p.addr →
          u.flag (Reg.hbmCopy0 k e) F.hbmCopy0Valid = false ∧
          (s.flag (Reg.hbmCopy0 k e) F.hbmCopy0Fetching = true → (u.fetchOf k e).again = true))) ∧
  (∀ (t : At) (k e src : Nat) (s s1 : State) (f : Fetch), k < 16 → e < 256 → Awake t s → s1 = s.at t → f = s.fetchOf k e →
    src = s.fld (Reg.hbmCopy1 k e) F.hbmCopy1Source + f.next →
    ∃ u, exec (.refetch t k e) s = .next u ∧
      (s.flag (Reg.hbmCopy0 k e) F.hbmCopy0Fetching = false ∨ 2 ^ s.fld (Reg.hbmCopy0 k e) F.hbmCopy0Size ≤ f.next ∨ f.bad.isSome ∨ s.freeTag (memRing (k / 4)) = none →
        u = s1) ∧
      (∀ tag, s.flag (Reg.hbmCopy0 k e) F.hbmCopy0Fetching = true → f.next < 2 ^ s.fld (Reg.hbmCopy0 k e) F.hbmCopy0Size → f.bad = none →
        s.freeTag (memRing (k / 4)) = some tag →
        (bit (s.routeEntry (memRing (k / 4)) (pkgOf src)) 63 = true → bits (s.routeEntry (memRing (k / 4)) (pkgOf src)) 60 59 ≠ 0 →
          SameBytes s u ∧ (u.fetchOf k e).next = f.next + 4096 ∧ (u.fetchOf k e).out = f.out + 1 ∧
          ∃ op, u.op (memRing (k / 4)) tag = some op ∧ op.pkt.op = 6 ∧ op.pkt.addr = src ∧ op.pkt.job = s.fld (Reg.hbmCopy2 k e) F.hbmCopy2Job) ∧
        (bit (s.routeEntry (memRing (k / 4)) (pkgOf src)) 63 = false → SameBytes s u ∧
          u.fld Reg.fabRtStat F.fabRtStatNoRoute = min F.fabRtStatNoRoute.max (s.fld Reg.fabRtStat F.fabRtStatNoRoute + 1) ∧
          (f.out = 0 → f.again = false → u.flag (Reg.hbmCopy0 k e) F.hbmCopy0Fetching = false ∧ u.fetchOf k e = {}))))

/-- R16, R349, R365 to R367, R384: a response to no outstanding tag, and one to an operation that is over, is counted stale; the last one awaited frees
the tag. A response of a unit's own operation lands its data and completes it, its status kept by the engine; a multicast completes with the last of
its members. An attempt whose time is over is sent again up to three times, then the operation completes with TIMEOUT; a tag kept after completion is
free once every attempt is answered, or four times the rack timeout has passed. -/
def Obligations.ResponsesTimersAndTags : Prop :=
  (∀ (t : At) (r : Nat) (p : Packet) (s s1 : State), r < 21 → Awake t s → s1 = s.at t →
    ∃ u, exec (.response t r p) s = .next u ∧ (p.cls ≠ 9 → u = s1) ∧
      (p.cls = 9 → s.op r p.tag = none → u = { s1 with regs := u.regs } ∧ SameRegs s u [Reg.fabOpStat] ∧
        u.fld Reg.fabOpStat F.fabOpStatStaleResponses = min 255 (s.fld Reg.fabOpStat F.fabOpStatStaleResponses + 1)) ∧
      (∀ o, p.cls = 9 → s.op r p.tag = some o → o.done = true → SameBytes s u ∧
        u.fld Reg.fabOpStat F.fabOpStatStaleResponses = min 255 (s.fld Reg.fabOpStat F.fabOpStatStaleResponses + 1) ∧
        (o.answers + 1 < o.attempts * max 1 o.members.length → u.op r p.tag = some { o with answers := o.answers + 1 })) ∧
      (∀ o e, p.cls = 9 → s.op r p.tag = some o → o.done = false → o.host = none → o.engine = some e → o.isCast = false →
        o.attempts ≤ 1 ∨ o.attempts * max 1 o.members.length ≤ o.answers + 1 → (ringTower r).isSome → (s.core o.core).fsets = [] →
        (statusOf p.status ≠ .ok → statusOf p.status ≠ .poison → SameBytes s u) ∧ u.op r p.tag = none ∧
        ((s.engine o.core e).queue.head?.map (fun d : Desc => d.seq) = some o.seq →
          (u.engine o.core e).statuses = (s.engine o.core e).statuses ++ [statusOf p.status] ∧ (u.engine o.core e).inFlight = (s.engine o.core e).inFlight - 1) ∧
        (o.pkt.cls = 8 → o.pkt.op = 1 → placeOf (localAddr o.pkt.addr) = .info → p.status = 0 →
          u.fld (Reg.fabPeerInc o.pkt.dstPkg) F.fabPeerIncIncarnation = fieldAt p.data 0 4)) ∧
      (∀ o m, p.cls = 9 → s.op r p.tag = some o → o.done = false → o.host = none → o.isCast = true → m = s1.memberOf o p →
        (m ∈ o.heard ∨ m ∉ o.members → SameBytes s u ∧ u.op r p.tag = some { o with answers := o.answers + 1 } ∧
          u.fld Reg.fabOpStat F.fabOpStatStaleResponses = min 255 (s.fld Reg.fabOpStat F.fabOpStatStaleResponses + 1)) ∧
        (m ∉ o.heard → m ∈ o.members → (∃ x ∈ o.members, x ≠ m ∧ x ∉ o.heard) → SameBytes s u ∧
          u.op r p.tag = some { o with answers := o.answers + 1, heard := m :: o.heard, status := firstOf o.status (statusOf p.status) }))) ∧
  (∀ (t : At) (r tag : Nat) (s s1 : State), r < 21 → tag < 8192 → Awake t s → s1 = s.at t →
    ∃ u, exec (.attemptTimeout t r tag) s = .next u ∧
      ((∀ o, s.op r tag = some o → o.done = true ∨ o.left = false ∨ s1.now < o.deadline) → u = s1) ∧
      (∀ o, s.op r tag = some o → o.done = false → o.left = true → o.deadline ≤ s1.now → o.pkt.retry < 3 →
        u.fld Reg.fabOpStat F.fabOpStatRetries = min (2 ^ 24 - 1) (s.fld Reg.fabOpStat F.fabOpStatRetries + 1) ∧
        (∀ q, ringFibre r = none → (o.pkt.hopDst = 31 ∧ q = { o.pkt with retry := o.pkt.retry + 1, ptr := 0 }) ∨ (o.pkt.hopDst ≠ 31 ∧
            s.routed r { o.pkt with retry := o.pkt.retry + 1, ptr := 0 } = some q ∧ s.ringFenced r = false ∧ s.ringFenced q.hopDst = false) →
          SameBytes s u ∧ u.queue r (retryInput r o) = packetInto (packetRank r (retryInput r o))
            { q with hopSrc := r, reached := if (ringTower r).isSome then t.cyc else s1.now } (s.queue r (retryInput r o)) ∧
          ∃ o2, u.op r tag = some o2 ∧ o2.pkt.retry = o.pkt.retry + 1 ∧ o2.attempts = o.attempts + 1 ∧ o2.left = false) ∧
        (∀ x, (ringFibre r).isSome → token o.pkt.tokens 0 = some x → s.fibreUp x = true →
          SameBytes s u ∧ ∃ o2, u.op r tag = some o2 ∧ o2.pkt.retry = o.pkt.retry + 1 ∧ o2.attempts = o.attempts + 1 ∧ o2.left = true ∧
            o2.deadline = s1.now + s.fld Reg.fabTimeout F.fabTimeoutRackTimeout)) ∧
      (∀ o, s.op r tag = some o → o.done = false → o.left = true → o.deadline ≤ s1.now → 3 ≤ o.pkt.retry → o.host = none → o.status = .ok →
        (ringTower r).isSome → (s.core o.core).fsets = [] →
        (o.isCast = false → SameBytes s u) ∧ u.fld Reg.fabOpStat F.fabOpStatTimeouts = min (2 ^ 16 - 1) (s.fld Reg.fabOpStat F.fabOpStatTimeouts + 1) ∧
        ∀ o2, u.op r tag = some o2 → o2.done = true ∧ o2.status = .timeout)) ∧
  (∀ (t : At) (r tag : Nat) (s s1 : State), r < 21 → tag < 8192 → Awake t s → s1 = s.at t →
    ∃ u, exec (.tagRelease t r tag) s = .next u ∧ (s.op r tag = none → u = s1) ∧
      ∀ o, s.op r tag = some o → (o.done = false → u = s1) ∧
        (o.done = true → o.host = none → o.answers < o.attempts * max 1 o.members.length →
          s1.now < o.doneAt + 4 * s.fld Reg.fabTimeout F.fabTimeoutRackTimeout → u = s1) ∧
        (o.done = true → o.host = none → (ringTower r).isSome → (s.core o.core).fsets = [] →
          o.attempts * max 1 o.members.length ≤ o.answers ∨ o.doneAt + 4 * s.fld Reg.fabTimeout F.fabTimeoutRackTimeout ≤ s1.now → SameBytes s u ∧ u.op r tag = none))

/-! The step boundary and the host port. -/

/-- R319: a tower whose step tree is complete sends its arrival with its time; the package notes the stamps of the towers it waits for and forms its
message once every one is held and the evaluation is over; messages of packages of the job are held, and others discarded. -/
def Obligations.BoundaryGathering : Prop :=
  (∀ (t : At) (tower : Nat) (s s1 : State), tower < 12 → Awake t s → s1 = s.at t →
    ∃ u, exec (.towerStepTreeComplete t tower) s = .next u ∧ SameBytes s u ∧ SameRegs s u [] ∧
      ((s.tower tower).stepDue = none ∨ (s.tower tower).stepSent = true → u = s1) ∧
      (∀ d, (s.tower tower).stepDue = some d → (s.tower tower).stepSent = false → d ≤ t.cyc → (u.tower tower).stepSent = true ∧
        u.queue (towerRing tower) 15 = packetInto (packetRank (towerRing tower) 15)
          { cls := 0xB, op := 0, hopDst := 0, originPkg := s.pkg, dstPkg := s.pkg, incarnation := s.inc, aux := s1.copyTc tower, hopSrc := towerRing tower, reached := t.cyc }
          (s.queue (towerRing tower) 15)) ∧
      (∀ d, (s.tower tower).stepDue = some d → t.cyc < d → u = s1)) ∧
  (∀ (t : At) (tower : Nat) (stamp : BitVec 64) (s s1 : State), tower < 12 → Awake t s → s1 = s.at t →
    ∃ u, exec (.towerArrival t tower stamp) s = .next u ∧ SameBytes s u ∧
      (s.dev ≠ .run ∨ tower ∉ s.awaited ∨ s.boundary.formed = true → u = s1) ∧
      (s.dev = .run → tower ∈ s.awaited → s.boundary.formed = false → assoc u.boundary.arrived tower = stamp.toNat + 1 ∧
        ((∃ o ∈ s.awaited, o ≠ tower ∧ assoc s.boundary.arrived o = 0) → u.boundary.formed = false ∧ SameRegs s u []) ∧
        (s.boundary.evalFor = none → (∀ o ∈ s.awaited, o = tower ∨ assoc s.boundary.arrived o ≠ 0) →
          u.boundary.formed = true ∧ u.fld Reg.onxSchedStatus F.onxSchedStatusInBoundary = 1 ∧
          ∃ m ∈ u.boundary.msgs, m.pkg = s.pkg ∧ stamp.toNat ≤ m.stamp ∧ (∀ o ∈ s.awaited, o ≠ tower → assoc s.boundary.arrived o ≤ m.stamp + 1) ∧
            m.hold = s.holdCount ∧ m.request = (!s.boundary.causes.isEmpty || s.faultHold) ∧ m.digest = s.selDigest ∧
            u.queue 0 15 = packetInto (packetRank 0 15)
              { cls := 0xB, op := 1, hopDst := 31, rxMap := s.boundaryMap, originPkg := s.pkg, dstPkg := s.pkg, incarnation := s.inc, aux := BitVec.ofNat 64 m.stamp,
                data := m.flit, hopSrc := 0, reached := s1.now } (s.queue 0 15)))) ∧
  (∀ (t : At) (pkg hold d : Nat) (stamp : BitVec 64) (request : Bool) (digest : BitVec 32) (s : State), pkg < 64 → Awake t s →
    ∃ u, exec (.boundaryMessage t pkg stamp hold request d digest) s = .next u ∧ u = { s.at t with boundary := u.boundary } ∧
      (s.dev ≠ .run ∨ pkg ≠ s.pkg ∧ pkg ∉ s.others → u = s.at t) ∧
      (s.dev = .run → pkg = s.pkg ∨ pkg ∈ s.others → ∃ m ∈ u.boundary.msgs, m.pkg = pkg ∧ m.stamp = stamp.toNat ∧ m.hold = hold % 2 ^ 16 ∧ m.request = request ∧
        m.digest = digest.toNat ∧ ∀ n ∈ u.boundary.msgs, n.pkg = pkg → n = m))

/-- R82 to R84: a record that cannot be read counts as missing and leaves its rule's run; a rule that has reached its count with another target fires: the
coming boundary takes its target, the slot's runs restart and the switch counts. R85, R319 to R322: with every message held, none asking for HOLD and
the digests equal, the boundary releases at its tick, which becomes the base; the steps count and every enabled core's step number rises by one. With
a request, with another digest, or with a fault that the policy holds for, it enters HOLD and keeps the cause; a fault after the message was formed
asks for HOLD as well (assumption 115). A boundary later than its limit halts. -/
def Obligations.EvaluationReleaseAndHold : Prop :=
  (∀ (t : At) (poisoned : List Nat) (s s1 : State), Awake t s → s1 = s.at t →
    ∃ u, exec (.variantEvaluation t poisoned) s = .next u ∧ (s.boundary.evalFor = none ∨ s.dev ≠ .run → u = s1) ∧
      ((∀ r c o, r ∈ s.start.vtable.rules → placeOf (r.addr % 2 ^ 45) = .vault c o → (s.core c).landing = [] ∧ (s.core c).array = none) → SameBytes s u ∧
       ∀ k, s.boundary.evalFor = some k → s.dev = .run → u.boundary.evalFor = none ∧ u.boundary.evalDone = some s1.tcNat ∧
        u.fld Reg.onxVarStatus F.onxVarStatusLastStep = k % 2 ^ F.onxVarStatusLastStep.width ∧
        (∀ r, s.start.vtable.rules = [r] → s.start.vtable.slots = [] → 0 ∈ poisoned → u.runOf 0 = s.runOf 0 ∧
          u.fld Reg.onxVarStatus F.onxVarStatusMissingRecords = min F.onxVarStatusMissingRecords.max (s.fld Reg.onxVarStatus F.onxVarStatusMissingRecords + 1)) ∧
        (∀ r x, s.start.vtable.rules = [r] → s.start.vtable.slots = [x] → r.slot = 0 → 0 ∈ poisoned → s.runOf 0 = r.nSteps → r.target ≠ s.sel 0 →
          assoc u.boundary.newSel 0 = r.target + 1 ∧ u.runOf 0 = 0 ∧
          u.fld Reg.onxVarStatus F.onxVarStatusSwitches = min F.onxVarStatusSwitches.max (s.fld Reg.onxVarStatus F.onxVarStatusSwitches + 1)))) ∧
  ((∀ (t : At) (s s1 : State), Awake t s → s1 = s.at t → (∀ x ∈ s.boundary.newSel, x.1 < 256) →
    ∃ u, exec (.stepRelease t) s = .next u ∧ SameBytes s u ∧ (s.dev ≠ .run → u = s1) ∧
      (s.dev = .run → s.boundary.formed = true → s.allMessages = false → u = s1) ∧
      (s.dev = .run → s.boundary.formed = true → s.allMessages = true →
      (s.otherDigest = none → s.faultHold = false → (∀ m ∈ s.boundary.msgs, m.request = false) → s1.tcNat < s1.relTick → u = s1) ∧
      (s.otherDigest = none → s.faultHold = false → (∀ m ∈ s.boundary.msgs, m.request = false) → s1.relTick ≤ s1.tcNat → u.dev = .run ∧ u.rd Reg.onxSchedBase = BitVec.ofNat 64 s1.relTick ∧
        u.rd Reg.onxSchedArrive = BitVec.ofNat 64 s.boundaryA ∧
        u.fld Reg.onxSchedStatus F.onxSchedStatusSteps = min F.onxSchedStatusSteps.max (s.fld Reg.onxSchedStatus F.onxSchedStatusSteps + 1) ∧
        (∀ c, c < 3072 → s.flag (Reg.coreCtrl c) F.coreCtrlEnable = true → u.rd (Reg.coreStep c) = s.rd (Reg.coreStep c) + 1) ∧
        (∀ c, c < 3072 → s.flag (Reg.coreCtrl c) F.coreCtrlEnable = false → u.rd (Reg.coreStep c) = s.rd (Reg.coreStep c))) ∧
      (∀ d, s.otherDigest = some d → s.boundary.causes.Nodup → u.dev = .hold ∧ u.flag Reg.onxVarStatus F.onxVarStatusDigestMismatch = true ∧
        bit (u.rd Reg.onxHoldCause).toNat 2 = true ∧ u.boundary = {}) ∧
      (s.faultHold = true → s.boundary.causes.Nodup → u.dev = .hold ∧ u.flag Reg.onxVarStatus F.onxVarStatusFaultHold = true ∧ bit (u.rd Reg.onxHoldCause).toNat 1 = true ∧ u.boundary = {}) ∧
      (∀ b m, b < 13 → s.otherDigest = none → s.boundary.causes = [b] → s.faultHold = false → (∀ n ∈ s.boundary.msgs, n.pkg = s.pkg ∨ n.request = false) → m ∈ s.boundary.msgs → m.request = true →
        u.dev = .hold ∧ u.rd Reg.onxHoldCause = s.rd Reg.onxHoldCause ||| BitVec.ofNat 64 (2 ^ b) ∧ u.boundary = {} ∧ u.shards = [] ∧ u.egress = []))) ∧
  (∀ (t : At) (s s1 : State) (limit : Nat), Awake t s → s1 = s.at t → limit = s.fld Reg.onxSchedCfg F.onxSchedCfgStepTimeout →
    ∃ u, exec (.stepTimeout t) s = .next u ∧ SameBytes s u ∧
      (s.dev ≠ .run ∨ limit = 0 ∨ s1.tcNat < s.base + s.planTicks + 1024 * limit → u = s1) ∧
      (s.dev = .run → limit ≠ 0 → s.base + s.planTicks + 1024 * limit ≤ s1.tcNat → u.dev = .halted ∧ u.fld Reg.onxState F.onxStateHaltCause = 1 ∧
        u.flag Reg.onxSchedStatus F.onxSchedStatusTimeout = true)))

/-- R455, R459 to R462: shard data in time fills the ingest buffer, data of no outstanding shard is dropped; E0 stores a buffered line in its part of the
carat under a free tag, asks again for what is missing and abandons a shard whose grace is over, which requests HOLD. -/
def Obligations.HostIngest : Prop :=
  (∀ (t : At) (stream shard offset : Nat) (data : List Byte) (inc : BitVec 32) (s s1 : State), stream < 256 → Awake t s → s1 = s.at t →
    ∃ u, exec (.shardData t stream shard offset data inc) s = .next u ∧ SameBytes s u ∧
      (s.shardOf stream shard = none ∨ inc.toNat ≠ s.inc ∨ s.dev ≠ .run → u.shards = s.shards ∧
        u.fld Reg.hstStatus F.hstStatusRxDropped = min F.hstStatusRxDropped.max (s.fld Reg.hstStatus F.hstStatusRxDropped + 1)) ∧
      (∀ x, s.shardOf stream shard = some x → inc.toNat = s.inc → s.dev = .run → offset % 64 = 0 → data.length % 64 = 0 → data.length ≤ 8192 →
        offset + data.length ≤ s.fld (Reg.ing1 stream) F.ing1ShardBytes → s1.tcNat < x.deadline + s.fld (Reg.ing3 stream) F.ing3Grace →
        s.ingestHeld + data.length ≤ 0x1000000 → SameRegs s u [] ∧ ∃ y, u.shardOf stream shard = some y ∧ y.deadline = x.deadline ∧
          ∀ i, i < data.length / 64 → y.has (offset + 64 * i) = true)) ∧
  (∀ (t : At) (stream shard tag : Nat) (l : List (Nat × List Byte)) (x : Shard) (s s1 : State), stream < 256 → Awake t s → s1 = s.at t →
    s.shardOf stream shard = some x → x.got ≠ [] →
    l = storeRun (s.fld (Reg.ing2 stream) F.ing2BufferBase + shard % (max 1 (s.fld (Reg.ing0 stream) F.ing0Buffers)) * s.fld (Reg.ing1 stream) F.ing1ShardBytes) x.got →
    ∃ u, exec (.ingestStoreIssue t stream shard tag) s = .next u ∧ SameBytes s u ∧
      (s1.ingestSlot = false ∨ s.dev ≠ .run ∨ (s.op 0 tag).isSome = true → u = s1) ∧
      (s1.ingestSlot = true → s.dev = .run → tag < 1024 → s.op 0 tag = none →
        (bit (s.routeEntry 0 s.pkg) 63 = true → l.head? = x.got.head? ∧
          (∃ y, u.shardOf stream shard = some y ∧ y.got = x.got.filter (fun g => !(l.map (·.1)).contains g.1) ∧ y.sent = l.map (·.1) ++ x.sent) ∧
          ∃ o, u.op 0 tag = some o ∧ o.pkt.op = 2 ∧ o.pkt.data = (l.map (·.2)).flatten ∧ o.host = some (1, stream, shard)) ∧
        (bit (s.routeEntry 0 s.pkg) 63 = false → u.shardOf stream shard = none ∧ 10 ∈ u.boundary.causes))) ∧
  (∀ (t : At) (stream shard : Nat) (x : Shard) (s s1 : State), stream < 256 → Awake t s → s1 = s.at t → s.shardOf stream shard = some x →
    ∃ u, exec (.shardRetransmit t stream shard) s = .next u ∧ SameBytes s u ∧ SameRegs s u [] ∧
      (s.dev ≠ .run ∨ s1.now < x.requested + s.fld (Reg.ing4 stream) F.ing4Retransmit → u = s1) ∧
      (s.dev = .run → x.requested + s.fld (Reg.ing4 stream) F.ing4Retransmit ≤ s1.now → s.missing x ≠ [] →
        (∃ y, u.shardOf stream shard = some y ∧ y.requested = s1.now ∧ y.got = x.got) ∧
        (s.fld (Reg.ing0 stream) F.ing0Server < 64 → s.flag (Reg.srvFlags (s.fld (Reg.ing0 stream) F.ing0Server)) F.srvFlagsValid = true → s.linkUp = true →
          ∃ b, u.out = .msg (s.fld (Reg.ing0 stream) F.ing0Server) 1 0 shard 0 (s.fld (Reg.ing4 stream) F.ing4StreamId) b :: s.out))) ∧
  (∀ (t : At) (stream shard : Nat) (x : Shard) (s s1 : State), stream < 256 → Awake t s → s1 = s.at t → s.shardOf stream shard = some x → s.dev = .run →
    ∃ u, exec (.shardAbandon t stream shard) s = .next u ∧ SameBytes s u ∧
      (s1.tcNat < x.deadline + s.fld (Reg.ing3 stream) F.ing3Grace → u = s1) ∧
      (x.deadline + s.fld (Reg.ing3 stream) F.ing3Grace ≤ s1.tcNat → u.shardOf stream shard = none ∧ 10 ∈ u.boundary.causes ∧
        u.fld Reg.hstCounts F.hstCountsShardsAbandoned = min F.hstCountsShardsAbandoned.max (s.fld Reg.hstCounts F.hstCountsShardsAbandoned + 1)))

/-- R461, R464: E0 issues a LOAD of an egress instance in its part of the carat under a free tag; an acknowledgement of every byte ends the instance and
records it, of fewer counts on; without one the data from the acknowledged byte on is read again, and an instance over its time is abandoned. -/
def Obligations.HostEgress : Prop :=
  (∀ (t : At) (e tag : Nat) (x : Egress) (s s1 : State), e < 64 → Awake t s → s1 = s.at t → s.egressOf e = some x →
    ∃ u, exec (.egressLoadIssue t e tag) s = .next u ∧ SameBytes s u ∧
      (s1.egressSlot = false ∨ s.dev ≠ .run ∨ s.fld (Reg.egr3 e) F.egr3Length ≤ x.nextLoad ∨ (s.op 0 tag).isSome = true → u = s1) ∧
      (s1.egressSlot = true → s.dev = .run → x.nextLoad < s.fld (Reg.egr3 e) F.egr3Length → tag < 1024 → s.op 0 tag = none → bit (s.routeEntry 0 s.pkg) 63 = true →
        (∃ y, u.egressOf e = some y ∧ x.nextLoad < y.nextLoad ∧ y.nextLoad ≤ s.fld (Reg.egr3 e) F.egr3Length ∧ y.sentTo = x.sentTo) ∧
        ∃ o, u.op 0 tag = some o ∧ o.pkt.op = 1 ∧ o.host = some (2, e, x.inst))) ∧
  (∀ (t : At) (e inst bytes : Nat) (inc : BitVec 32) (s s1 : State), e < 64 → Awake t s → s1 = s.at t →
    inc.toNat ≠ s.inc ∨ s.dev ≠ .run ∨ (∀ x, s.egressOf e = some x → x.inst ≠ inst) →
    ∃ u, exec (.egrAck t e inst bytes inc) s = .next u ∧ u = { s1 with regs := u.regs } ∧ SameRegs s u [Reg.hstStatus] ∧
      u.fld Reg.hstStatus F.hstStatusRxDropped = min F.hstStatusRxDropped.max (s.fld Reg.hstStatus F.hstStatusRxDropped + 1)) ∧
  (∀ (t : At) (e bytes : Nat) (x : Egress) (inc : BitVec 32) (s s1 : State), e < 64 → Awake t s → s1 = s.at t → s.egressOf e = some x → inc.toNat = s.inc → s.dev = .run →
    ∃ u, exec (.egrAck t e x.inst bytes inc) s = .next u ∧ SameBytes s u ∧
      (s.fld (Reg.egr3 e) F.egr3Length ≤ bytes → u.egressOf e = none ∧ u.rd (Reg.hstEgrst e) = BitVec.ofNat 64 x.inst) ∧
      (bytes < s.fld (Reg.egr3 e) F.egr3Length → SameRegs s u [] ∧ ∃ y, u.egressOf e = some y ∧ y.acked = max x.acked bytes ∧ y.sentTo = x.sentTo)) ∧
  (∀ (t : At) (e : Nat) (x : Egress) (s s1 : State), e < 64 → Awake t s → s1 = s.at t → s.egressOf e = some x →
    ∃ u, exec (.egressRetransmit t e) s = .next u ∧ u = { s1 with egress := u.egress } ∧
      (s.dev = .run → x.acked < x.sentTo → x.ackTick + s.fld (Reg.egr4 e) F.egr4Retransmit ≤ s1.now →
        ∃ y, u.egressOf e = some y ∧ y.nextLoad = x.acked ∧ y.sentTo = x.acked ∧ y.acked = x.acked) ∧
      (s.dev ≠ .run ∨ x.sentTo ≤ x.acked ∨ s1.now < x.ackTick + s.fld (Reg.egr4 e) F.egr4Retransmit → u = s1)) ∧
  (∀ (t : At) (e : Nat) (x : Egress) (s s1 : State), e < 64 → Awake t s → s1 = s.at t → s.egressOf e = some x → s.dev = .run →
    ∃ u, exec (.egressTimeout t e) s = .next u ∧ SameBytes s u ∧ (s1.now < x.began + 1000000 * s.fld (Reg.egr5 e) F.egr5Timeout → u = s1) ∧
      (x.began + 1000000 * s.fld (Reg.egr5 e) F.egr5Timeout ≤ s1.now → u.egressOf e = none ∧
        u.fld Reg.hstCounts F.hstCountsEgressAbandoned = min F.hstCountsEgressAbandoned.max (s.fld Reg.hstCounts F.hstCountsEgressAbandoned + 1)))

/-- R453 to R455, R470: with the link up the port answers ARP for its enabled IPv4 address, a neighbour solicitation for its IPv6 address and an echo
request to either; everything else that arrives is dropped and counted, without a link nothing is. -/
def Obligations.HostPortFrames : Prop :=
  (∀ (t : At) (up : Bool) (s : State), Awake t s →
    ∃ u, exec (.hostPortLinkUp t up) s = .next u ∧ u = { s.at t with regs := u.regs } ∧ SameRegs s u [Reg.hstStatus] ∧ u.linkUp = up) ∧
  (∀ (t : At) (h : MsgHead) (s : State), Awake t s → s.badHead h = false → exec (.frameDiscard t (.badMessage h)) s = .next (s.at t)) ∧
  (∀ (t : At) (i : Instr) (s : State) (mine : Bool) (e : Emit), Awake t s →
    ((∃ ip mac from_, i = .arpRequest t ip mac from_ ∧ e = .arpReply mac from_ ∧
        mine = (s.flag Reg.hstIpv4 F.hstIpv4Enable && decide (s.fld Reg.hstIpv4 F.hstIpv4Addr = ip.toNat))) ∨
      (∃ ip mac from_, i = .neighbourSolicitation t ip mac from_ ∧ e = .neighbour mac from_ ∧ mine = decide (ip = s.ipv6)) ∨
      (∃ ip from_ body, i = .echoRequest t true ip from_ body ∧ e = .echo true from_ body ∧ mine = decide (ip = s.ipv6)) ∨
      (∃ ip from_ body, i = .echoRequest t false ip from_ body ∧ e = .echo false from_ body ∧
        mine = (s.flag Reg.hstIpv4 F.hstIpv4Enable && decide (s.fld Reg.hstIpv4 F.hstIpv4Addr = ip.toNat))) ∨
      (∃ k, i = .frameDiscard t k ∧ mine = false ∧ ∀ h, k = .badMessage h → s.badHead h = true)) →
    ∃ u, exec i s = .next u ∧ SameBytes s u ∧ (s.linkUp = false → u = s.at t) ∧
      (s.linkUp = true → mine = true → u = { s.at t with out := e :: s.out }) ∧
      (s.linkUp = true → mine = false → u = { s.at t with regs := u.regs } ∧ SameRegs s u [Reg.hstStatus] ∧
        u.fld Reg.hstStatus F.hstStatusRxDropped = min F.hstStatusRxDropped.max (s.fld Reg.hstStatus F.hstStatusRxDropped + 1)))

/-! Management. -/

/-- R430, R466 to R468: a repeat of the last accepted signed request receives its response again; one that the device state does not allow (status 1),
whose signature or incarnation is not good (status 2) or whose number is not higher than the last accepted one (status 3) is turned away with no
effect but its response and, for a bad signature, its log record. What a key signs is left open (assumption 7). -/
def Obligations.SignedRequestsTurnedAway : Prop :=
  ∀ (t : At) (q : Signed) (pairs : List (BitVec 64 × BitVec 64)) (header : List Byte) (eraseOk : Bool) (session : Nat) (flags : BitVec 32) (s s1 : State)
    (i : Instr) (type : Nat) (ok : Bool), s1 = s.at t →
    (i, type, ok) ∈ [(Instr.write t q pairs, 0x82, decide (s.dev = .run ∨ s.dev = .hold ∨ s.dev = .halted)),
      (Instr.updBegin t q header eraseOk, 0x83, decide (s.dev = .run ∨ s.dev = .hold ∨ s.dev = .halted) && s.onyx.update.isNone),
      (Instr.updEnd t q session, 0x85, s.onyx.update.isSome), (Instr.updAbandon t q session, 0x86, s.onyx.update.isSome),
      (Instr.restart t q flags, 0x87, decide (s.dev = .hold ∨ s.dev = .halted))] →
    ∃ u, exec i s = .next u ∧
      (s1.awake = false ∨ s.dev = .tripped → u = s1) ∧
      (s1.awake = true → s.dev ≠ .tripped →
        (s1.signedOk q = true → s.onyx.lastNumber = some q.number → u = s1.reply s.onyx.lastType s.onyx.lastStatus q.number s.onyx.lastPayload) ∧
        (ok = false → (s1.signedOk q = false ∨ s.onyx.lastNumber ≠ some q.number) → u = s1.reply type 1 q.number []) ∧
        (ok = true → s1.signedOk q = false → SameBytes s u ∧ u.dev = s.dev ∧ u.onyx.update = s.onyx.update ∧ u.onyx.lastNumber = s.onyx.lastNumber ∧
          u.store = s.store ∧ u.cores = s.cores ∧ u.out.head? = some (.msg 64 (type + 0x40) 2 q.number 0 0 [])) ∧
        (∀ n, ok = true → s1.signedOk q = true → s.onyx.lastNumber = some n → q.number < n → u = s1.reply type 3 q.number []))

/-- R450, R451, R466, R469: a READ of a register or of an HBM word in HOLD is answered with the value, one of no words, too many words or a place that may
not be read is turned away; an accepted WRITE of an HBM word stores it; a QUOTE answers and keeps a quote that holds the nonce, the eleventh in a
second is refused. R6, R8, R9, R487: a configuration write takes effect under the access code of each field, and a W1C bit that the device set in the
same cycle stays; one of another size, off its alignment or outside every window is discarded and logged. -/
def Obligations.ManagementAccesses : Prop :=
  (∀ (t : At) (number count a : Nat) (addr : BitVec 64) (s s1 : State), s1 = s.at t → a = addr.toNat →
    ∃ u, exec (.read t number addr count) s = .next u ∧
      (s1.awake = false → u = s1) ∧
      (s1.awake = true → count = 0 ∨ 1024 < count → u = s1.reply 0x81 5 number []) ∧
      (s1.awake = true → 0 < count → count ≤ 1024 → (∃ i, i < count ∧ s1.mgmtPlace (a + 8 * i) false = none) → u = s1.reply 0x81 1 number []) ∧
      (∀ s2, s1.awake = true → count = 1 → a < 2 ^ 40 → s2 = s1.bringCfg t.cyc a →
        (a % 8 = 0 → (windowRows a).isSome → u = s2.reply 0x81 0 number (bytesOf (s2.cfgRead a).toNat 8)) ∧
        (a % 8 ≠ 0 ∨ windowRows a = none → u = (s2.log 0x0301 (srcUnit 12 0) [a, 8, devNum s2.dev]).reply 0x81 0 number (bytesOf 0 8))) ∧
      (∀ x k o, s1.awake = true → count = 1 → a = 2 ^ 63 + x → x < 2 ^ 45 → x % 8 = 0 → placeOf x = .hbm k o → s.dev = .hold ∨ s.dev = .halted →
        SameBytes s u ∧ (s.mark (x / 64 * 64) = .good → u.out = .msg 64 0xC1 0 number 0 0 (s.bytes x 8) :: s.out))) ∧
  (∀ (t : At) (q : Signed) (addr v : BitVec 64) (x k o : Nat) (s s1 : State), s1 = s.at t → s.dev = .hold → addr.toNat = 2 ^ 63 + x → x < 2 ^ 45 → x % 8 = 0 →
    placeOf x = .hbm k o →
    ∃ u, exec (.write t q [(addr, v)]) s = .next u ∧
      (s1.signedOk q = true → (∀ n, s.onyx.lastNumber = some n → n < q.number) →
        (∀ b, u.byte b = if x ≤ b ∧ b < x + 8 then (bytesOf v.toNat 8).getD (b - x) 0 else s.byte b) ∧ u.mark (x / 64 * 64) = .good ∧
        u.onyx.lastNumber = some q.number ∧ u.regs = s.regs ∧ u.out = .msg 64 0xC2 0 q.number 0 0 [] :: s.out)) ∧
  (∀ (t : At) (number : Nat) (nonce : List Byte) (s s1 : State) (n : Nat), s1 = s.at t →
    n = (s.onyx.quotes.filter fun q => decide (s1.now < q + 1000000000)).length →
    ∃ u, exec (.quote t number nonce) s = .next u ∧ SameBytes s u ∧
      (s1.awake = false ∨ s.dev = .tripped → u = s1) ∧
      (s1.awake = true → s.dev ≠ .tripped → nonce.length ≠ 32 → u = s1.reply 0x88 5 number []) ∧
      (s1.awake = true → s.dev ≠ .tripped → nonce.length = 32 → 10 ≤ n →
        u.fld Reg.onxAttStatus F.onxAttStatusRefused = satAdd F.onxAttStatusRefused.max (s.fld Reg.onxAttStatus F.onxAttStatusRefused) 1 ∧
        u.onyx.quote = s.onyx.quote ∧ u.out = .msg 64 0xC8 4 number 0 0 [] :: s.out) ∧
      (s1.awake = true → s.dev ≠ .tripped → nonce.length = 32 → n < 10 →
        u.fld Reg.onxAttStatus F.onxAttStatusSigned = satAdd F.onxAttStatusSigned.max (s.fld Reg.onxAttStatus F.onxAttStatusSigned) 1 ∧
        ∃ x y, u.onyx.quote = x ++ nonce ++ y ∧ u.out = .msg 64 0xC8 0 number 0 0 u.onyx.quote :: s.out)) ∧
  (∀ (t : At) (addr size : Nat) (v : BitVec 64) (s s1 s2 : State), s1 = s.at t → s2 = s1.bringCfg t.cyc addr →
    (addr < Reg.coreId 0 ∨ Reg.coreId 3072 ≤ addr → s2 = if fabCounter addr then s1.countTags else s1) ∧
    (∀ c, c < 3072 → Reg.coreId c ≤ addr → addr < Reg.coreId (c + 1) → s2 = s1.toCycle c t.cyc ∧
      ((s.core c).landing = [] → (s.core c).array = none → t.cyc ≤ (s.core c).seen → (s.core c).wbq = [] → (∀ d ∈ (s.tower (towerOf c)).droops, t.cyc < d) →
        s2 = s1)) ∧
    ∃ u, exec (.configWrite t addr size v) s = .next u ∧
      (s1.dead = true → u = s1) ∧
      (s1.dead = false → size ≠ 8 ∨ addr % 8 ≠ 0 ∨ 2 ^ 40 ≤ addr → u = s1.log 0x0301 (srcUnit 12 0) [addr, size, devNum s.dev]) ∧
      (s1.dead = false → size = 8 → addr % 8 = 0 → addr < 2 ^ 40 → windowRows addr = none → u = s2.log 0x0301 (srcUnit 12 0) [addr, size, devNum s2.dev]) ∧
      (∀ rows r ix, s1.dead = false → size = 8 → addr % 8 = 0 → addr < 2 ^ 40 → windowRows addr = some rows → findRow addr rows = some (r, ix) →
        s2.specialWrite t.cyc addr r.base ix v (decide (s2.dev = .hold)) = none →
        SameBytes s2 u ∧ SameRegs s2 u [addr, Reg.onxLogStatus] ∧ ∀ f ∈ r.fields, addr ≠ Reg.onxLogStatus →
          (f.acc = .ro → u.fld addr f.fld = s2.fld addr f.fld) ∧ (f.acc = .rw → u.fld addr f.fld = f.fld.get v) ∧
          (f.acc = .rwh → u.fld addr f.fld = if s2.dev = .hold then f.fld.get v else s2.fld addr f.fld) ∧
          (f.acc = .w1c → u.fld addr f.fld = f.fld.get (s2.rd addr &&& ~~~(v &&& ~~~(s2.freshBits addr))))))

/-- R414 to R416, R466: an accepted UPD_BEGIN erases the inactive bank's header sector and opens a session; a header that is not newer or not signed ends
with its result. UPD_DATA writes a segment of that bank's body, UPD_END ends the data, and the update's finish writes the header only where the body
read back is good. UPD_ABANDON ends the update. An accepted restart waits for an update and for transitions of units, and otherwise enters BOOT at
once, which keeps memory and the latched id. -/
def Obligations.UpdatesAndRestart : Prop :=
  (∀ (t : At) (q : Signed) (header : List Byte) (s s1 : State) (b : Bool), s1 = s.at t → s1.awake = true → s.dev = .run ∨ s.dev = .hold ∨ s.dev = .halted →
    s.onyx.update = none → (∀ n, s.onyx.lastNumber = some n → n < q.number) → header.length = 4096 → b = s1.inactive →
    ∃ u, exec (.updBegin t q header true) s = .next u ∧
      (s1.signedOk q = true → SameBytes s u ∧ u.onyx.lastNumber = some q.number ∧
        (hSequence header ≤ s.fld Reg.onxImgSeq F.onxImgSeqSequence → u.store = s.store ∧ u.onyx.update = none ∧ u.fld Reg.onxUpdStatus F.onxUpdStatusResult = 2 ∧
          u.out = .msg 64 0xC3 6 q.number 0 0 [] :: s.out) ∧
        (s.fld Reg.onxImgSeq F.onxImgSeqSequence < hSequence header → s1.headerSig header = false → u.store = s.store ∧ u.onyx.update = none ∧
          u.fld Reg.onxUpdStatus F.onxUpdStatusResult = 3) ∧
        (s.fld Reg.onxImgSeq F.onxImgSeqSequence < hSequence header → s1.headerSig header = true →
          u.onyx.update = some { session := s.onyx.sessions + 1, bankB := b, header := header } ∧ (u.bank b).header = List.replicate 4096 0xFF ∧
          u.bank (!b) = s.bank (!b) ∧ u.flag Reg.onxUpdStatus F.onxUpdStatusBusy = true ∧ u.fld Reg.onxUpdStatus F.onxUpdStatusBlocksWritten = 0 ∧
          u.out = .msg 64 0xC3 0 q.number 0 0 (bytesOf (s.onyx.sessions + 1) 4) :: s.out))) ∧
  (∀ (t : At) (number session block offset : Nat) (data : List Byte) (s s1 : State), s1 = s.at t →
    ∃ u, exec (.updData t number session block offset data true) s = .next u ∧ SameBytes s u ∧
      (s1.awake = false ∨ s.dev = .tripped → u = s1) ∧
      (s1.awake = true → s.dev ≠ .tripped → s.onyx.update = none → u = s1.reply 0x84 1 number []) ∧
      (∀ v, s1.awake = true → s.dev ≠ .tripped → s.onyx.update = some v → v.session ≠ session ∨ v.ended = true → u = s1.reply 0x84 5 number []) ∧
      (∀ v, s1.awake = true → s.dev ≠ .tripped → s.onyx.update = some v → v.session = session → v.ended = false →
        v.nextBlock < block ∨ (v.nextBlock = block ∧ v.nextOff ≤ offset) → block < hBlocks v.header → offset < 65536 → offset % 8192 = 0 → data.length ≤ 8192 →
        (u.bank v.bankB).block block =
          overlay (if block = v.nextBlock ∧ v.nextOff ≠ 0 then (s.bank v.bankB).block block else List.replicate 65536 0xFF) offset data ∧
        (∀ i, i ≠ block → (u.bank v.bankB).block i = (s.bank v.bankB).block i) ∧ (u.bank v.bankB).header = (s.bank v.bankB).header ∧
        u.bank (!v.bankB) = s.bank (!v.bankB) ∧ u.out = .msg 64 0xC4 0 number 0 0 [] :: s.out ∧
        u.onyx.update = some { v with nextBlock := if offset = 57344 then block + 1 else block, nextOff := if offset = 57344 then 0 else offset + 8192 } ∧
        u.fld Reg.onxUpdStatus F.onxUpdStatusBlocksWritten = if offset = 57344
          then satAdd F.onxUpdStatusBlocksWritten.max (s.fld Reg.onxUpdStatus F.onxUpdStatusBlocksWritten) 1
          else s.fld Reg.onxUpdStatus F.onxUpdStatusBlocksWritten)) ∧
  (∀ (t : At) (q : Signed) (s s1 : State) (v : Update), s1 = s.at t → s1.awake = true → s.dev ≠ .tripped → s.onyx.update = some v →
    (∀ n, s.onyx.lastNumber = some n → n < q.number) →
    (∃ u, exec (.updEnd t q v.session) s = .next u ∧ (v.ended = false → s1.signedOk q = true → SameBytes s u ∧ u.store = s.store ∧
      u.onyx.update = some { v with ended := true } ∧ u.out = .msg 64 0xC5 0 q.number 0 0 (bytesOf (s.rd Reg.onxUpdStatus).toNat 8) :: s.out)) ∧
    ∃ u, exec (.updAbandon t q v.session) s = .next u ∧ (s1.signedOk q = true → s.onyx.restart = none → SameBytes s u ∧ u.store = s.store ∧
      u.onyx.update = none ∧ u.fld Reg.onxUpdStatus F.onxUpdStatusResult = 6 ∧ u.flag Reg.onxUpdStatus F.onxUpdStatusBusy = false)) ∧
  (∀ (t : At) (flashOk : Bool) (s s1 : State), s1 = s.at t →
    ∃ u, exec (.updateFinish t flashOk) s = .next u ∧
      (s1.awake = false ∨ s.onyx.update = none → u = s1) ∧
      (∀ v, s.onyx.update = some v → v.ended = false → u = s1) ∧
      (∀ v, s1.awake = true → s.onyx.update = some v → v.ended = true → s.onyx.restart = none → SameBytes s u ∧ u.onyx.update = none ∧
        u.flag Reg.onxUpdStatus F.onxUpdStatusBusy = false ∧
        (flashOk = false → u.store = s.store ∧ u.fld Reg.onxUpdStatus F.onxUpdStatusResult = 5) ∧
        (∀ i, flashOk = true → i < hBlocks v.header → blockOk ((s.bank v.bankB).block i) = false → u.store = s.store ∧
          u.fld Reg.onxUpdStatus F.onxUpdStatusResult = 4) ∧
        (u.fld Reg.onxUpdStatus F.onxUpdStatusResult = 1 → u.bank v.bankB = { s.bank v.bankB with header := v.header } ∧ u.bank (!v.bankB) = s.bank (!v.bankB) ∧
          s1.headerSig v.header = true ∧ ∀ i, i < hBlocks v.header → blockOk ((s.bank v.bankB).block i) = true) ∧
        (u.fld Reg.onxUpdStatus F.onxUpdStatusResult ≠ 1 → u.store = s.store))) ∧
  (∀ (t : At) (q : Signed) (flags : BitVec 32) (s s1 : State), s1 = s.at t → s.dev = .hold ∨ s.dev = .halted →
    (∀ n, s.onyx.lastNumber = some n → n < q.number) →
    ∃ u, exec (.restart t q flags) s = .next u ∧ (s1.signedOk q = true → SameBytes s u ∧ u.marks = s.marks ∧ u.start.pkg = s.start.pkg ∧ u.fuses = s.fuses ∧
      (s.onyx.update.isSome = true ∨ s.unitBusy = true → u.dev = s.dev ∧ u.onyx.restart = some flags.toNat ∧
        (s.onyx.update.isSome = true → u.flag Reg.onxUpdStatus F.onxUpdStatusRestartHeld = true) ∧
        ∀ n, n < Config.units → u.fld (Reg.onxUnit n) F.onxUnitPending = 0) ∧
      (s.onyx.update = none → s.unitBusy = false → (u.dev = .boot ∨ u.dev = .hold) ∧ u.cores = [] ∧ u.engines = [] ∧ u.ops = [] ∧ u.onyx.restart = none ∧
        u.onyx.lastNumber = none ∧ u.start.resume = if bit flags.toNat 2 && decide (s.dev = .hold) then some s.keep else none)))

/-- R437, R438: an event is recorded in the volatile log under the next sequence number; within a millisecond of a record of its code and source it is
counted instead, and the millisecond's end writes a record with that count. The persistent log takes the oldest queued record. R419: an expiry of the
watchdog restarts Onyx alone and halts the device in LOAD, JOIN and RUN. -/
def Obligations.LogsAndWatchdog : Prop :=
  (∀ (t : At) (code : BitVec 16) (source : BitVec 32) (args : List (BitVec 64)) (s s1 : State) (ix : Nat), s1 = s.at t →
    ix = s.fld Reg.onxLogStatus F.onxLogStatusWriteIndex →
    ∃ u, exec (.logRecordWrite t code source args) s = .next u ∧ SameBytes s u ∧
      ((s1.dead = true ∧ s.dev ≠ .tripped) ∨ code.toNat ∉ logCodes → u = s1) ∧
      (s1.dead = false ∨ s.dev = .tripped → code.toNat ∈ logCodes → (s.onyx.merges.find? fun m => m.code = code.toNat ∧ m.source = source.toNat) = none →
        u.fld Reg.onxLogStatus F.onxLogStatusNextSequence = (s.fld Reg.onxLogStatus F.onxLogStatusNextSequence + 1) % 2 ^ 32 ∧
        u.fld Reg.onxLogStatus F.onxLogStatusWriteIndex = (ix + 1) % 2 ^ 14 ∧
        ∃ r : LogRec, Sparse.get (fun _ => []) u.onyx.logRing ix = r.bytes ∧ r.code = code.toNat ∧ r.source = source.toNat ∧
          r.seq = s.fld Reg.onxLogStatus F.onxLogStatusNextSequence ∧ r.inc = s.inc ∧ r.severity = logSeverity code.toNat ∧ r.repeats = 0 ∧ r.args = args.take 4 ∧
          r.time = s1.logTime.1) ∧
      (∀ m, s1.dead = false ∨ s.dev = .tripped → code.toNat ∈ logCodes → (s.onyx.merges.find? fun m => m.code = code.toNat ∧ m.source = source.toNat) = some m →
        logSeverity code.toNat ≠ 4 → s1.now < m.first + 1000000 → u.regs = s.regs ∧ u.onyx.logRing = s.onyx.logRing ∧ u.out = s.out ∧
        ∃ n ∈ u.onyx.merges, n.code = code.toNat ∧ n.source = source.toNat ∧ n.first = m.first ∧ n.count = m.count + 1)) ∧
  (∀ (t : At) (code : BitVec 16) (source : BitVec 32) (s s1 : State), s1 = s.at t →
    ∃ u, exec (.logMergeFlush t code source) s = .next u ∧ SameBytes s u ∧
      ((s.onyx.merges.find? fun m => m.code = code.toNat ∧ m.source = source.toNat) = none → u = s1) ∧
      (∀ m, (s.onyx.merges.find? fun m => m.code = code.toNat ∧ m.source = source.toNat) = some m →
        ((s1.dead = true ∧ s.dev ≠ .tripped) ∨ s1.now < m.first + 1000000 → u = s1) ∧
        (s1.dead = false ∨ s.dev = .tripped → m.first + 1000000 ≤ s1.now → m.count ≠ 0 →
          u.fld Reg.onxLogStatus F.onxLogStatusNextSequence = (s.fld Reg.onxLogStatus F.onxLogStatusNextSequence + 1) % 2 ^ 32 ∧
          ∃ r : LogRec, Sparse.get (fun _ => []) u.onyx.logRing (s.fld Reg.onxLogStatus F.onxLogStatusWriteIndex) = r.bytes ∧ r.repeats = min 0xFFFF m.count ∧
            r.code = m.last.code ∧ r.source = m.last.source ∧ r.args = m.last.args))) ∧
  (∀ (t : At) (s s1 : State), s1 = s.at t →
    (∃ u, exec (.persistentLogWrite t) s = .next u ∧ (s.onyx.logQueue = [] ∨ s.dev = .off ∨ (s.dev = .boot ∧ s.pins.resetN = false) → u = s1) ∧
      (∀ r rest, s.onyx.logQueue = r :: rest → s.dev ≠ .off → s.dev ≠ .boot ∨ s.pins.resetN = true →
        u = { s1 with onyx := { s.onyx with logQueue := rest }, store := s.store.append r.2.bytes } ∧
        Sparse.get (fun _ => []) u.store.log s.store.logHead = r.2.bytes)) ∧
    ∃ u, exec (.watchdogExpiry t) s = .next u ∧ SameBytes s u ∧
      (s1.dead = true → s.dev ≠ .tripped → u = s1) ∧
      (s1.dead = false ∨ s.dev = .tripped → u.flag Reg.onxState F.onxStateWatchdogRestarted = true ∧
        (s.dev = .load ∨ s.dev = .join ∨ s.dev = .run → u.dev = .halted ∧ u.fld Reg.onxState F.onxStateHaltCause = 6) ∧
        (s.dev ≠ .load → s.dev ≠ .join → s.dev ≠ .run → u.dev = s.dev)))

/-- R422 to R430: a slot out of turn changes nothing; a diode's valid reading is posted with its round, and one at the shutdown threshold of its class
trips the device: the device stops, light is off and the update and restarts are abandoned; two invalid readings in a row exclude a diode; a
thermistor's reading follows its curve (R477), another channel's value is posted; the last channel ends the round. R446 to R448: a snapshot begins at
its multiple of ticks and, complete, stands in the half that did not hold the latest one. -/
def Obligations.HousekeepingAndTelemetry : Prop :=
  (∀ (t : At) (ch : BitVec 8) (x : HkSample) (s s1 : State) (c : Nat), s1 = s.at t → c = ch.toNat →
    ∃ u, exec (.housekeepingSlot t ch x) s = .next u ∧ SameBytes s u ∧
      ((s1.dead = true ∧ s.dev ≠ .tripped) ∨ c ≠ s.onyx.nextCh → u = s1) ∧
      (s1.dead = false → c = s.onyx.nextCh → u.onyx.nextCh = (c + 1) % 256 ∧
        (c < 224 → x.open_ = false → -640 ≤ x.value → x.value ≤ 2400 → c ∉ s.onyx.excluded →
          u.fld (Reg.onxHk c) F.onxHkValue = unsigned 16 x.value ∧ u.flag (Reg.onxHk c) F.onxHkValid = true ∧
          u.fld (Reg.onxHk c) F.onxHkRound = s.onyx.round % 2 ^ 32 ∧
          (x.value < shutdownOf c → u.dev = s.dev ∧ u.out = s.out) ∧
          (shutdownOf c ≤ x.value → u.dev = .tripped ∧ u.pins.thermtripN = false ∧ u.pins.laserEnN = true ∧ u.onyx.update = none ∧ u.onyx.restart = none ∧
            u.fld Reg.onxThermTrip F.onxThermTripSource = c ∧ u.fld Reg.onxThermTrip F.onxThermTripReading = unsigned 16 x.value)) ∧
        (c < 224 → x.open_ = true → assoc s.onyx.invalidRun c = 0 → c ∉ s.onyx.excluded →
          u.dev = s.dev ∧ u.flag (Reg.onxHk c) F.onxHkValid = false ∧ u.onyx.excluded = s.onyx.excluded ∧ assoc u.onyx.invalidRun c = 1) ∧
        (c < 224 → x.open_ = true → 1 ≤ assoc s.onyx.invalidRun c → u.dev = s.dev ∧ u.flag (Reg.onxHk c) F.onxHkExcluded = true ∧ c ∈ u.onyx.excluded) ∧
        (224 ≤ c → c < 228 → x.open_ = false → 100 ≤ x.value → x.value ≤ 400000 →
          u.fld (Reg.onxHk c) F.onxHkValue = unsigned 16 (thermistor x.value.toNat) ∧ u.flag (Reg.onxHk c) F.onxHkValid = true ∧ u.dev = s.dev) ∧
        (224 ≤ c → c < 228 → x.open_ = true ∨ x.value < 100 ∨ 400000 < x.value → u.flag (Reg.onxHk c) F.onxHkValid = false ∧ u.dev = s.dev) ∧
        (232 ≤ c → c < 255 → x.open_ = false →
          u.fld (Reg.onxHk c) F.onxHkValue = unsigned 16 x.value ∧ u.flag (Reg.onxHk c) F.onxHkValid = true ∧ u.dev = s.dev) ∧
        (c = 255 → u.onyx.round = s.onyx.round + 1 ∧ (s.dev ≠ .bringup ∨ s.onyx.round ≠ s.start.calAt → u.dev = s.dev) ∧
          (s.dev = .bringup → s.onyx.round = s.start.calAt → u.dev = .bringup ∨ (u.dev = .hold ∧ u.fld Reg.onxImgStatus F.onxImgStatusStartCause = 8))))) ∧
  (∀ (t : At) (s s1 : State), s1 = s.at t →
    (∃ u, exec (.telemetrySnapshot t) s = .next u ∧
      ((s.dev = .load ∨ s.dev = .join ∨ s.dev = .run ∨ s.dev = .hold) → s1.tcNat % 10000000 = 0 → s.onyx.snap = none →
        u.onyx.snap = some s1.tcNat ∧ u.flag Reg.onxTelemStatus F.onxTelemStatusBusy = true ∧ SameBytes s u ∧ SameRegs s u [Reg.onxTelemStatus]) ∧
      (¬(s.dev = .load ∨ s.dev = .join ∨ s.dev = .run ∨ s.dev = .hold) ∨ s1.tcNat % 10000000 ≠ 0 ∨ s.onyx.snap ≠ none → u = s1)) ∧
    ∃ u, exec (.snapshotComplete t) s = .next u ∧
      (s1.dead = true ∨ s.onyx.snap = none → u = s1) ∧
      (∀ t0 seq, s1.dead = false → s.onyx.snap = some t0 → seq = (s.fld Reg.onxTelemStatus F.onxTelemStatusSequence + 1) % 2 ^ 32 →
        SameBytes s u ∧ SameRegs s u [Reg.onxTelemStatus] ∧ u.onyx.snap = none ∧ u.fld Reg.onxTelemStatus F.onxTelemStatusSequence = seq ∧
        u.fld Reg.onxTelemStatus F.onxTelemStatusLatestHalf = 1 - s.fld Reg.onxTelemStatus F.onxTelemStatusLatestHalf ∧
        u.flag Reg.onxTelemStatus F.onxTelemStatusBusy = false ∧
        (s.fld Reg.onxTelemStatus F.onxTelemStatusLatestHalf = 1 → u.onyx.half0 = s1.snapshot t0 seq ∧ u.onyx.half1 = s.onyx.half1) ∧
        (s.fld Reg.onxTelemStatus F.onxTelemStatusLatestHalf = 0 → u.onyx.half1 = s1.snapshot t0 seq ∧ u.onyx.half0 = s.onyx.half0)))

/-- R433 to R435: an enable or disable outside HOLD, of a unit that is fenced (enable) or of unit 12 (disable), is refused and logged; in HOLD it starts
the unit's transition, is held while one runs, and changes nothing where the unit has the state already. A disable freezes the unit's arbiters; once
they are drained a tower's cores and vaults hold nothing and its endpoint is fenced. An enable trains a tower's groups; a tile's freezes every
transmitter and takes its endpoints out of their fences, and a tile's disable ends after its units, its drained transmitters, its fences and its
weights. A request held while a transition ran begins at its end. That a tile's stacks then hold nothing, and that a tower which its own training
fenced goes off again, is the model's choice (assumption 125). R441, R442: the counters' modes; the ticks of the tags in use are counted first. -/
def Obligations.UnitsAndCounters : Prop :=
  (∀ (t : At) (n : Nat) (s s1 : State), n < Config.units → Awake t s → s1 = s.at t →
    (∃ u, exec (.unitEnable t n) s = .next u ∧ SameBytes s u ∧
      (s.dev ≠ .hold → u = s1.unitRefused n) ∧
      (s.dev = .hold → s.enableOk n = false → u.unitState n = s.unitState n ∧ u.dev = s.dev) ∧
      (s.dev = .hold → s.enableOk n = true → u.fld (Reg.onxUnit n) F.onxUnitRequest = 1 ∧
        (s.unitState n = 0 → u.unitState n = 1 ∧ (n < 12 → ∀ g, g < 64 → s.fld (grpReg n g) F.flrGrpState < 3 → u.fld (grpReg n g) F.flrGrpState = 1) ∧
          ∀ k, k < 4 → n = 12 + k → u.start.tested = [] ∧ ∀ r, r < 21 → u.flag (Reg.fabTxArbCtrl r) F.fabTxArbCtrlFreeze = true ∧
            (ringTile r = k → u.ringFenced r = false)) ∧
        (s.unitState n = 2 → u.unitState n = 2 ∧ SameRegs s u [Reg.onxUnit n]) ∧
        (s.unitState n = 1 ∨ s.unitState n = 3 → u.unitState n = s.unitState n ∧ u.fld (Reg.onxUnit n) F.onxUnitPending = 1 ∧ SameRegs s u [Reg.onxUnit n]))) ∧
    (∃ u, exec (.unitDisable t n) s = .next u ∧
      (s.dev ≠ .hold → u = s1.unitRefused n) ∧
      (s.dev = .hold → n = 12 → u.unitState n = s.unitState n ∧ SameBytes s u) ∧
      (s.dev = .hold → n ≠ 12 → u.fld (Reg.onxUnit n) F.onxUnitRequest = 2 ∧
        (s.unitState n = 2 → u.unitState n = 3 ∧
          (n < 12 ∨ 16 ≤ n → SameBytes s u ∧ ∀ a ∈ unitArbs n, u.flag (arbCtrl a) F.fabTxArbCtrlFreeze = true) ∧
          ∀ k, k < 4 → n = 12 + k → (∀ i, i < 3 → s.unitState (3 * k + i) = 2) → SameBytes s u ∧ ∀ i, i < 3 → u.unitState (3 * k + i) = 3) ∧
        (s.unitState n = 0 → u.unitState n = 0 ∧ SameBytes s u ∧ SameRegs s u [Reg.onxUnit n]) ∧
        (s.unitState n = 1 ∨ s.unitState n = 3 → u.unitState n = s.unitState n ∧ u.fld (Reg.onxUnit n) F.onxUnitPending = 2 ∧ SameBytes s u ∧
          SameRegs s u [Reg.onxUnit n]))) ∧
    ∃ u, exec (.unitTransitionEnd t n) s = .next u ∧
      (s.onyx.restart = none → s.unitState n = 0 ∨ s.unitState n = 2 → u = s1) ∧
      (s.onyx.restart = none → n < 12 ∨ 16 ≤ n →
        (s.unitState n = 3 → s1.allDrained (unitArbs n) = false → u = s1) ∧
        (s.unitState n = 1 → s1.startDone n = false → u = s1) ∧
        (s.unitState n = 3 → s1.allDrained (unitArbs n) = true → s.fld (Reg.onxUnit n) F.onxUnitPending = 0 →
          u.unitState n = 0 ∧ u.fld (Reg.onxUnit n) F.onxUnitTransitions = satAdd F.onxUnitTransitions.max (s.fld (Reg.onxUnit n) F.onxUnitTransitions) 1 ∧
          (n < 12 → u.ringFenced (towerRing n) = true ∧ (∀ g, g < 64 → s.fld (grpReg n g) F.flrGrpState < 3 → u.fld (grpReg n g) F.flrGrpState = 0) ∧
            ∀ a, windowOf (256 * n) ≤ a → a < windowOf (256 * (n + 1)) → u.byte a = 0) ∧
          (16 ≤ n → SameBytes s u)) ∧
        (s.unitState n = 3 → s1.allDrained (unitArbs n) = true → s.fld (Reg.onxUnit n) F.onxUnitPending = 1 → s.dev = .hold → 16 ≤ n →
          u.unitState n = 1 ∧ u.fld (Reg.onxUnit n) F.onxUnitPending = 0 ∧ SameBytes s u) ∧
        (s.unitState n = 1 → s1.startDone n = true → s.fld (Reg.onxUnit n) F.onxUnitPending = 0 →
          (n < 12 → (s.tower n).fenced = true → u.unitState n = 0) ∧
          (n < 12 → (s.tower n).fenced = false) → (∀ c, c < 3072 → (s.core c).waiting = []) → (∀ k c, (s.arb (.channel k c)).waiting = []) →
          u.unitState n = 2 ∧ u.fld (Reg.onxUnit n) F.onxUnitTransitions = satAdd F.onxUnitTransitions.max (s.fld (Reg.onxUnit n) F.onxUnitTransitions) 1 ∧
          SameBytes s u ∧ ∀ a ∈ unitArbs n, u.flag (arbCtrl a) F.fabTxArbCtrlFreeze = false)) ∧
      (∀ k, k < 4 → n = 12 + k → s.onyx.restart = none → s.fld (Reg.onxUnit n) F.onxUnitPending = 0 →
        (s.unitState n = 3 → (∀ v ∈ (tileUnits k).flatten, s.unitState v = 0) → s.allFrozen allTx = true → s.allDrained allTx = true →
          (∀ r, r < 21 → ringTile r = k → s.ringFenced r = true) → s.flag (Reg.rplRebal 0) F.rplRebalInProgress = false →
          u.unitState n = 0 ∧ u.fld (Reg.onxUnit n) F.onxUnitTransitions = satAdd F.onxUnitTransitions.max (s.fld (Reg.onxUnit n) F.onxUnitTransitions) 1 ∧
          ∀ b, u.byte b = match placeOf b with
            | .hbm i _ => if i / 4 = k then 0 else s.byte b
            | _ => s.byte b) ∧
        (s.unitState n = 1 → ((tileRingIds k).all fun g => decide (2 ≤ s.ringState g)) = true → s.internalDone = true →
          SameBytes s u ∧ (∀ r, r < 21 → ringTile r = k → ringUnit r = n → u.flag (Reg.fabTxArbCtrl r) F.fabTxArbCtrlFreeze = false) ∧
          (s.unitState (32 + k) = 0 → s.enableOk (32 + k) = true → u.unitState (32 + k) = 1 ∧ u.unitState n = 1) ∧
          ((∀ v ∈ (tileUnits k).flatten, s.unitState v = 2) → u.unitState n = 2 ∧
            u.fld (Reg.onxUnit n) F.onxUnitTransitions = satAdd F.onxUnitTransitions.max (s.fld (Reg.onxUnit n) F.onxUnitTransitions) 1)))) ∧
  (∀ (t : At) (s s1 : State) (keeps : State → Prop), Awake t s → s1 = s.at t →
    (∀ u, keeps u ↔ SameBytes s u ∧ ∀ a, (∀ x ∈ s.ops, ∀ i, i < 16 → a ≠ Reg.fabEpmc (x.1 / 8192) i) → a ≠ Reg.onxPmcCtrl → u.rd a = s.rd a) →
    (∃ u, exec (.pmcCount t) s = .next u ∧ u.fld Reg.onxPmcCtrl F.onxPmcCtrlMode = 0 ∧ u.onyx.pmcOn = true ∧ keeps u) ∧
    (∃ u, exec (.pmcWindow t) s = .next u ∧ u.fld Reg.onxPmcCtrl F.onxPmcCtrlMode = 1 ∧ keeps u ∧
      (u.onyx.pmcOn = true ↔ 1024 * s.fld Reg.onxPmcStart F.onxPmcStartCarat ≤ s1.tcNat ∧ s1.tcNat < 1024 * s.fld Reg.onxPmcStop F.onxPmcStopCarat)) ∧
    (∃ u, exec (.pmcFreeze t) s = .next u ∧ u.fld Reg.onxPmcCtrl F.onxPmcCtrlMode = 2 ∧ u.onyx.pmcOn = false ∧ keeps u) ∧
    ∃ u, exec (.pmcWindowEdge t) s = .next u ∧ keeps u ∧ u.rd Reg.onxPmcCtrl = s.rd Reg.onxPmcCtrl ∧
      (s.fld Reg.onxPmcCtrl F.onxPmcCtrlMode = 1 →
        (u.onyx.pmcOn = true ↔ 1024 * s.fld Reg.onxPmcStart F.onxPmcStartCarat ≤ s1.tcNat ∧ s1.tcNat < 1024 * s.fld Reg.onxPmcStop F.onxPmcStopCarat)))

/-- R471, R472: the sideband's offset, bytes and address; the test access port. R13, R15, R27, R479, R480: power, and RESET_N; a release with an id above
31, or with no valid image in either bank, ends the start in HOLD with its cause. -/
def Obligations.SidebandPowerAndReset : Prop :=
  (∀ (t : At) (bytes : List Byte) (b : Byte) (count : Nat) (a st : BitVec 7) (s s1 : State), s1 = s.at t → s1.sideOn = true →
    exec (.i3cPrivateWrite t (b :: bytes)) s = .next { s1 with pins := { s.pins with i3cOffset := b.toNat } } ∧
    exec (.i3cPrivateWrite t []) s = .next s1 ∧
    exec (.i3cPrivateRead t count) s = .next ({ s1 with pins := { s.pins with i3cOffset := (s.pins.i3cOffset + count) % 256 } }.emit
      (.i3c ((List.range count).map fun i => s1.sideBytes.getD ((s.pins.i3cOffset + i) % 256) 0))) ∧
    exec (.dynamicAddressAssign t (.entdaa a)) s = .next { s1 with pins := { s.pins with i3cAddr := some a } } ∧
    exec (.dynamicAddressAssign t (.setdasa 0x3A a)) s = .next { s1 with pins := { s.pins with i3cAddr := some a } } ∧
    (st ≠ 0x3A → exec (.dynamicAddressAssign t (.setdasa st a)) s = .next s1)) ∧
  (∀ (t : At) (s s1 : State), s1 = s.at t → s.dev ≠ .off →
    exec (.jtagInstruction t .idcode) s = .next ({ s1 with pins := { s.pins with tap := .idcode } }.emit (.tapId (idCode s.fuses.stepping))) ∧
    exec (.jtagInstruction t .extest) s = .next ({ s1 with pins := { s.pins with tap := .extest } }.emit (.extest (!s.pins.resetN))) ∧
    exec (.jtagInstruction t .samplePreload) s = .next { s1 with pins := { s.pins with tap := .samplePreload } } ∧
    exec (.jtagInstruction t .bypass) s = .next { s1 with pins := { s.pins with tap := .bypass } } ∧
    exec (.jtagInstruction t .other) s = .next { s1 with pins := { s.pins with tap := .bypass } }) ∧
  (∀ (t : At) (s s1 : State), s1 = s.at t →
    (∃ u, exec (.powerRemoval t) s = .next u ∧ u.dev = .off ∧ u.regs = State.reset.regs ∧ u.cores = [] ∧ u.store = s.store ∧ u.fuses = s.fuses ∧
      ∀ a, u.byte a = 0) ∧
    (∃ u, exec (.powerOn t) s = .next u ∧ (s.dev ≠ .off → u = s1) ∧
      (s.dev = .off → u.dev = .boot ∧ u.pins.resetN = false ∧ u.cores = [] ∧ u.store = s.store ∧ u.fuses = s.fuses ∧ ∀ a, u.byte a = 0)) ∧
    ∃ u, exec (.resetNAssert t) s = .next u ∧ u.pins.resetN = false ∧ SameBytes s u ∧ u.store = s.store ∧
      (s.dev = .off ∨ s.dev = .tripped → u = { s1 with pins := { s.pins with resetN := false } }) ∧
      (s.dev ≠ .off → s.dev ≠ .tripped → u.dev = .boot ∧ u.cores = [] ∧ u.engines = [] ∧ u.ops = [] ∧ u.txq = [] ∧ u.onyx.logQueue = [] ∧
        ∀ a, a ≠ Reg.onxState → a ≠ Reg.hstMac → (∀ i, i < 2 → a ≠ Reg.hstIpv6 i) → u.rd a = resetWord a)) ∧
  (∀ (t : At) (straps : BitVec 6) (sight : BootSight) (s s1 : State), s1 = s.at t →
    ∃ u, exec (.resetNRelease t straps sight) s = .next u ∧ SameBytes s u ∧
      (s.dev = .off → u = s1) ∧
      (s.dev ≠ .off → s.pins.resetN = true ∨ s.dev ≠ .boot → u = { s1 with pins := { s.pins with resetN := true } }) ∧
      (s.dev = .boot → s.pins.resetN = false → u.pins.resetN = true ∧ u.start.pkg = straps.toNat ∧ (u.dev = .boot ∨ u.dev = .hold) ∧
        (32 ≤ straps.toNat → u.dev = .hold ∧ u.fld Reg.onxImgStatus F.onxImgStatusStartCause = 4 ∧ u.rd Reg.onxHoldCause = s.rd Reg.onxHoldCause ||| 0x800) ∧
        (straps.toNat < 32 → sight.size0 = s.store.size → sight.size1 = s.store.size → s.headerCheck s.store.bankA.header ≠ 1 → s.headerCheck s.store.bankB.header ≠ 1 →
          u.dev = .hold ∧ u.fld Reg.onxImgStatus F.onxImgStatusStartCause = 1)))

/-- R401, R403, R408, R409, R411 to R413, R431: the phases of a start. BRINGUP begins once an image is booted and a round found every reading cool, and
zeroes the vaults; a beacon in the package's own carat carries its id and the fibre's number, and its fibre is in training; fibre training; LOAD
begins once BRINGUP is over, and a bad body block halts it; JOIN begins at 1:1 and proposes a carat; a member's message is held; the join times out;
RUN begins at the agreed carat with zero accumulators (R102). -/
def Obligations.StartPhases : Prop :=
  (∀ (t : At) (s s1 : State), s1 = s.at t →
    (∃ u, exec (.bringupEntry t) s = .next u ∧ (s1.mayBringUp = false → u = s1) ∧
      (s1.mayBringUp = true → (∀ c, c < 3072 → (s.core c).waiting = []) → (∀ k c, (s.arb (.channel k c)).waiting = []) →
        (u.dev = .bringup ∨ u.dev = .hold) ∧ u.start.calAt = (s.onyx.round + if s.onyx.nextCh = 0 then 0 else 1) ∧ ∀ a, u.byte a = match placeOf a with
        | .vault _ _ => 0
        | _ => s.byte a)) ∧
    (∃ u, exec (.trainingBeacon t) s = .next u ∧ (s.start.laserDone = false ∨ s1.tcNat / 1024 % 32 ≠ s.start.pkg → u = s1) ∧
      (s.start.laserDone = true → s1.tcNat / 1024 % 32 = s.start.pkg →
        u = { s1 with regs := u.regs, out := u.out } ∧ SameRegs s u ((List.range 32).map fun x => Reg.fibStatus (x / 8) (x % 8)) ∧
        u.out = ((s1.untrained.filter s1.fibreStarts).map fun x =>
          Emit.training (.fibreOut x) (identFlit 2 (16 + x / 8) fun k => 2 * k + 1) s.start.pkg x).reverse ++ s.out ∧
        ∀ x, x < 32 → u.fibreState x = if x ∈ s1.untrained ∧ s1.fibreStarts x = true then 1 else s.fibreState x)) ∧
    (∃ u, exec (.joinMessageSend t) s = .next u ∧
      (s.dev ≠ .join ∨ s1.now < s.start.beganJoin + 65536 * s.start.joinMsgs → u = s1) ∧
      (s.dev = .join → s.start.beganJoin + 65536 * s.start.joinMsgs ≤ s1.now → SameBytes s u ∧ u.start.joinMsgs = s.start.joinMsgs + 1 ∧
        ∀ p ∈ s.others, ∀ m, s.routed 0 { cls := 0xD, op := Config.joinOp.toNat, dstPkg := p, dstEp := 0, originPkg := s.start.pkg, incarnation := s.inc, data := s.joinFlit } = some m →
          { m with hopSrc := 0, reached := s1.now } ∈ u.queue 0 14)) ∧
    (∃ u, exec (.joinTimeout t) s = .next u ∧
      (s.dev ≠ .join ∨ s.joinCarat ≠ 0 ∨ s1.now < s.start.beganJoin + 1000000 * hJoinTimeout s.booted.header → u = s1) ∧
      (s.dev = .join → s.joinCarat = 0 → s.start.beganJoin + 1000000 * hJoinTimeout s.booted.header ≤ s1.now →
        SameBytes s u ∧ u.dev = .halted ∧ u.fld Reg.onxState F.onxStateHaltCause = 5 ∧ u.fld Reg.onxImgStatus F.onxImgStatusStartCause = 9)) ∧
    (∃ u, exec (.joinEntry t) s = .next u ∧ (s.dev ≠ .load → u = s1) ∧
      (s.dev = .load → (∀ n, n < 4 → s.oneToOne n = true) → SameBytes s u ∧ (u.dev = .join ∨ u.dev = .halted) ∧ u.start.beganJoin = s1.now ∧
        u.start.proposal = ceilDiv s1.tcNat 1024 + hJoinLead s.booted.header ∧ u.fld (Reg.fabPeerInc s.pkg) F.fabPeerIncIncarnation = s.inc) ∧
      (∀ n, s.dev = .load → n < 4 → s.oneToOne n = false → u.dev = .load ∧ SameBytes s u)) ∧
    ∃ u, exec (.runEntry t) s = .next u ∧ (s.dev ≠ .join ∨ s.joinCarat = 0 ∨ s1.tcNat < 1024 * s.joinCarat → u = s1) ∧
      (s.dev = .join → s.joinCarat ≠ 0 → 1024 * s.joinCarat ≤ s1.tcNat → s1.awaited ≠ [] → SameBytes s u ∧ u.dev = .run ∧
        u.rd Reg.onxSchedBase = BitVec.ofNat 64 (1024 * s.joinCarat) ∧ u.boundary = {} ∧ ∀ a, isAccReg a = true → u.rd a = 0)) ∧
  (∀ (t : At) (x delay farPkg farFibre : Nat) (s s1 : State), x < Config.fibres → s1 = s.at t → farPkg < 64 → farFibre < 32 →
    ∃ u, exec (.fibreTraining t x delay farPkg farFibre) s = .next u ∧ SameBytes s u ∧
      (s.fibreStarts x = false ∨ s.start.laserDone = false ∨ s.internalDone = false ∨ x ∉ s.untrained → u = s1) ∧
      (s.fibreStarts x = true → s.start.laserDone = true → s.internalDone = true → x ∈ s.untrained →
        u.fld (Reg.fibStatus (x / 8) (x % 8)) F.fibStatusMeasuredDelay = min 0xFFFF delay ∧
        u.fld (Reg.fibStatus (x / 8) (x % 8)) F.fibStatusFarPackageSeen = farPkg ∧ u.fld (Reg.fibStatus (x / 8) (x % 8)) F.fibStatusFarFibreSeen = farFibre ∧
        u.fibreState x = if s.farOk x farPkg farFibre = false then 3 else if s.fld (Reg.fibCtrl (x / 8) (x % 8)) F.fibCtrlDelayTarget < delay then 5 else 2)) ∧
  (∀ (t : At) (bad : List Nat) (s s1 : State), s1 = s.at t →
    ∃ u, exec (.loadEntry t bad) s = .next u ∧ (s1.mayLoad = false → u = s1) ∧
      (s1.mayLoad = true → s1.loadFails bad = true → SameBytes s u ∧ u.dev = .halted ∧ u.fld Reg.onxState F.onxStateHaltCause = 4 ∧
        u.fld Reg.onxImgStatus F.onxImgStatusStartCause = 12) ∧
      (s1.mayLoad = true → s1.loadFails bad = false → (∀ c, c < 3072 → (s.core c).waiting = []) → (∀ k c, (s.arb (.channel k c)).waiting = []) → u.dev = .load ∧ u.start.joinSet = hJoinSet s.booted.header ∧
        ∀ j, j < 32 → u.fld (laneReg j) F.lplLaneState = 6 ∨ (u.fld (laneReg j) F.lplLaneState = 0 ∧ u.fld (laneReg j) F.lplLanePhase = 0))) ∧
  (∀ (t : At) (digest : List Byte) (proposal : Nat) (inc : BitVec 32) (pkg : Nat) (s s1 : State), pkg < 64 → s1 = s.at t →
    ∃ u, exec (.joinMessage t digest proposal inc pkg) s = .next u ∧ SameBytes s u ∧
      (s.dev = .run ∨ s.dev = .hold → u = s1.log 0x0804 (srcUnit 12 0) [pkg, devNum s.dev]) ∧
      (s.dev ≠ .run → s.dev ≠ .hold → s.dev ≠ .join ∨ pkg ∉ s.others → u = s1) ∧
      (s.dev = .join → pkg ∈ s.others → digest ≠ padTo 48 (hDigest s.booted.header) → u.dev = .halted ∧ u.fld Reg.onxImgStatus F.onxImgStatusStartCause = 10) ∧
      (s.dev = .join → pkg ∈ s.others → digest = padTo 48 (hDigest s.booted.header) → s.joinCarat = 0 →
        u.joinHeard pkg = true ∧ u.fld (Reg.fabPeerInc pkg) F.fabPeerIncIncarnation = inc.toNat ∧ assoc u.start.proposals pkg = proposal))
end

