-- ==== Sys2Proof/Laws/Sparse.lean ====
section
/-! SUPPORT. The laws of sparse maps: a read after a write, and that a write keeps the canonical form. -/

namespace Sys2Proof.Machine.Sparse

variable {α : Type}

theorem get_drop_same (d : Nat → α) (l : List (Nat × α)) (k : Nat) : get d (drop l k) k = d k := by
  induction l with
  | nil => rfl
  | cons e r ih =>
    obtain ⟨j, v⟩ := e
    by_cases h : j = k <;> simp [drop, get, h, ih]

theorem get_drop_ne (d : Nat → α) (l : List (Nat × α)) {k a : Nat} (h : a ≠ k) :
    get d (drop l k) a = get d l a := by
  induction l with
  | nil => rfl
  | cons e r ih =>
    obtain ⟨j, v⟩ := e
    by_cases hj : j = k
    · subst hj; simp [drop, get, ih, Ne.symm h]
    · by_cases ha : j = a
      · subst ha; simp [drop, get, hj]
      · simp [drop, get, hj, ha, ih]

theorem get_place_same (d : Nat → α) (l : List (Nat × α)) (k : Nat) (v : α)
    (h : ∀ e ∈ l, e.1 ≠ k) : get d (place l k v) k = v := by
  induction l with
  | nil => simp [place, get]
  | cons e r ih =>
    obtain ⟨j, w⟩ := e
    have hj : j ≠ k := h (j, w) (by simp)
    by_cases hk : k < j
    · simp [place, get, hk]
    · simp [place, get, hk, hj, ih (fun e he => h e (List.mem_cons_of_mem _ he))]

theorem get_place_ne (d : Nat → α) (l : List (Nat × α)) {k a : Nat} (v : α) (h : a ≠ k) :
    get d (place l k v) a = get d l a := by
  induction l with
  | nil => simp [place, get, Ne.symm h]
  | cons e r ih =>
    obtain ⟨j, w⟩ := e
    by_cases hk : k < j
    · simp [place, get, hk, Ne.symm h]
    · by_cases ha : j = a
      · subst ha; simp [place, get, hk]
      · simp [place, get, hk, ha, ih]

theorem not_mem_drop (l : List (Nat × α)) (k : Nat) : ∀ e ∈ drop l k, e.1 ≠ k := by
  induction l with
  | nil => simp [drop]
  | cons e r ih =>
    obtain ⟨j, v⟩ := e
    by_cases h : j = k
    · simpa [drop, h] using ih
    · intro e he
      simp only [drop, h, if_false, List.mem_cons] at he
      rcases he with rfl | he
      · exact h
      · exact ih e he

@[simp] theorem get_set_same [DecidableEq α] (d : Nat → α) (l : List (Nat × α)) (k : Nat) (v : α) :
    get d (set d l k v) k = v := by
  unfold set
  split
  · rename_i h; rw [get_drop_same, h]
  · exact get_place_same d _ k v (not_mem_drop l k)

theorem get_set_ne [DecidableEq α] (d : Nat → α) (l : List (Nat × α)) {k a : Nat} (v : α) (h : a ≠ k) :
    get d (set d l k v) a = get d l a := by
  unfold set
  split
  · exact get_drop_ne d l h
  · rw [get_place_ne d _ v h, get_drop_ne d l h]

theorem rising_mono {l : List (Nat × α)} {b c : Nat} (h : rising c l = true) (hbc : b ≤ c) : rising b l = true := by
  cases l with
  | nil => rfl
  | cons e r =>
    obtain ⟨j, v⟩ := e
    simp only [rising, Bool.and_eq_true, decide_eq_true_eq] at *
    exact ⟨le_trans hbc h.1, h.2⟩

theorem rising_drop {l : List (Nat × α)} {b : Nat} (k : Nat) (h : rising b l = true) : rising b (drop l k) = true := by
  induction l generalizing b with
  | nil => rfl
  | cons e r ih =>
    obtain ⟨j, v⟩ := e
    simp only [rising, Bool.and_eq_true, decide_eq_true_eq] at h
    by_cases hj : j = k
    · simpa [drop, hj] using ih (rising_mono h.2 (by omega))
    · simp only [drop, hj, if_false, rising, Bool.and_eq_true, decide_eq_true_eq]
      exact ⟨h.1, ih h.2⟩

theorem rising_place {l : List (Nat × α)} {b k : Nat} (v : α) (hb : b ≤ k) (hk : ∀ e ∈ l, e.1 ≠ k)
    (h : rising b l = true) : rising b (place l k v) = true := by
  induction l generalizing b with
  | nil => simpa [place, rising] using hb
  | cons e r ih =>
    obtain ⟨j, w⟩ := e
    simp only [rising, Bool.and_eq_true, decide_eq_true_eq] at h
    have hj : j ≠ k := hk (j, w) (by simp)
    by_cases hlt : k < j
    · simp only [place, hlt, if_true, rising, Bool.and_eq_true, decide_eq_true_eq]
      exact ⟨hb, by omega, h.2⟩
    · simp only [place, hlt, if_false, rising, Bool.and_eq_true, decide_eq_true_eq]
      exact ⟨h.1, ih (by omega) (fun e he => hk e (List.mem_cons_of_mem _ he)) h.2⟩

theorem mem_drop {l : List (Nat × α)} {k : Nat} {e : Nat × α} (h : e ∈ drop l k) : e ∈ l := by
  induction l with
  | nil => simp [drop] at h
  | cons f r ih =>
    obtain ⟨j, v⟩ := f
    by_cases hj : j = k
    · simp only [drop, hj, if_true] at h; exact List.mem_cons_of_mem _ (ih h)
    · simp only [drop, hj, if_false, List.mem_cons] at h
      rcases h with rfl | h
      · simp
      · exact List.mem_cons_of_mem _ (ih h)

theorem mem_place {l : List (Nat × α)} {k : Nat} {v : α} {e : Nat × α} (h : e ∈ place l k v) : e = (k, v) ∨ e ∈ l := by
  induction l with
  | nil => simp [place] at h; exact .inl h
  | cons f r ih =>
    obtain ⟨j, w⟩ := f
    by_cases hlt : k < j
    · simp only [place, hlt, if_true, List.mem_cons] at h ⊢; tauto
    · simp only [place, hlt, if_false, List.mem_cons] at h ⊢
      rcases h with h | h
      · exact .inr (.inl h)
      · rcases ih h with h | h
        · exact .inl h
        · exact .inr (.inr h)

/-- Every write keeps the canonical form. -/
theorem wf_set [DecidableEq α] (d : Nat → α) (l : List (Nat × α)) (k : Nat) (v : α) (h : wf d l = true) :
    wf d (set d l k v) = true := by
  simp only [wf, Bool.and_eq_true, proper, List.all_eq_true, decide_eq_true_eq] at h ⊢
  unfold set
  split
  · exact ⟨rising_drop k h.1, fun e he => h.2 e (mem_drop he)⟩
  · rename_i hv
    refine ⟨rising_place v (Nat.zero_le _) (not_mem_drop l k) (rising_drop k h.1), fun e he => ?_⟩
    rcases mem_place he with rfl | he
    · exact hv
    · exact h.2 e (mem_drop he)

end Sys2Proof.Machine.Sparse
end

