-- ==== Sys2Proof/Laws/State.lean ====
section
/-! SUPPORT. What each update of the state leaves alone: one lemma per update and field, true by unfolding. -/

namespace Sys2Proof.Machine

variable (s : State)

@[simp] theorem State.wr_pending (a : Nat) (v : Word) : (s.wr a v).pending = s.pending := rfl
@[simp] theorem State.wr_dev (a : Nat) (v : Word) : (s.wr a v).dev = s.dev := rfl
@[simp] theorem State.wr_now (a : Nat) (v : Word) : (s.wr a v).now = s.now := rfl
@[simp] theorem State.wr_clk (a : Nat) (v : Word) : (s.wr a v).clk = s.clk := rfl
@[simp] theorem State.wr_fresh (a : Nat) (v : Word) : (s.wr a v).fresh = s.fresh := rfl
@[simp] theorem State.wr_freeCtr (a : Nat) (v : Word) : (s.wr a v).freeCtr = s.freeCtr := rfl
@[simp] theorem State.wr_fuses (a : Nat) (v : Word) : (s.wr a v).fuses = s.fuses := rfl
@[simp] theorem State.wr_pins (a : Nat) (v : Word) : (s.wr a v).pins = s.pins := rfl
@[simp] theorem State.wr_store (a : Nat) (v : Word) : (s.wr a v).store = s.store := rfl
@[simp] theorem State.wr_start (a : Nat) (v : Word) : (s.wr a v).start = s.start := rfl
@[simp] theorem State.wr_mem (a : Nat) (v : Word) : (s.wr a v).mem = s.mem := rfl
@[simp] theorem State.wr_marks (a : Nat) (v : Word) : (s.wr a v).marks = s.marks := rfl
@[simp] theorem State.wr_cores (a : Nat) (v : Word) : (s.wr a v).cores = s.cores := rfl
@[simp] theorem State.wr_engines (a : Nat) (v : Word) : (s.wr a v).engines = s.engines := rfl
@[simp] theorem State.wr_towers (a : Nat) (v : Word) : (s.wr a v).towers = s.towers := rfl
@[simp] theorem State.wr_trees (a : Nat) (v : Word) : (s.wr a v).trees = s.trees := rfl
@[simp] theorem State.wr_arbs (a : Nat) (v : Word) : (s.wr a v).arbs = s.arbs := rfl
@[simp] theorem State.wr_txq (a : Nat) (v : Word) : (s.wr a v).txq = s.txq := rfl
@[simp] theorem State.wr_txLinks (a : Nat) (v : Word) : (s.wr a v).txLinks = s.txLinks := rfl
@[simp] theorem State.wr_rxLinks (a : Nat) (v : Word) : (s.wr a v).rxLinks = s.rxLinks := rfl
@[simp] theorem State.wr_ingests (a : Nat) (v : Word) : (s.wr a v).ingests = s.ingests := rfl
@[simp] theorem State.wr_rings (a : Nat) (v : Word) : (s.wr a v).rings = s.rings := rfl
@[simp] theorem State.wr_lattices (a : Nat) (v : Word) : (s.wr a v).lattices = s.lattices := rfl
@[simp] theorem State.wr_lanes (a : Nat) (v : Word) : (s.wr a v).lanes = s.lanes := rfl
@[simp] theorem State.wr_frames (a : Nat) (v : Word) : (s.wr a v).frames = s.frames := rfl
@[simp] theorem State.wr_d2d (a : Nat) (v : Word) : (s.wr a v).d2d = s.d2d := rfl
@[simp] theorem State.wr_times (a : Nat) (v : Word) : (s.wr a v).times = s.times := rfl
@[simp] theorem State.wr_ops (a : Nat) (v : Word) : (s.wr a v).ops = s.ops := rfl
@[simp] theorem State.wr_atomSeq (a : Nat) (v : Word) : (s.wr a v).atomSeq = s.atomSeq := rfl
@[simp] theorem State.wr_cache (a : Nat) (v : Word) : (s.wr a v).cache = s.cache := rfl
@[simp] theorem State.wr_invs (a : Nat) (v : Word) : (s.wr a v).invs = s.invs := rfl
@[simp] theorem State.wr_fetches (a : Nat) (v : Word) : (s.wr a v).fetches = s.fetches := rfl
@[simp] theorem State.wr_lockEnd (a : Nat) (v : Word) : (s.wr a v).lockEnd = s.lockEnd := rfl
@[simp] theorem State.wr_prevEpoch (a : Nat) (v : Word) : (s.wr a v).prevEpoch = s.prevEpoch := rfl
@[simp] theorem State.wr_boundary (a : Nat) (v : Word) : (s.wr a v).boundary = s.boundary := rfl
@[simp] theorem State.wr_onyx (a : Nat) (v : Word) : (s.wr a v).onyx = s.onyx := rfl
@[simp] theorem State.wr_cal (a : Nat) (v : Word) : (s.wr a v).cal = s.cal := rfl
@[simp] theorem State.wr_shards (a : Nat) (v : Word) : (s.wr a v).shards = s.shards := rfl
@[simp] theorem State.wr_egress (a : Nat) (v : Word) : (s.wr a v).egress = s.egress := rfl
@[simp] theorem State.wr_ratios (a : Nat) (v : Word) : (s.wr a v).ratios = s.ratios := rfl
@[simp] theorem State.wr_mesh (a : Nat) (v : Word) : (s.wr a v).mesh = s.mesh := rfl
@[simp] theorem State.wr_deskews (a : Nat) (v : Word) : (s.wr a v).deskews = s.deskews := rfl
@[simp] theorem State.wr_adapts (a : Nat) (v : Word) : (s.wr a v).adapts = s.adapts := rfl
@[simp] theorem State.wr_out (a : Nat) (v : Word) : (s.wr a v).out = s.out := rfl
@[simp] theorem State.putF_pending (a : Nat) (f : Fld) (v : Nat) : (s.putF a f v).pending = s.pending := rfl
@[simp] theorem State.putF_dev (a : Nat) (f : Fld) (v : Nat) : (s.putF a f v).dev = s.dev := rfl
@[simp] theorem State.putF_now (a : Nat) (f : Fld) (v : Nat) : (s.putF a f v).now = s.now := rfl
@[simp] theorem State.putF_clk (a : Nat) (f : Fld) (v : Nat) : (s.putF a f v).clk = s.clk := rfl
@[simp] theorem State.putF_fresh (a : Nat) (f : Fld) (v : Nat) : (s.putF a f v).fresh = s.fresh := rfl
@[simp] theorem State.putF_freeCtr (a : Nat) (f : Fld) (v : Nat) : (s.putF a f v).freeCtr = s.freeCtr := rfl
@[simp] theorem State.putF_fuses (a : Nat) (f : Fld) (v : Nat) : (s.putF a f v).fuses = s.fuses := rfl
@[simp] theorem State.putF_pins (a : Nat) (f : Fld) (v : Nat) : (s.putF a f v).pins = s.pins := rfl
@[simp] theorem State.putF_store (a : Nat) (f : Fld) (v : Nat) : (s.putF a f v).store = s.store := rfl
@[simp] theorem State.putF_start (a : Nat) (f : Fld) (v : Nat) : (s.putF a f v).start = s.start := rfl
@[simp] theorem State.putF_mem (a : Nat) (f : Fld) (v : Nat) : (s.putF a f v).mem = s.mem := rfl
@[simp] theorem State.putF_marks (a : Nat) (f : Fld) (v : Nat) : (s.putF a f v).marks = s.marks := rfl
@[simp] theorem State.putF_cores (a : Nat) (f : Fld) (v : Nat) : (s.putF a f v).cores = s.cores := rfl
@[simp] theorem State.putF_engines (a : Nat) (f : Fld) (v : Nat) : (s.putF a f v).engines = s.engines := rfl
@[simp] theorem State.putF_towers (a : Nat) (f : Fld) (v : Nat) : (s.putF a f v).towers = s.towers := rfl
@[simp] theorem State.putF_trees (a : Nat) (f : Fld) (v : Nat) : (s.putF a f v).trees = s.trees := rfl
@[simp] theorem State.putF_arbs (a : Nat) (f : Fld) (v : Nat) : (s.putF a f v).arbs = s.arbs := rfl
@[simp] theorem State.putF_txq (a : Nat) (f : Fld) (v : Nat) : (s.putF a f v).txq = s.txq := rfl
@[simp] theorem State.putF_txLinks (a : Nat) (f : Fld) (v : Nat) : (s.putF a f v).txLinks = s.txLinks := rfl
@[simp] theorem State.putF_rxLinks (a : Nat) (f : Fld) (v : Nat) : (s.putF a f v).rxLinks = s.rxLinks := rfl
@[simp] theorem State.putF_ingests (a : Nat) (f : Fld) (v : Nat) : (s.putF a f v).ingests = s.ingests := rfl
@[simp] theorem State.putF_rings (a : Nat) (f : Fld) (v : Nat) : (s.putF a f v).rings = s.rings := rfl
@[simp] theorem State.putF_lattices (a : Nat) (f : Fld) (v : Nat) : (s.putF a f v).lattices = s.lattices := rfl
@[simp] theorem State.putF_lanes (a : Nat) (f : Fld) (v : Nat) : (s.putF a f v).lanes = s.lanes := rfl
@[simp] theorem State.putF_frames (a : Nat) (f : Fld) (v : Nat) : (s.putF a f v).frames = s.frames := rfl
@[simp] theorem State.putF_d2d (a : Nat) (f : Fld) (v : Nat) : (s.putF a f v).d2d = s.d2d := rfl
@[simp] theorem State.putF_times (a : Nat) (f : Fld) (v : Nat) : (s.putF a f v).times = s.times := rfl
@[simp] theorem State.putF_ops (a : Nat) (f : Fld) (v : Nat) : (s.putF a f v).ops = s.ops := rfl
@[simp] theorem State.putF_atomSeq (a : Nat) (f : Fld) (v : Nat) : (s.putF a f v).atomSeq = s.atomSeq := rfl
@[simp] theorem State.putF_cache (a : Nat) (f : Fld) (v : Nat) : (s.putF a f v).cache = s.cache := rfl
@[simp] theorem State.putF_invs (a : Nat) (f : Fld) (v : Nat) : (s.putF a f v).invs = s.invs := rfl
@[simp] theorem State.putF_fetches (a : Nat) (f : Fld) (v : Nat) : (s.putF a f v).fetches = s.fetches := rfl
@[simp] theorem State.putF_lockEnd (a : Nat) (f : Fld) (v : Nat) : (s.putF a f v).lockEnd = s.lockEnd := rfl
@[simp] theorem State.putF_prevEpoch (a : Nat) (f : Fld) (v : Nat) : (s.putF a f v).prevEpoch = s.prevEpoch := rfl
@[simp] theorem State.putF_boundary (a : Nat) (f : Fld) (v : Nat) : (s.putF a f v).boundary = s.boundary := rfl
@[simp] theorem State.putF_onyx (a : Nat) (f : Fld) (v : Nat) : (s.putF a f v).onyx = s.onyx := rfl
@[simp] theorem State.putF_cal (a : Nat) (f : Fld) (v : Nat) : (s.putF a f v).cal = s.cal := rfl
@[simp] theorem State.putF_shards (a : Nat) (f : Fld) (v : Nat) : (s.putF a f v).shards = s.shards := rfl
@[simp] theorem State.putF_egress (a : Nat) (f : Fld) (v : Nat) : (s.putF a f v).egress = s.egress := rfl
@[simp] theorem State.putF_ratios (a : Nat) (f : Fld) (v : Nat) : (s.putF a f v).ratios = s.ratios := rfl
@[simp] theorem State.putF_mesh (a : Nat) (f : Fld) (v : Nat) : (s.putF a f v).mesh = s.mesh := rfl
@[simp] theorem State.putF_deskews (a : Nat) (f : Fld) (v : Nat) : (s.putF a f v).deskews = s.deskews := rfl
@[simp] theorem State.putF_adapts (a : Nat) (f : Fld) (v : Nat) : (s.putF a f v).adapts = s.adapts := rfl
@[simp] theorem State.putF_out (a : Nat) (f : Fld) (v : Nat) : (s.putF a f v).out = s.out := rfl
@[simp] theorem State.putB_pending (a : Nat) (f : Fld) (b : Bool) : (s.putB a f b).pending = s.pending := rfl
@[simp] theorem State.putB_dev (a : Nat) (f : Fld) (b : Bool) : (s.putB a f b).dev = s.dev := rfl
@[simp] theorem State.putB_now (a : Nat) (f : Fld) (b : Bool) : (s.putB a f b).now = s.now := rfl
@[simp] theorem State.putB_clk (a : Nat) (f : Fld) (b : Bool) : (s.putB a f b).clk = s.clk := rfl
@[simp] theorem State.putB_fresh (a : Nat) (f : Fld) (b : Bool) : (s.putB a f b).fresh = s.fresh := rfl
@[simp] theorem State.putB_freeCtr (a : Nat) (f : Fld) (b : Bool) : (s.putB a f b).freeCtr = s.freeCtr := rfl
@[simp] theorem State.putB_fuses (a : Nat) (f : Fld) (b : Bool) : (s.putB a f b).fuses = s.fuses := rfl
@[simp] theorem State.putB_pins (a : Nat) (f : Fld) (b : Bool) : (s.putB a f b).pins = s.pins := rfl
@[simp] theorem State.putB_store (a : Nat) (f : Fld) (b : Bool) : (s.putB a f b).store = s.store := rfl
@[simp] theorem State.putB_start (a : Nat) (f : Fld) (b : Bool) : (s.putB a f b).start = s.start := rfl
@[simp] theorem State.putB_mem (a : Nat) (f : Fld) (b : Bool) : (s.putB a f b).mem = s.mem := rfl
@[simp] theorem State.putB_marks (a : Nat) (f : Fld) (b : Bool) : (s.putB a f b).marks = s.marks := rfl
@[simp] theorem State.putB_cores (a : Nat) (f : Fld) (b : Bool) : (s.putB a f b).cores = s.cores := rfl
@[simp] theorem State.putB_engines (a : Nat) (f : Fld) (b : Bool) : (s.putB a f b).engines = s.engines := rfl
@[simp] theorem State.putB_towers (a : Nat) (f : Fld) (b : Bool) : (s.putB a f b).towers = s.towers := rfl
@[simp] theorem State.putB_trees (a : Nat) (f : Fld) (b : Bool) : (s.putB a f b).trees = s.trees := rfl
@[simp] theorem State.putB_arbs (a : Nat) (f : Fld) (b : Bool) : (s.putB a f b).arbs = s.arbs := rfl
@[simp] theorem State.putB_txq (a : Nat) (f : Fld) (b : Bool) : (s.putB a f b).txq = s.txq := rfl
@[simp] theorem State.putB_txLinks (a : Nat) (f : Fld) (b : Bool) : (s.putB a f b).txLinks = s.txLinks := rfl
@[simp] theorem State.putB_rxLinks (a : Nat) (f : Fld) (b : Bool) : (s.putB a f b).rxLinks = s.rxLinks := rfl
@[simp] theorem State.putB_ingests (a : Nat) (f : Fld) (b : Bool) : (s.putB a f b).ingests = s.ingests := rfl
@[simp] theorem State.putB_rings (a : Nat) (f : Fld) (b : Bool) : (s.putB a f b).rings = s.rings := rfl
@[simp] theorem State.putB_lattices (a : Nat) (f : Fld) (b : Bool) : (s.putB a f b).lattices = s.lattices := rfl
@[simp] theorem State.putB_lanes (a : Nat) (f : Fld) (b : Bool) : (s.putB a f b).lanes = s.lanes := rfl
@[simp] theorem State.putB_frames (a : Nat) (f : Fld) (b : Bool) : (s.putB a f b).frames = s.frames := rfl
@[simp] theorem State.putB_d2d (a : Nat) (f : Fld) (b : Bool) : (s.putB a f b).d2d = s.d2d := rfl
@[simp] theorem State.putB_times (a : Nat) (f : Fld) (b : Bool) : (s.putB a f b).times = s.times := rfl
@[simp] theorem State.putB_ops (a : Nat) (f : Fld) (b : Bool) : (s.putB a f b).ops = s.ops := rfl
@[simp] theorem State.putB_atomSeq (a : Nat) (f : Fld) (b : Bool) : (s.putB a f b).atomSeq = s.atomSeq := rfl
@[simp] theorem State.putB_cache (a : Nat) (f : Fld) (b : Bool) : (s.putB a f b).cache = s.cache := rfl
@[simp] theorem State.putB_invs (a : Nat) (f : Fld) (b : Bool) : (s.putB a f b).invs = s.invs := rfl
@[simp] theorem State.putB_fetches (a : Nat) (f : Fld) (b : Bool) : (s.putB a f b).fetches = s.fetches := rfl
@[simp] theorem State.putB_lockEnd (a : Nat) (f : Fld) (b : Bool) : (s.putB a f b).lockEnd = s.lockEnd := rfl
@[simp] theorem State.putB_prevEpoch (a : Nat) (f : Fld) (b : Bool) : (s.putB a f b).prevEpoch = s.prevEpoch := rfl
@[simp] theorem State.putB_boundary (a : Nat) (f : Fld) (b : Bool) : (s.putB a f b).boundary = s.boundary := rfl
@[simp] theorem State.putB_onyx (a : Nat) (f : Fld) (b : Bool) : (s.putB a f b).onyx = s.onyx := rfl
@[simp] theorem State.putB_cal (a : Nat) (f : Fld) (b : Bool) : (s.putB a f b).cal = s.cal := rfl
@[simp] theorem State.putB_shards (a : Nat) (f : Fld) (b : Bool) : (s.putB a f b).shards = s.shards := rfl
@[simp] theorem State.putB_egress (a : Nat) (f : Fld) (b : Bool) : (s.putB a f b).egress = s.egress := rfl
@[simp] theorem State.putB_ratios (a : Nat) (f : Fld) (b : Bool) : (s.putB a f b).ratios = s.ratios := rfl
@[simp] theorem State.putB_mesh (a : Nat) (f : Fld) (b : Bool) : (s.putB a f b).mesh = s.mesh := rfl
@[simp] theorem State.putB_deskews (a : Nat) (f : Fld) (b : Bool) : (s.putB a f b).deskews = s.deskews := rfl
@[simp] theorem State.putB_adapts (a : Nat) (f : Fld) (b : Bool) : (s.putB a f b).adapts = s.adapts := rfl
@[simp] theorem State.putB_out (a : Nat) (f : Fld) (b : Bool) : (s.putB a f b).out = s.out := rfl
@[simp] theorem State.bump_pending (a : Nat) (f : Fld) (n : Nat) : (s.bump a f n).pending = s.pending := rfl
@[simp] theorem State.bump_dev (a : Nat) (f : Fld) (n : Nat) : (s.bump a f n).dev = s.dev := rfl
@[simp] theorem State.bump_now (a : Nat) (f : Fld) (n : Nat) : (s.bump a f n).now = s.now := rfl
@[simp] theorem State.bump_clk (a : Nat) (f : Fld) (n : Nat) : (s.bump a f n).clk = s.clk := rfl
@[simp] theorem State.bump_fresh (a : Nat) (f : Fld) (n : Nat) : (s.bump a f n).fresh = s.fresh := rfl
@[simp] theorem State.bump_freeCtr (a : Nat) (f : Fld) (n : Nat) : (s.bump a f n).freeCtr = s.freeCtr := rfl
@[simp] theorem State.bump_fuses (a : Nat) (f : Fld) (n : Nat) : (s.bump a f n).fuses = s.fuses := rfl
@[simp] theorem State.bump_pins (a : Nat) (f : Fld) (n : Nat) : (s.bump a f n).pins = s.pins := rfl
@[simp] theorem State.bump_store (a : Nat) (f : Fld) (n : Nat) : (s.bump a f n).store = s.store := rfl
@[simp] theorem State.bump_start (a : Nat) (f : Fld) (n : Nat) : (s.bump a f n).start = s.start := rfl
@[simp] theorem State.bump_mem (a : Nat) (f : Fld) (n : Nat) : (s.bump a f n).mem = s.mem := rfl
@[simp] theorem State.bump_marks (a : Nat) (f : Fld) (n : Nat) : (s.bump a f n).marks = s.marks := rfl
@[simp] theorem State.bump_cores (a : Nat) (f : Fld) (n : Nat) : (s.bump a f n).cores = s.cores := rfl
@[simp] theorem State.bump_engines (a : Nat) (f : Fld) (n : Nat) : (s.bump a f n).engines = s.engines := rfl
@[simp] theorem State.bump_towers (a : Nat) (f : Fld) (n : Nat) : (s.bump a f n).towers = s.towers := rfl
@[simp] theorem State.bump_trees (a : Nat) (f : Fld) (n : Nat) : (s.bump a f n).trees = s.trees := rfl
@[simp] theorem State.bump_arbs (a : Nat) (f : Fld) (n : Nat) : (s.bump a f n).arbs = s.arbs := rfl
@[simp] theorem State.bump_txq (a : Nat) (f : Fld) (n : Nat) : (s.bump a f n).txq = s.txq := rfl
@[simp] theorem State.bump_txLinks (a : Nat) (f : Fld) (n : Nat) : (s.bump a f n).txLinks = s.txLinks := rfl
@[simp] theorem State.bump_rxLinks (a : Nat) (f : Fld) (n : Nat) : (s.bump a f n).rxLinks = s.rxLinks := rfl
@[simp] theorem State.bump_ingests (a : Nat) (f : Fld) (n : Nat) : (s.bump a f n).ingests = s.ingests := rfl
@[simp] theorem State.bump_rings (a : Nat) (f : Fld) (n : Nat) : (s.bump a f n).rings = s.rings := rfl
@[simp] theorem State.bump_lattices (a : Nat) (f : Fld) (n : Nat) : (s.bump a f n).lattices = s.lattices := rfl
@[simp] theorem State.bump_lanes (a : Nat) (f : Fld) (n : Nat) : (s.bump a f n).lanes = s.lanes := rfl
@[simp] theorem State.bump_frames (a : Nat) (f : Fld) (n : Nat) : (s.bump a f n).frames = s.frames := rfl
@[simp] theorem State.bump_d2d (a : Nat) (f : Fld) (n : Nat) : (s.bump a f n).d2d = s.d2d := rfl
@[simp] theorem State.bump_times (a : Nat) (f : Fld) (n : Nat) : (s.bump a f n).times = s.times := rfl
@[simp] theorem State.bump_ops (a : Nat) (f : Fld) (n : Nat) : (s.bump a f n).ops = s.ops := rfl
@[simp] theorem State.bump_atomSeq (a : Nat) (f : Fld) (n : Nat) : (s.bump a f n).atomSeq = s.atomSeq := rfl
@[simp] theorem State.bump_cache (a : Nat) (f : Fld) (n : Nat) : (s.bump a f n).cache = s.cache := rfl
@[simp] theorem State.bump_invs (a : Nat) (f : Fld) (n : Nat) : (s.bump a f n).invs = s.invs := rfl
@[simp] theorem State.bump_fetches (a : Nat) (f : Fld) (n : Nat) : (s.bump a f n).fetches = s.fetches := rfl
@[simp] theorem State.bump_lockEnd (a : Nat) (f : Fld) (n : Nat) : (s.bump a f n).lockEnd = s.lockEnd := rfl
@[simp] theorem State.bump_prevEpoch (a : Nat) (f : Fld) (n : Nat) : (s.bump a f n).prevEpoch = s.prevEpoch := rfl
@[simp] theorem State.bump_boundary (a : Nat) (f : Fld) (n : Nat) : (s.bump a f n).boundary = s.boundary := rfl
@[simp] theorem State.bump_onyx (a : Nat) (f : Fld) (n : Nat) : (s.bump a f n).onyx = s.onyx := rfl
@[simp] theorem State.bump_cal (a : Nat) (f : Fld) (n : Nat) : (s.bump a f n).cal = s.cal := rfl
@[simp] theorem State.bump_shards (a : Nat) (f : Fld) (n : Nat) : (s.bump a f n).shards = s.shards := rfl
@[simp] theorem State.bump_egress (a : Nat) (f : Fld) (n : Nat) : (s.bump a f n).egress = s.egress := rfl
@[simp] theorem State.bump_ratios (a : Nat) (f : Fld) (n : Nat) : (s.bump a f n).ratios = s.ratios := rfl
@[simp] theorem State.bump_mesh (a : Nat) (f : Fld) (n : Nat) : (s.bump a f n).mesh = s.mesh := rfl
@[simp] theorem State.bump_deskews (a : Nat) (f : Fld) (n : Nat) : (s.bump a f n).deskews = s.deskews := rfl
@[simp] theorem State.bump_adapts (a : Nat) (f : Fld) (n : Nat) : (s.bump a f n).adapts = s.adapts := rfl
@[simp] theorem State.bump_out (a : Nat) (f : Fld) (n : Nat) : (s.bump a f n).out = s.out := rfl
@[simp] theorem State.raise_pending (a : Nat) (f : Fld) (n : Nat) : (s.raise a f n).pending = s.pending := rfl
@[simp] theorem State.raise_dev (a : Nat) (f : Fld) (n : Nat) : (s.raise a f n).dev = s.dev := rfl
@[simp] theorem State.raise_now (a : Nat) (f : Fld) (n : Nat) : (s.raise a f n).now = s.now := rfl
@[simp] theorem State.raise_clk (a : Nat) (f : Fld) (n : Nat) : (s.raise a f n).clk = s.clk := rfl
@[simp] theorem State.raise_fresh (a : Nat) (f : Fld) (n : Nat) : (s.raise a f n).fresh = s.fresh := rfl
@[simp] theorem State.raise_freeCtr (a : Nat) (f : Fld) (n : Nat) : (s.raise a f n).freeCtr = s.freeCtr := rfl
@[simp] theorem State.raise_fuses (a : Nat) (f : Fld) (n : Nat) : (s.raise a f n).fuses = s.fuses := rfl
@[simp] theorem State.raise_pins (a : Nat) (f : Fld) (n : Nat) : (s.raise a f n).pins = s.pins := rfl
@[simp] theorem State.raise_store (a : Nat) (f : Fld) (n : Nat) : (s.raise a f n).store = s.store := rfl
@[simp] theorem State.raise_start (a : Nat) (f : Fld) (n : Nat) : (s.raise a f n).start = s.start := rfl
@[simp] theorem State.raise_mem (a : Nat) (f : Fld) (n : Nat) : (s.raise a f n).mem = s.mem := rfl
@[simp] theorem State.raise_marks (a : Nat) (f : Fld) (n : Nat) : (s.raise a f n).marks = s.marks := rfl
@[simp] theorem State.raise_cores (a : Nat) (f : Fld) (n : Nat) : (s.raise a f n).cores = s.cores := rfl
@[simp] theorem State.raise_engines (a : Nat) (f : Fld) (n : Nat) : (s.raise a f n).engines = s.engines := rfl
@[simp] theorem State.raise_towers (a : Nat) (f : Fld) (n : Nat) : (s.raise a f n).towers = s.towers := rfl
@[simp] theorem State.raise_trees (a : Nat) (f : Fld) (n : Nat) : (s.raise a f n).trees = s.trees := rfl
@[simp] theorem State.raise_arbs (a : Nat) (f : Fld) (n : Nat) : (s.raise a f n).arbs = s.arbs := rfl
@[simp] theorem State.raise_txq (a : Nat) (f : Fld) (n : Nat) : (s.raise a f n).txq = s.txq := rfl
@[simp] theorem State.raise_txLinks (a : Nat) (f : Fld) (n : Nat) : (s.raise a f n).txLinks = s.txLinks := rfl
@[simp] theorem State.raise_rxLinks (a : Nat) (f : Fld) (n : Nat) : (s.raise a f n).rxLinks = s.rxLinks := rfl
@[simp] theorem State.raise_ingests (a : Nat) (f : Fld) (n : Nat) : (s.raise a f n).ingests = s.ingests := rfl
@[simp] theorem State.raise_rings (a : Nat) (f : Fld) (n : Nat) : (s.raise a f n).rings = s.rings := rfl
@[simp] theorem State.raise_lattices (a : Nat) (f : Fld) (n : Nat) : (s.raise a f n).lattices = s.lattices := rfl
@[simp] theorem State.raise_lanes (a : Nat) (f : Fld) (n : Nat) : (s.raise a f n).lanes = s.lanes := rfl
@[simp] theorem State.raise_frames (a : Nat) (f : Fld) (n : Nat) : (s.raise a f n).frames = s.frames := rfl
@[simp] theorem State.raise_d2d (a : Nat) (f : Fld) (n : Nat) : (s.raise a f n).d2d = s.d2d := rfl
@[simp] theorem State.raise_times (a : Nat) (f : Fld) (n : Nat) : (s.raise a f n).times = s.times := rfl
@[simp] theorem State.raise_ops (a : Nat) (f : Fld) (n : Nat) : (s.raise a f n).ops = s.ops := rfl
@[simp] theorem State.raise_atomSeq (a : Nat) (f : Fld) (n : Nat) : (s.raise a f n).atomSeq = s.atomSeq := rfl
@[simp] theorem State.raise_cache (a : Nat) (f : Fld) (n : Nat) : (s.raise a f n).cache = s.cache := rfl
@[simp] theorem State.raise_invs (a : Nat) (f : Fld) (n : Nat) : (s.raise a f n).invs = s.invs := rfl
@[simp] theorem State.raise_fetches (a : Nat) (f : Fld) (n : Nat) : (s.raise a f n).fetches = s.fetches := rfl
@[simp] theorem State.raise_lockEnd (a : Nat) (f : Fld) (n : Nat) : (s.raise a f n).lockEnd = s.lockEnd := rfl
@[simp] theorem State.raise_prevEpoch (a : Nat) (f : Fld) (n : Nat) : (s.raise a f n).prevEpoch = s.prevEpoch := rfl
@[simp] theorem State.raise_boundary (a : Nat) (f : Fld) (n : Nat) : (s.raise a f n).boundary = s.boundary := rfl
@[simp] theorem State.raise_onyx (a : Nat) (f : Fld) (n : Nat) : (s.raise a f n).onyx = s.onyx := rfl
@[simp] theorem State.raise_cal (a : Nat) (f : Fld) (n : Nat) : (s.raise a f n).cal = s.cal := rfl
@[simp] theorem State.raise_shards (a : Nat) (f : Fld) (n : Nat) : (s.raise a f n).shards = s.shards := rfl
@[simp] theorem State.raise_egress (a : Nat) (f : Fld) (n : Nat) : (s.raise a f n).egress = s.egress := rfl
@[simp] theorem State.raise_ratios (a : Nat) (f : Fld) (n : Nat) : (s.raise a f n).ratios = s.ratios := rfl
@[simp] theorem State.raise_mesh (a : Nat) (f : Fld) (n : Nat) : (s.raise a f n).mesh = s.mesh := rfl
@[simp] theorem State.raise_deskews (a : Nat) (f : Fld) (n : Nat) : (s.raise a f n).deskews = s.deskews := rfl
@[simp] theorem State.raise_adapts (a : Nat) (f : Fld) (n : Nat) : (s.raise a f n).adapts = s.adapts := rfl
@[simp] theorem State.raise_out (a : Nat) (f : Fld) (n : Nat) : (s.raise a f n).out = s.out := rfl
@[simp] theorem State.setByte_pending (a : Nat) (b : Byte) : (s.setByte a b).pending = s.pending := rfl
@[simp] theorem State.setByte_dev (a : Nat) (b : Byte) : (s.setByte a b).dev = s.dev := rfl
@[simp] theorem State.setByte_now (a : Nat) (b : Byte) : (s.setByte a b).now = s.now := rfl
@[simp] theorem State.setByte_clk (a : Nat) (b : Byte) : (s.setByte a b).clk = s.clk := rfl
@[simp] theorem State.setByte_fresh (a : Nat) (b : Byte) : (s.setByte a b).fresh = s.fresh := rfl
@[simp] theorem State.setByte_freeCtr (a : Nat) (b : Byte) : (s.setByte a b).freeCtr = s.freeCtr := rfl
@[simp] theorem State.setByte_fuses (a : Nat) (b : Byte) : (s.setByte a b).fuses = s.fuses := rfl
@[simp] theorem State.setByte_pins (a : Nat) (b : Byte) : (s.setByte a b).pins = s.pins := rfl
@[simp] theorem State.setByte_store (a : Nat) (b : Byte) : (s.setByte a b).store = s.store := rfl
@[simp] theorem State.setByte_start (a : Nat) (b : Byte) : (s.setByte a b).start = s.start := rfl
@[simp] theorem State.setByte_regs (a : Nat) (b : Byte) : (s.setByte a b).regs = s.regs := rfl
@[simp] theorem State.setByte_marks (a : Nat) (b : Byte) : (s.setByte a b).marks = s.marks := rfl
@[simp] theorem State.setByte_cores (a : Nat) (b : Byte) : (s.setByte a b).cores = s.cores := rfl
@[simp] theorem State.setByte_engines (a : Nat) (b : Byte) : (s.setByte a b).engines = s.engines := rfl
@[simp] theorem State.setByte_towers (a : Nat) (b : Byte) : (s.setByte a b).towers = s.towers := rfl
@[simp] theorem State.setByte_trees (a : Nat) (b : Byte) : (s.setByte a b).trees = s.trees := rfl
@[simp] theorem State.setByte_arbs (a : Nat) (b : Byte) : (s.setByte a b).arbs = s.arbs := rfl
@[simp] theorem State.setByte_txq (a : Nat) (b : Byte) : (s.setByte a b).txq = s.txq := rfl
@[simp] theorem State.setByte_txLinks (a : Nat) (b : Byte) : (s.setByte a b).txLinks = s.txLinks := rfl
@[simp] theorem State.setByte_rxLinks (a : Nat) (b : Byte) : (s.setByte a b).rxLinks = s.rxLinks := rfl
@[simp] theorem State.setByte_ingests (a : Nat) (b : Byte) : (s.setByte a b).ingests = s.ingests := rfl
@[simp] theorem State.setByte_rings (a : Nat) (b : Byte) : (s.setByte a b).rings = s.rings := rfl
@[simp] theorem State.setByte_lattices (a : Nat) (b : Byte) : (s.setByte a b).lattices = s.lattices := rfl
@[simp] theorem State.setByte_lanes (a : Nat) (b : Byte) : (s.setByte a b).lanes = s.lanes := rfl
@[simp] theorem State.setByte_frames (a : Nat) (b : Byte) : (s.setByte a b).frames = s.frames := rfl
@[simp] theorem State.setByte_d2d (a : Nat) (b : Byte) : (s.setByte a b).d2d = s.d2d := rfl
@[simp] theorem State.setByte_times (a : Nat) (b : Byte) : (s.setByte a b).times = s.times := rfl
@[simp] theorem State.setByte_ops (a : Nat) (b : Byte) : (s.setByte a b).ops = s.ops := rfl
@[simp] theorem State.setByte_atomSeq (a : Nat) (b : Byte) : (s.setByte a b).atomSeq = s.atomSeq := rfl
@[simp] theorem State.setByte_cache (a : Nat) (b : Byte) : (s.setByte a b).cache = s.cache := rfl
@[simp] theorem State.setByte_invs (a : Nat) (b : Byte) : (s.setByte a b).invs = s.invs := rfl
@[simp] theorem State.setByte_fetches (a : Nat) (b : Byte) : (s.setByte a b).fetches = s.fetches := rfl
@[simp] theorem State.setByte_lockEnd (a : Nat) (b : Byte) : (s.setByte a b).lockEnd = s.lockEnd := rfl
@[simp] theorem State.setByte_prevEpoch (a : Nat) (b : Byte) : (s.setByte a b).prevEpoch = s.prevEpoch := rfl
@[simp] theorem State.setByte_boundary (a : Nat) (b : Byte) : (s.setByte a b).boundary = s.boundary := rfl
@[simp] theorem State.setByte_onyx (a : Nat) (b : Byte) : (s.setByte a b).onyx = s.onyx := rfl
@[simp] theorem State.setByte_cal (a : Nat) (b : Byte) : (s.setByte a b).cal = s.cal := rfl
@[simp] theorem State.setByte_shards (a : Nat) (b : Byte) : (s.setByte a b).shards = s.shards := rfl
@[simp] theorem State.setByte_egress (a : Nat) (b : Byte) : (s.setByte a b).egress = s.egress := rfl
@[simp] theorem State.setByte_ratios (a : Nat) (b : Byte) : (s.setByte a b).ratios = s.ratios := rfl
@[simp] theorem State.setByte_mesh (a : Nat) (b : Byte) : (s.setByte a b).mesh = s.mesh := rfl
@[simp] theorem State.setByte_deskews (a : Nat) (b : Byte) : (s.setByte a b).deskews = s.deskews := rfl
@[simp] theorem State.setByte_adapts (a : Nat) (b : Byte) : (s.setByte a b).adapts = s.adapts := rfl
@[simp] theorem State.setByte_out (a : Nat) (b : Byte) : (s.setByte a b).out = s.out := rfl
@[simp] theorem State.setMark_pending (a : Nat) (m : Mark) : (s.setMark a m).pending = s.pending := rfl
@[simp] theorem State.setMark_dev (a : Nat) (m : Mark) : (s.setMark a m).dev = s.dev := rfl
@[simp] theorem State.setMark_now (a : Nat) (m : Mark) : (s.setMark a m).now = s.now := rfl
@[simp] theorem State.setMark_clk (a : Nat) (m : Mark) : (s.setMark a m).clk = s.clk := rfl
@[simp] theorem State.setMark_fresh (a : Nat) (m : Mark) : (s.setMark a m).fresh = s.fresh := rfl
@[simp] theorem State.setMark_freeCtr (a : Nat) (m : Mark) : (s.setMark a m).freeCtr = s.freeCtr := rfl
@[simp] theorem State.setMark_fuses (a : Nat) (m : Mark) : (s.setMark a m).fuses = s.fuses := rfl
@[simp] theorem State.setMark_pins (a : Nat) (m : Mark) : (s.setMark a m).pins = s.pins := rfl
@[simp] theorem State.setMark_store (a : Nat) (m : Mark) : (s.setMark a m).store = s.store := rfl
@[simp] theorem State.setMark_start (a : Nat) (m : Mark) : (s.setMark a m).start = s.start := rfl
@[simp] theorem State.setMark_regs (a : Nat) (m : Mark) : (s.setMark a m).regs = s.regs := rfl
@[simp] theorem State.setMark_mem (a : Nat) (m : Mark) : (s.setMark a m).mem = s.mem := rfl
@[simp] theorem State.setMark_cores (a : Nat) (m : Mark) : (s.setMark a m).cores = s.cores := rfl
@[simp] theorem State.setMark_engines (a : Nat) (m : Mark) : (s.setMark a m).engines = s.engines := rfl
@[simp] theorem State.setMark_towers (a : Nat) (m : Mark) : (s.setMark a m).towers = s.towers := rfl
@[simp] theorem State.setMark_trees (a : Nat) (m : Mark) : (s.setMark a m).trees = s.trees := rfl
@[simp] theorem State.setMark_arbs (a : Nat) (m : Mark) : (s.setMark a m).arbs = s.arbs := rfl
@[simp] theorem State.setMark_txq (a : Nat) (m : Mark) : (s.setMark a m).txq = s.txq := rfl
@[simp] theorem State.setMark_txLinks (a : Nat) (m : Mark) : (s.setMark a m).txLinks = s.txLinks := rfl
@[simp] theorem State.setMark_rxLinks (a : Nat) (m : Mark) : (s.setMark a m).rxLinks = s.rxLinks := rfl
@[simp] theorem State.setMark_ingests (a : Nat) (m : Mark) : (s.setMark a m).ingests = s.ingests := rfl
@[simp] theorem State.setMark_rings (a : Nat) (m : Mark) : (s.setMark a m).rings = s.rings := rfl
@[simp] theorem State.setMark_lattices (a : Nat) (m : Mark) : (s.setMark a m).lattices = s.lattices := rfl
@[simp] theorem State.setMark_lanes (a : Nat) (m : Mark) : (s.setMark a m).lanes = s.lanes := rfl
@[simp] theorem State.setMark_frames (a : Nat) (m : Mark) : (s.setMark a m).frames = s.frames := rfl
@[simp] theorem State.setMark_d2d (a : Nat) (m : Mark) : (s.setMark a m).d2d = s.d2d := rfl
@[simp] theorem State.setMark_times (a : Nat) (m : Mark) : (s.setMark a m).times = s.times := rfl
@[simp] theorem State.setMark_ops (a : Nat) (m : Mark) : (s.setMark a m).ops = s.ops := rfl
@[simp] theorem State.setMark_atomSeq (a : Nat) (m : Mark) : (s.setMark a m).atomSeq = s.atomSeq := rfl
@[simp] theorem State.setMark_cache (a : Nat) (m : Mark) : (s.setMark a m).cache = s.cache := rfl
@[simp] theorem State.setMark_invs (a : Nat) (m : Mark) : (s.setMark a m).invs = s.invs := rfl
@[simp] theorem State.setMark_fetches (a : Nat) (m : Mark) : (s.setMark a m).fetches = s.fetches := rfl
@[simp] theorem State.setMark_lockEnd (a : Nat) (m : Mark) : (s.setMark a m).lockEnd = s.lockEnd := rfl
@[simp] theorem State.setMark_prevEpoch (a : Nat) (m : Mark) : (s.setMark a m).prevEpoch = s.prevEpoch := rfl
@[simp] theorem State.setMark_boundary (a : Nat) (m : Mark) : (s.setMark a m).boundary = s.boundary := rfl
@[simp] theorem State.setMark_onyx (a : Nat) (m : Mark) : (s.setMark a m).onyx = s.onyx := rfl
@[simp] theorem State.setMark_cal (a : Nat) (m : Mark) : (s.setMark a m).cal = s.cal := rfl
@[simp] theorem State.setMark_shards (a : Nat) (m : Mark) : (s.setMark a m).shards = s.shards := rfl
@[simp] theorem State.setMark_egress (a : Nat) (m : Mark) : (s.setMark a m).egress = s.egress := rfl
@[simp] theorem State.setMark_ratios (a : Nat) (m : Mark) : (s.setMark a m).ratios = s.ratios := rfl
@[simp] theorem State.setMark_mesh (a : Nat) (m : Mark) : (s.setMark a m).mesh = s.mesh := rfl
@[simp] theorem State.setMark_deskews (a : Nat) (m : Mark) : (s.setMark a m).deskews = s.deskews := rfl
@[simp] theorem State.setMark_adapts (a : Nat) (m : Mark) : (s.setMark a m).adapts = s.adapts := rfl
@[simp] theorem State.setMark_out (a : Nat) (m : Mark) : (s.setMark a m).out = s.out := rfl
@[simp] theorem State.setCore_pending (c : Nat) (k : Core) : (s.setCore c k).pending = s.pending := rfl
@[simp] theorem State.setCore_dev (c : Nat) (k : Core) : (s.setCore c k).dev = s.dev := rfl
@[simp] theorem State.setCore_now (c : Nat) (k : Core) : (s.setCore c k).now = s.now := rfl
@[simp] theorem State.setCore_clk (c : Nat) (k : Core) : (s.setCore c k).clk = s.clk := rfl
@[simp] theorem State.setCore_fresh (c : Nat) (k : Core) : (s.setCore c k).fresh = s.fresh := rfl
@[simp] theorem State.setCore_freeCtr (c : Nat) (k : Core) : (s.setCore c k).freeCtr = s.freeCtr := rfl
@[simp] theorem State.setCore_fuses (c : Nat) (k : Core) : (s.setCore c k).fuses = s.fuses := rfl
@[simp] theorem State.setCore_pins (c : Nat) (k : Core) : (s.setCore c k).pins = s.pins := rfl
@[simp] theorem State.setCore_store (c : Nat) (k : Core) : (s.setCore c k).store = s.store := rfl
@[simp] theorem State.setCore_start (c : Nat) (k : Core) : (s.setCore c k).start = s.start := rfl
@[simp] theorem State.setCore_regs (c : Nat) (k : Core) : (s.setCore c k).regs = s.regs := rfl
@[simp] theorem State.setCore_mem (c : Nat) (k : Core) : (s.setCore c k).mem = s.mem := rfl
@[simp] theorem State.setCore_marks (c : Nat) (k : Core) : (s.setCore c k).marks = s.marks := rfl
@[simp] theorem State.setCore_engines (c : Nat) (k : Core) : (s.setCore c k).engines = s.engines := rfl
@[simp] theorem State.setCore_towers (c : Nat) (k : Core) : (s.setCore c k).towers = s.towers := rfl
@[simp] theorem State.setCore_trees (c : Nat) (k : Core) : (s.setCore c k).trees = s.trees := rfl
@[simp] theorem State.setCore_arbs (c : Nat) (k : Core) : (s.setCore c k).arbs = s.arbs := rfl
@[simp] theorem State.setCore_txq (c : Nat) (k : Core) : (s.setCore c k).txq = s.txq := rfl
@[simp] theorem State.setCore_txLinks (c : Nat) (k : Core) : (s.setCore c k).txLinks = s.txLinks := rfl
@[simp] theorem State.setCore_rxLinks (c : Nat) (k : Core) : (s.setCore c k).rxLinks = s.rxLinks := rfl
@[simp] theorem State.setCore_ingests (c : Nat) (k : Core) : (s.setCore c k).ingests = s.ingests := rfl
@[simp] theorem State.setCore_rings (c : Nat) (k : Core) : (s.setCore c k).rings = s.rings := rfl
@[simp] theorem State.setCore_lattices (c : Nat) (k : Core) : (s.setCore c k).lattices = s.lattices := rfl
@[simp] theorem State.setCore_lanes (c : Nat) (k : Core) : (s.setCore c k).lanes = s.lanes := rfl
@[simp] theorem State.setCore_frames (c : Nat) (k : Core) : (s.setCore c k).frames = s.frames := rfl
@[simp] theorem State.setCore_d2d (c : Nat) (k : Core) : (s.setCore c k).d2d = s.d2d := rfl
@[simp] theorem State.setCore_times (c : Nat) (k : Core) : (s.setCore c k).times = s.times := rfl
@[simp] theorem State.setCore_ops (c : Nat) (k : Core) : (s.setCore c k).ops = s.ops := rfl
@[simp] theorem State.setCore_atomSeq (c : Nat) (k : Core) : (s.setCore c k).atomSeq = s.atomSeq := rfl
@[simp] theorem State.setCore_cache (c : Nat) (k : Core) : (s.setCore c k).cache = s.cache := rfl
@[simp] theorem State.setCore_invs (c : Nat) (k : Core) : (s.setCore c k).invs = s.invs := rfl
@[simp] theorem State.setCore_fetches (c : Nat) (k : Core) : (s.setCore c k).fetches = s.fetches := rfl
@[simp] theorem State.setCore_lockEnd (c : Nat) (k : Core) : (s.setCore c k).lockEnd = s.lockEnd := rfl
@[simp] theorem State.setCore_prevEpoch (c : Nat) (k : Core) : (s.setCore c k).prevEpoch = s.prevEpoch := rfl
@[simp] theorem State.setCore_boundary (c : Nat) (k : Core) : (s.setCore c k).boundary = s.boundary := rfl
@[simp] theorem State.setCore_onyx (c : Nat) (k : Core) : (s.setCore c k).onyx = s.onyx := rfl
@[simp] theorem State.setCore_cal (c : Nat) (k : Core) : (s.setCore c k).cal = s.cal := rfl
@[simp] theorem State.setCore_shards (c : Nat) (k : Core) : (s.setCore c k).shards = s.shards := rfl
@[simp] theorem State.setCore_egress (c : Nat) (k : Core) : (s.setCore c k).egress = s.egress := rfl
@[simp] theorem State.setCore_ratios (c : Nat) (k : Core) : (s.setCore c k).ratios = s.ratios := rfl
@[simp] theorem State.setCore_mesh (c : Nat) (k : Core) : (s.setCore c k).mesh = s.mesh := rfl
@[simp] theorem State.setCore_deskews (c : Nat) (k : Core) : (s.setCore c k).deskews = s.deskews := rfl
@[simp] theorem State.setCore_adapts (c : Nat) (k : Core) : (s.setCore c k).adapts = s.adapts := rfl
@[simp] theorem State.setCore_out (c : Nat) (k : Core) : (s.setCore c k).out = s.out := rfl
@[simp] theorem State.setEngine_pending (c e : Nat) (x : Engine) : (s.setEngine c e x).pending = s.pending := rfl
@[simp] theorem State.setEngine_dev (c e : Nat) (x : Engine) : (s.setEngine c e x).dev = s.dev := rfl
@[simp] theorem State.setEngine_now (c e : Nat) (x : Engine) : (s.setEngine c e x).now = s.now := rfl
@[simp] theorem State.setEngine_clk (c e : Nat) (x : Engine) : (s.setEngine c e x).clk = s.clk := rfl
@[simp] theorem State.setEngine_fresh (c e : Nat) (x : Engine) : (s.setEngine c e x).fresh = s.fresh := rfl
@[simp] theorem State.setEngine_freeCtr (c e : Nat) (x : Engine) : (s.setEngine c e x).freeCtr = s.freeCtr := rfl
@[simp] theorem State.setEngine_fuses (c e : Nat) (x : Engine) : (s.setEngine c e x).fuses = s.fuses := rfl
@[simp] theorem State.setEngine_pins (c e : Nat) (x : Engine) : (s.setEngine c e x).pins = s.pins := rfl
@[simp] theorem State.setEngine_store (c e : Nat) (x : Engine) : (s.setEngine c e x).store = s.store := rfl
@[simp] theorem State.setEngine_start (c e : Nat) (x : Engine) : (s.setEngine c e x).start = s.start := rfl
@[simp] theorem State.setEngine_regs (c e : Nat) (x : Engine) : (s.setEngine c e x).regs = s.regs := rfl
@[simp] theorem State.setEngine_mem (c e : Nat) (x : Engine) : (s.setEngine c e x).mem = s.mem := rfl
@[simp] theorem State.setEngine_marks (c e : Nat) (x : Engine) : (s.setEngine c e x).marks = s.marks := rfl
@[simp] theorem State.setEngine_cores (c e : Nat) (x : Engine) : (s.setEngine c e x).cores = s.cores := rfl
@[simp] theorem State.setEngine_towers (c e : Nat) (x : Engine) : (s.setEngine c e x).towers = s.towers := rfl
@[simp] theorem State.setEngine_trees (c e : Nat) (x : Engine) : (s.setEngine c e x).trees = s.trees := rfl
@[simp] theorem State.setEngine_arbs (c e : Nat) (x : Engine) : (s.setEngine c e x).arbs = s.arbs := rfl
@[simp] theorem State.setEngine_txq (c e : Nat) (x : Engine) : (s.setEngine c e x).txq = s.txq := rfl
@[simp] theorem State.setEngine_txLinks (c e : Nat) (x : Engine) : (s.setEngine c e x).txLinks = s.txLinks := rfl
@[simp] theorem State.setEngine_rxLinks (c e : Nat) (x : Engine) : (s.setEngine c e x).rxLinks = s.rxLinks := rfl
@[simp] theorem State.setEngine_ingests (c e : Nat) (x : Engine) : (s.setEngine c e x).ingests = s.ingests := rfl
@[simp] theorem State.setEngine_rings (c e : Nat) (x : Engine) : (s.setEngine c e x).rings = s.rings := rfl
@[simp] theorem State.setEngine_lattices (c e : Nat) (x : Engine) : (s.setEngine c e x).lattices = s.lattices := rfl
@[simp] theorem State.setEngine_lanes (c e : Nat) (x : Engine) : (s.setEngine c e x).lanes = s.lanes := rfl
@[simp] theorem State.setEngine_frames (c e : Nat) (x : Engine) : (s.setEngine c e x).frames = s.frames := rfl
@[simp] theorem State.setEngine_d2d (c e : Nat) (x : Engine) : (s.setEngine c e x).d2d = s.d2d := rfl
@[simp] theorem State.setEngine_times (c e : Nat) (x : Engine) : (s.setEngine c e x).times = s.times := rfl
@[simp] theorem State.setEngine_ops (c e : Nat) (x : Engine) : (s.setEngine c e x).ops = s.ops := rfl
@[simp] theorem State.setEngine_atomSeq (c e : Nat) (x : Engine) : (s.setEngine c e x).atomSeq = s.atomSeq := rfl
@[simp] theorem State.setEngine_cache (c e : Nat) (x : Engine) : (s.setEngine c e x).cache = s.cache := rfl
@[simp] theorem State.setEngine_invs (c e : Nat) (x : Engine) : (s.setEngine c e x).invs = s.invs := rfl
@[simp] theorem State.setEngine_fetches (c e : Nat) (x : Engine) : (s.setEngine c e x).fetches = s.fetches := rfl
@[simp] theorem State.setEngine_lockEnd (c e : Nat) (x : Engine) : (s.setEngine c e x).lockEnd = s.lockEnd := rfl
@[simp] theorem State.setEngine_prevEpoch (c e : Nat) (x : Engine) : (s.setEngine c e x).prevEpoch = s.prevEpoch := rfl
@[simp] theorem State.setEngine_boundary (c e : Nat) (x : Engine) : (s.setEngine c e x).boundary = s.boundary := rfl
@[simp] theorem State.setEngine_onyx (c e : Nat) (x : Engine) : (s.setEngine c e x).onyx = s.onyx := rfl
@[simp] theorem State.setEngine_cal (c e : Nat) (x : Engine) : (s.setEngine c e x).cal = s.cal := rfl
@[simp] theorem State.setEngine_shards (c e : Nat) (x : Engine) : (s.setEngine c e x).shards = s.shards := rfl
@[simp] theorem State.setEngine_egress (c e : Nat) (x : Engine) : (s.setEngine c e x).egress = s.egress := rfl
@[simp] theorem State.setEngine_ratios (c e : Nat) (x : Engine) : (s.setEngine c e x).ratios = s.ratios := rfl
@[simp] theorem State.setEngine_mesh (c e : Nat) (x : Engine) : (s.setEngine c e x).mesh = s.mesh := rfl
@[simp] theorem State.setEngine_deskews (c e : Nat) (x : Engine) : (s.setEngine c e x).deskews = s.deskews := rfl
@[simp] theorem State.setEngine_adapts (c e : Nat) (x : Engine) : (s.setEngine c e x).adapts = s.adapts := rfl
@[simp] theorem State.setEngine_out (c e : Nat) (x : Engine) : (s.setEngine c e x).out = s.out := rfl
@[simp] theorem State.setTower_pending (t : Nat) (x : Tower) : (s.setTower t x).pending = s.pending := rfl
@[simp] theorem State.setTower_dev (t : Nat) (x : Tower) : (s.setTower t x).dev = s.dev := rfl
@[simp] theorem State.setTower_now (t : Nat) (x : Tower) : (s.setTower t x).now = s.now := rfl
@[simp] theorem State.setTower_clk (t : Nat) (x : Tower) : (s.setTower t x).clk = s.clk := rfl
@[simp] theorem State.setTower_fresh (t : Nat) (x : Tower) : (s.setTower t x).fresh = s.fresh := rfl
@[simp] theorem State.setTower_freeCtr (t : Nat) (x : Tower) : (s.setTower t x).freeCtr = s.freeCtr := rfl
@[simp] theorem State.setTower_fuses (t : Nat) (x : Tower) : (s.setTower t x).fuses = s.fuses := rfl
@[simp] theorem State.setTower_pins (t : Nat) (x : Tower) : (s.setTower t x).pins = s.pins := rfl
@[simp] theorem State.setTower_store (t : Nat) (x : Tower) : (s.setTower t x).store = s.store := rfl
@[simp] theorem State.setTower_start (t : Nat) (x : Tower) : (s.setTower t x).start = s.start := rfl
@[simp] theorem State.setTower_regs (t : Nat) (x : Tower) : (s.setTower t x).regs = s.regs := rfl
@[simp] theorem State.setTower_mem (t : Nat) (x : Tower) : (s.setTower t x).mem = s.mem := rfl
@[simp] theorem State.setTower_marks (t : Nat) (x : Tower) : (s.setTower t x).marks = s.marks := rfl
@[simp] theorem State.setTower_cores (t : Nat) (x : Tower) : (s.setTower t x).cores = s.cores := rfl
@[simp] theorem State.setTower_engines (t : Nat) (x : Tower) : (s.setTower t x).engines = s.engines := rfl
@[simp] theorem State.setTower_trees (t : Nat) (x : Tower) : (s.setTower t x).trees = s.trees := rfl
@[simp] theorem State.setTower_arbs (t : Nat) (x : Tower) : (s.setTower t x).arbs = s.arbs := rfl
@[simp] theorem State.setTower_txq (t : Nat) (x : Tower) : (s.setTower t x).txq = s.txq := rfl
@[simp] theorem State.setTower_txLinks (t : Nat) (x : Tower) : (s.setTower t x).txLinks = s.txLinks := rfl
@[simp] theorem State.setTower_rxLinks (t : Nat) (x : Tower) : (s.setTower t x).rxLinks = s.rxLinks := rfl
@[simp] theorem State.setTower_ingests (t : Nat) (x : Tower) : (s.setTower t x).ingests = s.ingests := rfl
@[simp] theorem State.setTower_rings (t : Nat) (x : Tower) : (s.setTower t x).rings = s.rings := rfl
@[simp] theorem State.setTower_lattices (t : Nat) (x : Tower) : (s.setTower t x).lattices = s.lattices := rfl
@[simp] theorem State.setTower_lanes (t : Nat) (x : Tower) : (s.setTower t x).lanes = s.lanes := rfl
@[simp] theorem State.setTower_frames (t : Nat) (x : Tower) : (s.setTower t x).frames = s.frames := rfl
@[simp] theorem State.setTower_d2d (t : Nat) (x : Tower) : (s.setTower t x).d2d = s.d2d := rfl
@[simp] theorem State.setTower_times (t : Nat) (x : Tower) : (s.setTower t x).times = s.times := rfl
@[simp] theorem State.setTower_ops (t : Nat) (x : Tower) : (s.setTower t x).ops = s.ops := rfl
@[simp] theorem State.setTower_atomSeq (t : Nat) (x : Tower) : (s.setTower t x).atomSeq = s.atomSeq := rfl
@[simp] theorem State.setTower_cache (t : Nat) (x : Tower) : (s.setTower t x).cache = s.cache := rfl
@[simp] theorem State.setTower_invs (t : Nat) (x : Tower) : (s.setTower t x).invs = s.invs := rfl
@[simp] theorem State.setTower_fetches (t : Nat) (x : Tower) : (s.setTower t x).fetches = s.fetches := rfl
@[simp] theorem State.setTower_lockEnd (t : Nat) (x : Tower) : (s.setTower t x).lockEnd = s.lockEnd := rfl
@[simp] theorem State.setTower_prevEpoch (t : Nat) (x : Tower) : (s.setTower t x).prevEpoch = s.prevEpoch := rfl
@[simp] theorem State.setTower_boundary (t : Nat) (x : Tower) : (s.setTower t x).boundary = s.boundary := rfl
@[simp] theorem State.setTower_onyx (t : Nat) (x : Tower) : (s.setTower t x).onyx = s.onyx := rfl
@[simp] theorem State.setTower_cal (t : Nat) (x : Tower) : (s.setTower t x).cal = s.cal := rfl
@[simp] theorem State.setTower_shards (t : Nat) (x : Tower) : (s.setTower t x).shards = s.shards := rfl
@[simp] theorem State.setTower_egress (t : Nat) (x : Tower) : (s.setTower t x).egress = s.egress := rfl
@[simp] theorem State.setTower_ratios (t : Nat) (x : Tower) : (s.setTower t x).ratios = s.ratios := rfl
@[simp] theorem State.setTower_mesh (t : Nat) (x : Tower) : (s.setTower t x).mesh = s.mesh := rfl
@[simp] theorem State.setTower_deskews (t : Nat) (x : Tower) : (s.setTower t x).deskews = s.deskews := rfl
@[simp] theorem State.setTower_adapts (t : Nat) (x : Tower) : (s.setTower t x).adapts = s.adapts := rfl
@[simp] theorem State.setTower_out (t : Nat) (x : Tower) : (s.setTower t x).out = s.out := rfl
@[simp] theorem State.setTree_pending (t i : Nat) (x : Tree) : (s.setTree t i x).pending = s.pending := rfl
@[simp] theorem State.setTree_dev (t i : Nat) (x : Tree) : (s.setTree t i x).dev = s.dev := rfl
@[simp] theorem State.setTree_now (t i : Nat) (x : Tree) : (s.setTree t i x).now = s.now := rfl
@[simp] theorem State.setTree_clk (t i : Nat) (x : Tree) : (s.setTree t i x).clk = s.clk := rfl
@[simp] theorem State.setTree_fresh (t i : Nat) (x : Tree) : (s.setTree t i x).fresh = s.fresh := rfl
@[simp] theorem State.setTree_freeCtr (t i : Nat) (x : Tree) : (s.setTree t i x).freeCtr = s.freeCtr := rfl
@[simp] theorem State.setTree_fuses (t i : Nat) (x : Tree) : (s.setTree t i x).fuses = s.fuses := rfl
@[simp] theorem State.setTree_pins (t i : Nat) (x : Tree) : (s.setTree t i x).pins = s.pins := rfl
@[simp] theorem State.setTree_store (t i : Nat) (x : Tree) : (s.setTree t i x).store = s.store := rfl
@[simp] theorem State.setTree_start (t i : Nat) (x : Tree) : (s.setTree t i x).start = s.start := rfl
@[simp] theorem State.setTree_regs (t i : Nat) (x : Tree) : (s.setTree t i x).regs = s.regs := rfl
@[simp] theorem State.setTree_mem (t i : Nat) (x : Tree) : (s.setTree t i x).mem = s.mem := rfl
@[simp] theorem State.setTree_marks (t i : Nat) (x : Tree) : (s.setTree t i x).marks = s.marks := rfl
@[simp] theorem State.setTree_cores (t i : Nat) (x : Tree) : (s.setTree t i x).cores = s.cores := rfl
@[simp] theorem State.setTree_engines (t i : Nat) (x : Tree) : (s.setTree t i x).engines = s.engines := rfl
@[simp] theorem State.setTree_towers (t i : Nat) (x : Tree) : (s.setTree t i x).towers = s.towers := rfl
@[simp] theorem State.setTree_arbs (t i : Nat) (x : Tree) : (s.setTree t i x).arbs = s.arbs := rfl
@[simp] theorem State.setTree_txq (t i : Nat) (x : Tree) : (s.setTree t i x).txq = s.txq := rfl
@[simp] theorem State.setTree_txLinks (t i : Nat) (x : Tree) : (s.setTree t i x).txLinks = s.txLinks := rfl
@[simp] theorem State.setTree_rxLinks (t i : Nat) (x : Tree) : (s.setTree t i x).rxLinks = s.rxLinks := rfl
@[simp] theorem State.setTree_ingests (t i : Nat) (x : Tree) : (s.setTree t i x).ingests = s.ingests := rfl
@[simp] theorem State.setTree_rings (t i : Nat) (x : Tree) : (s.setTree t i x).rings = s.rings := rfl
@[simp] theorem State.setTree_lattices (t i : Nat) (x : Tree) : (s.setTree t i x).lattices = s.lattices := rfl
@[simp] theorem State.setTree_lanes (t i : Nat) (x : Tree) : (s.setTree t i x).lanes = s.lanes := rfl
@[simp] theorem State.setTree_frames (t i : Nat) (x : Tree) : (s.setTree t i x).frames = s.frames := rfl
@[simp] theorem State.setTree_d2d (t i : Nat) (x : Tree) : (s.setTree t i x).d2d = s.d2d := rfl
@[simp] theorem State.setTree_times (t i : Nat) (x : Tree) : (s.setTree t i x).times = s.times := rfl
@[simp] theorem State.setTree_ops (t i : Nat) (x : Tree) : (s.setTree t i x).ops = s.ops := rfl
@[simp] theorem State.setTree_atomSeq (t i : Nat) (x : Tree) : (s.setTree t i x).atomSeq = s.atomSeq := rfl
@[simp] theorem State.setTree_cache (t i : Nat) (x : Tree) : (s.setTree t i x).cache = s.cache := rfl
@[simp] theorem State.setTree_invs (t i : Nat) (x : Tree) : (s.setTree t i x).invs = s.invs := rfl
@[simp] theorem State.setTree_fetches (t i : Nat) (x : Tree) : (s.setTree t i x).fetches = s.fetches := rfl
@[simp] theorem State.setTree_lockEnd (t i : Nat) (x : Tree) : (s.setTree t i x).lockEnd = s.lockEnd := rfl
@[simp] theorem State.setTree_prevEpoch (t i : Nat) (x : Tree) : (s.setTree t i x).prevEpoch = s.prevEpoch := rfl
@[simp] theorem State.setTree_boundary (t i : Nat) (x : Tree) : (s.setTree t i x).boundary = s.boundary := rfl
@[simp] theorem State.setTree_onyx (t i : Nat) (x : Tree) : (s.setTree t i x).onyx = s.onyx := rfl
@[simp] theorem State.setTree_cal (t i : Nat) (x : Tree) : (s.setTree t i x).cal = s.cal := rfl
@[simp] theorem State.setTree_shards (t i : Nat) (x : Tree) : (s.setTree t i x).shards = s.shards := rfl
@[simp] theorem State.setTree_egress (t i : Nat) (x : Tree) : (s.setTree t i x).egress = s.egress := rfl
@[simp] theorem State.setTree_ratios (t i : Nat) (x : Tree) : (s.setTree t i x).ratios = s.ratios := rfl
@[simp] theorem State.setTree_mesh (t i : Nat) (x : Tree) : (s.setTree t i x).mesh = s.mesh := rfl
@[simp] theorem State.setTree_deskews (t i : Nat) (x : Tree) : (s.setTree t i x).deskews = s.deskews := rfl
@[simp] theorem State.setTree_adapts (t i : Nat) (x : Tree) : (s.setTree t i x).adapts = s.adapts := rfl
@[simp] theorem State.setTree_out (t i : Nat) (x : Tree) : (s.setTree t i x).out = s.out := rfl
@[simp] theorem State.setArb_pending (a : Arbiter) (x : Arb) : (s.setArb a x).pending = s.pending := rfl
@[simp] theorem State.setArb_dev (a : Arbiter) (x : Arb) : (s.setArb a x).dev = s.dev := rfl
@[simp] theorem State.setArb_now (a : Arbiter) (x : Arb) : (s.setArb a x).now = s.now := rfl
@[simp] theorem State.setArb_clk (a : Arbiter) (x : Arb) : (s.setArb a x).clk = s.clk := rfl
@[simp] theorem State.setArb_fresh (a : Arbiter) (x : Arb) : (s.setArb a x).fresh = s.fresh := rfl
@[simp] theorem State.setArb_freeCtr (a : Arbiter) (x : Arb) : (s.setArb a x).freeCtr = s.freeCtr := rfl
@[simp] theorem State.setArb_fuses (a : Arbiter) (x : Arb) : (s.setArb a x).fuses = s.fuses := rfl
@[simp] theorem State.setArb_pins (a : Arbiter) (x : Arb) : (s.setArb a x).pins = s.pins := rfl
@[simp] theorem State.setArb_store (a : Arbiter) (x : Arb) : (s.setArb a x).store = s.store := rfl
@[simp] theorem State.setArb_start (a : Arbiter) (x : Arb) : (s.setArb a x).start = s.start := rfl
@[simp] theorem State.setArb_regs (a : Arbiter) (x : Arb) : (s.setArb a x).regs = s.regs := rfl
@[simp] theorem State.setArb_mem (a : Arbiter) (x : Arb) : (s.setArb a x).mem = s.mem := rfl
@[simp] theorem State.setArb_marks (a : Arbiter) (x : Arb) : (s.setArb a x).marks = s.marks := rfl
@[simp] theorem State.setArb_cores (a : Arbiter) (x : Arb) : (s.setArb a x).cores = s.cores := rfl
@[simp] theorem State.setArb_engines (a : Arbiter) (x : Arb) : (s.setArb a x).engines = s.engines := rfl
@[simp] theorem State.setArb_towers (a : Arbiter) (x : Arb) : (s.setArb a x).towers = s.towers := rfl
@[simp] theorem State.setArb_trees (a : Arbiter) (x : Arb) : (s.setArb a x).trees = s.trees := rfl
@[simp] theorem State.setArb_txq (a : Arbiter) (x : Arb) : (s.setArb a x).txq = s.txq := rfl
@[simp] theorem State.setArb_txLinks (a : Arbiter) (x : Arb) : (s.setArb a x).txLinks = s.txLinks := rfl
@[simp] theorem State.setArb_rxLinks (a : Arbiter) (x : Arb) : (s.setArb a x).rxLinks = s.rxLinks := rfl
@[simp] theorem State.setArb_ingests (a : Arbiter) (x : Arb) : (s.setArb a x).ingests = s.ingests := rfl
@[simp] theorem State.setArb_rings (a : Arbiter) (x : Arb) : (s.setArb a x).rings = s.rings := rfl
@[simp] theorem State.setArb_lattices (a : Arbiter) (x : Arb) : (s.setArb a x).lattices = s.lattices := rfl
@[simp] theorem State.setArb_lanes (a : Arbiter) (x : Arb) : (s.setArb a x).lanes = s.lanes := rfl
@[simp] theorem State.setArb_frames (a : Arbiter) (x : Arb) : (s.setArb a x).frames = s.frames := rfl
@[simp] theorem State.setArb_d2d (a : Arbiter) (x : Arb) : (s.setArb a x).d2d = s.d2d := rfl
@[simp] theorem State.setArb_times (a : Arbiter) (x : Arb) : (s.setArb a x).times = s.times := rfl
@[simp] theorem State.setArb_ops (a : Arbiter) (x : Arb) : (s.setArb a x).ops = s.ops := rfl
@[simp] theorem State.setArb_atomSeq (a : Arbiter) (x : Arb) : (s.setArb a x).atomSeq = s.atomSeq := rfl
@[simp] theorem State.setArb_cache (a : Arbiter) (x : Arb) : (s.setArb a x).cache = s.cache := rfl
@[simp] theorem State.setArb_invs (a : Arbiter) (x : Arb) : (s.setArb a x).invs = s.invs := rfl
@[simp] theorem State.setArb_fetches (a : Arbiter) (x : Arb) : (s.setArb a x).fetches = s.fetches := rfl
@[simp] theorem State.setArb_lockEnd (a : Arbiter) (x : Arb) : (s.setArb a x).lockEnd = s.lockEnd := rfl
@[simp] theorem State.setArb_prevEpoch (a : Arbiter) (x : Arb) : (s.setArb a x).prevEpoch = s.prevEpoch := rfl
@[simp] theorem State.setArb_boundary (a : Arbiter) (x : Arb) : (s.setArb a x).boundary = s.boundary := rfl
@[simp] theorem State.setArb_onyx (a : Arbiter) (x : Arb) : (s.setArb a x).onyx = s.onyx := rfl
@[simp] theorem State.setArb_cal (a : Arbiter) (x : Arb) : (s.setArb a x).cal = s.cal := rfl
@[simp] theorem State.setArb_shards (a : Arbiter) (x : Arb) : (s.setArb a x).shards = s.shards := rfl
@[simp] theorem State.setArb_egress (a : Arbiter) (x : Arb) : (s.setArb a x).egress = s.egress := rfl
@[simp] theorem State.setArb_ratios (a : Arbiter) (x : Arb) : (s.setArb a x).ratios = s.ratios := rfl
@[simp] theorem State.setArb_mesh (a : Arbiter) (x : Arb) : (s.setArb a x).mesh = s.mesh := rfl
@[simp] theorem State.setArb_deskews (a : Arbiter) (x : Arb) : (s.setArb a x).deskews = s.deskews := rfl
@[simp] theorem State.setArb_adapts (a : Arbiter) (x : Arb) : (s.setArb a x).adapts = s.adapts := rfl
@[simp] theorem State.setArb_out (a : Arbiter) (x : Arb) : (s.setArb a x).out = s.out := rfl
@[simp] theorem State.setQueue_pending (r i : Nat) (l : List Packet) : (s.setQueue r i l).pending = s.pending := rfl
@[simp] theorem State.setQueue_dev (r i : Nat) (l : List Packet) : (s.setQueue r i l).dev = s.dev := rfl
@[simp] theorem State.setQueue_now (r i : Nat) (l : List Packet) : (s.setQueue r i l).now = s.now := rfl
@[simp] theorem State.setQueue_clk (r i : Nat) (l : List Packet) : (s.setQueue r i l).clk = s.clk := rfl
@[simp] theorem State.setQueue_fresh (r i : Nat) (l : List Packet) : (s.setQueue r i l).fresh = s.fresh := rfl
@[simp] theorem State.setQueue_freeCtr (r i : Nat) (l : List Packet) : (s.setQueue r i l).freeCtr = s.freeCtr := rfl
@[simp] theorem State.setQueue_fuses (r i : Nat) (l : List Packet) : (s.setQueue r i l).fuses = s.fuses := rfl
@[simp] theorem State.setQueue_pins (r i : Nat) (l : List Packet) : (s.setQueue r i l).pins = s.pins := rfl
@[simp] theorem State.setQueue_store (r i : Nat) (l : List Packet) : (s.setQueue r i l).store = s.store := rfl
@[simp] theorem State.setQueue_start (r i : Nat) (l : List Packet) : (s.setQueue r i l).start = s.start := rfl
@[simp] theorem State.setQueue_regs (r i : Nat) (l : List Packet) : (s.setQueue r i l).regs = s.regs := rfl
@[simp] theorem State.setQueue_mem (r i : Nat) (l : List Packet) : (s.setQueue r i l).mem = s.mem := rfl
@[simp] theorem State.setQueue_marks (r i : Nat) (l : List Packet) : (s.setQueue r i l).marks = s.marks := rfl
@[simp] theorem State.setQueue_cores (r i : Nat) (l : List Packet) : (s.setQueue r i l).cores = s.cores := rfl
@[simp] theorem State.setQueue_engines (r i : Nat) (l : List Packet) : (s.setQueue r i l).engines = s.engines := rfl
@[simp] theorem State.setQueue_towers (r i : Nat) (l : List Packet) : (s.setQueue r i l).towers = s.towers := rfl
@[simp] theorem State.setQueue_trees (r i : Nat) (l : List Packet) : (s.setQueue r i l).trees = s.trees := rfl
@[simp] theorem State.setQueue_arbs (r i : Nat) (l : List Packet) : (s.setQueue r i l).arbs = s.arbs := rfl
@[simp] theorem State.setQueue_txLinks (r i : Nat) (l : List Packet) : (s.setQueue r i l).txLinks = s.txLinks := rfl
@[simp] theorem State.setQueue_rxLinks (r i : Nat) (l : List Packet) : (s.setQueue r i l).rxLinks = s.rxLinks := rfl
@[simp] theorem State.setQueue_ingests (r i : Nat) (l : List Packet) : (s.setQueue r i l).ingests = s.ingests := rfl
@[simp] theorem State.setQueue_rings (r i : Nat) (l : List Packet) : (s.setQueue r i l).rings = s.rings := rfl
@[simp] theorem State.setQueue_lattices (r i : Nat) (l : List Packet) : (s.setQueue r i l).lattices = s.lattices := rfl
@[simp] theorem State.setQueue_lanes (r i : Nat) (l : List Packet) : (s.setQueue r i l).lanes = s.lanes := rfl
@[simp] theorem State.setQueue_frames (r i : Nat) (l : List Packet) : (s.setQueue r i l).frames = s.frames := rfl
@[simp] theorem State.setQueue_d2d (r i : Nat) (l : List Packet) : (s.setQueue r i l).d2d = s.d2d := rfl
@[simp] theorem State.setQueue_times (r i : Nat) (l : List Packet) : (s.setQueue r i l).times = s.times := rfl
@[simp] theorem State.setQueue_ops (r i : Nat) (l : List Packet) : (s.setQueue r i l).ops = s.ops := rfl
@[simp] theorem State.setQueue_atomSeq (r i : Nat) (l : List Packet) : (s.setQueue r i l).atomSeq = s.atomSeq := rfl
@[simp] theorem State.setQueue_cache (r i : Nat) (l : List Packet) : (s.setQueue r i l).cache = s.cache := rfl
@[simp] theorem State.setQueue_invs (r i : Nat) (l : List Packet) : (s.setQueue r i l).invs = s.invs := rfl
@[simp] theorem State.setQueue_fetches (r i : Nat) (l : List Packet) : (s.setQueue r i l).fetches = s.fetches := rfl
@[simp] theorem State.setQueue_lockEnd (r i : Nat) (l : List Packet) : (s.setQueue r i l).lockEnd = s.lockEnd := rfl
@[simp] theorem State.setQueue_prevEpoch (r i : Nat) (l : List Packet) : (s.setQueue r i l).prevEpoch = s.prevEpoch := rfl
@[simp] theorem State.setQueue_boundary (r i : Nat) (l : List Packet) : (s.setQueue r i l).boundary = s.boundary := rfl
@[simp] theorem State.setQueue_onyx (r i : Nat) (l : List Packet) : (s.setQueue r i l).onyx = s.onyx := rfl
@[simp] theorem State.setQueue_cal (r i : Nat) (l : List Packet) : (s.setQueue r i l).cal = s.cal := rfl
@[simp] theorem State.setQueue_shards (r i : Nat) (l : List Packet) : (s.setQueue r i l).shards = s.shards := rfl
@[simp] theorem State.setQueue_egress (r i : Nat) (l : List Packet) : (s.setQueue r i l).egress = s.egress := rfl
@[simp] theorem State.setQueue_ratios (r i : Nat) (l : List Packet) : (s.setQueue r i l).ratios = s.ratios := rfl
@[simp] theorem State.setQueue_mesh (r i : Nat) (l : List Packet) : (s.setQueue r i l).mesh = s.mesh := rfl
@[simp] theorem State.setQueue_deskews (r i : Nat) (l : List Packet) : (s.setQueue r i l).deskews = s.deskews := rfl
@[simp] theorem State.setQueue_adapts (r i : Nat) (l : List Packet) : (s.setQueue r i l).adapts = s.adapts := rfl
@[simp] theorem State.setQueue_out (r i : Nat) (l : List Packet) : (s.setQueue r i l).out = s.out := rfl
@[simp] theorem State.setTx_pending (l : Link) (x : TxLink) : (s.setTx l x).pending = s.pending := rfl
@[simp] theorem State.setTx_dev (l : Link) (x : TxLink) : (s.setTx l x).dev = s.dev := rfl
@[simp] theorem State.setTx_now (l : Link) (x : TxLink) : (s.setTx l x).now = s.now := rfl
@[simp] theorem State.setTx_clk (l : Link) (x : TxLink) : (s.setTx l x).clk = s.clk := rfl
@[simp] theorem State.setTx_fresh (l : Link) (x : TxLink) : (s.setTx l x).fresh = s.fresh := rfl
@[simp] theorem State.setTx_freeCtr (l : Link) (x : TxLink) : (s.setTx l x).freeCtr = s.freeCtr := rfl
@[simp] theorem State.setTx_fuses (l : Link) (x : TxLink) : (s.setTx l x).fuses = s.fuses := rfl
@[simp] theorem State.setTx_pins (l : Link) (x : TxLink) : (s.setTx l x).pins = s.pins := rfl
@[simp] theorem State.setTx_store (l : Link) (x : TxLink) : (s.setTx l x).store = s.store := rfl
@[simp] theorem State.setTx_start (l : Link) (x : TxLink) : (s.setTx l x).start = s.start := rfl
@[simp] theorem State.setTx_regs (l : Link) (x : TxLink) : (s.setTx l x).regs = s.regs := rfl
@[simp] theorem State.setTx_mem (l : Link) (x : TxLink) : (s.setTx l x).mem = s.mem := rfl
@[simp] theorem State.setTx_marks (l : Link) (x : TxLink) : (s.setTx l x).marks = s.marks := rfl
@[simp] theorem State.setTx_cores (l : Link) (x : TxLink) : (s.setTx l x).cores = s.cores := rfl
@[simp] theorem State.setTx_engines (l : Link) (x : TxLink) : (s.setTx l x).engines = s.engines := rfl
@[simp] theorem State.setTx_towers (l : Link) (x : TxLink) : (s.setTx l x).towers = s.towers := rfl
@[simp] theorem State.setTx_trees (l : Link) (x : TxLink) : (s.setTx l x).trees = s.trees := rfl
@[simp] theorem State.setTx_arbs (l : Link) (x : TxLink) : (s.setTx l x).arbs = s.arbs := rfl
@[simp] theorem State.setTx_txq (l : Link) (x : TxLink) : (s.setTx l x).txq = s.txq := rfl
@[simp] theorem State.setTx_rxLinks (l : Link) (x : TxLink) : (s.setTx l x).rxLinks = s.rxLinks := rfl
@[simp] theorem State.setTx_ingests (l : Link) (x : TxLink) : (s.setTx l x).ingests = s.ingests := rfl
@[simp] theorem State.setTx_rings (l : Link) (x : TxLink) : (s.setTx l x).rings = s.rings := rfl
@[simp] theorem State.setTx_lattices (l : Link) (x : TxLink) : (s.setTx l x).lattices = s.lattices := rfl
@[simp] theorem State.setTx_lanes (l : Link) (x : TxLink) : (s.setTx l x).lanes = s.lanes := rfl
@[simp] theorem State.setTx_frames (l : Link) (x : TxLink) : (s.setTx l x).frames = s.frames := rfl
@[simp] theorem State.setTx_d2d (l : Link) (x : TxLink) : (s.setTx l x).d2d = s.d2d := rfl
@[simp] theorem State.setTx_times (l : Link) (x : TxLink) : (s.setTx l x).times = s.times := rfl
@[simp] theorem State.setTx_ops (l : Link) (x : TxLink) : (s.setTx l x).ops = s.ops := rfl
@[simp] theorem State.setTx_atomSeq (l : Link) (x : TxLink) : (s.setTx l x).atomSeq = s.atomSeq := rfl
@[simp] theorem State.setTx_cache (l : Link) (x : TxLink) : (s.setTx l x).cache = s.cache := rfl
@[simp] theorem State.setTx_invs (l : Link) (x : TxLink) : (s.setTx l x).invs = s.invs := rfl
@[simp] theorem State.setTx_fetches (l : Link) (x : TxLink) : (s.setTx l x).fetches = s.fetches := rfl
@[simp] theorem State.setTx_lockEnd (l : Link) (x : TxLink) : (s.setTx l x).lockEnd = s.lockEnd := rfl
@[simp] theorem State.setTx_prevEpoch (l : Link) (x : TxLink) : (s.setTx l x).prevEpoch = s.prevEpoch := rfl
@[simp] theorem State.setTx_boundary (l : Link) (x : TxLink) : (s.setTx l x).boundary = s.boundary := rfl
@[simp] theorem State.setTx_onyx (l : Link) (x : TxLink) : (s.setTx l x).onyx = s.onyx := rfl
@[simp] theorem State.setTx_cal (l : Link) (x : TxLink) : (s.setTx l x).cal = s.cal := rfl
@[simp] theorem State.setTx_shards (l : Link) (x : TxLink) : (s.setTx l x).shards = s.shards := rfl
@[simp] theorem State.setTx_egress (l : Link) (x : TxLink) : (s.setTx l x).egress = s.egress := rfl
@[simp] theorem State.setTx_ratios (l : Link) (x : TxLink) : (s.setTx l x).ratios = s.ratios := rfl
@[simp] theorem State.setTx_mesh (l : Link) (x : TxLink) : (s.setTx l x).mesh = s.mesh := rfl
@[simp] theorem State.setTx_deskews (l : Link) (x : TxLink) : (s.setTx l x).deskews = s.deskews := rfl
@[simp] theorem State.setTx_adapts (l : Link) (x : TxLink) : (s.setTx l x).adapts = s.adapts := rfl
@[simp] theorem State.setTx_out (l : Link) (x : TxLink) : (s.setTx l x).out = s.out := rfl
@[simp] theorem State.setRx_pending (l : Link) (r : Nat) (x : RxLink) : (s.setRx l r x).pending = s.pending := rfl
@[simp] theorem State.setRx_dev (l : Link) (r : Nat) (x : RxLink) : (s.setRx l r x).dev = s.dev := rfl
@[simp] theorem State.setRx_now (l : Link) (r : Nat) (x : RxLink) : (s.setRx l r x).now = s.now := rfl
@[simp] theorem State.setRx_clk (l : Link) (r : Nat) (x : RxLink) : (s.setRx l r x).clk = s.clk := rfl
@[simp] theorem State.setRx_fresh (l : Link) (r : Nat) (x : RxLink) : (s.setRx l r x).fresh = s.fresh := rfl
@[simp] theorem State.setRx_freeCtr (l : Link) (r : Nat) (x : RxLink) : (s.setRx l r x).freeCtr = s.freeCtr := rfl
@[simp] theorem State.setRx_fuses (l : Link) (r : Nat) (x : RxLink) : (s.setRx l r x).fuses = s.fuses := rfl
@[simp] theorem State.setRx_pins (l : Link) (r : Nat) (x : RxLink) : (s.setRx l r x).pins = s.pins := rfl
@[simp] theorem State.setRx_store (l : Link) (r : Nat) (x : RxLink) : (s.setRx l r x).store = s.store := rfl
@[simp] theorem State.setRx_start (l : Link) (r : Nat) (x : RxLink) : (s.setRx l r x).start = s.start := rfl
@[simp] theorem State.setRx_regs (l : Link) (r : Nat) (x : RxLink) : (s.setRx l r x).regs = s.regs := rfl
@[simp] theorem State.setRx_mem (l : Link) (r : Nat) (x : RxLink) : (s.setRx l r x).mem = s.mem := rfl
@[simp] theorem State.setRx_marks (l : Link) (r : Nat) (x : RxLink) : (s.setRx l r x).marks = s.marks := rfl
@[simp] theorem State.setRx_cores (l : Link) (r : Nat) (x : RxLink) : (s.setRx l r x).cores = s.cores := rfl
@[simp] theorem State.setRx_engines (l : Link) (r : Nat) (x : RxLink) : (s.setRx l r x).engines = s.engines := rfl
@[simp] theorem State.setRx_towers (l : Link) (r : Nat) (x : RxLink) : (s.setRx l r x).towers = s.towers := rfl
@[simp] theorem State.setRx_trees (l : Link) (r : Nat) (x : RxLink) : (s.setRx l r x).trees = s.trees := rfl
@[simp] theorem State.setRx_arbs (l : Link) (r : Nat) (x : RxLink) : (s.setRx l r x).arbs = s.arbs := rfl
@[simp] theorem State.setRx_txq (l : Link) (r : Nat) (x : RxLink) : (s.setRx l r x).txq = s.txq := rfl
@[simp] theorem State.setRx_txLinks (l : Link) (r : Nat) (x : RxLink) : (s.setRx l r x).txLinks = s.txLinks := rfl
@[simp] theorem State.setRx_ingests (l : Link) (r : Nat) (x : RxLink) : (s.setRx l r x).ingests = s.ingests := rfl
@[simp] theorem State.setRx_rings (l : Link) (r : Nat) (x : RxLink) : (s.setRx l r x).rings = s.rings := rfl
@[simp] theorem State.setRx_lattices (l : Link) (r : Nat) (x : RxLink) : (s.setRx l r x).lattices = s.lattices := rfl
@[simp] theorem State.setRx_lanes (l : Link) (r : Nat) (x : RxLink) : (s.setRx l r x).lanes = s.lanes := rfl
@[simp] theorem State.setRx_frames (l : Link) (r : Nat) (x : RxLink) : (s.setRx l r x).frames = s.frames := rfl
@[simp] theorem State.setRx_d2d (l : Link) (r : Nat) (x : RxLink) : (s.setRx l r x).d2d = s.d2d := rfl
@[simp] theorem State.setRx_times (l : Link) (r : Nat) (x : RxLink) : (s.setRx l r x).times = s.times := rfl
@[simp] theorem State.setRx_ops (l : Link) (r : Nat) (x : RxLink) : (s.setRx l r x).ops = s.ops := rfl
@[simp] theorem State.setRx_atomSeq (l : Link) (r : Nat) (x : RxLink) : (s.setRx l r x).atomSeq = s.atomSeq := rfl
@[simp] theorem State.setRx_cache (l : Link) (r : Nat) (x : RxLink) : (s.setRx l r x).cache = s.cache := rfl
@[simp] theorem State.setRx_invs (l : Link) (r : Nat) (x : RxLink) : (s.setRx l r x).invs = s.invs := rfl
@[simp] theorem State.setRx_fetches (l : Link) (r : Nat) (x : RxLink) : (s.setRx l r x).fetches = s.fetches := rfl
@[simp] theorem State.setRx_lockEnd (l : Link) (r : Nat) (x : RxLink) : (s.setRx l r x).lockEnd = s.lockEnd := rfl
@[simp] theorem State.setRx_prevEpoch (l : Link) (r : Nat) (x : RxLink) : (s.setRx l r x).prevEpoch = s.prevEpoch := rfl
@[simp] theorem State.setRx_boundary (l : Link) (r : Nat) (x : RxLink) : (s.setRx l r x).boundary = s.boundary := rfl
@[simp] theorem State.setRx_onyx (l : Link) (r : Nat) (x : RxLink) : (s.setRx l r x).onyx = s.onyx := rfl
@[simp] theorem State.setRx_cal (l : Link) (r : Nat) (x : RxLink) : (s.setRx l r x).cal = s.cal := rfl
@[simp] theorem State.setRx_shards (l : Link) (r : Nat) (x : RxLink) : (s.setRx l r x).shards = s.shards := rfl
@[simp] theorem State.setRx_egress (l : Link) (r : Nat) (x : RxLink) : (s.setRx l r x).egress = s.egress := rfl
@[simp] theorem State.setRx_ratios (l : Link) (r : Nat) (x : RxLink) : (s.setRx l r x).ratios = s.ratios := rfl
@[simp] theorem State.setRx_mesh (l : Link) (r : Nat) (x : RxLink) : (s.setRx l r x).mesh = s.mesh := rfl
@[simp] theorem State.setRx_deskews (l : Link) (r : Nat) (x : RxLink) : (s.setRx l r x).deskews = s.deskews := rfl
@[simp] theorem State.setRx_adapts (l : Link) (r : Nat) (x : RxLink) : (s.setRx l r x).adapts = s.adapts := rfl
@[simp] theorem State.setRx_out (l : Link) (r : Nat) (x : RxLink) : (s.setRx l r x).out = s.out := rfl
@[simp] theorem State.setRing_pending (a : Nat) (x : Ring) : (s.setRing a x).pending = s.pending := rfl
@[simp] theorem State.setRing_dev (a : Nat) (x : Ring) : (s.setRing a x).dev = s.dev := rfl
@[simp] theorem State.setRing_now (a : Nat) (x : Ring) : (s.setRing a x).now = s.now := rfl
@[simp] theorem State.setRing_clk (a : Nat) (x : Ring) : (s.setRing a x).clk = s.clk := rfl
@[simp] theorem State.setRing_fresh (a : Nat) (x : Ring) : (s.setRing a x).fresh = s.fresh := rfl
@[simp] theorem State.setRing_freeCtr (a : Nat) (x : Ring) : (s.setRing a x).freeCtr = s.freeCtr := rfl
@[simp] theorem State.setRing_fuses (a : Nat) (x : Ring) : (s.setRing a x).fuses = s.fuses := rfl
@[simp] theorem State.setRing_pins (a : Nat) (x : Ring) : (s.setRing a x).pins = s.pins := rfl
@[simp] theorem State.setRing_store (a : Nat) (x : Ring) : (s.setRing a x).store = s.store := rfl
@[simp] theorem State.setRing_start (a : Nat) (x : Ring) : (s.setRing a x).start = s.start := rfl
@[simp] theorem State.setRing_regs (a : Nat) (x : Ring) : (s.setRing a x).regs = s.regs := rfl
@[simp] theorem State.setRing_mem (a : Nat) (x : Ring) : (s.setRing a x).mem = s.mem := rfl
@[simp] theorem State.setRing_marks (a : Nat) (x : Ring) : (s.setRing a x).marks = s.marks := rfl
@[simp] theorem State.setRing_cores (a : Nat) (x : Ring) : (s.setRing a x).cores = s.cores := rfl
@[simp] theorem State.setRing_engines (a : Nat) (x : Ring) : (s.setRing a x).engines = s.engines := rfl
@[simp] theorem State.setRing_towers (a : Nat) (x : Ring) : (s.setRing a x).towers = s.towers := rfl
@[simp] theorem State.setRing_trees (a : Nat) (x : Ring) : (s.setRing a x).trees = s.trees := rfl
@[simp] theorem State.setRing_arbs (a : Nat) (x : Ring) : (s.setRing a x).arbs = s.arbs := rfl
@[simp] theorem State.setRing_txq (a : Nat) (x : Ring) : (s.setRing a x).txq = s.txq := rfl
@[simp] theorem State.setRing_txLinks (a : Nat) (x : Ring) : (s.setRing a x).txLinks = s.txLinks := rfl
@[simp] theorem State.setRing_rxLinks (a : Nat) (x : Ring) : (s.setRing a x).rxLinks = s.rxLinks := rfl
@[simp] theorem State.setRing_ingests (a : Nat) (x : Ring) : (s.setRing a x).ingests = s.ingests := rfl
@[simp] theorem State.setRing_lattices (a : Nat) (x : Ring) : (s.setRing a x).lattices = s.lattices := rfl
@[simp] theorem State.setRing_lanes (a : Nat) (x : Ring) : (s.setRing a x).lanes = s.lanes := rfl
@[simp] theorem State.setRing_frames (a : Nat) (x : Ring) : (s.setRing a x).frames = s.frames := rfl
@[simp] theorem State.setRing_d2d (a : Nat) (x : Ring) : (s.setRing a x).d2d = s.d2d := rfl
@[simp] theorem State.setRing_times (a : Nat) (x : Ring) : (s.setRing a x).times = s.times := rfl
@[simp] theorem State.setRing_ops (a : Nat) (x : Ring) : (s.setRing a x).ops = s.ops := rfl
@[simp] theorem State.setRing_atomSeq (a : Nat) (x : Ring) : (s.setRing a x).atomSeq = s.atomSeq := rfl
@[simp] theorem State.setRing_cache (a : Nat) (x : Ring) : (s.setRing a x).cache = s.cache := rfl
@[simp] theorem State.setRing_invs (a : Nat) (x : Ring) : (s.setRing a x).invs = s.invs := rfl
@[simp] theorem State.setRing_fetches (a : Nat) (x : Ring) : (s.setRing a x).fetches = s.fetches := rfl
@[simp] theorem State.setRing_lockEnd (a : Nat) (x : Ring) : (s.setRing a x).lockEnd = s.lockEnd := rfl
@[simp] theorem State.setRing_prevEpoch (a : Nat) (x : Ring) : (s.setRing a x).prevEpoch = s.prevEpoch := rfl
@[simp] theorem State.setRing_boundary (a : Nat) (x : Ring) : (s.setRing a x).boundary = s.boundary := rfl
@[simp] theorem State.setRing_onyx (a : Nat) (x : Ring) : (s.setRing a x).onyx = s.onyx := rfl
@[simp] theorem State.setRing_cal (a : Nat) (x : Ring) : (s.setRing a x).cal = s.cal := rfl
@[simp] theorem State.setRing_shards (a : Nat) (x : Ring) : (s.setRing a x).shards = s.shards := rfl
@[simp] theorem State.setRing_egress (a : Nat) (x : Ring) : (s.setRing a x).egress = s.egress := rfl
@[simp] theorem State.setRing_ratios (a : Nat) (x : Ring) : (s.setRing a x).ratios = s.ratios := rfl
@[simp] theorem State.setRing_mesh (a : Nat) (x : Ring) : (s.setRing a x).mesh = s.mesh := rfl
@[simp] theorem State.setRing_deskews (a : Nat) (x : Ring) : (s.setRing a x).deskews = s.deskews := rfl
@[simp] theorem State.setRing_adapts (a : Nat) (x : Ring) : (s.setRing a x).adapts = s.adapts := rfl
@[simp] theorem State.setRing_out (a : Nat) (x : Ring) : (s.setRing a x).out = s.out := rfl
@[simp] theorem State.setLattice_pending (n : Nat) (x : Lattice) : (s.setLattice n x).pending = s.pending := rfl
@[simp] theorem State.setLattice_dev (n : Nat) (x : Lattice) : (s.setLattice n x).dev = s.dev := rfl
@[simp] theorem State.setLattice_now (n : Nat) (x : Lattice) : (s.setLattice n x).now = s.now := rfl
@[simp] theorem State.setLattice_clk (n : Nat) (x : Lattice) : (s.setLattice n x).clk = s.clk := rfl
@[simp] theorem State.setLattice_fresh (n : Nat) (x : Lattice) : (s.setLattice n x).fresh = s.fresh := rfl
@[simp] theorem State.setLattice_freeCtr (n : Nat) (x : Lattice) : (s.setLattice n x).freeCtr = s.freeCtr := rfl
@[simp] theorem State.setLattice_fuses (n : Nat) (x : Lattice) : (s.setLattice n x).fuses = s.fuses := rfl
@[simp] theorem State.setLattice_pins (n : Nat) (x : Lattice) : (s.setLattice n x).pins = s.pins := rfl
@[simp] theorem State.setLattice_store (n : Nat) (x : Lattice) : (s.setLattice n x).store = s.store := rfl
@[simp] theorem State.setLattice_start (n : Nat) (x : Lattice) : (s.setLattice n x).start = s.start := rfl
@[simp] theorem State.setLattice_regs (n : Nat) (x : Lattice) : (s.setLattice n x).regs = s.regs := rfl
@[simp] theorem State.setLattice_mem (n : Nat) (x : Lattice) : (s.setLattice n x).mem = s.mem := rfl
@[simp] theorem State.setLattice_marks (n : Nat) (x : Lattice) : (s.setLattice n x).marks = s.marks := rfl
@[simp] theorem State.setLattice_cores (n : Nat) (x : Lattice) : (s.setLattice n x).cores = s.cores := rfl
@[simp] theorem State.setLattice_engines (n : Nat) (x : Lattice) : (s.setLattice n x).engines = s.engines := rfl
@[simp] theorem State.setLattice_towers (n : Nat) (x : Lattice) : (s.setLattice n x).towers = s.towers := rfl
@[simp] theorem State.setLattice_trees (n : Nat) (x : Lattice) : (s.setLattice n x).trees = s.trees := rfl
@[simp] theorem State.setLattice_arbs (n : Nat) (x : Lattice) : (s.setLattice n x).arbs = s.arbs := rfl
@[simp] theorem State.setLattice_txq (n : Nat) (x : Lattice) : (s.setLattice n x).txq = s.txq := rfl
@[simp] theorem State.setLattice_txLinks (n : Nat) (x : Lattice) : (s.setLattice n x).txLinks = s.txLinks := rfl
@[simp] theorem State.setLattice_rxLinks (n : Nat) (x : Lattice) : (s.setLattice n x).rxLinks = s.rxLinks := rfl
@[simp] theorem State.setLattice_ingests (n : Nat) (x : Lattice) : (s.setLattice n x).ingests = s.ingests := rfl
@[simp] theorem State.setLattice_rings (n : Nat) (x : Lattice) : (s.setLattice n x).rings = s.rings := rfl
@[simp] theorem State.setLattice_lanes (n : Nat) (x : Lattice) : (s.setLattice n x).lanes = s.lanes := rfl
@[simp] theorem State.setLattice_frames (n : Nat) (x : Lattice) : (s.setLattice n x).frames = s.frames := rfl
@[simp] theorem State.setLattice_d2d (n : Nat) (x : Lattice) : (s.setLattice n x).d2d = s.d2d := rfl
@[simp] theorem State.setLattice_times (n : Nat) (x : Lattice) : (s.setLattice n x).times = s.times := rfl
@[simp] theorem State.setLattice_ops (n : Nat) (x : Lattice) : (s.setLattice n x).ops = s.ops := rfl
@[simp] theorem State.setLattice_atomSeq (n : Nat) (x : Lattice) : (s.setLattice n x).atomSeq = s.atomSeq := rfl
@[simp] theorem State.setLattice_cache (n : Nat) (x : Lattice) : (s.setLattice n x).cache = s.cache := rfl
@[simp] theorem State.setLattice_invs (n : Nat) (x : Lattice) : (s.setLattice n x).invs = s.invs := rfl
@[simp] theorem State.setLattice_fetches (n : Nat) (x : Lattice) : (s.setLattice n x).fetches = s.fetches := rfl
@[simp] theorem State.setLattice_lockEnd (n : Nat) (x : Lattice) : (s.setLattice n x).lockEnd = s.lockEnd := rfl
@[simp] theorem State.setLattice_prevEpoch (n : Nat) (x : Lattice) : (s.setLattice n x).prevEpoch = s.prevEpoch := rfl
@[simp] theorem State.setLattice_boundary (n : Nat) (x : Lattice) : (s.setLattice n x).boundary = s.boundary := rfl
@[simp] theorem State.setLattice_onyx (n : Nat) (x : Lattice) : (s.setLattice n x).onyx = s.onyx := rfl
@[simp] theorem State.setLattice_cal (n : Nat) (x : Lattice) : (s.setLattice n x).cal = s.cal := rfl
@[simp] theorem State.setLattice_shards (n : Nat) (x : Lattice) : (s.setLattice n x).shards = s.shards := rfl
@[simp] theorem State.setLattice_egress (n : Nat) (x : Lattice) : (s.setLattice n x).egress = s.egress := rfl
@[simp] theorem State.setLattice_ratios (n : Nat) (x : Lattice) : (s.setLattice n x).ratios = s.ratios := rfl
@[simp] theorem State.setLattice_mesh (n : Nat) (x : Lattice) : (s.setLattice n x).mesh = s.mesh := rfl
@[simp] theorem State.setLattice_deskews (n : Nat) (x : Lattice) : (s.setLattice n x).deskews = s.deskews := rfl
@[simp] theorem State.setLattice_adapts (n : Nat) (x : Lattice) : (s.setLattice n x).adapts = s.adapts := rfl
@[simp] theorem State.setLattice_out (n : Nat) (x : Lattice) : (s.setLattice n x).out = s.out := rfl
@[simp] theorem State.setLane_pending (j : Nat) (x : Lane) : (s.setLane j x).pending = s.pending := rfl
@[simp] theorem State.setLane_dev (j : Nat) (x : Lane) : (s.setLane j x).dev = s.dev := rfl
@[simp] theorem State.setLane_now (j : Nat) (x : Lane) : (s.setLane j x).now = s.now := rfl
@[simp] theorem State.setLane_clk (j : Nat) (x : Lane) : (s.setLane j x).clk = s.clk := rfl
@[simp] theorem State.setLane_fresh (j : Nat) (x : Lane) : (s.setLane j x).fresh = s.fresh := rfl
@[simp] theorem State.setLane_freeCtr (j : Nat) (x : Lane) : (s.setLane j x).freeCtr = s.freeCtr := rfl
@[simp] theorem State.setLane_fuses (j : Nat) (x : Lane) : (s.setLane j x).fuses = s.fuses := rfl
@[simp] theorem State.setLane_pins (j : Nat) (x : Lane) : (s.setLane j x).pins = s.pins := rfl
@[simp] theorem State.setLane_store (j : Nat) (x : Lane) : (s.setLane j x).store = s.store := rfl
@[simp] theorem State.setLane_start (j : Nat) (x : Lane) : (s.setLane j x).start = s.start := rfl
@[simp] theorem State.setLane_regs (j : Nat) (x : Lane) : (s.setLane j x).regs = s.regs := rfl
@[simp] theorem State.setLane_mem (j : Nat) (x : Lane) : (s.setLane j x).mem = s.mem := rfl
@[simp] theorem State.setLane_marks (j : Nat) (x : Lane) : (s.setLane j x).marks = s.marks := rfl
@[simp] theorem State.setLane_cores (j : Nat) (x : Lane) : (s.setLane j x).cores = s.cores := rfl
@[simp] theorem State.setLane_engines (j : Nat) (x : Lane) : (s.setLane j x).engines = s.engines := rfl
@[simp] theorem State.setLane_towers (j : Nat) (x : Lane) : (s.setLane j x).towers = s.towers := rfl
@[simp] theorem State.setLane_trees (j : Nat) (x : Lane) : (s.setLane j x).trees = s.trees := rfl
@[simp] theorem State.setLane_arbs (j : Nat) (x : Lane) : (s.setLane j x).arbs = s.arbs := rfl
@[simp] theorem State.setLane_txq (j : Nat) (x : Lane) : (s.setLane j x).txq = s.txq := rfl
@[simp] theorem State.setLane_txLinks (j : Nat) (x : Lane) : (s.setLane j x).txLinks = s.txLinks := rfl
@[simp] theorem State.setLane_rxLinks (j : Nat) (x : Lane) : (s.setLane j x).rxLinks = s.rxLinks := rfl
@[simp] theorem State.setLane_ingests (j : Nat) (x : Lane) : (s.setLane j x).ingests = s.ingests := rfl
@[simp] theorem State.setLane_rings (j : Nat) (x : Lane) : (s.setLane j x).rings = s.rings := rfl
@[simp] theorem State.setLane_lattices (j : Nat) (x : Lane) : (s.setLane j x).lattices = s.lattices := rfl
@[simp] theorem State.setLane_frames (j : Nat) (x : Lane) : (s.setLane j x).frames = s.frames := rfl
@[simp] theorem State.setLane_d2d (j : Nat) (x : Lane) : (s.setLane j x).d2d = s.d2d := rfl
@[simp] theorem State.setLane_times (j : Nat) (x : Lane) : (s.setLane j x).times = s.times := rfl
@[simp] theorem State.setLane_ops (j : Nat) (x : Lane) : (s.setLane j x).ops = s.ops := rfl
@[simp] theorem State.setLane_atomSeq (j : Nat) (x : Lane) : (s.setLane j x).atomSeq = s.atomSeq := rfl
@[simp] theorem State.setLane_cache (j : Nat) (x : Lane) : (s.setLane j x).cache = s.cache := rfl
@[simp] theorem State.setLane_invs (j : Nat) (x : Lane) : (s.setLane j x).invs = s.invs := rfl
@[simp] theorem State.setLane_fetches (j : Nat) (x : Lane) : (s.setLane j x).fetches = s.fetches := rfl
@[simp] theorem State.setLane_lockEnd (j : Nat) (x : Lane) : (s.setLane j x).lockEnd = s.lockEnd := rfl
@[simp] theorem State.setLane_prevEpoch (j : Nat) (x : Lane) : (s.setLane j x).prevEpoch = s.prevEpoch := rfl
@[simp] theorem State.setLane_boundary (j : Nat) (x : Lane) : (s.setLane j x).boundary = s.boundary := rfl
@[simp] theorem State.setLane_onyx (j : Nat) (x : Lane) : (s.setLane j x).onyx = s.onyx := rfl
@[simp] theorem State.setLane_cal (j : Nat) (x : Lane) : (s.setLane j x).cal = s.cal := rfl
@[simp] theorem State.setLane_shards (j : Nat) (x : Lane) : (s.setLane j x).shards = s.shards := rfl
@[simp] theorem State.setLane_egress (j : Nat) (x : Lane) : (s.setLane j x).egress = s.egress := rfl
@[simp] theorem State.setLane_ratios (j : Nat) (x : Lane) : (s.setLane j x).ratios = s.ratios := rfl
@[simp] theorem State.setLane_mesh (j : Nat) (x : Lane) : (s.setLane j x).mesh = s.mesh := rfl
@[simp] theorem State.setLane_deskews (j : Nat) (x : Lane) : (s.setLane j x).deskews = s.deskews := rfl
@[simp] theorem State.setLane_adapts (j : Nat) (x : Lane) : (s.setLane j x).adapts = s.adapts := rfl
@[simp] theorem State.setLane_out (j : Nat) (x : Lane) : (s.setLane j x).out = s.out := rfl
@[simp] theorem State.setFrames_pending (e j : Nat) (l : List Frame) : (s.setFrames e j l).pending = s.pending := rfl
@[simp] theorem State.setFrames_dev (e j : Nat) (l : List Frame) : (s.setFrames e j l).dev = s.dev := rfl
@[simp] theorem State.setFrames_now (e j : Nat) (l : List Frame) : (s.setFrames e j l).now = s.now := rfl
@[simp] theorem State.setFrames_clk (e j : Nat) (l : List Frame) : (s.setFrames e j l).clk = s.clk := rfl
@[simp] theorem State.setFrames_fresh (e j : Nat) (l : List Frame) : (s.setFrames e j l).fresh = s.fresh := rfl
@[simp] theorem State.setFrames_freeCtr (e j : Nat) (l : List Frame) : (s.setFrames e j l).freeCtr = s.freeCtr := rfl
@[simp] theorem State.setFrames_fuses (e j : Nat) (l : List Frame) : (s.setFrames e j l).fuses = s.fuses := rfl
@[simp] theorem State.setFrames_pins (e j : Nat) (l : List Frame) : (s.setFrames e j l).pins = s.pins := rfl
@[simp] theorem State.setFrames_store (e j : Nat) (l : List Frame) : (s.setFrames e j l).store = s.store := rfl
@[simp] theorem State.setFrames_start (e j : Nat) (l : List Frame) : (s.setFrames e j l).start = s.start := rfl
@[simp] theorem State.setFrames_regs (e j : Nat) (l : List Frame) : (s.setFrames e j l).regs = s.regs := rfl
@[simp] theorem State.setFrames_mem (e j : Nat) (l : List Frame) : (s.setFrames e j l).mem = s.mem := rfl
@[simp] theorem State.setFrames_marks (e j : Nat) (l : List Frame) : (s.setFrames e j l).marks = s.marks := rfl
@[simp] theorem State.setFrames_cores (e j : Nat) (l : List Frame) : (s.setFrames e j l).cores = s.cores := rfl
@[simp] theorem State.setFrames_engines (e j : Nat) (l : List Frame) : (s.setFrames e j l).engines = s.engines := rfl
@[simp] theorem State.setFrames_towers (e j : Nat) (l : List Frame) : (s.setFrames e j l).towers = s.towers := rfl
@[simp] theorem State.setFrames_trees (e j : Nat) (l : List Frame) : (s.setFrames e j l).trees = s.trees := rfl
@[simp] theorem State.setFrames_arbs (e j : Nat) (l : List Frame) : (s.setFrames e j l).arbs = s.arbs := rfl
@[simp] theorem State.setFrames_txq (e j : Nat) (l : List Frame) : (s.setFrames e j l).txq = s.txq := rfl
@[simp] theorem State.setFrames_txLinks (e j : Nat) (l : List Frame) : (s.setFrames e j l).txLinks = s.txLinks := rfl
@[simp] theorem State.setFrames_rxLinks (e j : Nat) (l : List Frame) : (s.setFrames e j l).rxLinks = s.rxLinks := rfl
@[simp] theorem State.setFrames_ingests (e j : Nat) (l : List Frame) : (s.setFrames e j l).ingests = s.ingests := rfl
@[simp] theorem State.setFrames_rings (e j : Nat) (l : List Frame) : (s.setFrames e j l).rings = s.rings := rfl
@[simp] theorem State.setFrames_lattices (e j : Nat) (l : List Frame) : (s.setFrames e j l).lattices = s.lattices := rfl
@[simp] theorem State.setFrames_lanes (e j : Nat) (l : List Frame) : (s.setFrames e j l).lanes = s.lanes := rfl
@[simp] theorem State.setFrames_d2d (e j : Nat) (l : List Frame) : (s.setFrames e j l).d2d = s.d2d := rfl
@[simp] theorem State.setFrames_times (e j : Nat) (l : List Frame) : (s.setFrames e j l).times = s.times := rfl
@[simp] theorem State.setFrames_ops (e j : Nat) (l : List Frame) : (s.setFrames e j l).ops = s.ops := rfl
@[simp] theorem State.setFrames_atomSeq (e j : Nat) (l : List Frame) : (s.setFrames e j l).atomSeq = s.atomSeq := rfl
@[simp] theorem State.setFrames_cache (e j : Nat) (l : List Frame) : (s.setFrames e j l).cache = s.cache := rfl
@[simp] theorem State.setFrames_invs (e j : Nat) (l : List Frame) : (s.setFrames e j l).invs = s.invs := rfl
@[simp] theorem State.setFrames_fetches (e j : Nat) (l : List Frame) : (s.setFrames e j l).fetches = s.fetches := rfl
@[simp] theorem State.setFrames_lockEnd (e j : Nat) (l : List Frame) : (s.setFrames e j l).lockEnd = s.lockEnd := rfl
@[simp] theorem State.setFrames_prevEpoch (e j : Nat) (l : List Frame) : (s.setFrames e j l).prevEpoch = s.prevEpoch := rfl
@[simp] theorem State.setFrames_boundary (e j : Nat) (l : List Frame) : (s.setFrames e j l).boundary = s.boundary := rfl
@[simp] theorem State.setFrames_onyx (e j : Nat) (l : List Frame) : (s.setFrames e j l).onyx = s.onyx := rfl
@[simp] theorem State.setFrames_cal (e j : Nat) (l : List Frame) : (s.setFrames e j l).cal = s.cal := rfl
@[simp] theorem State.setFrames_shards (e j : Nat) (l : List Frame) : (s.setFrames e j l).shards = s.shards := rfl
@[simp] theorem State.setFrames_egress (e j : Nat) (l : List Frame) : (s.setFrames e j l).egress = s.egress := rfl
@[simp] theorem State.setFrames_ratios (e j : Nat) (l : List Frame) : (s.setFrames e j l).ratios = s.ratios := rfl
@[simp] theorem State.setFrames_mesh (e j : Nat) (l : List Frame) : (s.setFrames e j l).mesh = s.mesh := rfl
@[simp] theorem State.setFrames_deskews (e j : Nat) (l : List Frame) : (s.setFrames e j l).deskews = s.deskews := rfl
@[simp] theorem State.setFrames_adapts (e j : Nat) (l : List Frame) : (s.setFrames e j l).adapts = s.adapts := rfl
@[simp] theorem State.setFrames_out (e j : Nat) (l : List Frame) : (s.setFrames e j l).out = s.out := rfl
@[simp] theorem State.setGroup_pending (t g : Nat) (x : D2d) : (s.setGroup t g x).pending = s.pending := rfl
@[simp] theorem State.setGroup_dev (t g : Nat) (x : D2d) : (s.setGroup t g x).dev = s.dev := rfl
@[simp] theorem State.setGroup_now (t g : Nat) (x : D2d) : (s.setGroup t g x).now = s.now := rfl
@[simp] theorem State.setGroup_clk (t g : Nat) (x : D2d) : (s.setGroup t g x).clk = s.clk := rfl
@[simp] theorem State.setGroup_fresh (t g : Nat) (x : D2d) : (s.setGroup t g x).fresh = s.fresh := rfl
@[simp] theorem State.setGroup_freeCtr (t g : Nat) (x : D2d) : (s.setGroup t g x).freeCtr = s.freeCtr := rfl
@[simp] theorem State.setGroup_fuses (t g : Nat) (x : D2d) : (s.setGroup t g x).fuses = s.fuses := rfl
@[simp] theorem State.setGroup_pins (t g : Nat) (x : D2d) : (s.setGroup t g x).pins = s.pins := rfl
@[simp] theorem State.setGroup_store (t g : Nat) (x : D2d) : (s.setGroup t g x).store = s.store := rfl
@[simp] theorem State.setGroup_start (t g : Nat) (x : D2d) : (s.setGroup t g x).start = s.start := rfl
@[simp] theorem State.setGroup_regs (t g : Nat) (x : D2d) : (s.setGroup t g x).regs = s.regs := rfl
@[simp] theorem State.setGroup_mem (t g : Nat) (x : D2d) : (s.setGroup t g x).mem = s.mem := rfl
@[simp] theorem State.setGroup_marks (t g : Nat) (x : D2d) : (s.setGroup t g x).marks = s.marks := rfl
@[simp] theorem State.setGroup_cores (t g : Nat) (x : D2d) : (s.setGroup t g x).cores = s.cores := rfl
@[simp] theorem State.setGroup_engines (t g : Nat) (x : D2d) : (s.setGroup t g x).engines = s.engines := rfl
@[simp] theorem State.setGroup_towers (t g : Nat) (x : D2d) : (s.setGroup t g x).towers = s.towers := rfl
@[simp] theorem State.setGroup_trees (t g : Nat) (x : D2d) : (s.setGroup t g x).trees = s.trees := rfl
@[simp] theorem State.setGroup_arbs (t g : Nat) (x : D2d) : (s.setGroup t g x).arbs = s.arbs := rfl
@[simp] theorem State.setGroup_txq (t g : Nat) (x : D2d) : (s.setGroup t g x).txq = s.txq := rfl
@[simp] theorem State.setGroup_txLinks (t g : Nat) (x : D2d) : (s.setGroup t g x).txLinks = s.txLinks := rfl
@[simp] theorem State.setGroup_rxLinks (t g : Nat) (x : D2d) : (s.setGroup t g x).rxLinks = s.rxLinks := rfl
@[simp] theorem State.setGroup_ingests (t g : Nat) (x : D2d) : (s.setGroup t g x).ingests = s.ingests := rfl
@[simp] theorem State.setGroup_rings (t g : Nat) (x : D2d) : (s.setGroup t g x).rings = s.rings := rfl
@[simp] theorem State.setGroup_lattices (t g : Nat) (x : D2d) : (s.setGroup t g x).lattices = s.lattices := rfl
@[simp] theorem State.setGroup_lanes (t g : Nat) (x : D2d) : (s.setGroup t g x).lanes = s.lanes := rfl
@[simp] theorem State.setGroup_frames (t g : Nat) (x : D2d) : (s.setGroup t g x).frames = s.frames := rfl
@[simp] theorem State.setGroup_times (t g : Nat) (x : D2d) : (s.setGroup t g x).times = s.times := rfl
@[simp] theorem State.setGroup_ops (t g : Nat) (x : D2d) : (s.setGroup t g x).ops = s.ops := rfl
@[simp] theorem State.setGroup_atomSeq (t g : Nat) (x : D2d) : (s.setGroup t g x).atomSeq = s.atomSeq := rfl
@[simp] theorem State.setGroup_cache (t g : Nat) (x : D2d) : (s.setGroup t g x).cache = s.cache := rfl
@[simp] theorem State.setGroup_invs (t g : Nat) (x : D2d) : (s.setGroup t g x).invs = s.invs := rfl
@[simp] theorem State.setGroup_fetches (t g : Nat) (x : D2d) : (s.setGroup t g x).fetches = s.fetches := rfl
@[simp] theorem State.setGroup_lockEnd (t g : Nat) (x : D2d) : (s.setGroup t g x).lockEnd = s.lockEnd := rfl
@[simp] theorem State.setGroup_prevEpoch (t g : Nat) (x : D2d) : (s.setGroup t g x).prevEpoch = s.prevEpoch := rfl
@[simp] theorem State.setGroup_boundary (t g : Nat) (x : D2d) : (s.setGroup t g x).boundary = s.boundary := rfl
@[simp] theorem State.setGroup_onyx (t g : Nat) (x : D2d) : (s.setGroup t g x).onyx = s.onyx := rfl
@[simp] theorem State.setGroup_cal (t g : Nat) (x : D2d) : (s.setGroup t g x).cal = s.cal := rfl
@[simp] theorem State.setGroup_shards (t g : Nat) (x : D2d) : (s.setGroup t g x).shards = s.shards := rfl
@[simp] theorem State.setGroup_egress (t g : Nat) (x : D2d) : (s.setGroup t g x).egress = s.egress := rfl
@[simp] theorem State.setGroup_ratios (t g : Nat) (x : D2d) : (s.setGroup t g x).ratios = s.ratios := rfl
@[simp] theorem State.setGroup_mesh (t g : Nat) (x : D2d) : (s.setGroup t g x).mesh = s.mesh := rfl
@[simp] theorem State.setGroup_deskews (t g : Nat) (x : D2d) : (s.setGroup t g x).deskews = s.deskews := rfl
@[simp] theorem State.setGroup_adapts (t g : Nat) (x : D2d) : (s.setGroup t g x).adapts = s.adapts := rfl
@[simp] theorem State.setGroup_out (t g : Nat) (x : D2d) : (s.setGroup t g x).out = s.out := rfl
@[simp] theorem State.setTime_pending (n : Nat) (x : TimeUnit) : (s.setTime n x).pending = s.pending := rfl
@[simp] theorem State.setTime_dev (n : Nat) (x : TimeUnit) : (s.setTime n x).dev = s.dev := rfl
@[simp] theorem State.setTime_now (n : Nat) (x : TimeUnit) : (s.setTime n x).now = s.now := rfl
@[simp] theorem State.setTime_clk (n : Nat) (x : TimeUnit) : (s.setTime n x).clk = s.clk := rfl
@[simp] theorem State.setTime_fresh (n : Nat) (x : TimeUnit) : (s.setTime n x).fresh = s.fresh := rfl
@[simp] theorem State.setTime_freeCtr (n : Nat) (x : TimeUnit) : (s.setTime n x).freeCtr = s.freeCtr := rfl
@[simp] theorem State.setTime_fuses (n : Nat) (x : TimeUnit) : (s.setTime n x).fuses = s.fuses := rfl
@[simp] theorem State.setTime_pins (n : Nat) (x : TimeUnit) : (s.setTime n x).pins = s.pins := rfl
@[simp] theorem State.setTime_store (n : Nat) (x : TimeUnit) : (s.setTime n x).store = s.store := rfl
@[simp] theorem State.setTime_start (n : Nat) (x : TimeUnit) : (s.setTime n x).start = s.start := rfl
@[simp] theorem State.setTime_regs (n : Nat) (x : TimeUnit) : (s.setTime n x).regs = s.regs := rfl
@[simp] theorem State.setTime_mem (n : Nat) (x : TimeUnit) : (s.setTime n x).mem = s.mem := rfl
@[simp] theorem State.setTime_marks (n : Nat) (x : TimeUnit) : (s.setTime n x).marks = s.marks := rfl
@[simp] theorem State.setTime_cores (n : Nat) (x : TimeUnit) : (s.setTime n x).cores = s.cores := rfl
@[simp] theorem State.setTime_engines (n : Nat) (x : TimeUnit) : (s.setTime n x).engines = s.engines := rfl
@[simp] theorem State.setTime_towers (n : Nat) (x : TimeUnit) : (s.setTime n x).towers = s.towers := rfl
@[simp] theorem State.setTime_trees (n : Nat) (x : TimeUnit) : (s.setTime n x).trees = s.trees := rfl
@[simp] theorem State.setTime_arbs (n : Nat) (x : TimeUnit) : (s.setTime n x).arbs = s.arbs := rfl
@[simp] theorem State.setTime_txq (n : Nat) (x : TimeUnit) : (s.setTime n x).txq = s.txq := rfl
@[simp] theorem State.setTime_txLinks (n : Nat) (x : TimeUnit) : (s.setTime n x).txLinks = s.txLinks := rfl
@[simp] theorem State.setTime_rxLinks (n : Nat) (x : TimeUnit) : (s.setTime n x).rxLinks = s.rxLinks := rfl
@[simp] theorem State.setTime_ingests (n : Nat) (x : TimeUnit) : (s.setTime n x).ingests = s.ingests := rfl
@[simp] theorem State.setTime_rings (n : Nat) (x : TimeUnit) : (s.setTime n x).rings = s.rings := rfl
@[simp] theorem State.setTime_lattices (n : Nat) (x : TimeUnit) : (s.setTime n x).lattices = s.lattices := rfl
@[simp] theorem State.setTime_lanes (n : Nat) (x : TimeUnit) : (s.setTime n x).lanes = s.lanes := rfl
@[simp] theorem State.setTime_frames (n : Nat) (x : TimeUnit) : (s.setTime n x).frames = s.frames := rfl
@[simp] theorem State.setTime_d2d (n : Nat) (x : TimeUnit) : (s.setTime n x).d2d = s.d2d := rfl
@[simp] theorem State.setTime_ops (n : Nat) (x : TimeUnit) : (s.setTime n x).ops = s.ops := rfl
@[simp] theorem State.setTime_atomSeq (n : Nat) (x : TimeUnit) : (s.setTime n x).atomSeq = s.atomSeq := rfl
@[simp] theorem State.setTime_cache (n : Nat) (x : TimeUnit) : (s.setTime n x).cache = s.cache := rfl
@[simp] theorem State.setTime_invs (n : Nat) (x : TimeUnit) : (s.setTime n x).invs = s.invs := rfl
@[simp] theorem State.setTime_fetches (n : Nat) (x : TimeUnit) : (s.setTime n x).fetches = s.fetches := rfl
@[simp] theorem State.setTime_lockEnd (n : Nat) (x : TimeUnit) : (s.setTime n x).lockEnd = s.lockEnd := rfl
@[simp] theorem State.setTime_prevEpoch (n : Nat) (x : TimeUnit) : (s.setTime n x).prevEpoch = s.prevEpoch := rfl
@[simp] theorem State.setTime_boundary (n : Nat) (x : TimeUnit) : (s.setTime n x).boundary = s.boundary := rfl
@[simp] theorem State.setTime_onyx (n : Nat) (x : TimeUnit) : (s.setTime n x).onyx = s.onyx := rfl
@[simp] theorem State.setTime_cal (n : Nat) (x : TimeUnit) : (s.setTime n x).cal = s.cal := rfl
@[simp] theorem State.setTime_shards (n : Nat) (x : TimeUnit) : (s.setTime n x).shards = s.shards := rfl
@[simp] theorem State.setTime_egress (n : Nat) (x : TimeUnit) : (s.setTime n x).egress = s.egress := rfl
@[simp] theorem State.setTime_ratios (n : Nat) (x : TimeUnit) : (s.setTime n x).ratios = s.ratios := rfl
@[simp] theorem State.setTime_mesh (n : Nat) (x : TimeUnit) : (s.setTime n x).mesh = s.mesh := rfl
@[simp] theorem State.setTime_deskews (n : Nat) (x : TimeUnit) : (s.setTime n x).deskews = s.deskews := rfl
@[simp] theorem State.setTime_adapts (n : Nat) (x : TimeUnit) : (s.setTime n x).adapts = s.adapts := rfl
@[simp] theorem State.setTime_out (n : Nat) (x : TimeUnit) : (s.setTime n x).out = s.out := rfl
@[simp] theorem State.setOp_pending (r tag : Nat) (o : RemOp) : (s.setOp r tag o).pending = s.pending := rfl
@[simp] theorem State.setOp_dev (r tag : Nat) (o : RemOp) : (s.setOp r tag o).dev = s.dev := rfl
@[simp] theorem State.setOp_now (r tag : Nat) (o : RemOp) : (s.setOp r tag o).now = s.now := rfl
@[simp] theorem State.setOp_clk (r tag : Nat) (o : RemOp) : (s.setOp r tag o).clk = s.clk := rfl
@[simp] theorem State.setOp_fresh (r tag : Nat) (o : RemOp) : (s.setOp r tag o).fresh = s.fresh := rfl
@[simp] theorem State.setOp_freeCtr (r tag : Nat) (o : RemOp) : (s.setOp r tag o).freeCtr = s.freeCtr := rfl
@[simp] theorem State.setOp_fuses (r tag : Nat) (o : RemOp) : (s.setOp r tag o).fuses = s.fuses := rfl
@[simp] theorem State.setOp_pins (r tag : Nat) (o : RemOp) : (s.setOp r tag o).pins = s.pins := rfl
@[simp] theorem State.setOp_store (r tag : Nat) (o : RemOp) : (s.setOp r tag o).store = s.store := rfl
@[simp] theorem State.setOp_start (r tag : Nat) (o : RemOp) : (s.setOp r tag o).start = s.start := rfl
@[simp] theorem State.setOp_regs (r tag : Nat) (o : RemOp) : (s.setOp r tag o).regs = s.regs := rfl
@[simp] theorem State.setOp_mem (r tag : Nat) (o : RemOp) : (s.setOp r tag o).mem = s.mem := rfl
@[simp] theorem State.setOp_marks (r tag : Nat) (o : RemOp) : (s.setOp r tag o).marks = s.marks := rfl
@[simp] theorem State.setOp_cores (r tag : Nat) (o : RemOp) : (s.setOp r tag o).cores = s.cores := rfl
@[simp] theorem State.setOp_engines (r tag : Nat) (o : RemOp) : (s.setOp r tag o).engines = s.engines := rfl
@[simp] theorem State.setOp_towers (r tag : Nat) (o : RemOp) : (s.setOp r tag o).towers = s.towers := rfl
@[simp] theorem State.setOp_trees (r tag : Nat) (o : RemOp) : (s.setOp r tag o).trees = s.trees := rfl
@[simp] theorem State.setOp_arbs (r tag : Nat) (o : RemOp) : (s.setOp r tag o).arbs = s.arbs := rfl
@[simp] theorem State.setOp_txq (r tag : Nat) (o : RemOp) : (s.setOp r tag o).txq = s.txq := rfl
@[simp] theorem State.setOp_txLinks (r tag : Nat) (o : RemOp) : (s.setOp r tag o).txLinks = s.txLinks := rfl
@[simp] theorem State.setOp_rxLinks (r tag : Nat) (o : RemOp) : (s.setOp r tag o).rxLinks = s.rxLinks := rfl
@[simp] theorem State.setOp_ingests (r tag : Nat) (o : RemOp) : (s.setOp r tag o).ingests = s.ingests := rfl
@[simp] theorem State.setOp_rings (r tag : Nat) (o : RemOp) : (s.setOp r tag o).rings = s.rings := rfl
@[simp] theorem State.setOp_lattices (r tag : Nat) (o : RemOp) : (s.setOp r tag o).lattices = s.lattices := rfl
@[simp] theorem State.setOp_lanes (r tag : Nat) (o : RemOp) : (s.setOp r tag o).lanes = s.lanes := rfl
@[simp] theorem State.setOp_frames (r tag : Nat) (o : RemOp) : (s.setOp r tag o).frames = s.frames := rfl
@[simp] theorem State.setOp_d2d (r tag : Nat) (o : RemOp) : (s.setOp r tag o).d2d = s.d2d := rfl
@[simp] theorem State.setOp_times (r tag : Nat) (o : RemOp) : (s.setOp r tag o).times = s.times := rfl
@[simp] theorem State.setOp_atomSeq (r tag : Nat) (o : RemOp) : (s.setOp r tag o).atomSeq = s.atomSeq := rfl
@[simp] theorem State.setOp_cache (r tag : Nat) (o : RemOp) : (s.setOp r tag o).cache = s.cache := rfl
@[simp] theorem State.setOp_invs (r tag : Nat) (o : RemOp) : (s.setOp r tag o).invs = s.invs := rfl
@[simp] theorem State.setOp_fetches (r tag : Nat) (o : RemOp) : (s.setOp r tag o).fetches = s.fetches := rfl
@[simp] theorem State.setOp_lockEnd (r tag : Nat) (o : RemOp) : (s.setOp r tag o).lockEnd = s.lockEnd := rfl
@[simp] theorem State.setOp_prevEpoch (r tag : Nat) (o : RemOp) : (s.setOp r tag o).prevEpoch = s.prevEpoch := rfl
@[simp] theorem State.setOp_boundary (r tag : Nat) (o : RemOp) : (s.setOp r tag o).boundary = s.boundary := rfl
@[simp] theorem State.setOp_onyx (r tag : Nat) (o : RemOp) : (s.setOp r tag o).onyx = s.onyx := rfl
@[simp] theorem State.setOp_cal (r tag : Nat) (o : RemOp) : (s.setOp r tag o).cal = s.cal := rfl
@[simp] theorem State.setOp_shards (r tag : Nat) (o : RemOp) : (s.setOp r tag o).shards = s.shards := rfl
@[simp] theorem State.setOp_egress (r tag : Nat) (o : RemOp) : (s.setOp r tag o).egress = s.egress := rfl
@[simp] theorem State.setOp_ratios (r tag : Nat) (o : RemOp) : (s.setOp r tag o).ratios = s.ratios := rfl
@[simp] theorem State.setOp_mesh (r tag : Nat) (o : RemOp) : (s.setOp r tag o).mesh = s.mesh := rfl
@[simp] theorem State.setOp_deskews (r tag : Nat) (o : RemOp) : (s.setOp r tag o).deskews = s.deskews := rfl
@[simp] theorem State.setOp_adapts (r tag : Nat) (o : RemOp) : (s.setOp r tag o).adapts = s.adapts := rfl
@[simp] theorem State.setOp_out (r tag : Nat) (o : RemOp) : (s.setOp r tag o).out = s.out := rfl
@[simp] theorem State.dropOp_pending (r tag : Nat) : (s.dropOp r tag).pending = s.pending := rfl
@[simp] theorem State.dropOp_dev (r tag : Nat) : (s.dropOp r tag).dev = s.dev := rfl
@[simp] theorem State.dropOp_now (r tag : Nat) : (s.dropOp r tag).now = s.now := rfl
@[simp] theorem State.dropOp_clk (r tag : Nat) : (s.dropOp r tag).clk = s.clk := rfl
@[simp] theorem State.dropOp_fresh (r tag : Nat) : (s.dropOp r tag).fresh = s.fresh := rfl
@[simp] theorem State.dropOp_freeCtr (r tag : Nat) : (s.dropOp r tag).freeCtr = s.freeCtr := rfl
@[simp] theorem State.dropOp_fuses (r tag : Nat) : (s.dropOp r tag).fuses = s.fuses := rfl
@[simp] theorem State.dropOp_pins (r tag : Nat) : (s.dropOp r tag).pins = s.pins := rfl
@[simp] theorem State.dropOp_store (r tag : Nat) : (s.dropOp r tag).store = s.store := rfl
@[simp] theorem State.dropOp_start (r tag : Nat) : (s.dropOp r tag).start = s.start := rfl
@[simp] theorem State.dropOp_regs (r tag : Nat) : (s.dropOp r tag).regs = s.regs := rfl
@[simp] theorem State.dropOp_mem (r tag : Nat) : (s.dropOp r tag).mem = s.mem := rfl
@[simp] theorem State.dropOp_marks (r tag : Nat) : (s.dropOp r tag).marks = s.marks := rfl
@[simp] theorem State.dropOp_cores (r tag : Nat) : (s.dropOp r tag).cores = s.cores := rfl
@[simp] theorem State.dropOp_engines (r tag : Nat) : (s.dropOp r tag).engines = s.engines := rfl
@[simp] theorem State.dropOp_towers (r tag : Nat) : (s.dropOp r tag).towers = s.towers := rfl
@[simp] theorem State.dropOp_trees (r tag : Nat) : (s.dropOp r tag).trees = s.trees := rfl
@[simp] theorem State.dropOp_arbs (r tag : Nat) : (s.dropOp r tag).arbs = s.arbs := rfl
@[simp] theorem State.dropOp_txq (r tag : Nat) : (s.dropOp r tag).txq = s.txq := rfl
@[simp] theorem State.dropOp_txLinks (r tag : Nat) : (s.dropOp r tag).txLinks = s.txLinks := rfl
@[simp] theorem State.dropOp_rxLinks (r tag : Nat) : (s.dropOp r tag).rxLinks = s.rxLinks := rfl
@[simp] theorem State.dropOp_ingests (r tag : Nat) : (s.dropOp r tag).ingests = s.ingests := rfl
@[simp] theorem State.dropOp_rings (r tag : Nat) : (s.dropOp r tag).rings = s.rings := rfl
@[simp] theorem State.dropOp_lattices (r tag : Nat) : (s.dropOp r tag).lattices = s.lattices := rfl
@[simp] theorem State.dropOp_lanes (r tag : Nat) : (s.dropOp r tag).lanes = s.lanes := rfl
@[simp] theorem State.dropOp_frames (r tag : Nat) : (s.dropOp r tag).frames = s.frames := rfl
@[simp] theorem State.dropOp_d2d (r tag : Nat) : (s.dropOp r tag).d2d = s.d2d := rfl
@[simp] theorem State.dropOp_times (r tag : Nat) : (s.dropOp r tag).times = s.times := rfl
@[simp] theorem State.dropOp_atomSeq (r tag : Nat) : (s.dropOp r tag).atomSeq = s.atomSeq := rfl
@[simp] theorem State.dropOp_cache (r tag : Nat) : (s.dropOp r tag).cache = s.cache := rfl
@[simp] theorem State.dropOp_invs (r tag : Nat) : (s.dropOp r tag).invs = s.invs := rfl
@[simp] theorem State.dropOp_fetches (r tag : Nat) : (s.dropOp r tag).fetches = s.fetches := rfl
@[simp] theorem State.dropOp_lockEnd (r tag : Nat) : (s.dropOp r tag).lockEnd = s.lockEnd := rfl
@[simp] theorem State.dropOp_prevEpoch (r tag : Nat) : (s.dropOp r tag).prevEpoch = s.prevEpoch := rfl
@[simp] theorem State.dropOp_boundary (r tag : Nat) : (s.dropOp r tag).boundary = s.boundary := rfl
@[simp] theorem State.dropOp_onyx (r tag : Nat) : (s.dropOp r tag).onyx = s.onyx := rfl
@[simp] theorem State.dropOp_cal (r tag : Nat) : (s.dropOp r tag).cal = s.cal := rfl
@[simp] theorem State.dropOp_shards (r tag : Nat) : (s.dropOp r tag).shards = s.shards := rfl
@[simp] theorem State.dropOp_egress (r tag : Nat) : (s.dropOp r tag).egress = s.egress := rfl
@[simp] theorem State.dropOp_ratios (r tag : Nat) : (s.dropOp r tag).ratios = s.ratios := rfl
@[simp] theorem State.dropOp_mesh (r tag : Nat) : (s.dropOp r tag).mesh = s.mesh := rfl
@[simp] theorem State.dropOp_deskews (r tag : Nat) : (s.dropOp r tag).deskews = s.deskews := rfl
@[simp] theorem State.dropOp_adapts (r tag : Nat) : (s.dropOp r tag).adapts = s.adapts := rfl
@[simp] theorem State.dropOp_out (r tag : Nat) : (s.dropOp r tag).out = s.out := rfl
@[simp] theorem State.setCal_pending (cls tile index : Nat) (v : Int) : (s.setCal cls tile index v).pending = s.pending := rfl
@[simp] theorem State.setCal_dev (cls tile index : Nat) (v : Int) : (s.setCal cls tile index v).dev = s.dev := rfl
@[simp] theorem State.setCal_now (cls tile index : Nat) (v : Int) : (s.setCal cls tile index v).now = s.now := rfl
@[simp] theorem State.setCal_clk (cls tile index : Nat) (v : Int) : (s.setCal cls tile index v).clk = s.clk := rfl
@[simp] theorem State.setCal_fresh (cls tile index : Nat) (v : Int) : (s.setCal cls tile index v).fresh = s.fresh := rfl
@[simp] theorem State.setCal_freeCtr (cls tile index : Nat) (v : Int) : (s.setCal cls tile index v).freeCtr = s.freeCtr := rfl
@[simp] theorem State.setCal_fuses (cls tile index : Nat) (v : Int) : (s.setCal cls tile index v).fuses = s.fuses := rfl
@[simp] theorem State.setCal_pins (cls tile index : Nat) (v : Int) : (s.setCal cls tile index v).pins = s.pins := rfl
@[simp] theorem State.setCal_store (cls tile index : Nat) (v : Int) : (s.setCal cls tile index v).store = s.store := rfl
@[simp] theorem State.setCal_start (cls tile index : Nat) (v : Int) : (s.setCal cls tile index v).start = s.start := rfl
@[simp] theorem State.setCal_regs (cls tile index : Nat) (v : Int) : (s.setCal cls tile index v).regs = s.regs := rfl
@[simp] theorem State.setCal_mem (cls tile index : Nat) (v : Int) : (s.setCal cls tile index v).mem = s.mem := rfl
@[simp] theorem State.setCal_marks (cls tile index : Nat) (v : Int) : (s.setCal cls tile index v).marks = s.marks := rfl
@[simp] theorem State.setCal_cores (cls tile index : Nat) (v : Int) : (s.setCal cls tile index v).cores = s.cores := rfl
@[simp] theorem State.setCal_engines (cls tile index : Nat) (v : Int) : (s.setCal cls tile index v).engines = s.engines := rfl
@[simp] theorem State.setCal_towers (cls tile index : Nat) (v : Int) : (s.setCal cls tile index v).towers = s.towers := rfl
@[simp] theorem State.setCal_trees (cls tile index : Nat) (v : Int) : (s.setCal cls tile index v).trees = s.trees := rfl
@[simp] theorem State.setCal_arbs (cls tile index : Nat) (v : Int) : (s.setCal cls tile index v).arbs = s.arbs := rfl
@[simp] theorem State.setCal_txq (cls tile index : Nat) (v : Int) : (s.setCal cls tile index v).txq = s.txq := rfl
@[simp] theorem State.setCal_txLinks (cls tile index : Nat) (v : Int) : (s.setCal cls tile index v).txLinks = s.txLinks := rfl
@[simp] theorem State.setCal_rxLinks (cls tile index : Nat) (v : Int) : (s.setCal cls tile index v).rxLinks = s.rxLinks := rfl
@[simp] theorem State.setCal_ingests (cls tile index : Nat) (v : Int) : (s.setCal cls tile index v).ingests = s.ingests := rfl
@[simp] theorem State.setCal_rings (cls tile index : Nat) (v : Int) : (s.setCal cls tile index v).rings = s.rings := rfl
@[simp] theorem State.setCal_lattices (cls tile index : Nat) (v : Int) : (s.setCal cls tile index v).lattices = s.lattices := rfl
@[simp] theorem State.setCal_lanes (cls tile index : Nat) (v : Int) : (s.setCal cls tile index v).lanes = s.lanes := rfl
@[simp] theorem State.setCal_frames (cls tile index : Nat) (v : Int) : (s.setCal cls tile index v).frames = s.frames := rfl
@[simp] theorem State.setCal_d2d (cls tile index : Nat) (v : Int) : (s.setCal cls tile index v).d2d = s.d2d := rfl
@[simp] theorem State.setCal_times (cls tile index : Nat) (v : Int) : (s.setCal cls tile index v).times = s.times := rfl
@[simp] theorem State.setCal_ops (cls tile index : Nat) (v : Int) : (s.setCal cls tile index v).ops = s.ops := rfl
@[simp] theorem State.setCal_atomSeq (cls tile index : Nat) (v : Int) : (s.setCal cls tile index v).atomSeq = s.atomSeq := rfl
@[simp] theorem State.setCal_cache (cls tile index : Nat) (v : Int) : (s.setCal cls tile index v).cache = s.cache := rfl
@[simp] theorem State.setCal_invs (cls tile index : Nat) (v : Int) : (s.setCal cls tile index v).invs = s.invs := rfl
@[simp] theorem State.setCal_fetches (cls tile index : Nat) (v : Int) : (s.setCal cls tile index v).fetches = s.fetches := rfl
@[simp] theorem State.setCal_lockEnd (cls tile index : Nat) (v : Int) : (s.setCal cls tile index v).lockEnd = s.lockEnd := rfl
@[simp] theorem State.setCal_prevEpoch (cls tile index : Nat) (v : Int) : (s.setCal cls tile index v).prevEpoch = s.prevEpoch := rfl
@[simp] theorem State.setCal_boundary (cls tile index : Nat) (v : Int) : (s.setCal cls tile index v).boundary = s.boundary := rfl
@[simp] theorem State.setCal_onyx (cls tile index : Nat) (v : Int) : (s.setCal cls tile index v).onyx = s.onyx := rfl
@[simp] theorem State.setCal_shards (cls tile index : Nat) (v : Int) : (s.setCal cls tile index v).shards = s.shards := rfl
@[simp] theorem State.setCal_egress (cls tile index : Nat) (v : Int) : (s.setCal cls tile index v).egress = s.egress := rfl
@[simp] theorem State.setCal_ratios (cls tile index : Nat) (v : Int) : (s.setCal cls tile index v).ratios = s.ratios := rfl
@[simp] theorem State.setCal_mesh (cls tile index : Nat) (v : Int) : (s.setCal cls tile index v).mesh = s.mesh := rfl
@[simp] theorem State.setCal_deskews (cls tile index : Nat) (v : Int) : (s.setCal cls tile index v).deskews = s.deskews := rfl
@[simp] theorem State.setCal_adapts (cls tile index : Nat) (v : Int) : (s.setCal cls tile index v).adapts = s.adapts := rfl
@[simp] theorem State.setCal_out (cls tile index : Nat) (v : Int) : (s.setCal cls tile index v).out = s.out := rfl
@[simp] theorem State.setWorms_pending (c p : Nat) (l : List Worm) : (s.setWorms c p l).pending = s.pending := rfl
@[simp] theorem State.setWorms_dev (c p : Nat) (l : List Worm) : (s.setWorms c p l).dev = s.dev := rfl
@[simp] theorem State.setWorms_now (c p : Nat) (l : List Worm) : (s.setWorms c p l).now = s.now := rfl
@[simp] theorem State.setWorms_clk (c p : Nat) (l : List Worm) : (s.setWorms c p l).clk = s.clk := rfl
@[simp] theorem State.setWorms_fresh (c p : Nat) (l : List Worm) : (s.setWorms c p l).fresh = s.fresh := rfl
@[simp] theorem State.setWorms_freeCtr (c p : Nat) (l : List Worm) : (s.setWorms c p l).freeCtr = s.freeCtr := rfl
@[simp] theorem State.setWorms_fuses (c p : Nat) (l : List Worm) : (s.setWorms c p l).fuses = s.fuses := rfl
@[simp] theorem State.setWorms_pins (c p : Nat) (l : List Worm) : (s.setWorms c p l).pins = s.pins := rfl
@[simp] theorem State.setWorms_store (c p : Nat) (l : List Worm) : (s.setWorms c p l).store = s.store := rfl
@[simp] theorem State.setWorms_start (c p : Nat) (l : List Worm) : (s.setWorms c p l).start = s.start := rfl
@[simp] theorem State.setWorms_regs (c p : Nat) (l : List Worm) : (s.setWorms c p l).regs = s.regs := rfl
@[simp] theorem State.setWorms_mem (c p : Nat) (l : List Worm) : (s.setWorms c p l).mem = s.mem := rfl
@[simp] theorem State.setWorms_marks (c p : Nat) (l : List Worm) : (s.setWorms c p l).marks = s.marks := rfl
@[simp] theorem State.setWorms_cores (c p : Nat) (l : List Worm) : (s.setWorms c p l).cores = s.cores := rfl
@[simp] theorem State.setWorms_engines (c p : Nat) (l : List Worm) : (s.setWorms c p l).engines = s.engines := rfl
@[simp] theorem State.setWorms_towers (c p : Nat) (l : List Worm) : (s.setWorms c p l).towers = s.towers := rfl
@[simp] theorem State.setWorms_trees (c p : Nat) (l : List Worm) : (s.setWorms c p l).trees = s.trees := rfl
@[simp] theorem State.setWorms_arbs (c p : Nat) (l : List Worm) : (s.setWorms c p l).arbs = s.arbs := rfl
@[simp] theorem State.setWorms_txq (c p : Nat) (l : List Worm) : (s.setWorms c p l).txq = s.txq := rfl
@[simp] theorem State.setWorms_txLinks (c p : Nat) (l : List Worm) : (s.setWorms c p l).txLinks = s.txLinks := rfl
@[simp] theorem State.setWorms_rxLinks (c p : Nat) (l : List Worm) : (s.setWorms c p l).rxLinks = s.rxLinks := rfl
@[simp] theorem State.setWorms_ingests (c p : Nat) (l : List Worm) : (s.setWorms c p l).ingests = s.ingests := rfl
@[simp] theorem State.setWorms_rings (c p : Nat) (l : List Worm) : (s.setWorms c p l).rings = s.rings := rfl
@[simp] theorem State.setWorms_lattices (c p : Nat) (l : List Worm) : (s.setWorms c p l).lattices = s.lattices := rfl
@[simp] theorem State.setWorms_lanes (c p : Nat) (l : List Worm) : (s.setWorms c p l).lanes = s.lanes := rfl
@[simp] theorem State.setWorms_frames (c p : Nat) (l : List Worm) : (s.setWorms c p l).frames = s.frames := rfl
@[simp] theorem State.setWorms_d2d (c p : Nat) (l : List Worm) : (s.setWorms c p l).d2d = s.d2d := rfl
@[simp] theorem State.setWorms_times (c p : Nat) (l : List Worm) : (s.setWorms c p l).times = s.times := rfl
@[simp] theorem State.setWorms_ops (c p : Nat) (l : List Worm) : (s.setWorms c p l).ops = s.ops := rfl
@[simp] theorem State.setWorms_atomSeq (c p : Nat) (l : List Worm) : (s.setWorms c p l).atomSeq = s.atomSeq := rfl
@[simp] theorem State.setWorms_cache (c p : Nat) (l : List Worm) : (s.setWorms c p l).cache = s.cache := rfl
@[simp] theorem State.setWorms_invs (c p : Nat) (l : List Worm) : (s.setWorms c p l).invs = s.invs := rfl
@[simp] theorem State.setWorms_fetches (c p : Nat) (l : List Worm) : (s.setWorms c p l).fetches = s.fetches := rfl
@[simp] theorem State.setWorms_lockEnd (c p : Nat) (l : List Worm) : (s.setWorms c p l).lockEnd = s.lockEnd := rfl
@[simp] theorem State.setWorms_prevEpoch (c p : Nat) (l : List Worm) : (s.setWorms c p l).prevEpoch = s.prevEpoch := rfl
@[simp] theorem State.setWorms_boundary (c p : Nat) (l : List Worm) : (s.setWorms c p l).boundary = s.boundary := rfl
@[simp] theorem State.setWorms_onyx (c p : Nat) (l : List Worm) : (s.setWorms c p l).onyx = s.onyx := rfl
@[simp] theorem State.setWorms_cal (c p : Nat) (l : List Worm) : (s.setWorms c p l).cal = s.cal := rfl
@[simp] theorem State.setWorms_shards (c p : Nat) (l : List Worm) : (s.setWorms c p l).shards = s.shards := rfl
@[simp] theorem State.setWorms_egress (c p : Nat) (l : List Worm) : (s.setWorms c p l).egress = s.egress := rfl
@[simp] theorem State.setWorms_ratios (c p : Nat) (l : List Worm) : (s.setWorms c p l).ratios = s.ratios := rfl
@[simp] theorem State.setWorms_deskews (c p : Nat) (l : List Worm) : (s.setWorms c p l).deskews = s.deskews := rfl
@[simp] theorem State.setWorms_adapts (c p : Nat) (l : List Worm) : (s.setWorms c p l).adapts = s.adapts := rfl
@[simp] theorem State.setWorms_out (c p : Nat) (l : List Worm) : (s.setWorms c p l).out = s.out := rfl
@[simp] theorem State.emit_pending (e : Emit) : (s.emit e).pending = s.pending := rfl
@[simp] theorem State.emit_dev (e : Emit) : (s.emit e).dev = s.dev := rfl
@[simp] theorem State.emit_now (e : Emit) : (s.emit e).now = s.now := rfl
@[simp] theorem State.emit_clk (e : Emit) : (s.emit e).clk = s.clk := rfl
@[simp] theorem State.emit_fresh (e : Emit) : (s.emit e).fresh = s.fresh := rfl
@[simp] theorem State.emit_freeCtr (e : Emit) : (s.emit e).freeCtr = s.freeCtr := rfl
@[simp] theorem State.emit_fuses (e : Emit) : (s.emit e).fuses = s.fuses := rfl
@[simp] theorem State.emit_pins (e : Emit) : (s.emit e).pins = s.pins := rfl
@[simp] theorem State.emit_store (e : Emit) : (s.emit e).store = s.store := rfl
@[simp] theorem State.emit_start (e : Emit) : (s.emit e).start = s.start := rfl
@[simp] theorem State.emit_regs (e : Emit) : (s.emit e).regs = s.regs := rfl
@[simp] theorem State.emit_mem (e : Emit) : (s.emit e).mem = s.mem := rfl
@[simp] theorem State.emit_marks (e : Emit) : (s.emit e).marks = s.marks := rfl
@[simp] theorem State.emit_cores (e : Emit) : (s.emit e).cores = s.cores := rfl
@[simp] theorem State.emit_engines (e : Emit) : (s.emit e).engines = s.engines := rfl
@[simp] theorem State.emit_towers (e : Emit) : (s.emit e).towers = s.towers := rfl
@[simp] theorem State.emit_trees (e : Emit) : (s.emit e).trees = s.trees := rfl
@[simp] theorem State.emit_arbs (e : Emit) : (s.emit e).arbs = s.arbs := rfl
@[simp] theorem State.emit_txq (e : Emit) : (s.emit e).txq = s.txq := rfl
@[simp] theorem State.emit_txLinks (e : Emit) : (s.emit e).txLinks = s.txLinks := rfl
@[simp] theorem State.emit_rxLinks (e : Emit) : (s.emit e).rxLinks = s.rxLinks := rfl
@[simp] theorem State.emit_ingests (e : Emit) : (s.emit e).ingests = s.ingests := rfl
@[simp] theorem State.emit_rings (e : Emit) : (s.emit e).rings = s.rings := rfl
@[simp] theorem State.emit_lattices (e : Emit) : (s.emit e).lattices = s.lattices := rfl
@[simp] theorem State.emit_lanes (e : Emit) : (s.emit e).lanes = s.lanes := rfl
@[simp] theorem State.emit_frames (e : Emit) : (s.emit e).frames = s.frames := rfl
@[simp] theorem State.emit_d2d (e : Emit) : (s.emit e).d2d = s.d2d := rfl
@[simp] theorem State.emit_times (e : Emit) : (s.emit e).times = s.times := rfl
@[simp] theorem State.emit_ops (e : Emit) : (s.emit e).ops = s.ops := rfl
@[simp] theorem State.emit_atomSeq (e : Emit) : (s.emit e).atomSeq = s.atomSeq := rfl
@[simp] theorem State.emit_cache (e : Emit) : (s.emit e).cache = s.cache := rfl
@[simp] theorem State.emit_invs (e : Emit) : (s.emit e).invs = s.invs := rfl
@[simp] theorem State.emit_fetches (e : Emit) : (s.emit e).fetches = s.fetches := rfl
@[simp] theorem State.emit_lockEnd (e : Emit) : (s.emit e).lockEnd = s.lockEnd := rfl
@[simp] theorem State.emit_prevEpoch (e : Emit) : (s.emit e).prevEpoch = s.prevEpoch := rfl
@[simp] theorem State.emit_boundary (e : Emit) : (s.emit e).boundary = s.boundary := rfl
@[simp] theorem State.emit_onyx (e : Emit) : (s.emit e).onyx = s.onyx := rfl
@[simp] theorem State.emit_cal (e : Emit) : (s.emit e).cal = s.cal := rfl
@[simp] theorem State.emit_shards (e : Emit) : (s.emit e).shards = s.shards := rfl
@[simp] theorem State.emit_egress (e : Emit) : (s.emit e).egress = s.egress := rfl
@[simp] theorem State.emit_ratios (e : Emit) : (s.emit e).ratios = s.ratios := rfl
@[simp] theorem State.emit_mesh (e : Emit) : (s.emit e).mesh = s.mesh := rfl
@[simp] theorem State.emit_deskews (e : Emit) : (s.emit e).deskews = s.deskews := rfl
@[simp] theorem State.emit_adapts (e : Emit) : (s.emit e).adapts = s.adapts := rfl
@[simp] theorem State.at_pending (t : At) : (s.at t).pending = s.pending := rfl
@[simp] theorem State.at_dev (t : At) : (s.at t).dev = s.dev := rfl
@[simp] theorem State.at_fresh (t : At) : (s.at t).fresh = s.fresh := rfl
@[simp] theorem State.at_freeCtr (t : At) : (s.at t).freeCtr = s.freeCtr := rfl
@[simp] theorem State.at_fuses (t : At) : (s.at t).fuses = s.fuses := rfl
@[simp] theorem State.at_pins (t : At) : (s.at t).pins = s.pins := rfl
@[simp] theorem State.at_store (t : At) : (s.at t).store = s.store := rfl
@[simp] theorem State.at_start (t : At) : (s.at t).start = s.start := rfl
@[simp] theorem State.at_regs (t : At) : (s.at t).regs = s.regs := rfl
@[simp] theorem State.at_mem (t : At) : (s.at t).mem = s.mem := rfl
@[simp] theorem State.at_marks (t : At) : (s.at t).marks = s.marks := rfl
@[simp] theorem State.at_cores (t : At) : (s.at t).cores = s.cores := rfl
@[simp] theorem State.at_engines (t : At) : (s.at t).engines = s.engines := rfl
@[simp] theorem State.at_towers (t : At) : (s.at t).towers = s.towers := rfl
@[simp] theorem State.at_trees (t : At) : (s.at t).trees = s.trees := rfl
@[simp] theorem State.at_arbs (t : At) : (s.at t).arbs = s.arbs := rfl
@[simp] theorem State.at_txq (t : At) : (s.at t).txq = s.txq := rfl
@[simp] theorem State.at_txLinks (t : At) : (s.at t).txLinks = s.txLinks := rfl
@[simp] theorem State.at_rxLinks (t : At) : (s.at t).rxLinks = s.rxLinks := rfl
@[simp] theorem State.at_ingests (t : At) : (s.at t).ingests = s.ingests := rfl
@[simp] theorem State.at_rings (t : At) : (s.at t).rings = s.rings := rfl
@[simp] theorem State.at_lattices (t : At) : (s.at t).lattices = s.lattices := rfl
@[simp] theorem State.at_lanes (t : At) : (s.at t).lanes = s.lanes := rfl
@[simp] theorem State.at_frames (t : At) : (s.at t).frames = s.frames := rfl
@[simp] theorem State.at_d2d (t : At) : (s.at t).d2d = s.d2d := rfl
@[simp] theorem State.at_times (t : At) : (s.at t).times = s.times := rfl
@[simp] theorem State.at_ops (t : At) : (s.at t).ops = s.ops := rfl
@[simp] theorem State.at_atomSeq (t : At) : (s.at t).atomSeq = s.atomSeq := rfl
@[simp] theorem State.at_cache (t : At) : (s.at t).cache = s.cache := rfl
@[simp] theorem State.at_invs (t : At) : (s.at t).invs = s.invs := rfl
@[simp] theorem State.at_fetches (t : At) : (s.at t).fetches = s.fetches := rfl
@[simp] theorem State.at_lockEnd (t : At) : (s.at t).lockEnd = s.lockEnd := rfl
@[simp] theorem State.at_prevEpoch (t : At) : (s.at t).prevEpoch = s.prevEpoch := rfl
@[simp] theorem State.at_boundary (t : At) : (s.at t).boundary = s.boundary := rfl
@[simp] theorem State.at_onyx (t : At) : (s.at t).onyx = s.onyx := rfl
@[simp] theorem State.at_cal (t : At) : (s.at t).cal = s.cal := rfl
@[simp] theorem State.at_shards (t : At) : (s.at t).shards = s.shards := rfl
@[simp] theorem State.at_egress (t : At) : (s.at t).egress = s.egress := rfl
@[simp] theorem State.at_ratios (t : At) : (s.at t).ratios = s.ratios := rfl
@[simp] theorem State.at_mesh (t : At) : (s.at t).mesh = s.mesh := rfl
@[simp] theorem State.at_deskews (t : At) : (s.at t).deskews = s.deskews := rfl
@[simp] theorem State.at_adapts (t : At) : (s.at t).adapts = s.adapts := rfl
@[simp] theorem State.at_out (t : At) : (s.at t).out = s.out := rfl
@[simp] theorem State.raiseBit_pending (a : Nat) (f : Fld) : (s.raiseBit a f).pending = s.pending := rfl
@[simp] theorem State.raiseBit_dev (a : Nat) (f : Fld) : (s.raiseBit a f).dev = s.dev := rfl
@[simp] theorem State.raiseBit_now (a : Nat) (f : Fld) : (s.raiseBit a f).now = s.now := rfl
@[simp] theorem State.raiseBit_clk (a : Nat) (f : Fld) : (s.raiseBit a f).clk = s.clk := rfl
@[simp] theorem State.raiseBit_freeCtr (a : Nat) (f : Fld) : (s.raiseBit a f).freeCtr = s.freeCtr := rfl
@[simp] theorem State.raiseBit_fuses (a : Nat) (f : Fld) : (s.raiseBit a f).fuses = s.fuses := rfl
@[simp] theorem State.raiseBit_pins (a : Nat) (f : Fld) : (s.raiseBit a f).pins = s.pins := rfl
@[simp] theorem State.raiseBit_store (a : Nat) (f : Fld) : (s.raiseBit a f).store = s.store := rfl
@[simp] theorem State.raiseBit_start (a : Nat) (f : Fld) : (s.raiseBit a f).start = s.start := rfl
@[simp] theorem State.raiseBit_mem (a : Nat) (f : Fld) : (s.raiseBit a f).mem = s.mem := rfl
@[simp] theorem State.raiseBit_marks (a : Nat) (f : Fld) : (s.raiseBit a f).marks = s.marks := rfl
@[simp] theorem State.raiseBit_cores (a : Nat) (f : Fld) : (s.raiseBit a f).cores = s.cores := rfl
@[simp] theorem State.raiseBit_engines (a : Nat) (f : Fld) : (s.raiseBit a f).engines = s.engines := rfl
@[simp] theorem State.raiseBit_towers (a : Nat) (f : Fld) : (s.raiseBit a f).towers = s.towers := rfl
@[simp] theorem State.raiseBit_trees (a : Nat) (f : Fld) : (s.raiseBit a f).trees = s.trees := rfl
@[simp] theorem State.raiseBit_arbs (a : Nat) (f : Fld) : (s.raiseBit a f).arbs = s.arbs := rfl
@[simp] theorem State.raiseBit_txq (a : Nat) (f : Fld) : (s.raiseBit a f).txq = s.txq := rfl
@[simp] theorem State.raiseBit_txLinks (a : Nat) (f : Fld) : (s.raiseBit a f).txLinks = s.txLinks := rfl
@[simp] theorem State.raiseBit_rxLinks (a : Nat) (f : Fld) : (s.raiseBit a f).rxLinks = s.rxLinks := rfl
@[simp] theorem State.raiseBit_ingests (a : Nat) (f : Fld) : (s.raiseBit a f).ingests = s.ingests := rfl
@[simp] theorem State.raiseBit_rings (a : Nat) (f : Fld) : (s.raiseBit a f).rings = s.rings := rfl
@[simp] theorem State.raiseBit_lattices (a : Nat) (f : Fld) : (s.raiseBit a f).lattices = s.lattices := rfl
@[simp] theorem State.raiseBit_lanes (a : Nat) (f : Fld) : (s.raiseBit a f).lanes = s.lanes := rfl
@[simp] theorem State.raiseBit_frames (a : Nat) (f : Fld) : (s.raiseBit a f).frames = s.frames := rfl
@[simp] theorem State.raiseBit_d2d (a : Nat) (f : Fld) : (s.raiseBit a f).d2d = s.d2d := rfl
@[simp] theorem State.raiseBit_times (a : Nat) (f : Fld) : (s.raiseBit a f).times = s.times := rfl
@[simp] theorem State.raiseBit_ops (a : Nat) (f : Fld) : (s.raiseBit a f).ops = s.ops := rfl
@[simp] theorem State.raiseBit_atomSeq (a : Nat) (f : Fld) : (s.raiseBit a f).atomSeq = s.atomSeq := rfl
@[simp] theorem State.raiseBit_cache (a : Nat) (f : Fld) : (s.raiseBit a f).cache = s.cache := rfl
@[simp] theorem State.raiseBit_invs (a : Nat) (f : Fld) : (s.raiseBit a f).invs = s.invs := rfl
@[simp] theorem State.raiseBit_fetches (a : Nat) (f : Fld) : (s.raiseBit a f).fetches = s.fetches := rfl
@[simp] theorem State.raiseBit_lockEnd (a : Nat) (f : Fld) : (s.raiseBit a f).lockEnd = s.lockEnd := rfl
@[simp] theorem State.raiseBit_prevEpoch (a : Nat) (f : Fld) : (s.raiseBit a f).prevEpoch = s.prevEpoch := rfl
@[simp] theorem State.raiseBit_boundary (a : Nat) (f : Fld) : (s.raiseBit a f).boundary = s.boundary := rfl
@[simp] theorem State.raiseBit_onyx (a : Nat) (f : Fld) : (s.raiseBit a f).onyx = s.onyx := rfl
@[simp] theorem State.raiseBit_cal (a : Nat) (f : Fld) : (s.raiseBit a f).cal = s.cal := rfl
@[simp] theorem State.raiseBit_shards (a : Nat) (f : Fld) : (s.raiseBit a f).shards = s.shards := rfl
@[simp] theorem State.raiseBit_egress (a : Nat) (f : Fld) : (s.raiseBit a f).egress = s.egress := rfl
@[simp] theorem State.raiseBit_ratios (a : Nat) (f : Fld) : (s.raiseBit a f).ratios = s.ratios := rfl
@[simp] theorem State.raiseBit_mesh (a : Nat) (f : Fld) : (s.raiseBit a f).mesh = s.mesh := rfl
@[simp] theorem State.raiseBit_deskews (a : Nat) (f : Fld) : (s.raiseBit a f).deskews = s.deskews := rfl
@[simp] theorem State.raiseBit_adapts (a : Nat) (f : Fld) : (s.raiseBit a f).adapts = s.adapts := rfl
@[simp] theorem State.raiseBit_out (a : Nat) (f : Fld) : (s.raiseBit a f).out = s.out := rfl
@[simp] theorem State.modCore_pending (c : Nat) (f : Core → Core) : (s.modCore c f).pending = s.pending := rfl
@[simp] theorem State.modCore_dev (c : Nat) (f : Core → Core) : (s.modCore c f).dev = s.dev := rfl
@[simp] theorem State.modCore_now (c : Nat) (f : Core → Core) : (s.modCore c f).now = s.now := rfl
@[simp] theorem State.modCore_clk (c : Nat) (f : Core → Core) : (s.modCore c f).clk = s.clk := rfl
@[simp] theorem State.modCore_fresh (c : Nat) (f : Core → Core) : (s.modCore c f).fresh = s.fresh := rfl
@[simp] theorem State.modCore_freeCtr (c : Nat) (f : Core → Core) : (s.modCore c f).freeCtr = s.freeCtr := rfl
@[simp] theorem State.modCore_fuses (c : Nat) (f : Core → Core) : (s.modCore c f).fuses = s.fuses := rfl
@[simp] theorem State.modCore_pins (c : Nat) (f : Core → Core) : (s.modCore c f).pins = s.pins := rfl
@[simp] theorem State.modCore_store (c : Nat) (f : Core → Core) : (s.modCore c f).store = s.store := rfl
@[simp] theorem State.modCore_start (c : Nat) (f : Core → Core) : (s.modCore c f).start = s.start := rfl
@[simp] theorem State.modCore_regs (c : Nat) (f : Core → Core) : (s.modCore c f).regs = s.regs := rfl
@[simp] theorem State.modCore_mem (c : Nat) (f : Core → Core) : (s.modCore c f).mem = s.mem := rfl
@[simp] theorem State.modCore_marks (c : Nat) (f : Core → Core) : (s.modCore c f).marks = s.marks := rfl
@[simp] theorem State.modCore_engines (c : Nat) (f : Core → Core) : (s.modCore c f).engines = s.engines := rfl
@[simp] theorem State.modCore_towers (c : Nat) (f : Core → Core) : (s.modCore c f).towers = s.towers := rfl
@[simp] theorem State.modCore_trees (c : Nat) (f : Core → Core) : (s.modCore c f).trees = s.trees := rfl
@[simp] theorem State.modCore_arbs (c : Nat) (f : Core → Core) : (s.modCore c f).arbs = s.arbs := rfl
@[simp] theorem State.modCore_txq (c : Nat) (f : Core → Core) : (s.modCore c f).txq = s.txq := rfl
@[simp] theorem State.modCore_txLinks (c : Nat) (f : Core → Core) : (s.modCore c f).txLinks = s.txLinks := rfl
@[simp] theorem State.modCore_rxLinks (c : Nat) (f : Core → Core) : (s.modCore c f).rxLinks = s.rxLinks := rfl
@[simp] theorem State.modCore_ingests (c : Nat) (f : Core → Core) : (s.modCore c f).ingests = s.ingests := rfl
@[simp] theorem State.modCore_rings (c : Nat) (f : Core → Core) : (s.modCore c f).rings = s.rings := rfl
@[simp] theorem State.modCore_lattices (c : Nat) (f : Core → Core) : (s.modCore c f).lattices = s.lattices := rfl
@[simp] theorem State.modCore_lanes (c : Nat) (f : Core → Core) : (s.modCore c f).lanes = s.lanes := rfl
@[simp] theorem State.modCore_frames (c : Nat) (f : Core → Core) : (s.modCore c f).frames = s.frames := rfl
@[simp] theorem State.modCore_d2d (c : Nat) (f : Core → Core) : (s.modCore c f).d2d = s.d2d := rfl
@[simp] theorem State.modCore_times (c : Nat) (f : Core → Core) : (s.modCore c f).times = s.times := rfl
@[simp] theorem State.modCore_ops (c : Nat) (f : Core → Core) : (s.modCore c f).ops = s.ops := rfl
@[simp] theorem State.modCore_atomSeq (c : Nat) (f : Core → Core) : (s.modCore c f).atomSeq = s.atomSeq := rfl
@[simp] theorem State.modCore_cache (c : Nat) (f : Core → Core) : (s.modCore c f).cache = s.cache := rfl
@[simp] theorem State.modCore_invs (c : Nat) (f : Core → Core) : (s.modCore c f).invs = s.invs := rfl
@[simp] theorem State.modCore_fetches (c : Nat) (f : Core → Core) : (s.modCore c f).fetches = s.fetches := rfl
@[simp] theorem State.modCore_lockEnd (c : Nat) (f : Core → Core) : (s.modCore c f).lockEnd = s.lockEnd := rfl
@[simp] theorem State.modCore_prevEpoch (c : Nat) (f : Core → Core) : (s.modCore c f).prevEpoch = s.prevEpoch := rfl
@[simp] theorem State.modCore_boundary (c : Nat) (f : Core → Core) : (s.modCore c f).boundary = s.boundary := rfl
@[simp] theorem State.modCore_onyx (c : Nat) (f : Core → Core) : (s.modCore c f).onyx = s.onyx := rfl
@[simp] theorem State.modCore_cal (c : Nat) (f : Core → Core) : (s.modCore c f).cal = s.cal := rfl
@[simp] theorem State.modCore_shards (c : Nat) (f : Core → Core) : (s.modCore c f).shards = s.shards := rfl
@[simp] theorem State.modCore_egress (c : Nat) (f : Core → Core) : (s.modCore c f).egress = s.egress := rfl
@[simp] theorem State.modCore_ratios (c : Nat) (f : Core → Core) : (s.modCore c f).ratios = s.ratios := rfl
@[simp] theorem State.modCore_mesh (c : Nat) (f : Core → Core) : (s.modCore c f).mesh = s.mesh := rfl
@[simp] theorem State.modCore_deskews (c : Nat) (f : Core → Core) : (s.modCore c f).deskews = s.deskews := rfl
@[simp] theorem State.modCore_adapts (c : Nat) (f : Core → Core) : (s.modCore c f).adapts = s.adapts := rfl
@[simp] theorem State.modCore_out (c : Nat) (f : Core → Core) : (s.modCore c f).out = s.out := rfl

end Sys2Proof.Machine
end

