-- ==== Sys2Proof/Laws/Core.lean ====
section
/-! SUPPORT. What the shared operations of a core's instructions can do: counting, sending a write, issuing. -/

namespace Sys2Proof.Machine

/-! Reading what was written. -/

@[simp] theorem State.rd_wr (s : State) (a : Nat) (v : Word) : (s.wr a v).rd a = v := Sparse.get_set_same _ _ _ _
theorem State.rd_wr_ne (s : State) {a b : Nat} (v : Word) (h : b ≠ a) : (s.wr a v).rd b = s.rd b := Sparse.get_set_ne _ _ _ h
theorem State.rd_putF_ne (s : State) {a b : Nat} (f : Fld) (v : Nat) (h : b ≠ a) : (s.putF a f v).rd b = s.rd b := s.rd_wr_ne _ h
theorem State.rd_putB_ne (s : State) {a b : Nat} (f : Fld) (v : Bool) (h : b ≠ a) : (s.putB a f v).rd b = s.rd b := s.rd_wr_ne _ h
theorem State.rd_bump_ne (s : State) {a b : Nat} (f : Fld) (n : Nat) (h : b ≠ a) : (s.bump a f n).rd b = s.rd b := s.rd_wr_ne _ h
@[simp] theorem State.byte_setByte (s : State) (a : Nat) (b : Byte) : (s.setByte a b).byte a = b := Sparse.get_set_same _ _ _ _
theorem State.byte_setByte_ne (s : State) {a x : Nat} (b : Byte) (h : x ≠ a) : (s.setByte a b).byte x = s.byte x := Sparse.get_set_ne _ _ _ h
@[simp] theorem State.mark_setMark (s : State) (a : Nat) (m : Mark) : (s.setMark a m).mark a = m := Sparse.get_set_same _ _ _ _
theorem State.mark_setMark_ne (s : State) {a x : Nat} (m : Mark) (h : x ≠ a) : (s.setMark a m).mark x = s.mark x := Sparse.get_set_ne _ _ _ h
@[simp] theorem State.core_setCore (s : State) (c : Nat) (k : Core) : (s.setCore c k).core c = k := Sparse.get_set_same _ _ _ _
theorem State.core_setCore_ne (s : State) {c d : Nat} (k : Core) (h : d ≠ c) : (s.setCore c k).core d = s.core d := Sparse.get_set_ne _ _ _ h
@[simp] theorem State.engine_setEngine (s : State) (c e : Nat) (x : Engine) : (s.setEngine c e x).engine c e = x := Sparse.get_set_same _ _ _ _
@[simp] theorem State.tower_setTower (s : State) (t : Nat) (x : Tower) : (s.setTower t x).tower t = x := Sparse.get_set_same _ _ _ _
@[simp] theorem State.tree_setTree (s : State) (t i : Nat) (x : Tree) : (s.setTree t i x).tree t i = x := Sparse.get_set_same _ _ _ _
@[simp] theorem State.lattice_setLattice (s : State) (n : Nat) (x : Lattice) : (s.setLattice n x).lattice n = x := Sparse.get_set_same _ _ _ _
@[simp] theorem State.group_setGroup (s : State) (t g : Nat) (x : D2d) : (s.setGroup t g x).group t g = x := Sparse.get_set_same _ _ _ _
@[simp] theorem State.time_setTime (s : State) (n : Nat) (x : TimeUnit) : (s.setTime n x).time n = x := Sparse.get_set_same _ _ _ _
@[simp] theorem State.tx_setTx (s : State) (l : Link) (x : TxLink) : (s.setTx l x).tx l = x := Sparse.get_set_same _ _ _ _
@[simp] theorem State.rx_setRx (s : State) (l : Link) (r : Nat) (x : RxLink) : (s.setRx l r x).rx l r = x := Sparse.get_set_same _ _ _ _

/-! Memory of many bytes. -/

/-- The byte at an address after a write of bytes from a base: the written one inside, the old one outside. -/
theorem State.byte_setBytes (s : State) (a : Nat) (l : List Byte) (x : Nat) :
    (s.setBytes a l).byte x = if a ≤ x ∧ x < a + l.length then l.getD (x - a) 0 else s.byte x := by
  induction l generalizing s a with
  | nil =>
    have h : ¬ (a ≤ x ∧ x < a + ([] : List Byte).length) := by simp
    rw [if_neg h]; rfl
  | cons b r ih =>
    show ((s.setByte a b).setBytes (a + 1) r).byte x = _
    rw [ih]
    by_cases hx : x = a
    · subst hx
      rw [if_neg (by omega), if_pos (by simp)]
      simp
    · rw [State.byte_setByte_ne _ _ hx]
      by_cases h : a + 1 ≤ x ∧ x < a + 1 + r.length
      · rw [if_pos h, if_pos (by simp only [List.length_cons]; omega)]
        have : x - a = (x - (a + 1)) + 1 := by omega
        rw [this]; rfl
      · rw [if_neg h, if_neg (by simp only [List.length_cons]; omega)]
/-- A write of bytes changes memory alone. -/
theorem State.setBytes_only (s : State) (a : Nat) (l : List Byte) : s.setBytes a l = { s with mem := (s.setBytes a l).mem } := by
  induction l generalizing s a with
  | nil => rfl
  | cons b r ih =>
    show (s.setByte a b).setBytes (a + 1) r = _
    rw [ih]; rfl
/-- Setting marks changes marks alone. -/
theorem State.setMarks_only (s : State) (m : Mark) (l : List Nat) : s.setMarks m l = { s with marks := (s.setMarks m l).marks } := by
  induction l generalizing s with
  | nil => rfl
  | cons b r ih =>
    show (s.setMark b m).setMarks m r = _
    rw [ih]; rfl
@[simp] theorem State.setBytes_marks (s : State) (a : Nat) (l : List Byte) : (s.setBytes a l).marks = s.marks := by rw [State.setBytes_only]
@[simp] theorem State.setBytes_regs (s : State) (a : Nat) (l : List Byte) : (s.setBytes a l).regs = s.regs := by rw [State.setBytes_only]
@[simp] theorem State.setBytes_cores (s : State) (a : Nat) (l : List Byte) : (s.setBytes a l).cores = s.cores := by rw [State.setBytes_only]
@[simp] theorem State.setMarks_mem (s : State) (m : Mark) (l : List Nat) : (s.setMarks m l).mem = s.mem := by rw [State.setMarks_only]
@[simp] theorem State.setMarks_regs (s : State) (m : Mark) (l : List Nat) : (s.setMarks m l).regs = s.regs := by rw [State.setMarks_only]
@[simp] theorem State.setMarks_cores (s : State) (m : Mark) (l : List Nat) : (s.setMarks m l).cores = s.cores := by rw [State.setMarks_only]

/-! Counting. -/

theorem Counts.refl (s : State) (c : Nat) : Counts s s c := ⟨rfl, fun _ _ => rfl⟩
theorem Counts.trans {s u v : State} {c : Nat} (h : Counts s u c) (k : Counts u v c) : Counts s v c := by
  refine ⟨?_, fun a ha => (k.2 a ha).trans (h.2 a ha)⟩
  have h1 := k.1
  rw [h.1] at h1
  exact h1
theorem Counts.mem {s u : State} {c : Nat} (h : Counts s u c) : u.mem = s.mem := by rw [h.1]
theorem Counts.putF {s u : State} {c i : Nat} (f : Fld) (v : Nat) (hi : i < 8) (h : Counts s u c) :
    Counts s (u.putF (Reg.corePmc c i) f v) c := by
  refine h.trans ⟨rfl, fun a ha => State.rd_wr_ne _ _ ?_⟩
  rintro rfl
  exact ha (List.mem_map.2 ⟨i, List.mem_range.2 hi, rfl⟩)
theorem Counts.raiseBit {s u : State} {c i : Nat} (f : Fld) (hi : i < 8) (h : Counts s u c) :
    Counts s (u.raiseBit (Reg.corePmc c i) f) c := by
  refine h.trans ⟨rfl, fun a ha => State.rd_wr_ne _ _ ?_⟩
  rintro rfl
  exact ha (List.mem_map.2 ⟨i, List.mem_range.2 hi, rfl⟩)
/-- Counting an event of a core changes its performance counters alone. -/
theorem State.pmcCore_counts (s : State) (c event n : Nat) : Counts s (s.pmcCore c event n) c := by
  have key : ∀ m, m ≤ 8 → ∀ b, Counts s (s.pmcAt (corePmcSel c) (Reg.corePmc c) event n m b) c := by
    intro m
    induction m with
    | zero => intro _ b; exact Counts.refl s c
    | succ k ih =>
      intro hm b
      have h := ih (by omega) false
      unfold State.pmcAt
      dsimp only
      generalize s.pmcAt (corePmcSel c) (Reg.corePmc c) event n k false = u at h ⊢
      split
      · exact h
      · split
        · exact h.putF _ _ (by omega)
        · split
          · have hk : k + 1 < 8 := by
              rename_i hc
              have := hc.1
              omega
            have h3 := ((h.putF F.corePmcCount (u.fld (Reg.corePmc c k) F.corePmcCount + n) (i := k) (by omega)).raiseBit
              F.corePmcOverflow (i := k) (by omega)).putF F.corePmcCount
                (((u.putF (Reg.corePmc c k) F.corePmcCount (u.fld (Reg.corePmc c k) F.corePmcCount + n)).raiseBit (Reg.corePmc c k)
                  F.corePmcOverflow).fld (Reg.corePmc c (k + 1)) F.corePmcCount + 1) (i := k + 1) hk
            split
            · exact h3
            · exact h3.raiseBit _ hk
          · exact (h.putF _ _ (by omega)).raiseBit _ (by omega)
  unfold State.pmcCore
  split
  · exact key 8 (by omega) false
  · exact Counts.refl s c
theorem State.ran_counts (s : State) (c : Nat) : Counts s (s.ran c) c := s.pmcCore_counts c 0x002 1

/-! The canonical form of memory. -/

theorem State.setByte_memWf (s : State) (a : Nat) (b : Byte) (h : memWf s.mem = true) : memWf (s.setByte a b).mem = true :=
  Sparse.wf_set _ _ _ _ h
theorem State.setBytes_memWf (s : State) (a : Nat) (l : List Byte) (h : memWf s.mem = true) : memWf (s.setBytes a l).mem = true := by
  induction l generalizing s a with
  | nil => exact h
  | cons b r ih => exact ih _ _ (s.setByte_memWf a b h)
@[simp] theorem State.unmerge_mem (s : State) (c : Nat) (l : List Nat) : (s.unmerge c l).mem = s.mem := by
  unfold State.unmerge
  dsimp only
  split <;> rfl
@[simp] theorem State.unmergeLines_mem (s : State) (k : Nat) (l : List Nat) : (s.unmergeLines k l).mem = s.mem := by
  unfold State.unmergeLines
  induction l generalizing s with
  | nil => rfl
  | cons x r ih =>
    rw [List.foldl_cons, ih]
    dsimp only
    split <;> rfl
@[simp] theorem State.drainWb_mem (s : State) (c cyc : Nat) : (s.drainWb c cyc).mem = s.mem := by
  unfold State.drainWb
  dsimp only
  split
  · rfl
  · split
    · rfl
    · rw [Counts.mem (State.pmcCore_counts _ _ _ _), Counts.mem (State.pmcCore_counts _ _ _ _)]; simp
/-- A vault write keeps the canonical form, and so do a buffer write and a write at any local address. -/
theorem State.vaultWrite_memWf (s : State) (c off : Nat) (d : List Byte) (p : List Nat) (h : memWf s.mem = true) :
    memWf (s.vaultWrite c off d p).mem = true := by
  unfold State.vaultWrite
  dsimp only
  split <;> simp only [State.setCore_mem, State.unmerge_mem, State.setMarks_mem] <;> exact State.setBytes_memWf _ _ _ (by simpa using h)
theorem State.bufferWrite_memWf (s : State) (c half off : Nat) (d : List Byte) (p : List Nat) (h : memWf s.mem = true) :
    memWf (s.bufferWrite c half off d p).mem = true := by
  unfold State.bufferWrite
  simp only [State.setMarks_mem]
  exact s.setBytes_memWf _ _ h
theorem State.writeAt_memWf (s : State) (a : Nat) (d : List Byte) (p : List Nat) (h : memWf s.mem = true) :
    memWf (s.writeAt a d p).mem = true := by
  unfold State.writeAt
  split
  · exact s.vaultWrite_memWf _ _ _ _ h
  · simp only [State.setMarks_mem]; exact State.setBytes_memWf _ _ _ (by simpa using h)
  · exact h

/-! What stays within one core. -/

theorem OwnCore.refl (s : State) (c : Nat) (but : List Nat) : OwnCore s s c but := ⟨rfl, fun _ _ => rfl, fun _ _ => rfl⟩
theorem OwnCore.trans {s u v : State} {c : Nat} {but : List Nat} (h : OwnCore s u c but) (k : OwnCore u v c but) : OwnCore s v c but := by
  refine ⟨?_, fun d hd => (k.2.1 d hd).trans (h.2.1 d hd), fun a ha => (k.2.2 a ha).trans (h.2.2 a ha)⟩
  have h1 := k.1
  rw [h.1] at h1
  exact h1
theorem Counts.own {s u : State} {c : Nat} (h : Counts s u c) (but : List Nat) : OwnCore s u c but := by
  refine ⟨by rw [h.1], fun d _ => by rw [h.1]; rfl, fun a ha => h.2 a fun hm => ha (List.mem_append_left _ hm)⟩
/-- Replacing the core's record stays within the core. -/
theorem OwnCore.setCore {s u : State} {c : Nat} {but : List Nat} (h : OwnCore s u c but) (k : Core) : OwnCore s (u.setCore c k) c but :=
  h.trans ⟨rfl, fun _ hd => State.core_setCore_ne _ _ hd, fun _ _ => rfl⟩
theorem OwnCore.modCore {s u : State} {c : Nat} {but : List Nat} (h : OwnCore s u c but) (f : Core → Core) : OwnCore s (u.modCore c f) c but :=
  h.setCore _
/-- Writing a listed register stays within the core. -/
theorem OwnCore.wr {s u : State} {c a : Nat} {but : List Nat} (h : OwnCore s u c but) (v : Word) (ha : a ∈ but) : OwnCore s (u.wr a v) c but :=
  h.trans ⟨rfl, fun _ _ => rfl, fun _ hb => State.rd_wr_ne _ _ fun hba => hb (List.mem_append_right _ (hba ▸ ha))⟩
theorem OwnCore.putF {s u : State} {c a : Nat} {but : List Nat} (h : OwnCore s u c but) (f : Fld) (v : Nat) (ha : a ∈ but) :
    OwnCore s (u.putF a f v) c but := h.wr _ ha
theorem OwnCore.bump {s u : State} {c a : Nat} {but : List Nat} (h : OwnCore s u c but) (f : Fld) (n : Nat) (ha : a ∈ but) :
    OwnCore s (u.bump a f n) c but := h.wr _ ha
theorem OwnCore.raise {s u : State} {c a : Nat} {but : List Nat} (h : OwnCore s u c but) (f : Fld) (n : Nat) (ha : a ∈ but) :
    OwnCore s (u.raise a f n) c but := h.wr _ ha
theorem OwnCore.count {s u v : State} {c : Nat} {but : List Nat} (h : OwnCore s u c but) (k : Counts u v c) : OwnCore s v c but :=
  h.trans (k.own but)
theorem OwnCore.sends {s u v : State} {c due pri : Nat} {e : Eff} {but : List Nat} (h : OwnCore s u c but) (k : Sends u v c due pri e) :
    OwnCore s v c but := by
  obtain ⟨n, first, k⟩ := k
  have h2 : OwnCore u { u with freeCtr := n } c but := ⟨rfl, fun _ _ => rfl, fun _ _ => rfl⟩
  exact ((h.trans h2).setCore _).count k
/-- Counting events leaves every core's record alone. -/
theorem Counts.core {s u : State} {c : Nat} (h : Counts s u c) (d : Nat) : u.core d = s.core d := by rw [h.1]; rfl

/-! Fields. -/

/-- A field that was written reads as what fits of the value. -/
theorem Fld.get_put (f : Fld) (w : Word) (v : Nat) (h : f.hi < 64) (hl : f.lo ≤ f.hi) : f.get (f.put w v) = v % 2 ^ f.width := by
  apply Nat.eq_of_testBit_eq
  intro j
  unfold Fld.get Fld.put Fld.mask Fld.max Fld.width
  rw [Nat.testBit_mod_two_pow, Nat.testBit_mod_two_pow, Nat.testBit_div_two_pow]
  by_cases hj : j < f.hi + 1 - f.lo
  · have h64 : j + f.lo < 64 := by omega
    have hb : ((w &&& ~~~BitVec.ofNat 64 ((2 ^ (f.hi + 1 - f.lo) - 1) * 2 ^ f.lo)) |||
        BitVec.ofNat 64 (v % 2 ^ (f.hi + 1 - f.lo) * 2 ^ f.lo)).toNat.testBit (j + f.lo) = v.testBit j := by
      rw [BitVec.testBit_toNat]
      simp only [BitVec.getLsbD_or, BitVec.getLsbD_and, BitVec.getLsbD_not, BitVec.getLsbD_ofNat, h64, decide_true, Bool.true_and,
        Nat.testBit_mul_two_pow, Nat.testBit_two_pow_sub_one, Nat.testBit_mod_two_pow]
      simp [hj]
    rw [hb]
  · simp [hj]
theorem State.fld_putF (s : State) (a : Nat) (f : Fld) (v : Nat) (h : f.hi < 64) (hl : f.lo ≤ f.hi) :
    (s.putF a f v).fld a f = v % 2 ^ f.width := by
  unfold State.fld State.putF
  rw [State.rd_wr, Fld.get_put f _ v h hl]

/-! Sending a write. -/

/-- Sending a write puts it on its way and changes nothing else but the counter of free values. -/
theorem State.send_sends (s : State) (c due pri : Nat) (e : Eff) : Sends s (s.send c due pri e) c due pri e := by
  unfold State.send
  dsimp only
  split
  · exact ⟨s.freeCtr + 1, _, Counts.refl _ c⟩
  · exact ⟨s.freeCtr, false, Counts.refl _ c⟩
theorem Sends.count {s u v : State} {c due pri : Nat} {e : Eff} (h : Sends s u c due pri e) (k : Counts u v c) : Sends s v c due pri e := by
  obtain ⟨n, first, h⟩ := h
  exact ⟨n, first, h.trans k⟩

/-! Issuing. -/

theorem onCore_next {t : At} {c : Nat} {s : State} (f : State → State) (hc : c < Config.cores) (ha : (s.at t).dead = false) :
    onCore t c s f = .next (f (s.toCore t c)) := by
  unfold onCore
  rw [if_pos hc, ha]; rfl
theorem onSlot_next {t : At} {g : Gate} {s : State} (f : Bool → State → State) (h : Issuing t g.core s) :
    onSlot t g s f = .next (f ((s.toCore t g.core).on g) (s.toCore t g.core)) := by
  unfold onSlot
  rw [onCore_next _ h.1 h.2.1, if_pos h.2.2]
theorem whenOn_next {t : At} {g : Gate} {s : State} (f : State → State) (h : Enabled t g s) :
    whenOn t g s f = .next ((f (s.toCore t g.core)).ran g.core) := by
  unfold whenOn
  rw [onSlot_next _ h.1, if_pos h.2]
theorem whenOn_off {t : At} {g : Gate} {s : State} (f : State → State) (h : Disabled t g s) :
    whenOn t g s f = .next (s.toCore t g.core) := by
  unfold whenOn
  rw [onSlot_next _ h.1, h.2]; rfl
theorem always_next {t : At} {c : Nat} {s : State} (f : State → State) (h : Issuing t c s) :
    always t c s f = .next ((f (s.toCore t c)).ran c) := by
  unfold always
  rw [onCore_next _ h.1 h.2.1, if_pos h.2.2]
/-- A scalar result is on its way. -/
theorem scalarTo_sends {t : At} {g : Gate} {s : State} (d lat : Nat) (v : State → Word) (h : Enabled t g s) :
    ∃ u, scalarTo t g d lat s v = .next u ∧ Sends (s.toCore t g.core) u g.core (t.cyc + lat) 3 (.setS d (v (s.toCore t g.core))) :=
  ⟨_, whenOn_next _ h, (State.send_sends _ _ _ _ _).count (State.ran_counts _ _)⟩
/-- A predicate result is on its way. -/
theorem predTo_sends {t : At} {g : Gate} {s : State} (p : BitVec 3) (v : State → Bool) (h : Enabled t g s) :
    ∃ u, predTo t g p s v = .next u ∧ Sends (s.toCore t g.core) u g.core (t.cyc + 1) 3 (.setP p.toNat (v (s.toCore t g.core))) :=
  ⟨_, whenOn_next _ h, (State.send_sends _ _ _ _ _).count (State.ran_counts _ _)⟩
/-- A vector result is on its way. -/
theorem vectorTo_sends {t : At} {g : Gate} {s : State} (vd : BitVec 6) (lat : Nat) (v : State → List Nat) (h : Enabled t g s) :
    ∃ u, vectorTo t g vd lat s v = .next u ∧ Sends (s.toCore t g.core) u g.core (t.cyc + lat) 1 (.setV vd.toNat (v (s.toCore t g.core))) :=
  ⟨_, whenOn_next _ h, ((State.send_sends _ _ _ _ _).count (State.pmcCore_counts _ _ _ _)).count (State.ran_counts _ _)⟩

end Sys2Proof.Machine
end

