-- ==== Sys2Proof/Tests/Slice0.lean ====
section
/-! SUPPORT. Tests: ill-formed commands are refused, slot words written out from the spec's encodings are read as the instructions they stand for,
single steps have the effects that the spec's rules give, and the hypotheses of every statement of the obligations are met together by a concrete
state (theorems wit_<statement>_<clause>). -/

namespace Sys2Proof.Tests

open Sys2Proof Sys2Proof.Machine

set_option Elab.async false

/-! Small states. -/

/-- Tick 0 and cycle 0. -/
def t0 : At := ⟨0, 0⟩
/-- A device in RUN, or in another state, out of reset. -/
def inDev (d : DevState) : State := { State.reset with dev := d, pins := { resetN := true } }
/-- A device in RUN with core 0 enabled. -/
def up : State := (inDev .run).putB (Reg.coreCtrl 0) F.coreCtrlEnable true
/-- Core 0 under p0: always enabled; and under p0 negated: never. -/
def g0 : Gate := ⟨0, 0, false⟩
def gOff : Gate := ⟨0, 0, true⟩
/-- The highest core of the package, in RUN and enabled. -/
def upTop : State := (inDev .run).putB (Reg.coreCtrl 3071) F.coreCtrlEnable true
def gTop : Gate := ⟨3071, 0, false⟩
/-- The state that a command answers with; the state as it was where it stops. -/
def after (i : Instr) (s : State) : State :=
  match exec i s with
  | .next u => u
  | .fault _ => s
  | .refused _ => s
/-- Core 0's scalar register r holds v. -/
def withS (r : Nat) (v : Word) (s : State) : State := s.wr (Reg.coreS 0 r) v

/-! Registers that reset to 0, for the searches of the fabric's tables. -/

theorem find_low (x : RegRow) (a : Nat) (h : a < x.base) : (x.find a).isSome = false := by simp [RegRow.find, h]
theorem find_one (b a : Nat) (h : a ≠ b) : (RegRow.find ⟨b, [], false, []⟩ a).isSome = false := by
  by_cases hb : a < b
  · exact find_low _ _ hb
  · have : a - b ≠ 0 := by omega
    simp [RegRow.find, spell, hb, this]
theorem find_dim (b n m a : Nat) (h : a < b ∨ m ≤ (a - b) / n) : (RegRow.find ⟨b, [(n, m)], false, []⟩ a).isSome = false := by
  by_cases hb : a < b
  · exact find_low _ _ hb
  · have h : m ≤ (a - b) / n := by omega
    simp [RegRow.find, spell, hb, Nat.not_lt.mpr h]
theorem find_two (b n m k j a : Nat) (h : a < b ∨ m ≤ (a - b) / n ∨ j ≤ (a - b) % n / k) : (RegRow.find ⟨b, [(n, m), (k, j)], false, []⟩ a).isSome = false := by
  by_cases hb : a < b
  · exact find_low _ _ hb
  · by_cases h1 : (a - b) / n < m
    · have h : j ≤ (a - b) % n / k := by omega
      simp [RegRow.find, spell, hb, Nat.not_lt.mpr h]
    · simp [RegRow.find, spell, hb, h1]
/-- An address that no row of the reset table names. -/
theorem resetWord_zero (a : Nat) (h0 : a < 0x7180000 ∨ 0x7180C00 ≤ a) (h1 : a < 0x100000880)
    (h : ∀ b ∈ [0x0, 0x10, 0x4008, 0x7008, 0x7308, 0x7200000, 0x6000028, 0x6000030], a ≠ b)
    (hc : a < 0x4008008 ∨ 16 ≤ (a - 0x4008008) / 0x10000 ∨ 32 ≤ (a - 0x4008008) % 0x10000 / 0x10) (ht : a < 0x7010808 ∨ 21 ≤ (a - 0x7010808) / 0x10000) :
    resetWord a = 0 := by
  have hf : resetRows.find? (fun x => (x.1.find a).isSome) = none := by
    rw [List.find?_eq_none]
    intro x hx
    rw [Bool.not_eq_true]
    simp only [resetRows, List.mem_cons, List.not_mem_nil, or_false] at hx
    simp only [List.forall_mem_cons] at h
    rcases hx with hx | hx | hx | hx | hx | hx | hx | hx | hx | hx | hx | hx | hx <;> subst hx
    · exact find_low _ _ h1
    · exact find_low _ _ (Nat.lt_trans h1 (by decide))
    · exact find_low _ _ (Nat.lt_trans h1 (by decide))
    · exact find_one _ _ h.1
    · exact find_one _ _ h.2.1
    · exact find_one _ _ h.2.2.1
    · exact find_one _ _ h.2.2.2.1
    · exact find_one _ _ h.2.2.2.2.1
    · exact find_two _ _ _ _ _ _ hc
    · exact find_dim _ _ _ _ ht
    · exact find_one _ _ h.2.2.2.2.2.1
    · exact find_one _ _ h.2.2.2.2.2.2.1
    · exact find_one _ _ h.2.2.2.2.2.2.2.1
  have h0' : ¬ (0x7180000 ≤ a ∧ a < 0x7180C00) := by omega
  unfold resetWord
  rw [if_neg h0', hf]
/-- No address of a copy entry, and none of a region entry, is named. -/
theorem resetWord_copy (k e : Nat) (hk : k < 16) (he : e < 256) : resetWord (Reg.hbmCopy0 k e) = 0 := by
  have hx : Reg.hbmCopy0 k e = 0x4004000 + k * 0x10000 + e * 0x20 := rfl
  generalize Reg.hbmCopy0 k e = a at hx ⊢
  refine resetWord_zero a (by omega) (by omega) ?_ (by omega) (by omega)
  simp only [List.forall_mem_cons, List.not_mem_nil, false_implies, implies_true, and_true]
  omega
theorem resetWord_region (i : Nat) (hi : i < 4096) : resetWord (Reg.fabReg0 i) = 0 := by
  have hx : Reg.fabReg0 i = 0x7600000 + i * 0x20 := rfl
  generalize Reg.fabReg0 i = a at hx ⊢
  refine resetWord_zero a (by omega) (by omega) ?_ (by omega) (by omega)
  simp only [List.forall_mem_cons, List.not_mem_nil, false_implies, implies_true, and_true]
  omega
theorem get_absent {α : Type} (d : Nat → α) (l : List (Nat × α)) (a : Nat) (h : ∀ x ∈ l, x.1 ≠ a) : Sparse.get d l a = d a := by
  induction l with
  | nil => rfl
  | cons x r ih =>
    obtain ⟨j, v⟩ := x
    rw [Sparse.get, if_neg (h (j, v) (List.mem_cons_self ..)), ih fun y hy => h y (List.mem_cons_of_mem _ hy)]
/-- A state that lists no copy entry holds no copy; one that lists no region entry has no region. -/
theorem copyAt_none (s : State) (a : Nat) (h : ∀ x ∈ s.regs, x.1 < 0x4004000 ∨ 0x4110000 ≤ x.1) : s.copyAt a = none := by
  have hz : ∀ k e, k < 16 → e < 256 → s.flag (Reg.hbmCopy0 k e) F.hbmCopy0Enable = false := by
    intro k e hk he
    have hx : Reg.hbmCopy0 k e = 0x4004000 + k * 0x10000 + e * 0x20 := rfl
    rw [State.flag, State.rd, get_absent _ _ _ fun x hx' => by have := h x hx'; omega, resetWord_copy k e hk he]
    rfl
  have hp : ∀ k o, placeOf a = .hbm k o → k < 16 := by
    intro k o hk
    simp only [placeOf] at hk
    repeat' split at hk
    all_goals first
      | (injection hk with h1 h2; omega)
      | (exact absurd hk (by simp))
  rw [State.copyAt]
  cases hpl : placeOf a with
  | hbm k o =>
    have hk := hp k o hpl
    simp only
    have : (List.range 256).find? (fun e => s.flag (Reg.hbmCopy0 k e) F.hbmCopy0Enable && decide (s.fld (Reg.hbmCopy0 k e) F.hbmCopy0LocalBase ≤ a ∧ a < s.fld (Reg.hbmCopy0 k e) F.hbmCopy0LocalBase + 2 ^ s.fld (Reg.hbmCopy0 k e) F.hbmCopy0Size)) = none := by
      rw [List.find?_eq_none]
      intro e he
      simp [hz k e hk (List.mem_range.mp he)]
    rw [this]
    rfl
  | _ => rfl
theorem regionAt_none (s : State) (a : Nat) (h : ∀ x ∈ s.regs, x.1 < 0x7600000 ∨ 0x7620000 ≤ x.1) : s.regionAt a = none := by
  have hz : ∀ i, i < 4096 → s.flag (Reg.fabReg0 i) F.fabReg0Valid = false := by
    intro i hi
    have hx : Reg.fabReg0 i = 0x7600000 + i * 0x20 := rfl
    rw [State.flag, State.rd, get_absent _ _ _ fun x hx' => by have := h x hx'; omega, resetWord_region i hi]
    rfl
  rw [State.regionAt, List.find?_eq_none]
  intro i hi
  simp [hz i (List.mem_range.mp hi)]

/-! Witnesses: the queue and the core. -/

/-- A command completes with some state. -/
theorem completes (r : Host.Outcome State Fault Refusal) (h : (match r with | .next _ => true | _ => false) = true) : ∃ u, r = .next u := by
  cases r with
  | next u => exact ⟨u, rfl⟩
  | fault f => cases h
  | refused f => cases h
theorem wit_CommandsKeepTheQueueAndTheClock : ∃ u, exec (.nop t0 g0 .control) up = .next u := completes _ (by decide)
theorem wit_WellFormedCommandsComplete_1 : wellFormed (.vadd t0 gTop 63 63 63 true) = true ∧ wellFormed (.vadd t0 ⟨3072, 0, false⟩ 0 0 0 true) = false := by decide
theorem wit_WellFormedCommandsComplete_2 : (inDev .off).dev = .off ∧ wellFormed (.tileReset t0 3) = true ∧ (∀ t, Instr.tileReset t0 3 ≠ .powerOn t) ∧ (∀ t, Instr.tileReset t0 3 ≠ .powerRemoval t) ∧ (∀ t, Instr.tileReset t0 3 ≠ .resetNAssert t) ∧ (∀ t, Instr.tileReset t0 3 ≠ .laserFaultN t) := by
  refine ⟨by decide, by decide, ?_, ?_, ?_, ?_⟩ <;> intro t h <;> cases h
theorem wit_CoreNumbering_first : 0 < 12 ∧ 0 < 4 ∧ 0 < 8 ∧ 0 < 8 ∧ 0 = 256 * 0 + 64 * 0 + 8 * 0 + 0 := by decide
theorem wit_CoreNumbering_last : 11 < 12 ∧ 3 < 4 ∧ 7 < 8 ∧ 7 < 8 ∧ 3071 = 256 * 11 + 64 * 3 + 8 * 7 + 7 := by decide
theorem wit_MemoryStaysCanonical : State.canonical { up with mem := [(7, 9)], pending := [.nop t0 g0 .control] } ∧ ∃ u, step { up with mem := [(7, 9)], pending := [.nop t0 g0 .control] } = .next u := ⟨by decide, completes _ (by decide)⟩
theorem wit_SlotWordsRoundTrip : reservedFree (.waitse ⟨5, 6⟩ 9 3 1) = true ∧ encodeControl (.waitse ⟨5, 6⟩ 9 3 1) = some (⟨5, 6⟩, 9, 0xC40D0000) := by decide
theorem wit_DisabledInstructionsChangeNothing : Disabled t0 gOff up ∧ ∃ d a b, Instr.add t0 gOff 1 2 3 = .add t0 gOff d a b :=
  ⟨by decide, 1, 2, 3, rfl⟩
/-- Core 0 with one write of s5 that is seen from cycle 4 on, and with one of p3. -/
def landS : State := up.setCore 0 { landing := [⟨4, 3, .setS 5 9⟩] }
def landP : State := up.setCore 0 { landing := [⟨4, 3, .setP 3 true⟩] }
theorem wit_ResultsLandInTheirCycle_setS : 0 < Config.cores ∧ (landS.core 0).array = none ∧ (landS.core 0).landing = [⟨4, 3, .setS 5 9⟩] ∧ 3 < 4 ∧ 4 ≤ 4 ∧ 5 < 32 := by decide
theorem wit_ResultsLandInTheirCycle_setP : 0 < Config.cores ∧ (landP.core 0).array = none ∧ (landP.core 0).landing = [⟨4, 3, .setP 3 true⟩] ∧ 3 < 8 := by decide
theorem test_result_lands_in_its_cycle : (landS.toCycle 0 3).sreg 0 5 = 0 ∧ (landS.toCycle 0 4).sreg 0 5 = 9 := by decide
theorem wit_ScalarAndPredicateResults_first : Enabled t0 g0 up := by decide
theorem wit_ScalarAndPredicateResults_last : Enabled t0 gTop upTop := by decide
theorem wit_ScalarAndPredicateResults_shifts : (64 : BitVec 12).toNat % 64 = 0 ∧ (127 : BitVec 12).toNat % 64 = 63 := by decide
theorem wit_ScalarAndPredicateResults_conditions : (5 : BitVec 3) = 5 ∧ 6 ≤ (6 : BitVec 3).toNat ∧ ((3 : BitVec 2) = 3) := by decide
theorem wit_ScalarVaultAccess : Enabled t0 gTop upTop ∧ (upTop.toCore t0 3071).frozen 3071 = false := by decide
/-- Core 0 under a frozen vault arbiter. -/
def frozen0 : State := up.putB (Reg.twrVarbCtrl 0 0) F.twrVarbCtrlFreeze true
theorem wit_ScalarVaultAccess_frozen : Enabled t0 g0 frozen0 ∧ (frozen0.toCore t0 0).frozen 0 = true ∧ ((frozen0.toCore t0 0).sreg 0 0 + BitVec.ofInt 64 (8 * (0 : BitVec 12).toInt)).toNat % 2 ^ 24 < 0xA00000 := by decide
theorem wit_SpecialValues : Enabled t0 g0 up ∧ 3 < 4 ∧ ((up.toCore t0 0).engine 0 3).endCyc ≠ t0.cyc + 1 := by decide
theorem wit_SpecialValues_sameCycle : Enabled t0 g0 (up.setEngine 0 3 { endCyc := 1, before := [7, 1, 2, 3], lastStatus := 2, endSeq := 9 }) ∧ (((up.setEngine 0 3 { endCyc := 1, before := [7, 1, 2, 3], lastStatus := 2, endSeq := 9 }).toCore t0 0).engine 0 3).endCyc = t0.cyc + 1 ∧ (((up.setEngine 0 3 { endCyc := 1, before := [7, 1, 2, 3], lastStatus := 2, endSeq := 9 }).toCore t0 0).engine 0 3).before = [7, 1, 2, 3] ∧ (((up.setEngine 0 3 { endCyc := 1, before := [7, 1, 2, 3], lastStatus := 2, endSeq := 9 }).toCore t0 0).engine 0 3).lastStatus ≠ 0 := by decide
theorem wit_BranchesLoopsAndNop_branch : Issuing t0 3071 upTop ∧ ((upTop.wr (Reg.coreS 3071 31) 1).toCore t0 3071).sreg 3071 31 ≠ 0 ∧ (upTop.toCore t0 3071).sreg 3071 31 = 0 := by decide
theorem wit_BranchesLoopsAndNop_loop : Issuing t0 0 (withS 1 0xFFFFFFFF up) ∧ (((withS 1 0xFFFFFFFF up).toCore t0 0).sreg 0 1).toNat % 2 ^ 32 ≠ 0 ∧ (((withS 1 0x100000000 up).toCore t0 0).sreg 0 1).toNat % 2 ^ 32 = 0 := by decide
theorem wit_BranchesLoopsAndNop_noLevel : ∀ j, j < 4 → up.loopCount 0 j = 0 := by decide
/-- Core 0's local copy is valid; and it is so while the core waits for a time. -/
def clocked : State := up.setTower 0 { copyValid := true }
theorem wit_Waits_late : Issuing t0 0 clocked ∧ ((clocked.toCore t0 0).tower 0).copyValid = true ∧ (0 : Word).toNat ≤ ((clocked.toCore t0 0).copyTc 0).toNat := by decide
theorem wit_Waits_early : Issuing t0 0 clocked ∧ ¬ (1 : Word).toNat ≤ ((clocked.toCore t0 0).copyTc 0).toNat := by decide
theorem wit_Waits_invalid : Issuing t0 0 up ∧ ((up.toCore t0 0).tower 0).copyValid = false := by decide
theorem wit_Waits_release : 0 < 3072 ∧ Awake t0 (clocked.setCore 0 { wait := .time 0 true }) ∧ ((clocked.setCore 0 { wait := .time 0 true }).toCore t0 0).dev = .run ∧ (((clocked.setCore 0 { wait := .time 0 true }).toCore t0 0).core 0).wait = .time 0 true ∧ (((clocked.setCore 0 { wait := .time 0 true }).toCore t0 0).tower 0).copyValid = true := by decide
/-- Core 0's engine 3 holds two descriptors, and its flag 255 is set. -/
def busyEngine : State := (up.setEngine 0 3 { queue := [{}, {}], issued := 2 }).putF (Reg.twrFlags 0 0 3) ⟨63, 63⟩ 1
theorem wit_Waits_engines : Issuing t0 0 busyEngine ∧ (∀ e, e < 4 → (8 : BitVec 4).getLsbD e = true → (((busyEngine.toCore t0 0).engine 0 e).queue.filter fun x => decide (x.seq < [0, 0, 0, 2].getD e 0)).length ≤ (2 : BitVec 2).toNat) ∧ ¬ (∀ e, e < 4 → (8 : BitVec 4).getLsbD e = true → (((busyEngine.toCore t0 0).engine 0 e).queue.filter fun x => decide (x.seq < [0, 0, 0, 2].getD e 0)).length ≤ (1 : BitVec 2).toNat) ∧ (List.range 4).map (fun e => ((busyEngine.toCore t0 0).engine 0 e).issued) = [0, 0, 0, 2] := by decide
theorem wit_Waits_flags : (busyEngine.toCore t0 0).flagBit 0 255 = true ∧ (busyEngine.toCore t0 0).flagBit 0 254 = false := by decide
theorem wit_Waits_fence : (busyEngine.toCore t0 0).fenceClear 0 [0, 0, 0, 0] = true ∧ (busyEngine.toCore t0 0).fenceClear 0 [0, 0, 0, 2] = false := by decide
/-- Cores 0 and 1 are the members of tree 15 of tower 0. -/
def barred : State := up.putF (Reg.twrBarMember 0 15 0) ⟨63, 0⟩ 3
theorem wit_Barriers_notMember : Issuing t0 0 up ∧ 0 % 256 ∉ (up.toCore t0 0).members 0 15 := by decide
theorem wit_Barriers_member : Issuing t0 0 barred ∧ 0 % 256 ∈ (barred.toCore t0 0).members 0 15 ∧ assoc ((barred.toCore t0 0).core 0).arrivals 15 ≠ ((barred.toCore t0 0).tree 0 15).phase + 1 := by decide
/-- Core 1 has arrived; core 0 comes last. -/
def barredLast : State := barred.setTree 0 15 { arrived := [1] }
theorem wit_Barriers_last : Issuing t0 0 barredLast ∧ ((barredLast.toCore t0 0).tree 0 15).scope = 0 ∧ ((barredLast.toCore t0 0).tree 0 15).due = none ∧ (∀ m ∈ (barredLast.toCore t0 0).members 0 15, m = 0 % 256 ∨ m ∈ ((barredLast.toCore t0 0).tree 0 15).arrived) := by decide
/-- Core 0 has arrived in the running phase and comes again. -/
def barredAgain : State := (barred.setTree 0 15 { arrived := [0] }).setCore 0 { arrivals := [(15, 1)] }
theorem wit_Barriers_again : Issuing t0 0 barredAgain ∧ 0 % 256 ∈ (barredAgain.toCore t0 0).members 0 15 ∧ assoc ((barredAgain.toCore t0 0).core 0).arrivals 15 = ((barredAgain.toCore t0 0).tree 0 15).phase + 1 := by decide
/-- Tree 15 of tower 11 is due in cycle 20, and core 3071 waits for it. -/
def treeDue : State := (up.setTree 11 15 { due := some 20 }).setCore 3071 { wait := .barrier 15 0 }
theorem wit_Barriers_treeRelease : 11 < 12 ∧ Awake ⟨0, 20⟩ treeDue ∧ ((treeDue.at ⟨0, 20⟩).tree 11 15).later = [] ∧ ((treeDue.at ⟨0, 20⟩).tree 11 15).due = some 20 ∧ ((treeDue.at ⟨0, 20⟩).tree 11 15).scope = 0 ∧ 20 ≤ (⟨0, 20⟩ : At).cyc ∧ (⟨0, 19⟩ : At).cyc < 20 := by decide
/-- A rack phase of tree 15 of tower 11 completes in cycle 20. -/
def rackDue : State := up.setTree 11 15 { due := some 20, scope := 2 }
theorem wit_Barriers_stamp : Awake ⟨0, 20⟩ rackDue ∧ ((rackDue.at ⟨0, 20⟩).tree 11 15).later = [] ∧ ((rackDue.at ⟨0, 20⟩).tree 11 15).due = some 20 ∧ ((rackDue.at ⟨0, 20⟩).tree 11 15).scope ≠ 0 := by decide
/-- A package phase of tree 15 with the stamp 0 of every tower; a rack phase whose only stamp, the package's own, is 0. -/
def packageTree : State := barred.setTree 0 15 { sent := true, scope := 1, stamps := (List.range 12).map fun v => (v, 1) }
def rackTree : State := barred.setTree 0 15 { sent := true, scope := 2, stamps := [(64, 1)] }
theorem packageTree_stamps : ∀ v, v < 12 → assoc ((packageTree.at ⟨160, 0⟩).tree 0 15).stamps v ≠ 0 ∧ assoc ((packageTree.at ⟨160, 0⟩).tree 0 15).stamps v - 1 + 160 ≤ ((packageTree.at ⟨160, 0⟩).copyTc 0).toNat := by decide
theorem wit_Barriers_packageRelease : Awake ⟨160, 0⟩ packageTree ∧ ((packageTree.at ⟨160, 0⟩).tree 0 15).later = [] ∧ (∀ v ∈ (packageTree.at ⟨160, 0⟩).memberTowers 15, assoc ((packageTree.at ⟨160, 0⟩).tree 0 15).stamps v ≠ 0 ∧ assoc ((packageTree.at ⟨160, 0⟩).tree 0 15).stamps v - 1 + 160 ≤ ((packageTree.at ⟨160, 0⟩).copyTc 0).toNat) ∧ 160 ≤ ((packageTree.at ⟨160, 0⟩).copyTc 0).toNat :=
  ⟨by decide, by decide, fun v hv => packageTree_stamps v (List.mem_range.mp (List.mem_filter.mp hv).1), by decide⟩
theorem wit_Barriers_rackRelease : Awake t0 rackTree ∧ ((rackTree.at t0).tree 0 15).scope ≠ 1 ∧ (rackTree.at t0).others = [] ∧ assoc ((rackTree.at t0).tree 0 15).stamps (64 + (rackTree.at t0).pkg) ≠ 0 ∧ assoc ((rackTree.at t0).tree 0 15).stamps (64 + (rackTree.at t0).pkg) - 1 + (rackTree.at t0).fld Reg.onxSchedCfg F.onxSchedCfgWRack ≤ ((rackTree.at t0).copyTc 0).toNat := by decide
theorem wit_Barriers_arrival : 2 < 21 ∧ Awake t0 up ∧ ringTower 2 = some 0 ∧ ({ cls := 0xA, op := 15 } : Packet).cls = 0xA := by decide
/-- s1 of core 0 names core 3's flags in the own package; core 0 has three arrived sets of which two land before the third, and waits for flag 7. -/
theorem wit_Flags_fset : Enabled t0 g0 (withS 1 0x300 up) ∧ (((withS 1 0x300 up).toCore t0 0).sreg 0 1).toNat / 2 ^ 20 % 64 = ((withS 1 0x300 up).toCore t0 0).pkg ∧ 3 / 256 = g0.core / 256 := by decide
def setsIn : State := up.setCore 0 { flagsIn := [{ at_ := 3, src := 9, flag := 7 }, { at_ := 2, src := 4, flag := 7 }, { at_ := 2, src := 5, flag := 255 }], wait := .flag 7 false }
theorem wit_Flags_land : 0 < 3072 ∧ Awake ⟨0, 3⟩ setsIn ∧ nextSet 3 ((setsIn.toCore ⟨0, 3⟩ 0).core 0).flagsIn = some { at_ := 2, src := 5, flag := 255 } ∧ ((setsIn.toCore ⟨0, 3⟩ 0).core 0).flagAt ≤ 3 ∧ 255 < 256 ∧ (∀ y ∈ ((setsIn.toCore ⟨0, 3⟩ 0).core 0).clears, y.1 ≠ 255) ∧ ((setsIn.toCore ⟨0, 3⟩ 0).core 0).wait = .flag 7 false := by decide
/-- Every core of tower 0 but core 0 has issued its STEP. -/
def lastStep : State := { up with cores := (List.range 255).map fun d => (d + 1, { stepped := true }) }
theorem lastStep_others : ∀ d, d < 256 → d ≠ 0 → ((lastStep.toCore t0 0).core d).stepped = true := by decide +kernel
theorem wit_StepHaltLatticeAndCapacity : Enabled t0 g0 lastStep ∧ ((lastStep.toCore t0 0).tower 0).stepDue = none ∧ ((lastStep.toCore t0 0).tower 0).stepSent = false ∧ ((lastStep.toCore t0 0).core 0).halted = false ∧ (∀ d, d ∈ (lastStep.toCore t0 0).jobCores (g0.core / 256) → d ≠ g0.core → ((lastStep.toCore t0 0).core d).halted = true ∨ ((lastStep.toCore t0 0).core d).stepped = true) := by
  refine ⟨by decide +kernel, by decide +kernel, by decide +kernel, by decide +kernel, fun d hd h0 => .inr (lastStep_others d ?_ h0)⟩
  simp [State.jobCores, g0] at hd
  omega
/-- A set that came in a packet, whose answer has a route. -/
def answered : State := (up.setCore 0 { flagsIn := [{ at_ := 0, src := 4096, flag := 7, answer := some (2, { cls := 9 }) }] }).wr (Reg.fabRt 2 0 0) 0x8000000000000000
theorem wit_Flags_answer : nextSet 0 ((answered.toCore t0 0).core 0).flagsIn = some { at_ := 0, src := 4096, flag := 7, answer := some (2, { cls := 9 }) } ∧ (ringTower 2).isSome = true ∧ ((answered.toCore t0 0).routedBack 2 { cls := 9 }).isSome = true := by decide

/-! Witnesses: matrix, vector and stream slots. -/

theorem wit_MatrixIssue_free : Enabled t0 g0 up ∧ ((0, Elem.f4, Elem.f4, 4, 1024) : Nat × Elem × Elem × Nat × Nat) ∈ [(0, Elem.f4, Elem.f4, 4, 1024)] ∧ 16 * 64 ≤ 1024 ∧ ((up.toCore t0 0).core 0).governed = none ∧ ((up.toCore t0 0).core 0).arrayFree ≤ t0.cyc ∧ (up.toCore t0 0).governorLets 0 (64 * (64 / 4)) 0 = true := by decide
theorem wit_MatrixIssue_range : 512 < 16 * 33 ∧ 16 * 32 ≤ 512 := by decide
/-- The array of core 0 is busy to cycle 1; the column of core 0 has used its whole window. -/
def arrayBusy : State := up.setCore 0 { arrayFree := 1 }
def columnFull : State := up.setTower 0 { bins := [(binKey 0 0, 274096)] }
theorem wit_MatrixIssue_busy : Enabled t0 g0 arrayBusy ∧ t0.cyc < ((arrayBusy.toCore t0 0).core 0).arrayFree := by decide
theorem wit_MatrixIssue_governed : Enabled t0 g0 columnFull ∧ ((columnFull.toCore t0 0).core 0).arrayFree ≤ t0.cyc ∧ (columnFull.toCore t0 0).governorLets 0 (1 * (64 / 4)) 0 = false := by decide
theorem wit_MatrixIssue_bundle : (columnFull.core 0).bundle ≠ some t0.cyc ∧ (((columnFull.setCore 0 { bundle := some 0 }).toCore t0 0).core 0).bundle = some t0.cyc ∧ Enabled t0 g0 (columnFull.setCore 0 { bundle := some 0 }) := by decide
theorem wit_MatrixIssue_reserved : 10 ≤ (10 : BitVec 4).toNat ∧ 5 ≤ (5 : BitVec 4).toNat := by decide
/-- The governor delays an MMA of core 0 since cycle 0. -/
def delayed : State := up.setCore 0 { wait := .governor, governed := some { due := 0, instr := some (.mma t0 g0 0 true true false false false 0) } }
theorem wit_GovernedIssueAndArrayWrites_issue : g0.core < 3072 ∧ Awake ⟨7, 7⟩ delayed ∧ ((delayed.toCore ⟨7, 7⟩ 0).core 0).landing = [] ∧ ((delayed.toCore ⟨7, 7⟩ 0).core 0).array = none ∧ ((delayed.toCore ⟨7, 7⟩ 0).core 0).governed = some { due := 0, instr := some (.mma t0 g0 0 true true false false false 0) } ∧ ((delayed.toCore ⟨7, 7⟩ 0).core 0).arrayFree ≤ 7 ∧ (delayed.toCore ⟨7, 7⟩ 0).governorLets 0 (64 * 16) 0 = true ∧ ((delayed.toCore ⟨7, 7⟩ 0).setCore 0 { (delayed.toCore ⟨7, 7⟩ 0).core 0 with wait := .none }).issues 0 7 = true := by decide
/-- A fold into row 63 of accumulator set 1, and a checksum result, both due in cycle 5. -/
def folding : State := up.setCore 0 { landing := [⟨5, 2, .fold 1 63 (List.replicate 64 (.val 0 0))⟩] }
def checking : State := up.setCore 0 { landing := [⟨5, 2, .check 7 0 [] 0 0⟩] }
theorem wit_GovernedIssueAndArrayWrites_fold : 0 < 3072 ∧ Awake ⟨5, 5⟩ folding ∧ 5 ≤ (⟨5, 5⟩ : At).cyc ∧ (folding.core 0).array = none ∧ (folding.core 0).landing = [⟨5, 2, .fold 1 63 (List.replicate 64 (.val 0 0))⟩] ∧ 1 < 2 ∧ 63 < 64 ∧ (List.replicate 64 (Contrib.val 0 0)).length = 64 := by decide
theorem wit_GovernedIssueAndArrayWrites_check : Awake ⟨5, 5⟩ checking ∧ (checking.core 0).array = none ∧ (checking.core 0).landing = [⟨5, 2, .check 7 0 [] 0 0⟩] ∧ 7 < 8 := by decide
theorem wit_AccumulatorAccess_slot : Enabled t0 gTop upTop := by decide
theorem wit_AccumulatorAccess_rows : 0 < Config.cores ∧ 63 < 64 ∧ 1 < 2 ∧ 63 < 64 ∧ (List.replicate 64 (2 ^ 32 - 1)).length = 64 ∧ (∀ x ∈ List.replicate 64 (2 ^ 32 - 1), x < 2 ^ 32) := by decide
theorem wit_VectorResults : Enabled t0 gTop upTop ∧ (3 : BitVec 3).toNat < 4 ∧ 4 ≤ (4 : BitVec 3).toNat := by decide
/-- The line of a vector access: the last one of the vault, and the first beyond it. -/
theorem wit_VectorVaultAccessAndFormats_vault : Enabled t0 g0 up ∧ (((withS 1 0x9FFFC0 up).toCore t0 0).sreg 0 1 + BitVec.ofInt 64 (64 * (0 : BitVec 11).toInt)).toNat % 2 ^ 24 / 64 * 64 + 4 * 15 < 0xA00000 ∧ ¬ (((withS 1 0xA00000 up).toCore t0 0).sreg 0 1 + BitVec.ofInt 64 (64 * (0 : BitVec 11).toInt)).toNat % 2 ^ 24 / 64 * 64 < 0xA00000 := by decide
/-- Descriptor 7 names an F8A tensor (format 3). -/
def tensor7 : State := withS 28 0x3000000000000040 up
theorem wit_VectorVaultAccessAndFormats_vdq : Enabled t0 g0 tensor7 ∧ (7 : BitVec 3) ≠ 0 ∧ Elem.ofCode ((tensor7.toCore t0 0).tensor 0 7).fmt = some .f8a ∧ Elem.f8a.narrow = true := by decide
theorem wit_VectorVaultAccessAndFormats_frozen : (up.toCore t0 0).frozen 0 = false ∧ (frozen0.toCore t0 0).frozen 0 = true ∧ (∀ x, Elem.ofCode (((withS 28 0x9000000000000040 up).toCore t0 0).tensor 0 7).fmt = some x → x.narrow = false) := by
  refine ⟨by decide, by decide, ?_⟩
  intro x hx
  rw [show Elem.ofCode (((withS 28 0x9000000000000040 up).toCore t0 0).tensor 0 7).fmt = some .f32 by decide] at hx
  cases hx
  rfl
theorem wit_VectorVaultAccessAndFormats_vq : Enabled t0 g0 tensor7 ∧ (7 : BitVec 3) ≠ 0 ∧ 2 ≤ (5 : BitVec 3).toNat ∧ (5 : BitVec 3).toNat ≤ 5 ∧ Elem.ofCode ((tensor7.toCore t0 0).tensor 0 7).fmt = some .f8a ∧ ((tensor7.toCore t0 0).tensor 0 7).data + 8 * Elem.f8a.blockSize ≤ dataSize 5 ∧ ((tensor7.toCore t0 0).tensor 0 7).scale + 8 ≤ scaleSize 5 := by decide
/-- An engine with four descriptors takes no other. -/
def engineFull : State := up.setEngine 0 3 { queue := [{}, {}, {}, {}], issued := 4 }
theorem wit_StreamIssue : Enabled t0 g0 up ∧ ((up.toCore t0 0).engine 0 3).queue.length < 4 ∧ Enabled t0 g0 engineFull ∧ 4 ≤ ((engineFull.toCore t0 0).engine 0 3).queue.length := by decide
theorem wit_StreamIssue_forms : (6 : BitVec 3) ≠ 1 ∧ (6 : BitVec 3) ≠ 7 ∧ (2 : BitVec 2) ≠ 3 ∧ (30 : BitVec 5).toNat % 2 = 0 ∧ (31 : BitVec 5).toNat % 2 = 1 ∧ (9 : BitVec 4).toNat < 10 ∧ (1 : BitVec 2).toNat < 2 := by decide
/-- An earlier record of core 0 is not formed yet. -/
def recordBusy : State := up.setCore 0 { recordDue := some 30 }
theorem wit_InclusionRecords_issue : Enabled t0 g0 up ∧ ((up.toCore t0 0).core 0).recordDue = none ∧ ((up.toCore t0 0).engine 0 0).queue.length < 4 ∧ Enabled t0 g0 recordBusy ∧ ((recordBusy.toCore t0 0).core 0).recordDue ≠ none := by decide
def forming : State := up.setCore 0 { landing := [⟨5, 9, .form 0xFFFFFFFF 5 true⟩], recordDue := some 5 }
theorem wit_InclusionRecords_form : 0 < 3072 ∧ Awake ⟨5, 5⟩ forming ∧ (forming.core 0).array = none ∧ (forming.core 0).landing = [⟨5, 9, .form 0xFFFFFFFF 5 true⟩] := by decide
/-- Descriptors at the head of engine 3 of core 3071. -/
def headed (a : Act) (st : Stage) : State := upTop.setEngine 3071 3 { queue := [{ act := a }, {}], stage := st }
theorem wit_DescriptorStart_sflag : 3071 < 3072 ∧ Awake t0 (headed (.sflag 0 3000 255) .queued) ∧ (((headed (.sflag 0 3000 255) .queued).toCore t0 3071).engine 3071 3).freeAt ≤ 0 ∧ (((headed (.sflag 0 3000 255) .queued).toCore t0 3071).engine 3071 3).stage = .queued ∧ (((headed (.sflag 0 3000 255) .queued).toCore t0 3071).engine 3071 3).queue = { act := .sflag 0 3000 255 } :: [{}] := by decide
theorem wit_DescriptorStart_sinv : (((headed (.sinv 64) .queued).toCore t0 3071).engine 3071 3).queue = { act := .sinv 64 } :: [{}] ∧ (((headed (.sinv 64) .queued).toCore t0 3071).engine 3071 3).stage = .queued := by decide
/-- A row whose source lies in no vault of the tower and whose place is beyond the buffer half. -/
def badRow : Act := .scopy 5 0 0xFFFFFFC0 0x20000000000 1 0 64 0
theorem wit_DescriptorStart_denied : ({ act := badRow } : Desc).enabled = true ∧ 0 < 1 ∧ badRow.shapeOk = true ∧ ∃ r ∈ badRow.rows, ((headed badRow .queued).toCore t0 3071).rowOk 3071 r = false := by decide
theorem wit_DescriptorStart_release : 3071 < 3072 ∧ Awake t0 (headed (.sflag 0 3000 255) (.remote 0)) ∧ (((headed (.sflag 0 3000 255) (.remote 0)).toCore t0 3071).engine 3071 3).stage = .remote 0 ∧ ((headed (.sflag 0 3000 255) (.remote 0)).toCore t0 3071).storesDone 3071 0 = true ∧ 0 = ((headed (.sflag 0 3000 255) (.remote 0)).toCore t0 3071).pkg ∧ 3000 / 256 = 3071 / 256 ∧ (0 ≠ 0 ∨ 2815 / 256 ≠ 3071 / 256) := by decide
/-- The vault of core 3071; a copy within it; a record and a merge that end there, and an atomic. -/
def own (x : Nat) : Nat := windowOf 3071 + x
def ownCopy : Act := .scopy 0 0 (own 0x9FFFC0) (own 0x100) 1 0 64 0
def startS (a : Act) : State := (headed a .queued).toCore t0 3071
theorem wit_DescriptorStart_general : ∀ a ∈ [ownCopy, .recst (own 64) 0, .recmg (own 64) 0 64, .satom 0 true (own 8) 0 0 0, .sinv 64, .sflag 0 3000 255, badRow], ((startS a).engine 3071 3).freeAt ≤ 0 ∧ (startS a).engine 3071 3 = { (startS a).engine 3071 3 with queue := { act := a } :: [{}], stage := .queued, pieces := [], statuses := [] } ∧ ({ act := a } : Desc).issueCyc ≤ 0 ∧ (startS a).frozen 3071 = false ∧ (startS a).startWaits 3071 a = false := by decide
theorem wit_DescriptorStart_copy : ownCopy.shapeOk = true ∧ (∀ r ∈ ownCopy.rows, (startS ownCopy).rowOk 3071 r = true) ∧ (startS ownCopy).path 3071 (own 0x100) = .own ∧ (startS ownCopy).path 3071 (own 0x9FFFC0) = .own ∧ (startS ownCopy).coreFenced 3071 = false ∧ (startS ownCopy).start.compat = false := by decide
theorem wit_DescriptorStart_record : (((headed (.recst (own 64) 0) .queued).setCore 3071 { records := [(0, [1])] }).core 3071).records.find? (fun x => x.1 = 0) = some (0, [1]) ∧ own 64 % 64 = 0 ∧ (startS (.recst (own 64) 0)).path 3071 (own 64) = .own ∧ (startS (.recst (own 64) 0)).endOk 3071 (own 64) 64 = true ∧ (0 : Nat) < 1 ∧ (startS (.satom 0 true (own 8) 0 0 0)).path 3071 (own 8) = .own := by decide
/-- An engine whose SINV waits for a tag; and engines whose SINV is done or refused. -/
def tagging (on : Bool) : State := upTop.setEngine 3071 3 { queue := [{ act := .sinv 64, enabled := on }], stage := .local_ 1, waiting := [{ remote := true }] }
def finishing (st : Stage) (l : List Status) : State := upTop.setEngine 3071 3 { queue := [{ act := .sinv 64 }], stage := st, statuses := l }
theorem wit_TagsAndCompletions_tag : Awake t0 (tagging false) ∧ (((tagging false).toCore t0 3071).engine 3071 3).stage = .local_ 1 ∧ (((tagging false).toCore t0 3071).engine 3071 3).queue = { act := .sinv 64, enabled := false } :: [] ∧ (((tagging false).toCore t0 3071).engine 3071 3).waiting = { remote := true } :: [] ∧ (((tagging false).toCore t0 3071).reap 3071).engine 3071 3 = (tagging false).engine 3071 3 ∧ ((tagging false).engine 3071 3).from_ ≤ 0 ∧ ({ remote := true } : Piece).store = false ∧ ((tagging false).engine 3071 3).plan = [] ∧ ((tagging true).core 3071).fsets = [] ∧ ((tagging false).toCore t0 3071).op (towerRing 11) (32 * 255 + 31) = none ∧ (∃ addr, (Act.sinv 64) = .sinv addr) :=
  ⟨by decide, by decide, by decide, by decide, by decide, by decide, by decide, by decide, by decide, by decide, 64, rfl⟩
theorem wit_TagsAndCompletions_noOps : ∀ i o, ((tagging true).toCore t0 3071).op (towerRing (3071 / 256)) (32 * (3071 % 256) + i) = some o → o.enabled = true := by
  intro i o h
  have : ((tagging true).toCore t0 3071).ops = [] := by decide
  simp [State.op, this, Sparse.get] at h
theorem wit_TagsAndCompletions_done : Awake ⟨0, 1⟩ (finishing (.local_ 1) [.ok]) ∧ ((finishing (.local_ 1) [.ok]).at ⟨0, 1⟩).ops = [] ∧ (((finishing (.local_ 1) [.ok]).at ⟨0, 1⟩).engine 3071 3).stage = .local_ 1 ∧ (((finishing (.local_ 1) [.ok]).at ⟨0, 1⟩).engine 3071 3).waiting = [] ∧ (((finishing (.local_ 1) [.ok]).at ⟨0, 1⟩).engine 3071 3).inFlight = 0 ∧ (((finishing (.local_ 1) [.ok]).at ⟨0, 1⟩).engine 3071 3).plan = [] ∧ 0 % 128 ∉ (((finishing (.local_ 1) [.ok]).at ⟨0, 1⟩).engine 3071 3).lost ∧ ((finishing (.local_ 1) [.ok]).at ⟨0, 1⟩).endWaits 3071 (((finishing (.local_ 1) [.ok]).at ⟨0, 1⟩).engine 3071 3) { act := .sinv 64 } = false ∧ worst [.ok] = .ok := by decide
/-- A copy done toward the vault of a core that was fenced since. -/
def toFenced : State := (upTop.putB (Reg.coreCtrl 3070) F.coreCtrlFenced true).setEngine 3071 3 { queue := [{ act := ownCopy }], stage := .local_ 1, pieces := [{ dst := windowOf 3070 }] }
theorem wit_TagsAndCompletions_fenced : ((toFenced.at ⟨0, 1⟩).engine 3071 3).stage = .local_ 1 ∧ ((toFenced.at ⟨0, 1⟩).engine 3071 3).pieces = [{ dst := windowOf 3070 }] ∧ placeOf (windowOf 3070) = .vault 3070 0 ∧ toFenced.coreFenced 3070 = true ∧ (toFenced.at ⟨0, 1⟩).endWaits 3071 ((toFenced.at ⟨0, 1⟩).engine 3071 3) { act := ownCopy } = false := by decide
theorem wit_TagsAndCompletions_refused : (((finishing (.refused 1) [.denied]).at ⟨0, 1⟩).engine 3071 3).stage = .refused 1 ∧ worst (((finishing (.refused 1) [.denied]).at ⟨0, 1⟩).engine 3071 3).statuses ≠ .ok := by decide
theorem wit_FetchAndSampling_fetch : Issuing t0 0 up ∧ (up.toCore t0 0).mark (windowOf 0 + 0xC00000 + 16 * 0) ≠ .ue ∧ (up.toCore t0 0).num (windowOf 0 + 0xC00000 + 16 * 0) 16 = 0 ∧ ((up.toCore t0 0).core 0).landing = [] ∧ ((up.toCore t0 0).core 0).array = none ∧ ((up.toCore t0 0).core 0).governed = none ∧ (∀ j, j < 4 → (up.toCore t0 0).loopCount 0 j = 0) := by decide
/-- ADD s1, s2, s3 under p0 in the control slot of bundle 0: opcode 1 in bits [31:26], p0, field d, field a, field b (R130 to R132, R138). -/
def addWord : Nat := 0x04000000 + 1 * 0x20000 + 2 * 0x1000 + 3 * 0x80
def addBundle : State := up.setBytes (windowOf 0 + 0xC00000 + 12) (bytesOf addWord 4)
theorem wit_FetchAndSampling_add : Issuing t0 0 addBundle ∧ (addBundle.toCore t0 0).num (windowOf 0 + 0xC00000 + 16 * 0) 16 = addWord * 2 ^ 96 ∧ addWord < 2 ^ 32 ∧ decodeControl t0 0 addWord = some (.add t0 g0 1 2 3) ∧ (addBundle.toCore t0 0).on g0 = true := by decide
/-- A bundle whose stream slot finds its engine full; one whose MMA the column governor holds. -/
def stalling : State := (up.setEngine 0 2 { queue := [{}, {}, {}, {}], issued := 4 }).setBytes (windowOf 0 + 0xC00000) (bytesOf 0x08249000 4)
def governedB : State := columnFull.setBytes (windowOf 0 + 0xC00000 + 8) (bytesOf 0x04010800 4)
theorem wit_FetchAndSampling_stall : Issuing t0 0 stalling ∧ (stalling.toCore t0 0).stalls 0 0 none (decodeStream t0 0 0x08249000) = true ∧ (stalling.toCore t0 0).num (windowOf 0 + 0xC00000 + 16 * 0) 16 % 2 ^ 32 = 0x08249000 := by decide
theorem wit_FetchAndSampling_governed : Issuing t0 0 governedB ∧ (governedB.toCore t0 0).stalls 0 0 (decodeMatrix t0 0 0x04010800) none = false ∧ (governedB.toCore t0 0).num (windowOf 0 + 0xC00000 + 16 * 0) 16 / 2 ^ 64 % 2 ^ 32 = 0x04010800 ∧ occupancy (decodeMatrix t0 0 0x04010800) = some 256 ∧ (governedB.toCore t0 0).governorLets 0 (256 + 0) 0 = false ∧ (governedB.toCore t0 0).dueAbove t0 0 = 0 ∧ (governedB.toCore t0 0).dueCycle 0 0 = 0 := by decide
def sampled : State := upTop.setCore 3071 { sample := some { need := [], waits := false } }
theorem wit_FetchAndSampling_sample : 3071 < 3072 ∧ Awake ⟨1, 1⟩ sampled ∧ ((sampled.toCore ⟨1, 1⟩ 3071).core 3071).sample = some { need := [], waits := false } ∧ ({ need := [], waits := false } : Sample).complete 1 = true ∧ ((sampled.toCore ⟨1, 1⟩ 3071).tower 11).sampleCyc < 1 ∧ (sampled.toCore ⟨1, 1⟩ 3071).fld (Reg.twrSampleCtrl 11) F.twrSampleCtrlCount < 256 := by decide
theorem wit_FetchAndSampling_dropped : Awake ⟨1, 1⟩ (sampled.setTower 11 { sampleCyc := 17 }) ∧ (⟨1, 1⟩ : At).cyc + 16 < max ((((sampled.setTower 11 { sampleCyc := 17 }).toCore ⟨1, 1⟩ 3071).tower 11).sampleCyc + 1) 1 ∧ (sampled.putF (Reg.twrSampleCtrl 11) F.twrSampleCtrlCount 256).fld (Reg.twrSampleCtrl 11) F.twrSampleCtrlCount = 256 ∧ (sampled.putF (Reg.twrSampleCtrl 11) F.twrSampleCtrlCount 256).flag (Reg.twrSampleCtrl 11) F.twrSampleCtrlWrap = false ∧ ((sampled.putF (Reg.twrSampleCtrl 11) F.twrSampleCtrlCount 256).putB (Reg.twrSampleCtrl 11) F.twrSampleCtrlWrap true).flag (Reg.twrSampleCtrl 11) F.twrSampleCtrlWrap = true := by decide

/-! Witnesses: towers, die links, the time base, light, the optical planes. -/

def droopy : State := up.setTower 11 { droops := [0, 2] }
theorem wit_TowerCyclesAndVaultPort_droop : 11 < 12 ∧ Awake t0 up ∧ 3071 / 256 = 11 ∧ ((up.at t0).tower 11).droops = [] ∧ (droopy.tower 11).droops.filter (fun p => decide (p ≤ t0.cyc)) = [0] := by decide
/-- A write of eight lines (of which a port cycle takes four) and a read of one line. -/
def wq : PortReq := { code := 7, write := true, addr := 128, lines := 8, data := List.replicate 512 0xAB }
def rq : PortReq := { code := 1, addr := 0x9FFFC0 }
theorem wit_TowerCyclesAndVaultPort_port : 3071 < 3072 ∧ Awake t0 up ∧ 0 < wq.code ∧ 0 < rq.code ∧ (∃ i, i < 13 ∧ (up.toCore t0 3071).vaultCode 3071 i = wq.code) ∧ (∃ i, i < 13 ∧ (up.toCore t0 3071).vaultCode 3071 i = rq.code) ∧ clientOk 3071 wq = true ∧ clientOk 3071 rq = true ∧ ((up.toCore t0 3071).core 3071).wbq = [] ∧ (lineSet wq).length = 4 ∧ (up.toCore t0 3071).frozen 3071 = false ∧ ((up.toCore t0 3071).arb (.vault 3071)).thawAt ≤ 0 ∧ ((up.toCore t0 3071).arb (.vault 3071)).busyRead ≤ 0 ∧ ((up.toCore t0 3071).arb (.vault 3071)).busyWrite ≤ 0 := by decide
/-- The line of the read was granted to another in cycle 0. -/
def mergedPort : State := up.setArb (.vault 3071) { merge := [(lineSet rq, 0)] }
theorem wit_TowerCyclesAndVaultPort_merge : (up.toCore t0 3071).follows 3071 rq.code (lineSet rq) 0 = false ∧ (rq.code, lineSet rq) ∉ ((up.toCore t0 3071).arb (.vault 3071)).served ∧ (mergedPort.toCore t0 3071).follows 3071 rq.code (lineSet rq) 0 = true := by decide
def frozenPort : State := up.putB (Reg.twrVarbCtrl 11 255) F.twrVarbCtrlFreeze true
theorem wit_TowerCyclesAndVaultPort_freeze : Awake t0 frozenPort ∧ (frozenPort.toCore t0 3071).frozen 3071 = true := by decide
/-- A read worm that goes east from core 9 toward core 11, and the same worm at its vault; a write worm of one line. -/
def eastWorm : Worm := { kind := 0, dx := 2, src := 8, dst := 11, flits := 1, seq := 5 }
def readWorm : Worm := { kind := 0, src := 8, dst := 11, flits := 1, line := 0x27FFF }
def writeWorm : Worm := { kind := 1, src := 8, dst := 11, flits := 1, line := 0x27FFF, data := List.replicate 64 7 }
theorem wit_Worms_hop : 9 < 3072 ∧ 0 < 7 ∧ Awake t0 up ∧ (∀ k, k < 7 → (up.toCore t0 9).worms 9 k = []) ∧ wormLeaves eastWorm = 2 ∧ hasPort 9 2 = true ∧ 0 < ((up.toCore t0 9).portCredits 9 2 [1, 1, 1, 1]).getD (wormVc eastWorm) 0 := by decide
theorem wit_Worms_exit : 11 < 3072 ∧ Awake t0 up ∧ (up.toCore t0 11).coreFenced 11 = false ∧ ((up.toCore t0 11).core 11).landing = [] ∧ ((up.toCore t0 11).core 11).array = none ∧ (up.toCore t0 11).frozen 11 = false ∧ readWorm.dst % 256 = 11 % 256 ∧ readWorm.kind = 0 ∧ readWorm.line * 64 + 64 * readWorm.flits ≤ 0xA00000 ∧ writeWorm.kind = 1 ∧ writeWorm.line * 64 + writeWorm.data.length ≤ 0xA00000 := by decide
def frozen11 : State := up.putB (Reg.twrVarbCtrl 0 11) F.twrVarbCtrlFreeze true
theorem wit_Worms_frozen : (frozen11.toCore t0 11).frozen 11 = true ∧ (frozen11.toCore t0 11).coreFenced 11 = false ∧ readWorm.kind < 2 ∧ Awake t0 frozen11 := by decide
def lostWorm : State := up.setEngine 0 1 { queue := [{ seq := 133 }], lost := [5] }
theorem wit_Worms_timeout : Awake ⟨10000, 0⟩ lostWorm ∧ ((lostWorm.toCore ⟨10000, 0⟩ 0).engine 0 1).queue = { seq := 133 } :: [] ∧ ({ seq := 133 } : Desc).seq % 128 = (5 : BitVec 7).toNat ∧ (5 : BitVec 7).toNat ∈ ((lostWorm.toCore ⟨10000, 0⟩ 0).engine 0 1).lost ∧ ({ seq := 133 } : Desc).issueTick + 10000 ≤ (lostWorm.toCore ⟨10000, 0⟩ 0).now := by decide
def carrier : Worm := { kind := 2, carried := some { tag := 31 } }
theorem wit_Worms_portBlock : 11 < 12 ∧ Awake t0 up ∧ eastWorm.kind ≠ 2 ∧ carrier.kind = 2 ∧ carrier.carried = some { tag := 31 } ∧ (up.setOp (towerRing 11) 31 { attempts := 1 }).op (towerRing 11) 31 = some { attempts := 1 } := by decide
/-- Two failures of the crossing of core 3071's vault in a row, in cycles 0 and 6. -/
def failing2 : Tower := { crcRuns := [(crossingNum (.vault 3071), 6, 2)] }
theorem wit_BondFailures_crc : 11 < 12 ∧ Awake t0 up ∧ 3071 / 256 = 11 ∧ (up.tower 11).crcRun (.vault 3071) 0 < 3 ∧ 3 ≤ ((up.setTower 11 failing2).tower 11).crcRun (.vault 3071) 12 := by decide
theorem wit_BondFailures_pair : Awake t0 (up.setTower 11 { wireBad := true }) ∧ ((up.setTower 11 { wireBad := true }).tower 11).wireBad = true ∧ (up.tower 11).wireBad = false := by decide
theorem wit_BondFailures_test : Awake t0 (inDev .bringup) ∧ (inDev .bringup).dev = .bringup ∧ 3071 / 256 = 11 ∧ 4 ≤ 4 ∧ 4 < 5 ∧ (inDev .bringup).mapped 1 3071 = false ∧ (((inDev .hold).putF (Reg.onxUnit 11) F.onxUnitState 1).starting 11) = true := by decide

/-- Group 63 of tower 11 is up, with nothing to send; with a flit of channel 3 ready; with a frame to send again. -/
def grpUp (x : D2dDir) : State := (up.putF (grpReg 11 63) F.flrGrpState 2).setGroup 11 63 { up := x }
theorem wit_DieLinkFrames_idle : 11 < 12 ∧ 63 < 64 ∧ Awake t0 (grpUp {}) ∧ (grpUp {}).fld (grpReg 11 63) F.flrGrpState = 2 ∧ (((grpUp {}).group 11 63).dir .up).resend = [] ∧ (grpUp {}).d2dChoice 11 63 .up = none := by decide
theorem wit_DieLinkFrames_data : (grpUp { queue := [(3, [1]), (0, [2])] }).d2dChoice 11 63 .up = some (3, [[1]]) := by decide
theorem wit_DieLinkFrames_again : (((grpUp { resend := [{ seq := 9 }] }).group 11 63).dir .up).resend = { seq := 9 } :: [] := by decide
/-- A data frame whose CRC is its own, as a group at full width sends it, and the same damaged. -/
def rawFrame : D2dFrame := { seq := 63, count := 1, data := List.replicate 32 9 }
def dataFrame : D2dFrame := { rawFrame with crc := d2dCrc rawFrame }
theorem wit_DieLinkFrames_receive : Awake ⟨1000000, 0⟩ (grpUp { expect := 63 }) ∧ (((grpUp { expect := 63 }).group 11 63).dir .up).expect = 63 ∧ ((grpUp {}).group 11 63).upAt = none ∧ dataFrame.type = 0 ∧ dataFrame.seq = 63 ∧ dataFrame.width = (grpUp {}).fld (grpReg 11 63) F.flrGrpWidth ∧ dataFrame.quarters = (grpUp {}).fld (grpReg 11 63) F.flrGrpQuarters := by decide
theorem d2dCrc_crc (f : D2dFrame) (n : Nat) : d2dCrc { f with crc := n } = d2dCrc f := by simp only [d2dCrc, d2dBytes, d2dHeader]
theorem d2dCrc_own (f : D2dFrame) : ({ f with crc := d2dCrc f } : D2dFrame).crc = d2dCrc { f with crc := d2dCrc f } := (d2dCrc_crc f _).symm
theorem d2dCrc_bad (f : D2dFrame) : ∃ n, d2dCrc { f with crc := n } ≠ n := ⟨d2dCrc f + 1, fun h => Nat.succ_ne_self _ ((d2dCrc_crc f _).symm.trans h).symm⟩
theorem wit_DieLinkFrames_crc : dataFrame.crc = d2dCrc dataFrame ∧ ∃ n, d2dCrc { dataFrame with crc := n } ≠ n := ⟨d2dCrc_own rawFrame, d2dCrc_bad dataFrame⟩
theorem wit_DieLinkFrames_training : Awake t0 (up.putF (grpReg 11 63) F.flrGrpState 1) ∧ (up.putF (grpReg 11 63) F.flrGrpState 1).fld (grpReg 11 63) F.flrGrpState = 1 := by decide
theorem wit_DieLinkFrames_timeout : Awake ⟨100, 0⟩ (grpUp { replay := [({ seq := 1 }, 0)] }) ∧ (((grpUp { replay := [({ seq := 1 }, 0)] }).group 11 63).dir .up).replay = ({ seq := 1 }, 0) :: [] ∧ 0 + 100 ≤ ((grpUp { replay := [({ seq := 1 }, 0)] }).at ⟨100, 0⟩).now := by decide
/-- BRINGUP before and after the package word is fixed; a training that finds four quarters, and one that finds no width. -/
def wordless : State := inDev .bringup
def worded : State := { inDev .bringup with start := { capFixed := true } }
def badSight : TrainSight := { badCtl := [264, 265, 266, 267], badData := [0, 1, 2, 64, 65, 66, 128, 129, 130, 192, 193, 194] }

theorem wit_DieLinkTrainingAndCapability_train : 11 < 12 ∧ 63 < 64 ∧ Awake t0 worded ∧ worded.dev = .bringup ∧ worded.fld (grpReg 11 63) F.flrGrpState < 2 ∧ (worded.tower 11).fenced = false ∧ worded.start.capFixed = true ∧ (∃ q spares, chooseWidth {} = some (0, q, spares)) ∧ worded.trainOk {} = true :=
  ⟨by decide, by decide, by decide, by decide, by decide, by decide, by decide, ⟨15, [], by decide⟩, by decide⟩
theorem wit_DieLinkTrainingAndCapability_noWidth : chooseWidth badSight = none ∧ worded.fld (grpReg 11 63) F.flrGrpFailRun < 2 := by decide
theorem wit_DieLinkTrainingAndCapability_stepThree : wordless.start.capFixed = false ∧ (wordless.group 11 63).step3 ≠ some true ∧ bit ({} : TrainSight).peerCap 1 = true := by decide
theorem wit_DieLinkTrainingAndCapability_retrain : Awake ⟨1000000, 0⟩ { grpUp {} with start := { capFixed := true } } ∧ ({ grpUp {} with start := { capFixed := true } } : State).fld (grpReg 11 63) F.flrGrpState < 3 ∧ (({ grpUp {} with start := { capFixed := true } } : State).group 11 63).upAt = none ∧ ({ grpUp {} with start := { capFixed := true } } : State).trainOk {} = true := by decide
theorem wit_DieLinkTrainingAndCapability_stepBound : Awake ⟨2000, 0⟩ (worded.putF (grpReg 11 63) F.flrGrpState 1) ∧ (worded.putF (grpReg 11 63) F.flrGrpState 1).start.capFixed = true ∧ (worded.putF (grpReg 11 63) F.flrGrpState 1).start.compat = false ∧ (worded.putF (grpReg 11 63) F.flrGrpState 1).fld (grpReg 11 63) F.flrGrpState = 1 ∧ ((worded.putF (grpReg 11 63) F.flrGrpState 1).group 11 63).stepAt ≤ 0 ∧ 0 + ([0, 20000, 20000, 5000, 10000, 20000, 1000, 100000, 6000, 2000] : List Nat).getD 9 0 ≤ ((worded.putF (grpReg 11 63) F.flrGrpState 1).at ⟨2000, 0⟩).now ∧ (worded.putF (grpReg 11 63) F.flrGrpState 1).fld (grpReg 11 63) F.flrGrpFailRun < 2 := by decide
/-- A millisecond after the first group met step 3. -/
def wordDue : State := { inDev .bringup with start := { firstStep3 := some 0 } }
theorem wordDue_due (s : State) (u : Nat) (h : s.start.firstStep3 = some u) (hu : u + 1000000 ≤ s.now) : s.capDue = true := by
  simp [State.capDue, h, hu]
theorem wit_DieLinkTrainingAndCapability_word : Awake ⟨1000000, 0⟩ wordDue ∧ wordDue.dev = .bringup ∧ wordDue.start.capFixed = false ∧ (wordDue.at ⟨1000000, 0⟩).capDue = true :=
  ⟨by decide, by decide, by decide, wordDue_due _ 0 (by decide) (by decide)⟩
theorem wit_DieLinkTrainingAndCapability_reset : 3 < 4 ∧ Awake t0 up ∧ up.dev = .run := by decide

theorem wit_TimeBase_tod : 3 < 4 ∧ Awake t0 up ∧ up.monitors = true ∧ todOk 0xB5 0 (2 ^ 20) (BitVec.ofNat 16 (todCheck 0xB5 0 (2 ^ 20))) true = true ∧ todOk 0xB5 0 1 0 true = false := by decide +kernel
/-- Every tile awaits the edge that 3 × 2^20 names; every tile is loaded, then checked. -/
def named : State := { up with times := (List.range 4).map fun n => (n, { named := some (3 * 2 ^ 20), lastNext := some (3 * 2 ^ 20), pairOk := true }) }
def loadedT : State := { up with times := (List.range 4).map fun n => (n, { loaded := true, offset := 4 }) }
def checkedT : State := { up with times := (List.range 4).map fun n => (n, { loaded := true, checked := true, offset := -5 }) }
theorem wit_TimeBase_edgeLoad : Awake ⟨100000, 0⟩ named ∧ named.monitors = true ∧ (∀ n, n < 4 → named.holdover n = false) ∧ (named.time 3).loaded = false ∧ (named.time 3).pairOk = true ∧ (named.time 3).named = some (3 * 2 ^ 20) ∧ (named.time 3).namedAt + 100000 ≤ (named.at ⟨100000, 0⟩).now ∧ (named.at ⟨900000, 0⟩).now ≤ (named.time 3).namedAt + 900000 := by decide
theorem wit_TimeBase_edgeCheck : ∀ n, n < 4 → (loadedT.time n).loaded = true ∧ (loadedT.time n).checked = false ∧ -4 ≤ (loadedT.at t0).syncError n ∧ (loadedT.at t0).syncError n ≤ 4 := by decide
theorem wit_TimeBase_edgeLost : checkedT.dev = .run ∧ ∃ n, n < 4 ∧ (checkedT.time n).loaded = true ∧ (checkedT.time n).checked = true ∧ ((checkedT.at t0).syncError n < -4 ∨ 4 < (checkedT.at t0).syncError n) := by decide
def lockedT : State := (up.putB (Reg.tcStatus 3) F.tcStatusLocked true).setTime 3 { loaded := true, misses := 1, expectAt := 0 }
theorem wit_TimeBase_missed : Awake ⟨5, 0⟩ lockedT ∧ (∃ n, n < 4 ∧ (lockedT.time n).loaded = true ∧ lockedT.holdover n = false ∧ (lockedT.time n).expectAt + 4 < (lockedT.at ⟨5, 0⟩).now ∧ 1 ≤ (lockedT.time n).misses) ∧ (∀ n, n < 4 → (lockedT.time n).loaded = false ∨ lockedT.holdover n = true ∨ (lockedT.at ⟨4, 0⟩).now ≤ (lockedT.time n).expectAt + 4) := by decide
theorem wit_TimeBase_mark : 11 < 12 ∧ Awake t0 (up.setTower 11 { copyValid := true }) ∧ ((up.setTower 11 { copyValid := true }).tower 11).copyValid = true ∧ (((up.setTower 11 { copyValid := true }).copyTc 11).toNat : Int) - ((2 : BitVec 64).toNat : Int) < -1 ∧ -1 ≤ (((up.setTower 11 { copyValid := true }).copyTc 11).toNat : Int) - ((1 : BitVec 64).toNat : Int) := by decide
theorem wit_TimeBase_refclk : (Awake t0 up ∧ up.monitors = true ∧ up.dev = .run) ∧ (Awake t0 (inDev .join) ∧ (inDev .join).monitors = true) ∧ (Awake t0 (inDev .bringup) ∧ (inDev .bringup).monitors = true) := by decide
theorem wit_TimeBase_disciplineLate : Awake ⟨150000000, 0⟩ (inDev .bringup) ∧ (inDev .bringup).dev = .bringup ∧ ∃ n, n < 4 ∧ (inDev .bringup).locked n = false ∧ ((inDev .bringup).time n).began + 150000000 ≤ ((inDev .bringup).at ⟨150000000, 0⟩).now := by decide
def capable : State := up.putF (Reg.flrCap 3) F.flrCapPackageCap 0x20
theorem wit_TimeBase_ratio : 3 < 4 ∧ Awake t0 capable ∧ bit (capable.fld (Reg.flrCap 3) F.flrCapPackageCap) 5 = true ∧ F.flrClkRatioW.get 6 = 2 ∧ F.flrClkRatioE.get 6 = 1 ∧ bit (up.fld (Reg.flrCap 3) F.flrCapPackageCap) 5 = false := by decide
theorem wit_TimeBase_ratioChanged : Awake t0 { up with ratios := [(7, 10)] } ∧ assoc ({ up with ratios := [(7, 10)] } : State).ratios (4 + 3) = 9 + 1 ∧ assoc ({ up with ratios := [(7, 10)] } : State).ratios 3 = 0 := by decide

/-- A ring in each state, at code 8192. -/
def ringIn (st : Nat) (h : Ring) : State := { (((inDev .bringup).putF (Reg.rplMod 20 7 1) F.rplModState st).putF (Reg.rplMod 20 7 1) F.rplModHeater 8192).setRing (Reg.rplMod 20 7 1) h with start := { laserDone := true } }
/-- The code that a service gives modulator ring 20 7 1. -/
def served (s : State) (quantity trim : Int) : Nat := clampCode ((s.heater (.ringMod 20 7 1) : Int) - (s.ring (ringAddr (.ringMod 20 7 1))).dither - (s.ring (ringAddr (.ringMod 20 7 1))).trim + loopStep (s.ring (ringAddr (.ringMod 20 7 1))).gain (s.loopError (.ringMod 20 7 1) quantity) + s.biasTap (.ringMod 20 7 1) + s.ditherOf (.ringMod 20 7 1) + s.trimOf (.ringMod 20 7 1) trim)
theorem wit_Rings_service : RingId.ok (.ringMod 20 7 1) = true ∧ Awake t0 (ringIn 1 { smallRun := 7 }) ∧ (ringIn 1 { smallRun := 7 }).ringState (.ringMod 20 7 1) = 1 ∧ ((ringIn 1 { smallRun := 7 }).ring (ringAddr (.ringMod 20 7 1))).again = false ∧ ((ringIn 1 { smallRun := 7 }).ring (ringAddr (.ringMod 20 7 1))).nextAt ≤ 0 ∧ ((ringIn 1 { smallRun := 7 }).at t0).misheard (.ringMod 20 7 1) = none ∧ headroomLow (served (ringIn 1 { smallRun := 7 }) ((ringIn 1 { smallRun := 7 }).loopQuantity (.ringMod 20 7 1) 1 2) 0) = false ∧ (ringIn 5 {}).ringState (.ringMod 20 7 1) = 5 := by decide
/-- A drop ring of receiver 20, locked, that has heard channel 63 instead of its own for 10,000 ticks; its spacing is 100 taps. -/
def mishears : State := ((((inDev .run).putF (Reg.rplDrop 20 7 39) F.rplModState 2).putF (Reg.rplDrop 20 7 39) F.rplModHeater 8192).setCal 8 (ringItem (.ringDrop 20 7 39)).1 (ringItem (.ringDrop 20 7 39)).2 100).setRx (.ring (chanSrc 20 39)) 20 { mismatch := [(64 * (2 * 7 + 39 % 2) + 63, 1)] }
theorem wit_Rings_hop : RingId.ok (.ringDrop 20 7 39) = true ∧ mishears.ringState (.ringDrop 20 7 39) = 2 ∧ (mishears.at ⟨10001, 0⟩).misheard (.ringDrop 20 7 39) = some 63 ∧ (mishears.ring (ringAddr (.ringDrop 20 7 39))).hopRun < 3 ∧ ringChannel (chanSrc 20 39) (39 % 2) < 63 ∧ mishears.spacing (.ringDrop 20 7 39) = 100 ∧ (8192 : Int) + 100 ≤ 16383 ∧ mishears.heater (.ringDrop 20 7 39) = 8192 := by decide +kernel
/-- BRINGUP with light: the modulators are tried first. -/
def litRings : State := (ringIn 0 {}).wr Reg.onxCalStatus 0
theorem wit_Rings_acquisition : RingId.ok (.ringMod 20 7 1) = true ∧ Awake t0 litRings ∧ (litRings.at t0).acquirable (.ringMod 20 7 1) = true ∧ (inDev .bringup).acquirable (.ringMod 20 7 1) = false ∧ lockFound { direct := some 16383 } 8192 = some 16383 ∧ lockFound { search := some 8200 } 8192 = some 8200 ∧ lockFound { sweep := [8, 16376] } 8192 = some 8 ∧ lockFound {} 8192 = none := by decide
theorem wit_Rings_retry : Awake t0 (ringIn 1 { tries := 2, again := true }) ∧ (ringIn 1 { tries := 2, again := true }).ringState (.ringMod 20 7 1) = 1 ∧ ((ringIn 1 { tries := 2, again := true }).ring (ringAddr (.ringMod 20 7 1))).again = true ∧ ((ringIn 1 { tries := 2, again := true }).ring (ringAddr (.ringMod 20 7 1))).retryAt ≤ ((ringIn 1 { tries := 2, again := true }).at t0).now ∧ ((ringIn 1 { tries := 2, again := true }).ring (ringAddr (.ringMod 20 7 1))).tries = 2 ∧ ((ringIn 1 { tries := 1, again := true }).ring (ringAddr (.ringMod 20 7 1))).tries < 2 := by decide
/-- Channel 0 of source 0 toward receiver 1 is on its way to 20,000; the same with the receiver fenced. -/
def weightUp : State := up.putF (Reg.rplWgt 1 7 (chanIx 1 0 1)) F.rplWgtTarget 20000
theorem wit_WeightsAndCalibration_weight : 0 < 21 ∧ Awake t0 weightUp ∧ weightUp.pendingWeights 0 7 1 = [1] ∧ weightUp.ringFenced 1 = false := by decide +kernel
theorem wit_WeightsAndCalibration_fenced : (weightUp.putF (Reg.rplFence 0) F.rplFenceFenced 2).pendingWeights 0 7 1 = [1] ∧ (weightUp.putF (Reg.rplFence 0) F.rplFenceFenced 2).ringFenced 1 = true := by decide +kernel
theorem wit_WeightsAndCalibration_kept : 3 < 4 ∧ Awake t0 up ∧ up.dev = .run ∧ 12 * 3 + 10 ≤ 46 := by decide
/-- A start on tile 3 for which no set was found, with light. -/
def coldS : State := { (inDev .bringup).putF Reg.onxCalStatus (calField 3 true) 3 with start := { laserDone := true }, onyx := { round := 1 } }
theorem wit_WeightsAndCalibration_cold : Awake t0 coldS ∧ coldS.coldDue 3 = true ∧ (inDev .bringup).coldDue 3 = false ∧ overridesOf (coldS.section_ 7) = [] ∧ (⟨3, 0, 5⟩ : CalItem).cls ≠ 4 := by decide
theorem wit_WeightsAndCalibration_adapt : AdaptItem.ok (.threshold 3 0) = true ∧ AdaptItem.ok (.deskew 11 63 1 267) = true ∧ Awake t0 up ∧ (up.at t0).tapDue 3 3 0 = true ∧ ({ up with adapts := [(adaptKey 3 3 0, 1)] } : State).tapDue 3 3 0 = false ∧ (up.at t0).tapDue 4 (11 / 3) (((11 % 3 * 64 + 63) * 2 + 1) * 268 + 267) = true ∧ assoc up.deskews (11 / 3 * 102912 + ((11 % 3 * 64 + 63) * 2 + 1) * 268 + 267) = 0 := by decide
theorem wit_LaserMarginAndQuality_laser : Awake t0 (inDev .bringup) ∧ (inDev .bringup).dev = .bringup ∧ (∃ v ∈ [(1 : Nat)], bit v 0 = true) ∧ (∀ v ∈ [(0 : Nat)], bit v 0 = false) ∧ (inDev .bringup).fld (Reg.rplTxStatus 0) F.rplTxStatusWlFailed = 0 ∧ (inDev .bringup).flag Reg.onxLightPolicy F.onxLightPolicyHalfWidthPolicy = false := by decide
/-- The measured powers of inputs all of whose lines have 0 dBm: 42 lines give 16.23 dBm, 16 give 12.04 dBm. -/
def measured0 : List Int := (List.range 32).map fun f => if f % 8 < 2 then 1623 else 1204
theorem wit_LaserMarginAndQuality_power : ∀ f, f < 32 → (totalPower ((inputLines f).map fun c => ((inDev .bringup).line f c).toNat) - measured0.getD f (-32768)).natAbs ≤ 300 := by decide +kernel
/-- The rings of the links of tile 3's last lane are locked. -/
def lockedRings (l : MarginLink) : State := { inDev .bringup with regs := (linkRings l).map fun g => (ringAddr g, F.rplModState.put 0 2) }
theorem wit_LaserMarginAndQuality_margin : MarginLink.ok (.lane 31 18 19) = true ∧ Awake t0 (lockedRings (.lane 31 18 19)) ∧ ((lockedRings (.lane 31 18 19)).at t0).marginDue (.lane 31 18 19) = true ∧ (lockedRings (.lane 31 18 19)).ringsLocked (.lane 31 18 19) = true := by decide +kernel
theorem wit_LaserMarginAndQuality_marginFibre : MarginLink.ok (.fibre 31) = true ∧ ({ inDev .bringup with start := { tested := [0, 1] } } : State).marginDue (.fibre 31) = true := by decide +kernel
theorem wit_LaserMarginAndQuality_figures : 300 ≤ linkMargin [{ swing := 1000, noise := 1 }] ∧ linkMargin [{ swing := 1, noise := 1 }] < 50 ∧ linkMargin [] < 50 := by decide +kernel
theorem wit_LaserMarginAndQuality_quality : MarginLink.ok (.ring 20 0 1) = true ∧ 15 < 16 ∧ Awake t0 up ∧ (∃ a, qualAddr 15 (.ring 20 0 1) = some a) ∧ qualAddr 15 (.ring 20 20 1) = none :=
  ⟨by decide, by decide, by decide, ⟨_, rfl⟩, by decide⟩
theorem wit_LaserMarginAndQuality_fault : up.dev = .run ∧ (inDev .hold).dev ≠ .run := by decide
/-- A check that passes. -/
theorem check_at (s : State) (p : Packet) (n w l : Nat) (need : Need) (shape load : Bool) (hd : s.dev = .run) (hj : s.jobAllows p.job p.originPkg = true)
    (hs : shape = true) (hi : placeOf (localAddr p.addr) ≠ .info) (hw : s.window p.job (localAddr p.addr) n = some w)
    (hl : l = s.fld (Reg.fabWin1 p.job w) F.fabWin1LocalBase + (localAddr p.addr - s.fld (Reg.fabWin0 p.job w) F.fabWin0MatchBase))
    (ha : s.winAllows p.job w need = true) (h0 : (placeOf l).served = true) (h1 : (placeOf (l + n - 1)).served = true) (hc : s.copyAt l = none) :
    s.check p n need shape load = .at_ l := by
  subst hl
  simp [State.check, hd, hj, hs, hi, hw, ha, h0, h1, hc]

/-! Witnesses: the optical planes, arbiters, routes and memory. -/

/-- A flit with its own CRC, and the same damaged. -/
def goodFlit : Flit := mkFlit 7 1 0
theorem wit_OpticalLinks_flit : Link.ok (.ring 20) = true ∧ 63 < 64 ∧ Awake t0 up ∧ badFlit goodFlit {} = false ∧ badFlit { goodFlit with crc := goodFlit.crc + 1 } {} = true ∧ badFlit goodFlit { symErrors := [5] } = true ∧ goodFlit.type = 1 ∧ ({ expect := 7 } : RxLink).expect = goodFlit.seq := by decide +kernel
theorem wit_OpticalLinks_send : 20 < 21 ∧ Awake t0 up ∧ up.ringFenced 20 = false ∧ (up.putF (Reg.rplFence 0) F.rplFenceFenced 0x100000).ringFenced 20 = true := by decide
theorem wit_OpticalLinks_receive : 20 < 21 ∧ 0 < 21 ∧ 4095 < 4096 ∧ Awake t0 up ∧ (∀ k ∈ (up.tx (.ring 0)).naks, k.1 ≠ 20) := by decide
def unacked : State := up.setTx (.fibreOut 31) { replay := [(goodFlit, 0)] }
theorem wit_OpticalLinks_timeout : Link.ok (.fibreOut 31) = true ∧ Awake ⟨2000, 0⟩ unacked ∧ (unacked.tx (.fibreOut 31)).replay = (goodFlit, 0) :: [] ∧ 0 + 2000 ≤ (unacked.at ⟨2000, 0⟩).now ∧ (unacked.at ⟨1999, 0⟩).now < 0 + 2000 := by decide +kernel
/-- One packet waits at input 15 of transmitter 20. -/
def barPkt : Packet := { cls := 0xA, op := 3, hopDst := 2, hopSrc := 20 }
def granting : State := up.setQueue 20 15 [barPkt]
theorem wit_OpticalLinks_grant : 20 < 21 ∧ 15 < 16 ∧ Awake t0 granting ∧ (granting.at t0).purge 20 0 = granting.at t0 ∧ (granting.at t0).arbBusy (.tx 20) 0 = false ∧ (∀ i, i < 16 → (granting.at t0).eligible 20 i = decide (i = 15)) ∧ (∃ i, i < 16 ∧ (granting.at t0).codeAt (.tx 20) i = 15) ∧ (granting.at t0).queue 20 15 = barPkt :: [] := by decide +kernel
/-- Tile 3 has loaded phase 255 with setting 9 for lane 7 of the tile. -/
def phased : State := (up.wr (Reg.lplPhase 3 255 1) (BitVec.ofNat 64 (9 * 2 ^ 48))).setLattice 3 { phases := [255], settings := [9] }
def cmd7 : BitVec 64 := BitVec.ofNat 64 (255 * 2 ^ 56 + 2 ^ 31)
theorem wit_LatticeRequests_discard : 3 < 4 ∧ Awake t0 up ∧ bits cmd7.toNat 55 32 = 0 ∧ bits cmd7.toNat 63 56 ∉ (up.lattice 3).phases := by decide
theorem wit_LatticeRequests_request : 3 < 4 ∧ 255 < 256 ∧ 7 < 8 ∧ Awake t0 phased ∧ cmd7.toNat = 255 * 2 ^ 56 + 2 ^ (8 * 3 + 7) ∧ (phased.lattice 3).queue = [] ∧ (phased.lattice 3).active = [] ∧ 255 ∈ (phased.lattice 3).phases ∧ (phased.phaseEntry 3 255 7).1 = false ∧ (phased.phaseEntry 3 255 7).2 ∈ (phased.lattice 3).settings ∧ phased.fld (Reg.lplLane 3 7) F.lplLaneState ≠ 6 ∧ phased.fld (Reg.lplLane 3 7) F.lplLanePhase ≠ 255 := by decide
def requested : State := up.setLattice 3 { queue := [{ lanes := [(7, 255)], r := 1024 }] }
theorem wit_LatticeRequests_boundary : Awake ⟨1024, 0⟩ requested ∧ (requested.lattice 3).queue = [{ lanes := [(7, 255)], r := 1024 }] ∧ (requested.lattice 3).active = [] ∧ 1024 ≤ ((requested.at ⟨1024, 0⟩).tc 3).toNat ∧ ((requested.at ⟨1023, 0⟩).tc 3).toNat < 1024 ∧ requested.fld (Reg.lplLane 3 7) F.lplLaneState ≠ 6 := by decide
/-- Lane 7 of tile 3 in state `st`, in a reconfiguration with start boundary b. -/
def moving (st : Nat) (b : Option Nat) : State := (up.putF (Reg.lplLane 3 7) F.lplLaneState st).setLattice 3 { active := [{ lanes := [(7, 255)], b := b }] }
theorem wit_LatticeReconfiguration_start : Awake ⟨1024, 0⟩ (moving 1 none) ∧ ((moving 1 none).lattice 3).active = [{ lanes := [(7, 255)], b := none }] ∧ ((moving 1 none).at ⟨1024, 0⟩).drained (8 * 3 + 7) = true ∧ (moving 1 none).fld (Reg.lplLane 3 7) F.lplLaneState ≠ 6 ∧ ((moving 1 none).lane (8 * 3 + 7)).rotations = [] ∧ (((moving 1 none).at ⟨1024, 0⟩).tc 3).toNat % 1024 = 0 ∧ (((moving 1 none).at ⟨1025, 0⟩).tc 3).toNat % 1024 ≠ 0 := by decide
theorem wit_LatticeReconfiguration_settle : Awake ⟨600, 0⟩ (moving 2 (some 0)) ∧ ((moving 2 (some 0)).lattice 3).active = [{ lanes := [(7, 255)], b := some 0 }] ∧ (moving 2 (some 0)).fld (Reg.lplLane 3 7) F.lplLaneState = 2 ∧ 0 + 600 ≤ (((moving 2 (some 0)).at ⟨600, 0⟩).tc 3).toNat := by decide
theorem wit_LatticeReconfiguration_reopen : Awake ⟨2048, 0⟩ ((moving 3 (some 0)).setLane 31 { relocked := true }) ∧ 0 + 2048 ≤ (((moving 3 (some 0)).at ⟨2048, 0⟩).tc 3).toNat ∧ (moving 3 (some 0)).fld (Reg.lplLane 3 7) F.lplLaneState ≠ 6 ∧ 8 * 3 + 7 ∈ [31] ∧ (((moving 3 (some 0)).setLane 31 { relocked := true }).lane 31).relocked = true ∧ ((moving 3 (some 0)).lane 31).relocked = false := by decide
theorem wit_LatticeReconfiguration_late : Awake ⟨1024, 0⟩ (moving 5 none) ∧ (moving 5 none).fld (laneReg 31) F.lplLaneState = 5 ∧ (((moving 5 none).at ⟨1024, 0⟩).tc (31 / 8)).toNat % 1024 = 0 := by decide
theorem wit_LatticeReconfiguration_fence : Awake ⟨16384, 0⟩ (moving 5 none) ∧ (moving 5 none).ops = [] ∧ ((moving 5 none).lane 31).b + 16384 ≤ (((moving 5 none).at ⟨16384, 0⟩).tc (31 / 8)).toNat := by decide
/-- A frame of endpoint 2 to endpoint 5 waits for lane 3, whose setting 0 connects them. -/
def frame25 : Frame := { kind := 1, src := 2, dst := 5, data := List.replicate 64 3, members := 0 }
def framed : State := (up.setFrames 2 3 [frame25]).wr (Reg.lplSetSrc 0 0 0) (BitVec.ofNat 64 (2 * 2 ^ 40))
theorem wit_LatticeFrames_start : 2 < 20 ∧ Awake t0 framed ∧ framed.framesAt 2 3 = frame25 :: [] ∧ framed.laneOpen 3 = true ∧ (∀ d ∈ frameReceivers frame25, framed.laneSrc 3 d = 2) ∧ framed.mayStart (.lane 2 3) (frameReceivers frame25) (frameFlits frame25).length = true := by decide
theorem wit_LatticeFrames_fallback : Awake t0 (up.setFrames 2 3 [frame25]) ∧ (up.setFrames 2 3 [frame25]).laneOpen 3 = true ∧ (∃ d ∈ frameReceivers frame25, (up.setFrames 2 3 [frame25]).laneSrc 3 d ≠ 2) := by decide

/-- Job context 0 allows package 0 and has one window over all addresses, onto themselves, with every permission. -/
def job : State := (((up.putB (Reg.fabJobCtrl 0) F.fabJobCtrlValid true).wr (Reg.fabJobSrc 0) 1).wr (Reg.fabWin0 0 0) 0xFB00000000000000)
theorem job_noCopy (s : State) (h : s.regs = job.regs) (a : Nat) : s.copyAt a = none := copyAt_none s a (by rw [h]; decide)
theorem job_noRegion (s : State) (h : s.regs = job.regs) (a : Nat) : s.regionAt a = none := regionAt_none s a (by rw [h]; decide)
theorem wit_LatticeFrames_receive : Awake t0 framed ∧ frame25.phase = framed.fld (laneReg 3) F.lplLanePhase ∧ frame25.src = framed.laneSrc 3 5 ∧ 5 ∈ frameReceivers frame25 ∧ 5 < 16 ∧ frame25.kind = 1 ∧ frame25.poison = false := by decide
theorem wit_LatticeFrames_store : (job.at t0).check (framePacket frame25) frame25.data.length .wr (linesOk (localAddr frame25.addr) frame25.data.length) false = .at_ 0 ∧ ∃ k o, placeOf 0 = .hbm k o :=
  ⟨check_at _ _ _ 0 0 _ _ _ (by decide) (by decide) (by decide) (by decide) (by decide) (by decide) (by decide) (by decide) (by decide) (job_noCopy _ rfl _), 0, 0, by decide⟩
theorem wit_ArbiterFreezeAndMap : Arbiter.ok (.vault 3071) = true ∧ Arbiter.ok (.tx 20) = true ∧ Arbiter.ok (.channel 15 31) = true ∧ Awake t0 up ∧ mapOk (.channel 15 31) 0x01234567 = true ∧ mapOk (.channel 15 31) 0x01234566 = false := by decide
theorem wit_ArbiterFreezeAndMap_apply : (up.setArb (.channel 15 31) { pendingMap := some 5 }).arbBusy (.channel 15 31) 0 = false ∧ ((up.setArb (.channel 15 31) { pendingMap := some 5 }).arb (.channel 15 31)).pendingMap = some 5 := by decide
/-- A write and a read of the last line of channel 31 within a populated stack. -/
def lastLine : Nat := 79999999936
def wq15 : PortReq := { code := 7, write := true, addr := 0x7C0, data := List.replicate 64 5 }
def rq15 : PortReq := { code := 2, addr := 0x7C0, data := List.replicate 64 0 }
theorem wit_HbmChannelsAndUpkeep_grant : 15 < 16 ∧ 31 < 32 ∧ Awake t0 up ∧ wq15.code ≠ 0 ∧ rq15.code ≠ 0 ∧ wq15.addr < stackSize ∧ lineChannel wq15.addr = 31 ∧ (up.arb (.channel 15 31)).takes wq15 (up.at t0).now = true ∧ (up.arb (.channel 15 31)).takes rq15 (up.at t0).now = true ∧ (up.at t0).arbBusy (.channel 15 31) 0 = false ∧ (∃ i, i < 8 ∧ up.codeAt (.channel 15 31) i = wq15.code) ∧ (∃ i, i < 8 ∧ up.codeAt (.channel 15 31) i = rq15.code) ∧ wq15.data.length = 64 ∧ rq15.data.length = 64 ∧ lastLine < stackSize := by decide
theorem wit_HbmChannelsAndUpkeep_merge : 2 < 8 ∧ up.codeAt (.channel 15 31) 2 = rq15.code ∧ (∀ j, j < 2 → up.codeAt (.channel 15 31) j ≠ rq15.code) ∧ (∃ e ∈ ((up.setArb (.channel 15 31) { merge := [([31], 0)] }).arb (.channel 15 31)).merge, e.1 = [rq15.addr / 64] ∧ e.2 ≤ (up.at ⟨16, 0⟩).now ∧ (up.at ⟨16, 0⟩).now ≤ e.2 + 16) := by decide
theorem wit_HbmChannelsAndUpkeep_refresh : 15 < 16 ∧ 31 < 32 ∧ Awake t0 up ∧ 31 / 8 = (3 : BitVec 2).toNat := by decide
theorem wit_HbmChannelsAndUpkeep_init : Awake t0 (inDev .bringup) ∧ (inDev .bringup).dev = .bringup := by decide
theorem wit_HbmChannelsAndUpkeep_scrub : Awake t0 (up.putF (Reg.hbmScrub 15) F.hbmScrubPosition lastLine) ∧ (up.putF (Reg.hbmScrub 15) F.hbmScrubPosition lastLine).fld (Reg.hbmScrub 15) F.hbmScrubPosition = lastLine ∧ lastLine < stackSize ∧ stackSize ≤ lastLine + 64 ∧ up.dev = .run := by decide
theorem wit_HbmChannelsAndUpkeep_temp : Awake t0 up ∧ (104 : Nat) < 105 ∧ 105 ≤ 105 ∧ ¬ 85 < 85 ∧ 85 < 86 := by decide
/-- A flip to epoch 5 is named for carat 1. -/
def flipping : State := up.wr Reg.fabRtCtrl 0x5080000000000001
theorem wit_RoutesAndEpochs_flip : Awake ⟨1024, 0⟩ flipping ∧ flipping.flag Reg.fabRtCtrl F.fabRtCtrlPending = true ∧ flipping.flag Reg.fabRtCtrl F.fabRtCtrlPrevLocked = false ∧ 1024 * flipping.fld Reg.fabRtCtrl F.fabRtCtrlFlipCarat ≤ (flipping.at ⟨1024, 0⟩).tcNat ∧ (flipping.at ⟨1024, 0⟩).tcNat % 1024 = 0 := by decide
theorem wit_RoutesAndEpochs_name : Awake t0 up ∧ F.fabRtCtrlNextEpoch.get 0x5000000000000001 ≠ up.fld Reg.fabRtCtrl F.fabRtCtrlCurEpoch ∧ F.fabRtCtrlNextEpoch.get 0x0000000000000001 = up.fld Reg.fabRtCtrl F.fabRtCtrlCurEpoch := by decide
theorem wit_RoutesAndEpochs_write : 20 < 21 ∧ 63 < 64 ∧ Awake t0 up ∧ b2n true ≠ up.fld Reg.fabRtCtrl F.fabRtCtrlCurrentBank ∧ b2n false = up.fld Reg.fabRtCtrl F.fabRtCtrlCurrentBank ∧ up.flag Reg.fabRtCtrl F.fabRtCtrlPrevLocked = false := by decide
/-- Requests at memory endpoint 0 (ring 5) and at tower 0 (ring 2). -/
def ld : Packet := { cls := 8, op := 1, addr := 0x40 }
def st4k : Packet := { cls := 8, op := 2, addr := 0x1000, data := List.replicate 4096 1 }
def mst : Packet := { cls := 8, op := 3, addr := 0x020000000000, data := List.replicate 64 1 }
theorem wit_LoadsAndStores_reserved : reservedOp 0 = true ∧ reservedOp 7 = true ∧ reservedOp 15 = true ∧ reservedOp 26 = true ∧ (ringMem 5).isSome ∧ Awake t0 job := by decide
theorem wit_LoadsAndStores_load : 5 < 21 ∧ Awake t0 job ∧ (ringMem 5).isSome ∧ (job.at t0).checkLoad ld true = .at_ 0x40 ∧ placeOf 0x40 = .hbm 0 0x40 ∧ (job.at t0).latticeReply 5 ld = false ∧ 0x40 % 64 = 0 := by decide
theorem wit_LoadsAndStores_noCopy : (job.at t0).copyAt 0x40 = none := job_noCopy _ rfl _
theorem wit_LoadsAndStores_loadEnds : (up.at t0).checkLoad ld true = .ends .denied ∧ ((inDev .hold).at t0).checkLoad ld true = .ends .notReady ∧ (job.at t0).checkLoad { ld with addr := 0x030000000000 } true = .info := by decide
theorem wit_LoadsAndStores_store : Awake t0 job ∧ st4k.data.length = 4096 ∧ (job.at t0).check st4k 4096 .wr (linesOk (localAddr st4k.addr) 4096) false = .at_ 0x1000 :=
  ⟨by decide, List.length_replicate, check_at _ _ _ 0 _ _ _ _ (by decide) (by decide) (by decide) (by decide) (by decide) (by decide) (by decide) (by decide) (by decide) (job_noCopy _ rfl _)⟩
theorem wit_LoadsAndStores_mstore : 12 < 21 ∧ Awake t0 job ∧ (ringTower 12).isSome ∧ castAddr 12 mst.addr = 0x020B00000000 ∧ placeOf 0x020B00000000 = .vault 2816 0 ∧ job.coreFenced 2816 = false ∧ (job.core 2816).landing = [] ∧ (job.core 2816).array = none := by decide
theorem wit_LoadsAndStores_mstoreCheck : (job.at t0).check { mst with addr := castAddr 12 mst.addr } 64 .wr (linesOk (localAddr (castAddr 12 mst.addr)) 64) false = .at_ 0x020B00000000 :=
  check_at _ _ _ 0 _ _ _ _ (by decide) (by decide) (by decide) (by decide) (by decide) (by decide) (by decide) (by decide) (by decide) (job_noCopy _ rfl _)
/-- A fetch-and-add of 8 bytes (op 16), the first and the last atomic. -/
def atom (op : Nat) (inc : Nat) : Packet := { cls := 8, op := op, addr := 8, aux := BitVec.ofNat 64 (2 ^ 52 + inc) }
theorem wit_AtomicsAndFlags_atomic : Awake t0 job ∧ 16 ≤ (atom 16 0).op ∧ (atom 25 0).op ≤ 25 ∧ bit (atom 16 0).aux.toNat 52 = true ∧ placeOf 8 = .hbm 0 8 ∧ 8 % 8 = 0 ∧ bits (atom 16 0).aux.toNat 31 0 = job.inc ∧ bits (atom 16 1).aux.toNat 31 0 ≠ job.inc ∧ job.cached (unitOf 8) (atom 16 0) = none ∧ job.mark (8 / 64 * 64) = .good := by decide
theorem wit_AtomicsAndFlags_check : (job.at t0).check (atom 25 0) 8 .at_ (decide (localAddr (atom 25 0).addr % 8 = 0)) false = .at_ 8 :=
  check_at _ _ _ 0 _ _ _ _ (by decide) (by decide) (by decide) (by decide) (by decide) (by decide) (by decide) (by decide) (by decide) (job_noCopy _ rfl _)
theorem wit_AtomicsAndFlags_cached : ({ job with cache := [{ unit := 0, old := 5 }] } : State).cached (unitOf 8) (atom 16 0) = some { unit := 0, old := 5 } := by decide
def flagTo (c f : Nat) : Packet := { cls := 0xC, op := 1, aux := BitVec.ofNat 64 (c * 256 + f) }
theorem wit_AtomicsAndFlags_flag : 12 < 21 ∧ Awake t0 job ∧ (ringTower 12).isSome ∧ bits (flagTo 3071 255).aux.toNat 19 8 = 3071 ∧ some (towerOf 3071) = ringTower 12 ∧ job.fld (Reg.coreJob 3071) F.coreJobJob = (flagTo 3071 255).job ∧ job.jobAllows 0 0 = true ∧ up.jobAllows 0 0 = false := by decide
/-- Region 0 covers 4 KiB at 0; package 0 holds a copy; the route to package 0 is valid. -/
def region : State := job.wr (Reg.fabReg0 0) 0x9800000000000000
def heldRegion : State := (region.wr (Reg.fabReg1 0) 1).wr (Reg.fabRt 5 0 0) 0x8000000000000000
def cpl : Packet := { cls := 8, op := 6, addr := 0x40 }
theorem wit_Copies_copyld : Awake t0 region ∧ (region.at t0).checkLoad cpl false = .at_ 0x40 ∧ placeOf 0x40 = .hbm 0 0x40 ∧ region.regionAt 0x40 = some 0 ∧ cpl.originPkg < 64 ∧ region.invOf 0 = none ∧ ({ region with invs := [(0, {})] } : State).invOf 0 = some {} := by decide +kernel
theorem region_noCopy (s : State) (h : ∀ x ∈ s.regs, x.1 < 0x4004000 ∨ 0x4110000 ≤ x.1) (a : Nat) : s.copyAt a = none := copyAt_none s a h
theorem wit_Copies_inv : (region.at t0).check { cpl with op := 4 } 1 .wr true false = .at_ 0x40 ∧ (heldRegion.at t0).check { cpl with op := 4 } 1 .wr true false = .at_ 0x40 :=
  ⟨check_at _ _ _ 0 _ _ _ _ (by decide) (by decide) (by decide) (by decide) (by decide) (by decide) (by decide) (by decide) (by decide) (region_noCopy _ (by decide) _),
   check_at _ _ _ 0 _ _ _ _ (by decide) (by decide) (by decide) (by decide) (by decide) (by decide) (by decide) (by decide) (by decide) (region_noCopy _ (by decide) _)⟩
theorem wit_Copies_invForms : job.regionAt 0x40 = none ∧ region.regionAt 0x40 = some 0 ∧ region.rd (Reg.fabReg1 0) = 0 ∧ heldRegion.rd (Reg.fabReg1 0) = BitVec.ofNat 64 (2 ^ 0) ∧ heldRegion.reaches 5 0 0 = true :=
  ⟨job_noRegion _ rfl _, by decide +kernel, by decide, by decide, by decide⟩
/-- Copy entry 255 of stack 15 is enabled, 4 KiB, source address 0 of package 0; the same while it is fetched, with a route. -/
def copyE : State := job.wr (Reg.hbmCopy0 15 255) 0x0C80000000000000
def fetchE : State := (job.wr (Reg.hbmCopy0 15 255) 0x4C80000000000000).wr (Reg.fabRt 15 0 0) 0x8800000000000000
theorem wit_Copies_invh : 15 < 21 ∧ Awake t0 copyE ∧ ringMem 15 = some 3 ∧ copyE.dev = .run ∧ copyE.jobAllows 0 0 = true ∧ 15 / 4 = 3 ∧ copyE.flag (Reg.hbmCopy0 15 255) F.hbmCopy0Enable = true ∧ copyE.fld (Reg.hbmCopy1 15 255) F.hbmCopy1Source = 0 := by decide
theorem wit_Copies_refetch : 15 < 16 ∧ 255 < 256 ∧ Awake t0 fetchE ∧ fetchE.flag (Reg.hbmCopy0 15 255) F.hbmCopy0Fetching = true ∧ (fetchE.fetchOf 15 255).next < 2 ^ fetchE.fld (Reg.hbmCopy0 15 255) F.hbmCopy0Size ∧ (fetchE.fetchOf 15 255).bad = none ∧ fetchE.freeTag (memRing (15 / 4)) = some 0 ∧ bit (fetchE.routeEntry (memRing (15 / 4)) (pkgOf 0)) 63 = true ∧ bits (fetchE.routeEntry (memRing (15 / 4)) (pkgOf 0)) 60 59 ≠ 0 := by decide +kernel
/-- Lane 7 of tile 3 in phase 0, whose setting 0 leads endpoint 2 to output 5; the same while it reconfigures. -/
def lit : State := up.wr (Reg.lplSetSrc 3 0 0) (BitVec.ofNat 64 (2 * 2 ^ 40))
theorem wit_OpticalLinks_hears : (Link.lane 2 31).ok = true ∧ (lit.at t0).hears (.lane 2 31) 5 = true ∧ (up.at t0).hears (.lane 2 31) 5 = false ∧
    ((lit.putF (Reg.lplLane 3 7) F.lplLaneState 2).at t0).hears (.lane 2 31) 5 = false := by decide +kernel
/-- A load's header names transmitter 2's receiver 5 and carries no data; a store's header has 64 flits to follow. -/
def loadHead : Nat := packetBody { cls := 8, op := 1, hopDst := 5, hopSrc := 2 }
def storeHead : Nat := packetBody { cls := 8, op := 2, hopDst := 5, hopSrc := 2, addr := 0x1000, data := List.replicate 4096 1 }
theorem wit_OpticalLinks_header : bodyFlits loadHead = 0 ∧ (Packet.names (bodyAny loadHead)).contains 5 = true ∧ (Packet.names (bodyAny loadHead)).contains 6 = false ∧
    bodyFlits storeHead = 64 ∧ badFlit (mkFlit 0 1 loadHead) {} = false ∧ badFlit (mkFlit 0 1 storeHead) {} = false := by decide +kernel
theorem wit_OpticalLinks_data : badFlit (mkFlit 4095 2 9) {} = false ∧ (mkFlit 4095 2 9).type = 2 ∧ ({ expect := 4095, skip := true, left := 1 } : RxLink).expect = (mkFlit 4095 2 9).seq ∧
    ({ expect := 4095, left := 2, pkt := some barPkt } : RxLink).pkt = some barPkt := by decide +kernel
theorem wit_OpticalLinks_idle : badFlit (mkFlit 0 0 0) {} = false ∧ (mkFlit 0 0 0).type = 0 ∧ (mkFlit 0 3 0).type = 3 ∧ Link.ok (.fibreIn 31) = true := by decide +kernel
/-- Receiver 5 owes an acknowledgement of transmitter 2's flits; the control slot at tick 0 is due, or has been used. -/
def owes : State := up.setRx (.ring 2) 5 { expect := 3 }
theorem wit_OpticalLinks_control : Link.ok (.ring 5) = true ∧ owes.ringFenced 5 = false ∧ (owes.at t0).controlSlot (.ring 5) = some 0 ∧ (owes.tx (.ring 5)).control ≠ 0 + 1 ∧
    ((owes.at t0).dueEntries (.ring 5)).map (fun x => x.1) = [1] ∧ ((owes.setTx (.ring 5) { control := 1 }).tx (.ring 5)).control = 0 + 1 ∧
    (owes.at ⟨1, 0⟩).controlSlot (.ring 5) = none ∧ (up.putF (Reg.rplFence 0) F.rplFenceFenced 0x20).ringFenced 5 = true := by decide +kernel
/-- Own link 2 has an unacknowledged flit 7; receiver 5 has asked for it twice. -/
def asked (n : Nat) : State := up.setTx (.ring 2) { replay := [(goodFlit, 0)], naks := [(5, 7, n)] }
theorem wit_OpticalLinks_entry : ownLink (.ring 5) 2 { kind := 1, plane := 0, peer := 2, lane := 0, value := 8 } = some (.ring 2, 5) ∧ ownLink (.ring 5) 2 { kind := 0, plane := 3, peer := 2, lane := 0, value := 8 } = none ∧
    ((asked 1).tx (.ring 2)).naks.find? (fun k => decide (k.1 = 5)) = some (5, 7, 1) ∧ ((asked 2).tx (.ring 2)).naks.find? (fun k => decide (k.1 = 5)) = some (5, 7, 2) := by decide +kernel
theorem wit_OpticalLinks_silent : [5, 6].Nodup ∧ Awake ⟨2000, 0⟩ (asked 0) ∧ ((asked 0).tx (.ring 2)).replay = (goodFlit, 0) :: [] ∧ (unacked.at t0).now < 0 + 2000 := by decide +kernel
theorem wit_OpticalLinks_slot : ((granting.putB (Reg.fabTxArbCtrl 20) F.fabTxArbCtrlFreeze true).at t0).flag (Reg.fabTxArbCtrl 20) F.fabTxArbCtrlFreeze = true ∧
    ((granting.setTx (.ring 20) { busyUntil := 17 }).at t0).arbBusy (.tx 20) 0 = true ∧
    (∀ k, k < 16 → (up.at t0).eligible 20 ((up.at t0).codeAt (.tx 20) k) = false) ∧ (up.at t0).arbBusy (.tx 20) 0 = false := by decide +kernel
/-- Lane 7 of tile 3 is busy from B = 0, with phase 255 loaded; sixteen requests wait; a request with the same R, and a rotation, waits. -/
def busyLat : State := phased.setLattice 3 { phases := [255], settings := [9], active := [{ lanes := [(7, 1)], b := some 0 }] }
def waitLat (q : List LatReq) : State := phased.setLattice 3 { phases := [255], settings := [9], queue := q }
theorem wit_LatticeRequests_busy : Awake t0 busyLat ∧ (busyLat.lattice 3).busyLane 7 = some { lanes := [(7, 1)], b := some 0 } ∧ caratUp (max 0 2048) = 2048 := by decide +kernel
theorem wit_LatticeRequests_full : 16 ≤ ((waitLat (List.replicate 16 { lanes := [(6, 1)], r := 4096 })).lattice 3).queue.length := by decide +kernel
theorem wit_LatticeRequests_join : ((waitLat [{ lanes := [(7, 1)], r := 0 }]).lattice 3).queue.find? (fun x => decide (x.r = 0)) = some { lanes := [(7, 1)], r := 0 } ∧
    clashes { lanes := [(7, 1)], r := 0 } { lanes := [(7, 255)], r := 0 } ≠ [] ∧ (∀ w ∈ ((waitLat [{ lanes := [(7, 256)], r := 1024 }]).lattice 3).queue, (7, 256) ∈ w.lanes) := by decide +kernel
theorem wit_LatticeRequests_affected : ((up.affected 3 { lanes := [(7, 255), (6, 0), (5, 256)] }).lanes) = [(7, 255), (5, 256)] ∧
    (((up.putF (Reg.lplLane 3 7) F.lplLaneState 6).affected 3 { lanes := [(7, 255)] }).lanes) = [] := by decide +kernel
theorem wit_LatticeRequests_none : (∀ j ∈ ([] : List Nat), ((up.phaseEntry 3 0 j).2 ∉ (up.lattice 3).settings)) ∧ bits (BitVec.ofNat 64 (2 ^ 32)).toNat 55 32 ≠ 0 := by decide
/-- A rotation of the modulator bank of endpoint 19 waits for lane 31's reconfiguration. -/
def rotating : State := ((up.putF (Reg.lplLane 3 7) F.lplLaneState 1).setLattice 3 { active := [{ lanes := [(7, 256)], b := none }] }).setLane 31 { rotations := [(19, true, true)] }
theorem wit_LatticeReconfiguration_rotate : Awake ⟨1024, 0⟩ rotating ∧ (rotating.lattice 3).active = [{ lanes := [(7, 256)], b := none }] ∧ (256 : Nat) ≤ 256 ∧
    (rotating.lane (8 * 3 + 7)).rotations = [(19, true, true)] ∧ (rotating.at ⟨1024, 0⟩).drained (8 * 3 + 7) = true ∧ rotating.fld (Reg.lplLane 3 7) F.lplLaneState ≠ 6 := by decide +kernel
theorem wit_LatticeReconfiguration_heard : rotationOf ((List.range 16).map fun m => 2 * ((m + 16 - 15) % 16) + 1) = some 15 ∧ rotationOf (List.replicate 16 1) = none ∧
    (∃ i, i < 20 ∧ lit.laneSrc (8 * 3 + 7) i = 2) ∧ up.ringState (.latDmx 31 19 15) ≠ 5 := by decide +kernel
theorem wit_LatticeReconfiguration_undrained : ((moving 1 none).setTx (.lane 2 31) { replay := [(goodFlit, 0)] }).drained 31 = false := by decide +kernel
theorem wit_LatticeReconfiguration_stays : Awake ⟨2048, 0⟩ (moving 5 (some 0)) ∧ (moving 5 (some 0)).fld (Reg.lplLane 3 7) F.lplLaneState = 5 ∧
    ((moving 5 (some 0)).lattice 3).active = [{ lanes := [(7, 255)], b := some 0 }] ∧ 8 * 3 + 7 ∉ ([] : List Nat) := by decide +kernel
/-- Lanes 3 and 4 both connect endpoint 2 to endpoint 5; the frame of number 1 takes the second of them. -/
def frame25b : Frame := { frame25 with index := 1 }
def twoLanes : State := ((up.setFrames 2 3 [frame25b]).wr (Reg.lplSetSrc 0 0 0) (BitVec.ofNat 64 (2 * 2 ^ 40)))
theorem wit_LatticeFrames_turn : Awake t0 twoLanes ∧ twoLanes.framesAt 2 3 = frame25b :: [] ∧
    ((List.range 32).filter fun i => decide (twoLanes.fld (laneReg i) F.lplLaneState ≠ 6) && (frameReceivers frame25b).all fun d => decide (twoLanes.laneSrc i d = 2)).getD (1 % 8) 3 ≠ 3 := by decide +kernel
theorem wit_LatticeFrames_none : ((List.range 32).filter fun i => decide ((up.fld (laneReg i) F.lplLaneState ≠ 6)) && (frameReceivers frame25).all fun d => decide (up.laneSrc i d = 2)) = [] := by decide +kernel
theorem wit_LatticeFrames_discard : 2 ≤ (moving 2 none).fld (laneReg 31) F.lplLaneState ∧ frame25.phase ≠ (framed.putF (laneReg 3) F.lplLanePhase 9).fld (laneReg 3) F.lplLanePhase ∧
    frame25.src ≠ up.laneSrc 3 5 ∧ 6 ∉ frameReceivers frame25 ∧ up.laneOpen 3 = true ∧ up.framesAt 2 3 = [] := by decide +kernel
theorem wit_LatticeFrames_kinds : ({ frame25 with kind := 2 } : Frame).kind = 2 ∧ ({ frame25 with kind := 3 } : Frame).kind = 3 ∧ 19 ∈ frameReceivers { frame25 with dst := 19 } ∧ 16 ≤ 19 := by decide +kernel
theorem wit_LatticeFrames_open : (job.at t0).frozenFor 0 frame25.data.length = none := by decide +kernel
/-- A write waits at the frozen port of vault 3071; a load waits at a frozen channel. -/
def frozenVault : State := (up.putB (arbCtrl (.vault 3071)) F.fabTxArbCtrlFreeze true).modCore 3071 fun k => { k with waiting := [.write 7 0 (List.replicate 8 1) []] }
def frozenChan : State := (job.putB (arbCtrl (.channel 0 1)) F.fabTxArbCtrlFreeze true).setArb (.channel 0 1) { waiting := [(5, { cls := 8, op := 1, addr := 0x40 })] }
theorem wit_ArbiterFreezeAndMap_thaw : frozenVault.flag (arbCtrl (.vault 3071)) F.fabTxArbCtrlFreeze = true ∧ (frozenVault.core 3071).waiting = [.write 7 0 (List.replicate 8 1) []] ∧
    frozenVault.coreFenced 3071 = false ∧ frozenChan.flag (arbCtrl (.channel 0 1)) F.fabTxArbCtrlFreeze = true ∧ (frozenChan.arb (.channel 0 1)).waiting.length = 1 := by decide +kernel
/-- A read of the last line in channel 31 of stack 15 whose distance from the last access of its bank is too small; one that the model has done already. -/
def spaceless : State := up.setArb (.channel 15 31) (({ } : Arb).access wq15 0)
theorem wit_HbmChannelsAndUpkeep_wait : Awake t0 spaceless ∧ (spaceless.arb (.channel 15 31)).held (lineBank rq15.addr) (spaceless.at t0).now = false ∧
    (spaceless.arb (.channel 15 31)).spaced { rq15 with addr := 0x7C0 + 0x100000 } (spaceless.at t0).now = false := by decide +kernel
theorem wit_HbmChannelsAndUpkeep_served : (0, [stackAt 15 + rq15.addr / 64 * 64]) ∈ ((up.setArb (.channel 15 31) { served := [(0, [stackAt 15 + 0x7C0])] }).arb (.channel 15 31)).served := by decide +kernel
theorem wit_HbmChannelsAndUpkeep_pick : wq15 ∈ [rq15, wq15] ∧ ([rq15, wq15].filter fun x => (decide (x.code ≠ 0 ∧ x.addr < stackSize ∧ lineChannel x.addr = 31) && !(up.at t0).channelFollows 15 31 x &&
    (up.arb (.channel 15 31)).takes x (up.at t0).now) && decide (x.code = wq15.code)) = [wq15] ∧ (up.arb (.channel 15 31)).thawAt ≤ t0.cyc ∧ (up.at t0).channelFree 15 31 t0.cyc = true := by decide +kernel
/-- A transmitter whose freeze is set, and one whose freeze was cleared in this cycle (R343). -/
theorem wit_ArbiterFreezeAndMap_tx : (job.putB (arbCtrl (.tx 3)) F.fabTxArbCtrlFreeze true).flag (arbCtrl (.tx 3)) F.fabTxArbCtrlFreeze = true ∧
    t0.cyc < (((job.setArb (.tx 3) { thawAt := 1 }).at t0).purge 3 t0.cyc |>.arb (.tx 3)).thawAt ∧
    (up.at t0).channelFree 15 (lineChannel lastLine) t0.cyc = true ∧ (up.arb (.channel 15 (lineChannel lastLine))).takes { code := 6, addr := lastLine } (up.at t0).now = true ∧
    (frozenChan.at t0).channelFree 0 1 t0.cyc = false := by decide +kernel
/-- R342: of two requests of one slot at one input the lower line goes first; an earlier one before both. -/
theorem test_channel_order : firstCome [{ addr := 128, since := 5 }, { addr := 64, since := 5 }, { addr := 512, since := 4 }, { addr := 0, since := 6 }] = some { addr := 512, since := 4 } ∧
    firstCome [{ addr := 128, since := 5 }, { addr := 64, since := 5 }] = some { addr := 64, since := 5 } := by decide
def mergeChan : State := up.setArb (.channel 15 31) { merge := [([31], 0)] }
theorem wit_HbmChannelsAndUpkeep_follows : (mergeChan.at ⟨16, 0⟩).channelFollows 15 31 rq15 = true ∧ (mergeChan.at ⟨17, 0⟩).channelFollows 15 31 rq15 = false := by decide +kernel
theorem wit_LoadsAndStores_waits : (frozenChan.at t0).frozenFor 0x40 64 = some (.channel 0 1) ∧ (frozenVault.at t0).frozenFor 0x020BFF000000 64 = some (.vault 3071) ∧ (job.at t0).shut 0x40 = false := by decide +kernel
theorem wit_LoadsAndStores_info : (job.at t0).latticeReply 5 ld = false ∧ (job.at t0).shut 0x040000000000 = false := by decide +kernel
theorem wit_LoadsAndStores_vault : placeOf 0x020000000000 = .vault 0 0 ∧ (job.core 0).landing = [] ∧ (job.core 0).array = none ∧ (job.core 0).wbq = [] ∧ (job.at t0).frozenFor 0x020000000000 64 = none := by decide +kernel
/-- R477: 10 kΩ is 25 °C; at B = 3,435 K, 1,451 Ω is 85 °C. -/
theorem test_thermistor : thermistor 10000 = 400 ∧ thermistor 1451 = 1360 := by decide +kernel

/-! Witnesses: operations in flight, the step boundary and the host port. -/

/-- An operation of core 0's engine 2 under tag 31 of tower 0 (ring 2), with changes. -/
def op0 : RemOp := { pkt := { cls := 8, op := 2, tag := 31 }, engine := some 2, seq := 7, attempts := 1, deadline := 100, left := true }
def withOp (o : RemOp) : State := (job.setEngine 0 2 { queue := [{ seq := 7 }], inFlight := 1 }).setOp 2 31 o
def denied9 : Packet := { cls := 9, tag := 31, status := 2 }
theorem wit_ResponsesTimersAndTags_stale : 2 < 21 ∧ Awake t0 up ∧ denied9.cls = 9 ∧ up.op 2 denied9.tag = none := by decide
theorem wit_ResponsesTimersAndTags_answer : Awake t0 (withOp op0) ∧ (withOp op0).op 2 31 = some op0 ∧ op0.done = false ∧ op0.host = none ∧ op0.engine = some 2 ∧ op0.isCast = false ∧ op0.attempts = 1 ∧ denied9.status = 2 ∧ (ringTower 2).isSome ∧ ((withOp op0).core 0).fsets = [] ∧ ((withOp op0).core 0).wait = .none ∧ op0.pkt.op ≠ 1 ∧ ((withOp op0).engine 0 2).queue.head?.map (fun d : Desc => d.seq) = some op0.seq := by decide
def routedOp : State := (withOp op0).wr (Reg.fabRt 2 0 0) 0x8000000000000000
theorem wit_ResponsesTimersAndTags_retry : 31 < 8192 ∧ Awake ⟨100, 0⟩ routedOp ∧ routedOp.op 2 31 = some op0 ∧ op0.deadline ≤ (routedOp.at ⟨100, 0⟩).now ∧ op0.pkt.retry < 3 ∧ ringFibre 2 = none ∧ op0.pkt.hopDst ≠ 31 ∧ routedOp.routed 2 { op0.pkt with retry := op0.pkt.retry + 1, ptr := 0 } = some { op0.pkt with retry := 1, hopSrc := 2 } ∧ routedOp.ringFenced 2 = false ∧ routedOp.ringFenced 0 = false ∧ (routedOp.at ⟨99, 0⟩).now < op0.deadline := by decide
def lastTry : RemOp := { op0 with pkt := { cls := 8, op := 2, tag := 31, retry := 3 } }
theorem wit_ResponsesTimersAndTags_lastTimeout : Awake ⟨100, 0⟩ (withOp lastTry) ∧ (withOp lastTry).op 2 31 = some lastTry ∧ 3 ≤ lastTry.pkt.retry ∧ lastTry.host = none ∧ lastTry.isCast = false ∧ lastTry.status = .ok := by decide
def doneOp : RemOp := { op0 with done := true, answers := 1 }
theorem wit_ResponsesTimersAndTags_release : Awake t0 (withOp doneOp) ∧ (withOp doneOp).op 2 31 = some doneOp ∧ doneOp.attempts * max 1 doneOp.members.length ≤ doneOp.answers := by decide
theorem wit_ResponsesTimersAndTags_keep : (withOp { doneOp with answers := 0 }).op 2 31 = some { doneOp with answers := 0 } ∧ 0 < ({ doneOp with answers := 0 } : RemOp).attempts * max 1 ({ doneOp with answers := 0 } : RemOp).members.length ∧ ((withOp { doneOp with answers := 0 }).at t0).now < 0 + 4 * (withOp { doneOp with answers := 0 }).fld Reg.fabTimeout F.fabTimeoutRackTimeout := by decide
/-- Tower 11's step tree is due in cycle 20. -/
def stepDue11 : State := up.setTower 11 { stepDue := some 20 }
theorem wit_BoundaryGathering_tree : 11 < 12 ∧ Awake ⟨0, 20⟩ stepDue11 ∧ (stepDue11.tower 11).stepDue = some 20 ∧ (stepDue11.tower 11).stepSent = false ∧ 20 ≤ (⟨0, 20⟩ : At).cyc := by decide
theorem mem_awaited (s : State) (t c : Nat) (ht : t < 12) (hf : (s.tower t).fenced = false) (hc : c < 256) (he : s.flag (Reg.coreCtrl (256 * t + c)) F.coreCtrlEnable = true) (hx : s.coreFenced (256 * t + c) = false) (hh : (s.core (256 * t + c)).halted = false) : t ∈ s.awaited := by
  have hm : 256 * t + c ∈ s.jobCores t := by
    rw [State.jobCores, List.mem_filter]
    exact ⟨List.mem_map.mpr ⟨c, List.mem_range.mpr hc, rfl⟩, by rw [he, hx]; rfl⟩
  rw [State.awaited, List.mem_filter]
  refine ⟨List.mem_range.mpr ht, ?_⟩
  rw [hf, Bool.not_false, Bool.true_and, List.any_eq_true]
  exact ⟨_, hm, by rw [hh]; rfl⟩
theorem awaited_lt (s : State) (t : Nat) (h : t ∈ s.awaited) : t < 12 := List.mem_range.mp (List.mem_filter.mp h).1
/-- Towers 1 to 11 have arrived; tower 11 has a job core too and has not arrived in the second state. -/
def arrived1 : State := { up with boundary := { arrived := (List.range 11).map fun o => (o + 1, 5) } }
def arrivedNone : State := up.putB (Reg.coreCtrl 3071) F.coreCtrlEnable true
theorem wit_BoundaryGathering_last : Awake t0 arrived1 ∧ arrived1.dev = .run ∧ 0 ∈ arrived1.awaited ∧ arrived1.boundary.formed = false ∧ arrived1.boundary.evalFor = none ∧ (∀ o ∈ arrived1.awaited, o = 0 ∨ assoc arrived1.boundary.arrived o ≠ 0) :=
  ⟨by decide, by decide, mem_awaited _ 0 0 (by decide) (by decide) (by decide) (by decide) (by decide) (by decide), by decide, by decide,
   fun o ho => (show ∀ o, o < 12 → o = 0 ∨ assoc arrived1.boundary.arrived o ≠ 0 by decide) o (awaited_lt _ o ho)⟩
theorem wit_BoundaryGathering_missing : ∃ o ∈ arrivedNone.awaited, o ≠ 0 ∧ assoc arrivedNone.boundary.arrived o = 0 :=
  ⟨11, mem_awaited _ 11 255 (by decide) (by decide) (by decide) (by decide) (by decide) (by decide), by decide, by decide⟩
theorem wit_BoundaryGathering_message : 63 < 64 ∧ Awake t0 { up with start := { joinSet := 2 ^ 63 + 1 } } ∧ 63 ∈ ({ up with start := { joinSet := 2 ^ 63 + 1 } } : State).others ∧ 63 ∉ up.others ∧ 63 ≠ up.pkg := by decide
/-- The records of step 9 are to be evaluated; the one rule names slot 0, which has one variant more. -/
def evaluating : State := { up with boundary := { evalFor := some 9 }, start := { vtable := { slots := [(0, 2)], rules := [{ target := 1, nSteps := 0 }] } } }
theorem wit_EvaluationReleaseAndHold_evaluate : Awake t0 evaluating ∧ evaluating.boundary.evalFor = some 9 ∧ evaluating.dev = .run ∧ evaluating.start.vtable.rules = [{ target := 1, nSteps := 0 }] ∧ evaluating.start.vtable.slots = [(0, 2)] ∧ 0 ∈ [0] ∧ evaluating.runOf 0 = 0 ∧ 1 ≠ evaluating.sel 0 ∧ (∀ r ∈ evaluating.start.vtable.rules, ∀ c o, placeOf (r.addr % 2 ^ 45) = .vault c o → (evaluating.core c).landing = [] ∧ (evaluating.core c).array = none) :=
  ⟨by decide, by decide, by decide, by decide, by decide, by decide, by decide, by decide, fun _ _ _ _ _ => ⟨rfl, rfl⟩⟩
/-- The own message is formed, with or without a request. -/
def formedB (request : Bool) : State := { up with boundary := { formed := true, msgs := [{ request := request }], causes := [12] } }
theorem wit_EvaluationReleaseAndHold_release : Awake ⟨1048576, 0⟩ (formedB false) ∧ (formedB false).dev = .run ∧ (formedB false).boundary.formed = true ∧ (formedB false).allMessages = true ∧ (formedB false).otherDigest = none ∧ (∀ x ∈ (formedB false).boundary.newSel, x.1 < 256) ∧ (∀ m ∈ (formedB false).boundary.msgs, m.request = false) ∧ ((formedB false).at ⟨1048576, 0⟩).relTick ≤ ((formedB false).at ⟨1048576, 0⟩).tcNat := by decide
theorem wit_EvaluationReleaseAndHold_hold : 12 < 13 ∧ (formedB true).boundary.causes = [12] ∧ (formedB true).faultHold = false ∧ (∀ n ∈ (formedB true).boundary.msgs, n.pkg = (formedB true).pkg ∨ n.request = false) ∧ (∃ m ∈ (formedB true).boundary.msgs, m.request = true) ∧ (formedB true).allMessages = true ∧ (formedB true).otherDigest = none := by decide
def limited : State := up.putF Reg.onxSchedCfg F.onxSchedCfgStepTimeout 1
theorem wit_EvaluationReleaseAndHold_timeout : Awake ⟨1048576, 0⟩ limited ∧ limited.dev = .run ∧ limited.fld Reg.onxSchedCfg F.onxSchedCfgStepTimeout ≠ 0 ∧ limited.base + limited.planTicks + 1024 * limited.fld Reg.onxSchedCfg F.onxSchedCfgStepTimeout ≤ (limited.at ⟨1048576, 0⟩).tcNat := by decide
/-- Stream 255 has shards of 128 bytes with a grace of 1000 ticks, from server 63; shard 1 is outstanding. -/
def ingest (l : List (Nat × List Byte)) : State := { ((((up.wr (Reg.ing1 255) (F.ing1ShardBytes.put 0 128)).wr (Reg.ing3 255) (F.ing3Grace.put 0 1000)).wr (Reg.ing0 255) (F.ing0Server.put 0 63)).wr (Reg.fabRt 0 0 0) 0x8000000000000000).putF Reg.hstShare F.hstShareIngestTicks 100 with shards := [{ stream := 255, shard := 1, deadline := 500, got := l }] }
theorem wit_HostIngest_data : 255 < 256 ∧ Awake t0 (ingest []) ∧ (ingest []).shardOf 255 1 = some { stream := 255, shard := 1, deadline := 500 } ∧ (0 : BitVec 32).toNat = (ingest []).inc ∧ 64 % 64 = 0 ∧ 64 + 64 ≤ (ingest []).fld (Reg.ing1 255) F.ing1ShardBytes ∧ ((ingest []).at t0).tcNat < 500 + (ingest []).fld (Reg.ing3 255) F.ing3Grace ∧ (ingest []).ingestHeld + 64 ≤ 0x1000000 ∧ (ingest []).shardOf 255 2 = none := by decide
theorem wit_HostIngest_store : (ingest [(64, [])]).shardOf 255 1 = some { stream := 255, shard := 1, deadline := 500, got := [(64, [])] } ∧ ((ingest [(64, [])]).at t0).ingestSlot = true ∧ (ingest [(64, [])]).dev = .run ∧ 1023 < 1024 ∧ (ingest [(64, [])]).op 0 1023 = none ∧ bit ((ingest [(64, [])]).routeEntry 0 (ingest [(64, [])]).pkg) 63 = true := by decide
theorem wit_HostIngest_again : 0 + (ingest []).fld (Reg.ing4 255) F.ing4Retransmit ≤ ((ingest []).at t0).now ∧ (ingest []).missing { stream := 255, shard := 1, deadline := 500 } ≠ [] ∧ (ingest []).fld (Reg.ing0 255) F.ing0Server < 64 ∧ ((ingest []).putB (Reg.srvFlags 63) F.srvFlagsValid true).flag (Reg.srvFlags 63) F.srvFlagsValid = true ∧ ((ingest []).putB Reg.hstStatus F.hstStatusLinkUp true).linkUp = true := by decide
theorem wit_HostIngest_abandon : Awake ⟨1500, 0⟩ (ingest []) ∧ 500 + (ingest []).fld (Reg.ing3 255) F.ing3Grace ≤ ((ingest []).at ⟨1500, 0⟩).tcNat ∧ ((ingest []).at ⟨1499, 0⟩).tcNat < 500 + (ingest []).fld (Reg.ing3 255) F.ing3Grace := by decide
/-- Egress entry 63 has 4096 bytes, of which 2048 are sent and 1024 acknowledged. -/
def egr : Egress := { stream := 63, inst := 5, nextLoad := 2048, sentTo := 2048, acked := 1024 }
def egressing : State := { (((up.wr (Reg.egr3 63) (F.egr3Length.put 0 4096)).wr (Reg.egr5 63) (F.egr5Timeout.put 0 1)).wr (Reg.fabRt 0 0 0) 0x8000000000000000).putF Reg.hstShare F.hstShareEgressTicks 100 with egress := [egr] }
theorem wit_HostEgress_load : 63 < 64 ∧ Awake t0 egressing ∧ egressing.egressOf 63 = some egr ∧ (egressing.at t0).egressSlot = true ∧ egr.nextLoad < egressing.fld (Reg.egr3 63) F.egr3Length ∧ 1023 < 1024 ∧ egressing.op 0 1023 = none ∧ bit (egressing.routeEntry 0 egressing.pkg) 63 = true := by decide
theorem wit_HostEgress_ack : (0 : BitVec 32).toNat = egressing.inc ∧ egressing.dev = .run ∧ egressing.fld (Reg.egr3 63) F.egr3Length ≤ 4096 ∧ 4095 < egressing.fld (Reg.egr3 63) F.egr3Length := by decide
theorem wit_HostEgress_again : egr.acked < egr.sentTo ∧ egr.ackTick + egressing.fld (Reg.egr4 63) F.egr4Retransmit ≤ (egressing.at t0).now := by decide
theorem wit_HostEgress_timeout : Awake ⟨1000000, 0⟩ egressing ∧ egr.began + 1000000 * egressing.fld (Reg.egr5 63) F.egr5Timeout ≤ (egressing.at ⟨1000000, 0⟩).now ∧ (egressing.at ⟨999999, 0⟩).now < egr.began + 1000000 * egressing.fld (Reg.egr5 63) F.egr5Timeout := by decide
def linked : State := (up.putB Reg.hstStatus F.hstStatusLinkUp true).putB Reg.hstIpv4 F.hstIpv4Enable true
theorem wit_HostPortFrames_up : Awake t0 linked ∧ linked.linkUp = true ∧ up.linkUp = false ∧ (linked.flag Reg.hstIpv4 F.hstIpv4Enable && decide (linked.fld Reg.hstIpv4 F.hstIpv4Addr = (0 : BitVec 32).toNat)) = true := by decide
theorem wit_HostPortFrames_forms : (∃ ip mac from_, Instr.arpRequest t0 0 1 2 = .arpRequest t0 ip mac from_ ∧ Emit.arpReply 1 2 = .arpReply mac from_) ∧ (∃ k, Instr.frameDiscard t0 (.badMessage { magic := 0 }) = .frameDiscard t0 k ∧ ∀ h, k = .badMessage h → linked.badHead h = true) := by
  refine ⟨⟨0, 1, 2, rfl, rfl⟩, .badMessage { magic := 0 }, rfl, ?_⟩
  intro h hh
  cases hh
  decide
/-- The same operation, over, with two attempts; a multicast of tower 0 for members 0 and 63, one of which has answered. -/
def doneTwice : RemOp := { op0 with done := true, attempts := 2 }
theorem wit_ResponsesTimersAndTags_late : Awake t0 (withOp doneTwice) ∧ (withOp doneTwice).op 2 31 = some doneTwice ∧ doneTwice.done = true ∧ doneTwice.answers + 1 < doneTwice.attempts * max 1 doneTwice.members.length := by decide
def castOp : RemOp := { pkt := { cls := 8, op := 3, tag := 31, hopDst := 31 }, engine := some 2, seq := 7, attempts := 1, members := [0, 63], heard := [0], deadline := 100, left := true }
theorem wit_ResponsesTimersAndTags_cast : castOp.isCast = true ∧ castOp.done = false ∧ castOp.host = none ∧ (withOp castOp).op 2 31 = some castOp := by decide
theorem wit_ResponsesTimersAndTags_member : castOp.pkt.hopDst = 31 ∧ (withOp { castOp with heard := [] }).op 2 31 = some { castOp with heard := [] } ∧ (∃ x ∈ castOp.members, x ≠ 0 ∧ x ∉ ({ castOp with heard := [] } : RemOp).heard) := by decide
/-- A fibre endpoint's copy of a multicast waits with token 0 for fibre 0, which is up. -/
def copyOp : RemOp := { pkt := { cls := 8, op := 3, tag := 31, tokens := 32 }, attempts := 1, deadline := 100, left := true }
def copying : State := (up.setOp 1 31 copyOp).putF (Reg.fibStatus 0 0) F.fibStatusState 2
theorem wit_ResponsesTimersAndTags_fibre : (ringFibre 1).isSome ∧ copyOp.pkt.retry < 3 ∧ copying.op 1 31 = some copyOp ∧ copyOp.deadline ≤ (copying.at ⟨100, 0⟩).now ∧ token copyOp.pkt.tokens 0 = some 0 ∧ copying.fibreUp 0 = true := by decide
theorem wit_ResponsesTimersAndTags_endedTag : ((withOp { doneOp with answers := 0 }).at ⟨4 * (withOp doneOp).fld Reg.fabTimeout F.fabTimeoutRackTimeout, 0⟩).now = 0 + 4 * (withOp doneOp).fld Reg.fabTimeout F.fabTimeoutRackTimeout := by decide +kernel
theorem wit_BoundaryGathering_none : (up.tower 11).stepDue = none ∧ ¬ 20 ≤ (⟨0, 19⟩ : At).cyc ∧ up.others = [] ∧ (inDev .hold).dev ≠ .run ∧ ({ up with boundary := { formed := true } } : State).boundary.formed = true := by decide
/-- The one rule's record has no line that can be read; its run is complete and it wants another variant. -/
theorem wit_EvaluationReleaseAndHold_rules : ({ up with start := { vtable := { rules := [{ target := 1, nSteps := 4 }] } }, boundary := { evalFor := some 9 } } : State).start.vtable.rules = [{ target := 1, nSteps := 4 }] ∧ 0 ∈ [0, 1] := by decide
theorem wit_EvaluationReleaseAndHold_digest : ({ formedB false with start := { joinSet := 2 ^ 63 + 1 }, boundary := { formed := true, msgs := [{ pkg := 0, digest := 1 }, { pkg := 63, digest := 2 }] } } : State).otherDigest = some 2 := by decide
theorem wit_EvaluationReleaseAndHold_early : (formedB false).dev = .run ∧ ({ up with boundary := { formed := true } } : State).allMessages = false ∧ (inDev .hold).dev ≠ .run ∧ ¬ (limited.at t0).tcNat ≥ limited.base + limited.planTicks + 1024 * limited.fld Reg.onxSchedCfg F.onxSchedCfgStepTimeout := by decide
theorem wit_HostIngest_noRoute : bit (({ up with shards := [] } : State).routeEntry 0 up.pkg) 63 = false ∧ (ingest []).shardOf 255 2 = none ∧ (ingest [(64, [])]).op 0 1023 = none := by decide
theorem wit_HostIngest_slot : ((ingest [(64, [])]).at ⟨1023, 0⟩).ingestSlot = false ∧ (inDev .hold).dev ≠ .run := by decide
theorem wit_HostEgress_slot : (egressing.at ⟨1023, 0⟩).egressSlot = false ∧ ({ egr with nextLoad := 4096 } : Egress).nextLoad = egressing.fld (Reg.egr3 63) F.egr3Length ∧ up.egressOf 63 = none := by decide

/-! Witnesses: management, Onyx, power and start. What a key signs is opaque (assumption 7): the clauses about a request with a good signature have
their other hypotheses met here, and sigOk_form says what is left of them in a package with that key in its fuses. -/

def held : State := { (inDev .hold).wr Reg.hstMgmtKeys 0xFF with fuses := { keys := [Config.sha384 [1]] } }
def req (n : Nat) : Signed := { number := n, trailer := { publicKey := [1], signature := [2] }, covered := [3] }
theorem sigOk_form : (held.at t0).signedOk (req 5) = (Config.onCurve [1] && Config.ecdsaVerify [1] [3] [2]) := by
  have h : (held.at t0).signedOk (req 5) = (decide (0 < 8) && decide (some (Config.sha384 [1]) = some (Config.sha384 [1])) && !([] : List Nat).contains 0 && Config.onCurve [1] && Config.ecdsaVerify [1] [3] [2] && bit 0xFF 0 && decide (0 = 0)) := rfl
  rw [h]
  cases Config.onCurve [1] <;> cases Config.ecdsaVerify [1] [3] [2] <;> simp [bit]
theorem wit_SignedRequestsTurnedAway : (Instr.write t0 (req 5) [], 0x82, decide (held.dev = .run ∨ held.dev = .hold ∨ held.dev = .halted)) ∈ [(Instr.write t0 (req 5) [], 0x82, decide (held.dev = .run ∨ held.dev = .hold ∨ held.dev = .halted))] ∧ (held.at t0).awake = true ∧ held.dev ≠ .tripped ∧ decide (held.dev = .run ∨ held.dev = .hold ∨ held.dev = .halted) = true :=
  ⟨List.mem_cons_self .., by decide, by decide, by decide⟩
theorem wit_SignedRequestsTurnedAway_bad : (held.at t0).signedOk { req 5 with incarnation := 1 } = false := by
  have h : (held.at t0).inc = 0 := by decide
  rw [State.signedOk, h]
  exact Bool.and_false _
theorem wit_SignedRequestsTurnedAway_state : decide (((inDev .load).at t0).dev = .run ∨ ((inDev .load).at t0).dev = .hold ∨ ((inDev .load).at t0).dev = .halted) = false ∧ (inDev .load).onyx.lastNumber ≠ some 5 := by decide
theorem wit_SignedRequestsTurnedAway_number : ({ held with onyx := { lastNumber := some 6 } } : State).onyx.lastNumber = some 6 ∧ (req 5).number < 6 ∧ ({ held with onyx := { lastNumber := some 5 } } : State).onyx.lastNumber = some (req 5).number := by decide
theorem wit_ManagementAccesses_read : (held.at t0).awake = true ∧ 0 < 1024 ∧ 1024 ≤ 1024 ∧ 1024 < 1025 ∧ (Reg.onxState < 2 ^ 40 ∧ Reg.onxState % 8 = 0 ∧ (windowRows Reg.onxState).isSome) ∧ (held.at t0).mgmtPlace (2 ^ 63 + 0x030000000040) false = none := by decide
theorem wit_ManagementAccesses_hbm : (2 ^ 63 + 79999999992 : Nat) = 2 ^ 63 + 79999999992 ∧ 79999999992 < 2 ^ 45 ∧ 79999999992 % 8 = 0 ∧ placeOf 79999999992 = .hbm 0 79999999992 ∧ held.dev = .hold ∧ held.mark (79999999992 / 64 * 64) = .good ∧ (BitVec.ofNat 64 (2 ^ 63 + 79999999992)).toNat = 2 ^ 63 + 79999999992 := by decide
theorem wit_ManagementAccesses_write : held.onyx.lastNumber = none ∧ ∀ n, held.onyx.lastNumber = some n → n < (req 5).number := ⟨by decide, fun n h => absurd h (by decide +revert)⟩
theorem wit_ManagementAccesses_quote : (List.replicate 32 (0 : Byte)).length = 32 ∧ (held.onyx.quotes.filter fun q => decide ((held.at t0).now < q + 1000000000)).length < 10 ∧ 10 ≤ (({ held with onyx := { quotes := List.replicate 10 0 } } : State).onyx.quotes.filter fun q => decide ((held.at t0).now < q + 1000000000)).length := by decide
theorem wit_ManagementAccesses_config : (held.at t0).dead = false ∧ Reg.fabWin1 1023 63 % 8 = 0 ∧ Reg.fabWin1 1023 63 < 2 ^ 40 ∧ (∃ rows, windowRows (Reg.fabWin1 1023 63) = some rows ∧ ∃ r ix, findRow (Reg.fabWin1 1023 63) rows = some (r, ix) ∧ (held.at t0).specialWrite 0 (Reg.fabWin1 1023 63) r.base ix 5 true = none) ∧ windowRows 0x0FFFFFFFF8 = none ∧ (held.at t0).bringCfg 0 (Reg.fabWin1 1023 63) = held.at t0 ∧ (Reg.coreId 3071 ≤ Reg.coreSample 3071 ∧ Reg.coreSample 3071 < Reg.coreId 3072 ∧ (held.core 3071).landing = [] ∧ (held.core 3071).array = none ∧ 0 ≤ (held.core 3071).seen) :=
  ⟨by decide, by decide, by decide, ⟨_, rfl, _, _, rfl, by decide⟩, by decide, rfl, by decide⟩
/-- An update of one block runs; it has ended. -/
def hdr1 : List Byte := List.replicate 0x12 0 ++ [1]
def updating (ended : Bool) : State := { held with onyx := { update := some { session := 3, header := hdr1, ended := ended } } }
theorem wit_UpdatesAndRestart_begin : (held.at t0).awake = true ∧ held.dev = .hold ∧ held.onyx.update = none ∧ (List.replicate 4096 (0 : Byte)).length = 4096 ∧ hSequence hdr1 ≤ held.fld Reg.onxImgSeq F.onxImgSeqSequence ∧ held.fld Reg.onxImgSeq F.onxImgSeqSequence < hSequence (List.replicate 8 0 ++ [1]) :=
  ⟨by decide, by decide, by decide, List.length_replicate, by decide, by decide⟩
theorem wit_UpdatesAndRestart_data : ((updating false).at t0).awake = true ∧ (updating false).onyx.update = some { session := 3, header := hdr1 } ∧ 0 < hBlocks hdr1 ∧ 57344 < 65536 ∧ 57344 % 8192 = 0 := by decide
theorem wit_UpdatesAndRestart_end : (updating false).dev ≠ .tripped ∧ (updating false).onyx.lastNumber = none ∧ (updating false).onyx.restart = none := by decide
theorem wit_UpdatesAndRestart_finish : (updating true).onyx.update = some { session := 3, header := hdr1, ended := true } ∧ 0 < hBlocks hdr1 ∧ blockOk [] = false := by decide
theorem wit_UpdatesAndRestart_restart : held.dev = .hold ∧ held.onyx.lastNumber = none ∧ held.onyx.update = none ∧ (updating false).onyx.update.isSome = true ∧ held.unitBusy = false := by decide
/-- A record of code 0x0201 and source 7 came at tick 0. -/
def merging (count : Nat) : State := { up with onyx := { merges := [{ code := 0x0201, source := 7, count := count }] } }
theorem wit_LogsAndWatchdog_record : up.dev ≠ .off ∧ (0x0201 : BitVec 16).toNat ∈ logCodes ∧ (0x0001 : BitVec 16).toNat ∉ logCodes ∧ (up.onyx.merges.find? fun m => m.code = 0x0201 ∧ m.source = 7) = none := by decide
theorem wit_LogsAndWatchdog_merge : ((merging 1).onyx.merges.find? fun m => m.code = 0x0201 ∧ m.source = 7) = some { code := 0x0201, source := 7, count := 1 } ∧ logSeverity 0x0201 ≠ 4 ∧ ((merging 1).at ⟨999999, 0⟩).now < 0 + 1000000 := by decide
theorem wit_LogsAndWatchdog_flush : 0 + 1000000 ≤ ((merging 1).at ⟨1000000, 0⟩).now ∧ ({ code := 0x0201, source := 7, count := 1 } : LogMerge).count ≠ 0 := by decide
theorem wit_LogsAndWatchdog_persistent : ({ up with onyx := { logQueue := [(0, {})] } } : State).onyx.logQueue = (0, {}) :: [] ∧ up.dev ≠ .off ∧ up.dev ≠ .boot := by decide
theorem wit_LogsAndWatchdog_watchdog : (up.at t0).dead = false ∧ up.dev = .run ∧ ((inDev .off).at t0).dead = true ∧ (inDev .off).dev ≠ .tripped := by decide
theorem wit_HousekeepingAndTelemetry_slot : (up.at t0).dead = false ∧ (0 : BitVec 8).toNat = up.onyx.nextCh ∧ 0 < 224 ∧ 0 ∉ up.onyx.excluded ∧ (1839 : Int) < shutdownOf 191 ∧ shutdownOf 191 ≤ 1840 ∧ shutdownOf 192 ≤ 1760 ∧ assoc up.onyx.invalidRun 0 = 0 ∧ 1 ≤ assoc ({ up with onyx := { invalidRun := [(0, 1)] } } : State).onyx.invalidRun 0 ∧ ({ up with onyx := { nextCh := 255 } } : State).onyx.nextCh = 255 := by decide
theorem wit_HousekeepingAndTelemetry_snapshot : up.dev = .run ∧ (up.at ⟨10000000, 0⟩).tcNat % 10000000 = 0 ∧ up.onyx.snap = none ∧ ({ up with onyx := { snap := some 0 } } : State).onyx.snap = some 0 ∧ (({ up with onyx := { snap := some 0 } } : State).at t0).dead = false := by decide
/-- Unit 11 is in state `st` in HOLD. -/
def unitIn (st : Nat) : State := (inDev .hold).putF (Reg.onxUnit 11) F.onxUnitState st
theorem wit_UnitsAndCounters_units : 35 < Config.units ∧ Awake t0 (unitIn 0) ∧ (unitIn 0).dev = .hold ∧ (unitIn 0).enableOk 11 = true ∧ (unitIn 0).unitState 11 = 0 ∧ (unitIn 3).unitState 11 = 3 ∧ (unitIn 3).onyx.restart = none ∧ (unitIn 3).fld (Reg.onxUnit 11) F.onxUnitPending = 0 ∧ ((unitIn 0).putB (Reg.onxUnit 11) F.onxUnitFenced true).enableOk 11 = false := by decide
theorem wit_UnitsAndCounters_pmc : Awake t0 up ∧ (up.putF Reg.onxPmcCtrl F.onxPmcCtrlMode 1).fld Reg.onxPmcCtrl F.onxPmcCtrlMode = 1 := by decide
theorem wit_SidebandPowerAndReset_side : (up.at t0).sideOn = true ∧ (0x3B : BitVec 7) ≠ 0x3A ∧ up.dev ≠ .off := by decide
theorem wit_SidebandPowerAndReset_power : (inDev .off).dev = .off ∧ up.dev ≠ .off ∧ up.dev ≠ .tripped ∧ (inDev .tripped).dev = .tripped := by decide
theorem wit_SidebandPowerAndReset_release : State.reset.dev = .boot ∧ State.reset.pins.resetN = false ∧ 32 ≤ (32 : BitVec 6).toNat ∧ (31 : BitVec 6).toNat < 32 ∧ ({} : BootSight).size0 = State.reset.store.size ∧ ({} : BootSight).size1 = State.reset.store.size ∧ State.reset.headerCheck State.reset.store.bankA.header ≠ 1 ∧ State.reset.headerCheck State.reset.store.bankB.header ≠ 1 := by decide
/-- A booted image and a cool round. -/
def cooled : State := { (inDev .boot).wr Reg.onxImgSeq 1 with onyx := { cool := true } }
theorem wit_StartPhases_bringup : (cooled.at t0).mayBringUp = true ∧ ((inDev .boot).at t0).mayBringUp = false := by decide
def lasing : State := { (inDev .bringup).putB (Reg.fibCtrl 3 7) F.fibCtrlEnable true with start := { laserDone := true, tested := [0, 1] } }
theorem wit_StartPhases_beacon : lasing.start.laserDone = true ∧ (lasing.at t0).tcNat / 1024 % 32 = lasing.start.pkg ∧ 31 ∈ (lasing.at t0).untrained ∧ (lasing.at t0).fibreStarts 31 = true ∧ (lasing.at ⟨1024, 0⟩).tcNat / 1024 % 32 ≠ lasing.start.pkg := by decide +kernel
theorem wit_StartPhases_fibre : 31 < Config.fibres ∧ 63 < 64 ∧ 31 < 32 ∧ lasing.fibreStarts 31 = true ∧ lasing.start.laserDone = true ∧ lasing.internalDone = true ∧ 31 ∈ lasing.untrained ∧ lasing.farOk 31 0 0 = true ∧ lasing.farOk 31 63 0 = false ∧ lasing.fld (Reg.fibCtrl 3 7) F.fibCtrlDelayTarget < 1 ∧ (inDev .hold).fibreStarts 31 = false := by decide +kernel
def joining : State := { inDev .join with start := { joinSet := 3 } }
theorem wit_StartPhases_send : joining.dev = .join ∧ joining.start.beganJoin + 65536 * joining.start.joinMsgs ≤ (joining.at t0).now ∧ 1 ∈ joining.others := by decide
theorem wit_StartPhases_timeout : joining.joinCarat = 0 ∧ joining.start.beganJoin + 1000000 * hJoinTimeout joining.booted.header ≤ (joining.at t0).now := by decide
theorem wit_StartPhases_entry : (inDev .load).dev = .load ∧ (∀ n, n < 4 → (inDev .load).oneToOne n = true) ∧ ({ inDev .load with ratios := [(3, 2)] } : State).oneToOne 3 = false := by decide
def fixedJoin : State := { up.putF Reg.onxJoinCarat F.onxJoinCaratCarat 1 with dev := .join }
theorem wit_StartPhases_run : fixedJoin.dev = .join ∧ fixedJoin.joinCarat ≠ 0 ∧ 1024 * fixedJoin.joinCarat ≤ (fixedJoin.at ⟨1024, 0⟩).tcNat ∧ (fixedJoin.at ⟨1024, 0⟩).awaited ≠ [] :=
  ⟨by decide, by decide, by decide, List.ne_nil_of_mem (mem_awaited _ 0 0 (by decide) (by decide) (by decide) (by decide) (by decide) (by decide))⟩
/-- BRINGUP is over for a package whose towers are all fenced. -/
def allTowersOff : List (Nat × Tower) := (List.range 12).map fun t => (t, { fenced := true })
def readyLoad (h : List Byte) : State := State.wr (a := Reg.onxCalStatus) (v := 0) { inDev .bringup with regs := (List.range 4).map fun n => (Reg.tcStatus n, F.tcStatusLocked.put 0 1), towers := allTowersOff, start := { capFixed := true, hbmDone := List.range 16, laserDone := true, tested := [0, 1] }, onyx := { round := 1 }, store := { bankA := { header := h } } }
theorem readyLoad_groups (h : List Byte) : ((readyLoad h).at t0).liveGroups = [] := by
  rw [State.liveGroups, List.filter_eq_nil_iff]
  intro x hx
  have hb : ∀ t, t < 12 → (((readyLoad h).at t0).tower t).fenced = true := by
    intro t ht
    show (Sparse.get (fun _ => ({} : Tower)) allTowersOff t).fenced = true
    exact (show ∀ t, t < 12 → (Sparse.get (fun _ => ({} : Tower)) allTowersOff t).fenced = true by decide) t ht
  have h12 : x.1 < 12 := by
    simp only [allGroups, List.mem_flatten, List.mem_map, List.mem_range] at hx
    obtain ⟨l, ⟨t, ht, rfl⟩, hxl⟩ := hx
    obtain ⟨g, _, rfl⟩ := List.mem_map.mp hxl
    exact ht
  simp [hb x.1 h12]
theorem mayLoad_of (s : State) (h1 : s.dev = .bringup) (h2 : (List.range 4).all s.locked = true) (h3 : s.start.capFixed = true) (h4 : s.liveGroups = [])
    (h5 : ((List.range 16).all fun k => s.start.hbmDone.contains k) = true) (h6 : s.start.laserDone = true) (h7 : s.internalDone = true) (h8 : s.untrained = [])
    (h9 : s.calibrated = true) (h10 : ((List.range 4).all fun n => decide (s.calSource n ≠ 3)) = true) : s.mayLoad = true := by
  rw [State.mayLoad, h1, h2, h3, h4, h5, h6, h7, h8, h9, h10]
  rfl
theorem wit_StartPhases_load : ((readyLoad []).at t0).mayLoad = true ∧ ((readyLoad []).at t0).loadFails [] = false :=
  ⟨mayLoad_of _ (by decide) (by decide) (by decide) (readyLoad_groups []) (by decide) (by decide) (by decide +kernel) (by decide +kernel) (by decide) (by decide), by decide⟩
theorem wit_StartPhases_loadBad : ((readyLoad hdr1).at t0).mayLoad = true ∧ ((readyLoad hdr1).at t0).loadFails [0] = true :=
  ⟨mayLoad_of _ (by decide) (by decide) (by decide) (readyLoad_groups hdr1) (by decide) (by decide) (by decide +kernel) (by decide +kernel) (by decide) (by decide), by decide⟩
theorem wit_StartPhases_message : 1 < 64 ∧ 1 ∈ joining.others ∧ List.replicate 48 (0 : Byte) = padTo 48 (hDigest joining.booted.header) ∧ ([] : List Byte) ≠ padTo 48 (hDigest joining.booted.header) ∧ joining.joinCarat = 0 ∧ 2 ∉ joining.others := by decide
/-- BRINGUP finds no write or packet at a frozen arbiter, and with no image of a larger device the round that calibrates is the next one. -/
theorem wit_StartPhases_nothingWaits (c k i : Nat) : (cooled.core c).waiting = [] ∧ (cooled.arb (.channel k i)).waiting = [] ∧ ((readyLoad []).core c).waiting = [] ∧ ((readyLoad []).arb (.channel k i)).waiting = [] := ⟨rfl, rfl, rfl, rfl⟩
theorem wit_StartPhases_route : (joining.wr (Reg.fabRt 0 0 1) 0x8800000000000000).routed 0 { cls := 0xD, op := Config.joinOp.toNat, dstPkg := 1, dstEp := 0, originPkg := 0, incarnation := 0, data := [] } ≠ none := by
  rw [State.routed]
  decide
theorem wit_StartPhases_ended : (inDev .load).dev ≠ .join ∧ (inDev .run).dev ≠ .join ∧ (inDev .join).joinCarat = 0 := by decide
/-- Register reads off their alignment and outside every window; a counter of endpoint 20; a core's window. -/
theorem wit_ManagementAccesses_places : (Reg.onxState + 1) % 8 ≠ 0 ∧ Reg.onxState + 1 < 2 ^ 40 ∧ windowRows 0x0FFFFFFFF8 = none ∧ fabCounter (Reg.fabEpmc 20 15) = true ∧ (∃ i, i < 2 ∧ (held.at t0).mgmtPlace (2 ^ 63 + 0x030000000040 + 8 * i) false = none) ∧ (held.core 3071).wbq = [] ∧ (held.tower 11).droops = [] ∧ held.dev ≠ .tripped := by decide
/-- A W1C bit that the device set in this tick stays set. -/
theorem wit_ManagementAccesses_fresh : (held.raiseBit (Reg.onxLaserP 31) F.onxLaserPLow).freshBits (Reg.onxLaserP 31) = F.onxLaserPLow.mask ∧ held.freshBits (Reg.onxLaserP 31) = 0 := by decide
theorem wit_LogsAndWatchdog_dead : ((inDev .off).at t0).dead = true ∧ ({ inDev .boot with pins := { resetN := false } } : State).dev = .boot ∧ ({ inDev .boot with pins := { resetN := false } } : State).pins.resetN = false ∧ (({ inDev .boot with pins := { resetN := false } } : State).at t0).dead = true ∧ ((inDev .tripped).at t0).dead = true ∧ (inDev .boot).pins.resetN = true := by decide
theorem wit_HousekeepingAndTelemetry_calibrates : ({ inDev .bringup with onyx := { nextCh := 255, round := 7 }, start := { calAt := 7 } } : State).onyx.round = 7 ∧ up.dev ≠ .bringup ∧ (0 : Nat) < 224 ∧ 0 ∉ up.onyx.excluded := by decide
/-- Unit 11, or unit 35, in each of its states; its transmitter drained or not; a request held; a tower that its training fenced. -/
def unit35 (st : Nat) : State := (inDev .hold).putF (Reg.onxUnit 35) F.onxUnitState st
theorem wit_UnitsAndCounters_stop : (unit35 3).allDrained (unitArbs 35) = false ∧ ((unit35 3).putB (arbCtrl (.tx 11)) F.fabTxArbCtrlDrained true).allDrained (unitArbs 35) = true ∧ unitArbs 35 = [.tx 11] ∧ (unit35 3).unitState 35 = 3 ∧ (unit35 3).fld (Reg.onxUnit 35) F.onxUnitPending = 0 ∧ ((unit35 3).putF (Reg.onxUnit 35) F.onxUnitPending 1).fld (Reg.onxUnit 35) F.onxUnitPending = 1 ∧ 16 ≤ 35 := by decide +kernel
theorem wit_UnitsAndCounters_start : (unit35 1).unitState 35 = 1 ∧ (unit35 1).startDone 35 = true ∧ (unitIn 1).startDone 11 = false ∧ (((unitIn 1).setTower 11 { fenced := true }).tower 11).fenced = true ∧ (unitIn 2).unitState 11 = 2 ∧ (unitIn 1).unitState 11 = 1 := by decide +kernel
theorem wit_UnitsAndCounters_waiting (c k i : Nat) : ((unit35 1).core c).waiting = [] ∧ ((unit35 1).arb (.channel k i)).waiting = [] := ⟨rfl, rfl⟩
/-- Tile 3's units are off, every transmitter is frozen and drained and the tile's endpoints are fenced; its units are on, its rings locked and tested. -/
def tileStop : State := (List.range 21).foldl (fun s r => ((s.putB (arbCtrl (.tx r)) F.fabTxArbCtrlFreeze true).putB (arbCtrl (.tx r)) F.fabTxArbCtrlDrained true)) (((inDev .hold).putF (Reg.onxUnit 15) F.onxUnitState 3).putF (Reg.rplFence 3) F.rplFenceFenced 0x1FFFFF)
theorem wit_UnitsAndCounters_tileStop : tileStop.unitState (12 + 3) = 3 ∧ (∀ v ∈ (tileUnits 3).flatten, tileStop.unitState v = 0) ∧ tileStop.allFrozen allTx = true ∧ tileStop.allDrained allTx = true ∧ (∀ r, r < 21 → ringTile r = 3 → ((List.range 4).foldl (fun s n => s.putF (Reg.rplFence n) F.rplFenceFenced 0x1FFFFF) tileStop).ringFenced r = true) ∧ tileStop.flag (Reg.rplRebal 0) F.rplRebalInProgress = false ∧ tileStop.onyx.restart = none ∧ tileStop.fld (Reg.onxUnit 15) F.onxUnitPending = 0 := by decide +kernel
theorem wit_UnitsAndCounters_tileStart : ((inDev .hold).putF (Reg.onxUnit 15) F.onxUnitState 1).unitState (12 + 3) = 1 ∧ (inDev .hold).unitState (32 + 3) = 0 ∧ (inDev .hold).enableOk (32 + 3) = true ∧ (∀ v ∈ (tileUnits 3).flatten, ((tileUnits 3).flatten.foldl (fun s v => s.putF (Reg.onxUnit v) F.onxUnitState 2) (inDev .hold)).unitState v = 2) ∧ ({ inDev .hold with start := { tested := [0, 1] } } : State).internalDone = true := by decide +kernel
def ringsOut : State := { ((((List.range 4).foldl (fun s n => s.putF (Reg.rplFence n) F.rplFenceFenced 0x1FFFFF) (inDev .hold)).putF (Reg.onxUnit 15) F.onxUnitState 1).setLattice 0 { removed := List.range 20 }) with start := { tested := [0, 1] } }
theorem wit_UnitsAndCounters_rings : ((tileRingIds 3).all fun g => decide (2 ≤ ringsOut.ringState g)) = true ∧ ringsOut.unitState (12 + 3) = 1 ∧ ringsOut.internalDone = true ∧ ringsOut.onyx.restart = none := by decide +kernel
theorem wit_UnitsAndCounters_keeps : ∃ keeps : State → Prop, ∀ u, keeps u ↔ SameBytes up u ∧ ∀ a, (∀ x ∈ up.ops, ∀ i, i < 16 → a ≠ Reg.fabEpmc (x.1 / 8192) i) → a ≠ Reg.onxPmcCtrl → u.rd a = up.rd a := ⟨_, fun _ => Iff.rfl⟩

/-! Ill-formed commands are refused (wellFormed answers false), and the highest unit that exists is taken. -/

theorem test_wf_core : wellFormed (.descriptorStart t0 3072 0) = false ∧ wellFormed (.descriptorStart t0 3071 0) = true := by decide
theorem test_wf_gate : wellFormed (.add t0 ⟨3072, 0, false⟩ 1 2 3) = false ∧ wellFormed (.add t0 gTop 1 2 3) = true := by decide
theorem test_wf_tower : wellFormed (.droopDetect t0 12) = false ∧ wellFormed (.droopDetect t0 11) = true := by decide
theorem test_wf_group : wellFormed (.d2dFrameSend t0 11 64 .up) = false ∧ wellFormed (.d2dFrameSend t0 12 63 .up) = false ∧ wellFormed (.d2dFrameSend t0 11 63 .up) = true := by decide
theorem test_wf_tile : wellFormed (.tileReset t0 4) = false ∧ wellFormed (.tileReset t0 3) = true := by decide
theorem test_wf_stack : wellFormed (.hbmInitialization t0 16) = false ∧ wellFormed (.hbmInitialization t0 15) = true := by decide
theorem test_wf_channel : wellFormed (.hbmRefresh t0 15 32 0) = false ∧ wellFormed (.hbmRefresh t0 15 31 0) = true := by decide
theorem test_wf_ring : wellFormed (.reacquireRetry t0 (.ringDrop 20 7 40) {}) = false ∧ wellFormed (.reacquireRetry t0 (.ringDrop 20 7 39) {}) = true ∧ wellFormed (.reacquireRetry t0 (.latMod 31 20 0) {}) = false ∧ wellFormed (.reacquireRetry t0 (.latMod 31 19 15) {}) = true := by decide
theorem test_wf_link : wellFormed (.linkControlSend t0 (.lane 20 0)) = false ∧ wellFormed (.linkControlSend t0 (.ring 20)) = true ∧ wellFormed (.linkControlSend t0 (.ring 21)) = false := by decide
theorem test_wf_receiver : wellFormed (.linkControlReceive t0 (.ring 0) 64 []) = false ∧ wellFormed (.linkControlReceive t0 (.ring 0) 63 []) = true := by decide
theorem test_wf_fibre : wellFormed (.linkControlSend t0 (.fibreOut 32)) = false ∧ wellFormed (.linkControlSend t0 (.fibreIn 31)) = true := by decide
theorem test_wf_endpoint : wellFormed (.weightStep t0 21) = false ∧ wellFormed (.weightStep t0 20) = true ∧ wellFormed (.laneFrameStart t0 31 20) = false ∧ wellFormed (.laneFrameStart t0 31 19) = true := by decide
theorem test_wf_arbiter : wellFormed (.arbFreezeSet t0 (.vault 3072)) = false ∧ wellFormed (.arbFreezeSet t0 (.tx 21)) = false ∧ wellFormed (.arbFreezeSet t0 (.channel 15 32)) = false ∧ wellFormed (.arbFreezeSet t0 (.channel 15 31)) = true := by decide
theorem test_wf_margin_link : MarginLink.ok (.ring 21 0 0) = false ∧ MarginLink.ok (.lane 32 0 1) = false ∧ MarginLink.ok (.fibre 32) = false ∧ MarginLink.ok (.ring 20 19 15) = true := by decide
theorem test_wf_adapted_item : wellFormed (.calibrationAdaptation t0 (.threshold 4 0) 0) = false ∧ wellFormed (.calibrationAdaptation t0 (.threshold 3 0) 0) = true ∧ AdaptItem.ok (.deskew 11 63 1 268) = false ∧ AdaptItem.ok (.deskew 11 63 1 267) = true := by decide
theorem test_wf_package : wellFormed (.boundaryMessage t0 64 0 0 false 0 0) = false ∧ wellFormed (.boundaryMessage t0 63 0 0 false 0 0) = true := by decide
theorem test_wf_tag : wellFormed (.attemptTimeout t0 20 8192) = false ∧ wellFormed (.attemptTimeout t0 20 8191) = true := by decide
theorem test_wf_copy_entry : wellFormed (.refetch t0 15 256) = false ∧ wellFormed (.refetch t0 15 255) = true := by decide
theorem test_wf_port : wellFormed (.wormHop t0 3071 7 [] [] false) = false ∧ wellFormed (.wormHop t0 3071 6 [] [] false) = true := by decide
theorem test_wf_stream : wellFormed (.shardAbandon t0 256 0) = false ∧ wellFormed (.shardAbandon t0 255 0) = true := by decide
theorem test_wf_egress : wellFormed (.egressTimeout t0 64) = false ∧ wellFormed (.egressTimeout t0 63) = true := by decide
theorem test_wf_unit : wellFormed (.unitEnable t0 36) = false ∧ wellFormed (.unitEnable t0 35) = true := by decide
theorem test_wf_ratio : wellFormed (.ratioWrite t0 4 0) = false ∧ wellFormed (.ratioWrite t0 3 0) = true := by decide
/-- An ill-formed command stops by name; step takes the front of the queue, and an empty queue idles. -/
theorem test_ill_formed_stops : exec (.tileReset t0 4) up = .fault .noSuchUnit := rfl
theorem test_empty_queue_idles : step State.reset = .next State.reset := rfl
theorem test_no_row_has_bits : decodeTableWord 32 0x04000000 = none ∧ State.reset.withFetchWord 32 0x04000000 = State.reset := ⟨rfl, rfl⟩

/-! Slot words written out from the encoding tables; the first five are the words of the worked tile. -/

theorem test_word_waitse : decodeControl t0 0 0xC40C0000 = some (.waitse t0 0 3 0) := by decide
theorem test_word_stile : decodeStream t0 0 0x08249000 = some (.stile t0 g0 2 1 false 2 16 0) := by decide
theorem test_word_mma : decodeMatrix t0 0 0x04010800 = some (.mma t0 g0 0 false true false false false 16) := by decide
theorem test_word_accrd : decodeMatrix t0 0 0x100A0200 = some (.accrd t0 g0 10 false false 2 0) := by decide
theorem test_word_vq : decodeVector t0 0 0x8C087404 = some (.vq t0 g0 8 3 20 0 false false true false) := by decide
/-- ADD s1, s2, s3: opcode 0x01, d at [21:17], a at [16:12], b at [11:7]; the same under p5 negated. -/
theorem test_word_add : decodeControl t0 0 0x04022180 = some (.add t0 g0 1 2 3) ∧ decodeControl t0 9 0x06C22180 = some (.add t0 ⟨9, 5, true⟩ 1 2 3) := by decide
/-- LOOPI level 3, last bundle 0x3FFF, 63 times. -/
theorem test_word_loopi : decodeControl t0 0 0xB43FFFFF = some (.loopi t0 0 3 0x3FFF 63) := by decide
/-- CMPI p3 := s1 < −1 (cond 2): pd at [21:19], cond at [18:16], a at [15:11], imm11. -/
theorem test_word_cmpi : decodeControl t0 0 0x741A0FFF = some (.cmpi t0 g0 3 2 1 0x7FF) := by decide
/-- SATOM SE3, fetch-and-add (op 0), 64 bits, d 1, a 2, b 3. -/
theorem test_word_satom : decodeStream t0 0 0x14308443 = some (.satom t0 g0 3 0 true 1 2 3) := by decide
/-- VLD v63 from s1 plus 2,047 units; VEXT s1 := v2[3]. -/
theorem test_word_vld_vext : decodeVector t0 0 0x803F0FFF = some (.vld t0 g0 63 1 0x7FF) ∧ decodeVector t0 0 0x60020830 = some (.vext t0 g0 1 2 3) := by decide
/-- Reserved: an unassigned opcode, BR under a predicate, CMP with condition 6, BAR with scope 3, MMA with pair 10, VQ with destination 1 and with an odd a
under error feedback, VSELM with t = 1, STILE with descriptor 0, SCOPY with an odd b. -/
theorem test_reserved_words : decodeControl t0 0 0x30000000 = none ∧ decodeControl t0 0 0xA0800000 = none ∧ decodeControl t0 0 0x70060000 = none ∧ decodeControl t0 0 0xC80C0000 = none ∧ decodeMatrix t0 0 0x04280000 = none ∧ decodeVector t0 0 0x8C086020 = none ∧ decodeVector t0 0 0x8C086108 = none ∧ decodeVector t0 0 0x20000008 = none ∧ decodeStream t0 0 0x08001000 = none ∧ decodeStream t0 0 0x04000001 = none := by decide
/-- A bit that ADD's format does not name changes nothing (assumption 29). -/
theorem test_unnamed_bit : decodeControl t0 0 0x04022181 = some (.add t0 g0 1 2 3) := by decide

/-! The worked examples of the spec. -/

/-- Core T5.L2.(3,6): core_id 1,438, its registers at 0x01_059E_0000 and its vault at 0x0205_9E00_0000. -/
theorem test_core_1438 : 1280 + 128 + 24 + 6 = 1438 ∧ Reg.coreCtrl 1438 - Reg.coreCtrl 0 = 0x01059E0000 - 0x0100000000 ∧ placeOf 0x02059E000000 = .vault 1438 0 := by decide
/-- The block of the quantization example, in F32: 0.9, −2.2, 0.05, 3.1, 0, −0.6, 1.4, 2.75, −3.3, 0.3, 1.0, −0.15, 2.0, 0.7, −1.9, 0.45. -/
def sixteen : List Nat := [0x3F666666, 0xC00CCCCD, 0x3D4CCCCD, 0x40466666, 0, 0xBF19999A, 0x3FB33333, 0x40300000, 0xC0533333, 0x3E99999A, 0x3F800000, 0xBE19999A, 0x40000000, 0x3F333333, 0xBFF33333, 0x3EE66666]
/-- Its codes as the table of the example gives them. -/
def sixteenCodes : List Nat := [3, 0xE, 0, 6, 0, 0xA, 4, 6, 0xF, 1, 3, 0, 5, 2, 0xD, 1]
theorem test_quantize_f4 : quantize .f4 none sixteen = { codes := sixteenCodes, k8 := 0x79, sat := 0, flushed := 2, poisoned := 0, maxMag := 0x40533333 } := by decide +kernel
theorem test_block_bytes : Elem.pack .f4 sixteenCodes = [0xE3, 0x60, 0xA0, 0x64, 0x1F, 0x03, 0x25, 0x1D] := by decide
/-- Element 6 under stochastic rounding: a draw of 15,728 rounds up, one of 15,729 does not. -/
theorem test_quantize_draw : (encodeElem .f4 0x79 (some 15728) 0x3FB33333).1 = 5 ∧ (encodeElem .f4 0x79 (some 15729) 0x3FB33333).1 = 4 := by decide +kernel
/-- The exact block accumulation of the same block with B = 1, 0.5, 2, −1, 3, 1, −0.5, 0.5, 1, 4, −2, 6, 0.5, 1, −1, 2 at K8 0x7C: −3.125 into
16,777,216.0. -/
theorem test_block_accumulation : foldAcc 0x4B800000 (pairContrib .f4 .f4 { codes := sixteenCodes, k8 := 0x79 } { codes := [2, 1, 4, 10, 5, 2, 9, 1, 2, 6, 12, 7, 1, 2, 10, 4], k8 := 0x7C }) = 0x4B7FFFFD := by decide +kernel
/-- Dequantized, element 8 reads −3.75 and element 6 reads 1.25. -/
theorem test_dequantize : (dequantize .f4 0x3F800000 { codes := sixteenCodes, k8 := 0x79 }).getD 8 0 = 0xC0700000 ∧ (dequantize .f4 0x3F800000 { codes := sixteenCodes, k8 := 0x79 }).getD 6 0 = 0x3FA00000 := by decide +kernel
/-- The drop fractions of the example: T4 (8) drops 1/12 of M3 (15); with T1 (3) fenced it still does, and E0 drops 1/19 instead of 1/20. -/
theorem test_drop_fractions : up.fraction 15 8 = 65536 / 12 ∧ up.fraction 15 0 = 65536 / 20 := by decide +kernel
theorem test_drop_fractions_fenced : (up.markRing 3).fraction 15 8 = 65536 / 12 ∧ (up.markRing 3).fraction 15 0 = 65536 / 19 := by decide +kernel
/-- required_cap 0x201 fails against 0x25A and passes against 0x2FF, as does 0x209 there. -/
theorem test_capability : capPasses 0x201 0x25A = false ∧ capPasses 0x201 0x2FF = true ∧ capPasses 0x209 0x2FF = true := by decide
/-- Channel 121 reads 1,557 and a tile diode 1,456: E = 37 and d = 5; a cool round after it takes d down to 1. -/
def hotRound : State := (up.wr (Reg.onxHk 121) ((F.onxHkValid.put (F.onxHkValue.put 0 1557) 1))).wr (Reg.onxHk 200) ((F.onxHkValid.put (F.onxHkValue.put 0 1456) 1))
theorem test_dilation_rises : hotRound.dilate.fld Reg.onxTherm F.onxThermD = 5 ∧ hotRound.dilate.fld Reg.onxTherm F.onxThermHotSource = 121 := by decide +kernel
theorem test_dilation_falls : (up.putF Reg.onxTherm F.onxThermD 5).dilate.fld Reg.onxTherm F.onxThermD = 1 := by decide +kernel
/-- The read request of SE1 of core T5.L3.(0,6) for 4,096 bytes at offset 0x10_0000 of T5.L1.(6,2), as it leaves and as port block 7 rewrites it. -/
def reader : Worm := wormToward { src := 0x5C6, dst := 0x572, flits := 64, engine := 1, line := 0x4000 } 0x5C6 0x572 2
theorem test_worm_header : portBlock 0x572 = 7 ∧ (reader.dx, reader.dy) = (-3, 7) ∧ wormHeader reader = 0x06BC5C6572808010 * 2 ^ 64 ∧ wormOf (wormHeader reader) = reader := by decide
theorem test_worm_rewrite : (((up.riser 5 7 reader).worms (portCore 5 1 7) 4).map fun w => (w.dx, w.dy, wormHeader w)) = [(-1, -1, 0x07F85C6572808010 * 2 ^ 64)] := by decide +kernel
/-- The 4-port mesh of the cyclic shift: interferometers 0, 2 and 4 cross, 1, 3 and 5 bar; the rows of its matrix. -/
def shiftMesh (k : Nat) : Mzi := mziOfWord (if k % 2 = 0 then 0x10000000 else 0)
theorem test_mesh_shift : ((List.range 4).map fun o => (List.range 4).map fun i => meshEntry exactAmplitudes 4 shiftMesh o i) =
    [[0, -1, 0, 0], [0, 0, -1, 0], [0, 0, 0, -1], [1, 0, 0, 0]] := by decide +kernel
/-- The multicast of input 0 to outputs 0 and 1: an even split at interferometer 0 and a cross at 1. -/
def castMesh (k : Nat) : Mzi := mziOfWord (if k = 0 then 0x08000000 else if k = 1 then 0x10000000 else 0)
theorem test_mesh_multicast : meshReach 4 castMesh 0 = [0, 1] ∧ meshReach 4 castMesh 1 = [0, 1] ∧ meshReach 4 castMesh 2 = [3] ∧ meshReach 4 castMesh 3 = [2] := by decide +kernel
/-- A codeword of RS(136,128) is 0 at every root of its generator; one changed symbol shows. -/
theorem test_reed_solomon : ((List.range 8).all fun i => decide (rsValue (rsCodeword (List.range 128)) (gfPow i) = 0)) = true ∧ rsValue (1 :: (rsCodeword (List.range 128)).tail) (gfPow 1) ≠ 0 := by decide +kernel

/-! Single steps: what an instruction writes, seen in the cycle it lands in. -/

/-- Core 0 with s1 and s2 given. -/
def two (x y : Word) : State := withS 1 x (withS 2 y up)
/-- s3 of core 0 in a cycle after an instruction. -/
def s3At (cyc : Nat) (i : Instr) (s : State) : Word := ((after i s).toCycle 0 cyc).sreg 0 3
theorem test_add_wraps : s3At 1 (.add t0 g0 3 1 2) (two 0xFFFFFFFFFFFFFFFF 2) = 1 := by decide +kernel
theorem test_sub_order : s3At 1 (.sub t0 g0 3 1 2) (two 1 2) = 0xFFFFFFFFFFFFFFFF := by decide +kernel
theorem test_sar_keeps_the_sign : s3At 1 (.sar t0 g0 3 1 2) (two 0x8000000000000000 67) = 0xF000000000000000 := by decide +kernel
theorem test_shr_takes_six_bits : s3At 1 (.shr t0 g0 3 1 2) (two 0x8000000000000000 67) = 0x1000000000000000 := by decide +kernel
theorem test_min_is_signed : s3At 1 (.min t0 g0 3 1 2) (two 0xFFFFFFFFFFFFFFFF 1) = 0xFFFFFFFFFFFFFFFF := by decide +kernel
theorem test_mul_takes_three_cycles : s3At 2 (.mul t0 g0 3 1 2) (two 0x100000001 0x100000001) = 0 ∧ s3At 3 (.mul t0 g0 3 1 2) (two 0x100000001 0x100000001) = 0x200000001 := by decide +kernel
theorem test_movi_extends : s3At 1 (.movi t0 g0 3 0x10000) up = 0xFFFFFFFFFFFF0000 := by decide +kernel
theorem test_insh_upper_half : s3At 1 (.insh t0 g0 3 true 0xABCD) up = 0xABCD000000000000 := by decide +kernel
theorem test_disabled_adds_nothing : s3At 1 (.add t0 gOff 3 1 2) (two 1 2) = 0 := by decide +kernel
/-- A taken branch issued in cycle 4: its target issues in cycle 7. -/
theorem test_branch : ((after (.br ⟨0, 4⟩ 0 0x1234) up).core 0).npc = 0x1234 ∧ ((after (.br ⟨0, 4⟩ 0 0x1234) up).core 0).ready = 7 := by decide +kernel
/-- A write of a size other than 8 changes no register. -/
theorem test_write_size : (after (.configWrite t0 (Reg.onxPmcCtrl) 4 1) up).rd Reg.onxPmcCtrl = up.rd Reg.onxPmcCtrl := by decide +kernel
theorem test_quantize_k8_zero : selectK8 .f4 (List.replicate 16 0) = 0 ∧ selectK8 .f4 (List.replicate 15 0 ++ [0x7F800000]) = 0xFF := by decide +kernel
/-- Correctly rounded elementary functions: 2^3 = 8, log2 8 = 3, 1/√4 = 0.5. -/
theorem test_elementary : exp2 0x40400000 = 0x41000000 ∧ log2F 0x41000000 = 0x40400000 ∧ rsqrt 0x40800000 = 0x3F000000 := by decide +kernel

end Sys2Proof.Tests
end

section
/-! The machine after reset, and the numbers of its cores (R12, R13). -/
namespace Sys2Proof.Machine

/-- Settles O5: the reset state's fields as they are written; its register store holds the port's two address words alone. -/
theorem resetState : Obligations.ResetState := by
  refine ⟨rfl, rfl, ⟨rfl, rfl⟩, fun _ => ⟨rfl, rfl⟩, fun a h0 h1 => ?_, by decide, fun _ => ⟨rfl, fun _ => rfl⟩, fun _ _ => rfl, rfl, rfl⟩
  simp [State.rd, State.reset, Sparse.get, h0.symm, h1.symm]

theorem windowWord_coreId (s : State) {c : Nat} (h : c < 3072) : s.windowWord (Reg.coreId c) = none := by
  unfold State.windowWord Reg.coreId
  repeat rw [if_neg (by omega)]

theorem windowRows_coreId {c : Nat} (h : c < 3072) : windowRows (Reg.coreId c) = some rowsCore := by
  unfold windowRows Reg.coreId
  repeat rw [if_neg (by omega)]
  rw [if_pos (by omega)]

theorem findRow_coreId {c : Nat} (h : c < 3072) :
    findRow (Reg.coreId c) rowsCore = some (⟨0x100000000, [(0x10000, 3072)], false, [⟨F.coreIdCoreId, .ro, 0⟩]⟩, [c]) := by
  have h1 : (Reg.coreId c - 0x100000000) / 0x10000 = c := by unfold Reg.coreId; omega
  have h2 : (Reg.coreId c - 0x100000000) % 0x10000 = 0 := by unfold Reg.coreId; omega
  have h3 : ¬ Reg.coreId c < 0x100000000 := by unfold Reg.coreId; omega
  simp [rowsCore, rowsCore0, findRow, RegRow.find, spell, h1, h2, h3, h]

theorem cfgRead_coreId (s : State) {c : Nat} (h : c < 3072) : s.cfgRead (Reg.coreId c) = BitVec.ofNat 64 c := by
  unfold State.cfgRead
  rw [windowWord_coreId s h, windowRows_coreId h]
  simp only [findRow_coreId h]
  rfl

theorem placeOf_windowOf {c : Nat} (h : c < 3072) : placeOf (0x020000000000 + c * 0x1000000) = .vault c 0 := by
  unfold placeOf
  rw [if_neg (by omega), if_pos (by omega)]
  have h1 : (0x020000000000 + c * 0x1000000 - 0x020000000000) / 0x1000000 = c := by omega
  have h2 : (0x020000000000 + c * 0x1000000) % 0x1000000 = 0 := by omega
  simp [h2]

/-- Settles O4: the parts of a number by arithmetic, and the word of CORE_ID from its row in the cores' window. -/
theorem coreNumbering : Obligations.CoreNumbering := by
  intro s t l y x c ht hl hy hx hc
  have hlt : c < 3072 := by omega
  have hX : xOf c = x := by unfold xOf; omega
  have hY : yOf c = y := by unfold yOf; omega
  refine ⟨hlt, ?_, ?_, ?_, ?_, ?_, ?_, ?_, ?_, cfgRead_coreId s hlt, ?_, placeOf_windowOf hlt, ?_, ?_, ?_, ?_⟩
  · simp only [bits]; omega
  · simp only [bits]; omega
  · simp only [bits]; omega
  · simp only [bits]; omega
  · simp only [towerOf]; omega
  · simp only [layerOf]; omega
  · simp only [colOf]; omega
  · simp only [localOf, bits]; omega
  · simp only [Reg.coreId, localOf]; omega
  · simp only [neighbour, hX]; congr 3; omega
  · simp only [neighbour, hX]; split <;> simp; omega
  · simp only [neighbour, hY]; congr 3; omega
  · simp only [neighbour, hY]; split <;> simp; omega
end Sys2Proof.Machine
end
section
namespace Sys2Proof.Machine

/-! SRD and its special values (R150, R174). -/

/-- Counting events leaves every engine's record alone. -/
theorem Counts.engine {s u : State} {c : Nat} (h : Counts s u c) (d e : Nat) : u.engine d e = s.engine d e := by rw [h.1]; rfl
theorem State.engine_send (s : State) (c due pri : Nat) (x : Eff) (d e : Nat) : (s.send c due pri x).engine d e = s.engine d e := by
  unfold State.send
  dsimp only
  split <;> rfl
theorem State.setEngine_send (s : State) (c e : Nat) (g : Engine) (d due pri : Nat) (x : Eff) :
    (s.send d due pri x).setEngine c e g = (s.setEngine c e g).send d due pri x := by
  unfold State.send
  dsimp only
  split
  · rename_i h; exact (if_pos h).symm
  · rename_i h; exact (if_neg h).symm
/-- Reading a special value concerns an engine alone, and a write on its way a core alone: their order does not matter. -/
theorem State.specialRead_send (s : State) (c sel cyc d due pri : Nat) (x : Eff) :
    (s.send d due pri x).specialRead c sel cyc = (s.specialRead c sel cyc).send d due pri x := by
  unfold State.specialRead
  rw [State.engine_send]
  split
  · exact s.setEngine_send _ _ _ _ _ _ _
  · rfl
theorem State.specialRead_status (s : State) (c cyc : Nat) {e : Nat} (he : e < 4) :
    s.specialRead c (8 + e) cyc = s.setEngine c e ((s.engine c e).cleared cyc) := by
  unfold State.specialRead
  rw [if_pos (by omega), Nat.add_sub_cancel_left]
theorem State.specialRead_other (s : State) (c cyc : Nat) {sel : Nat} (h : sel < 8 ∨ 12 ≤ sel) : s.specialRead c sel cyc = s := by
  unfold State.specialRead
  rw [if_neg (by omega)]
theorem State.special_status (s : State) (c cyc : Nat) {e : Nat} (he : e < 4) : s.special c (8 + e) cyc = (s.engine c e).word cyc := by
  interval_cases e <;> rfl
theorem State.special_completed (s : State) (c cyc : Nat) {e : Nat} (he : e < 4) :
    s.special c (12 + e) cyc = BitVec.ofNat 64 ((s.engine c e).completed % 2 ^ 32) := by
  interval_cases e <;> rfl
theorem State.special_none (s : State) (c cyc : Nat) {sel : Nat} (h : 5 ≤ sel ∧ sel < 8 ∨ 16 < sel) : s.special c sel cyc = 0 := by
  unfold State.special
  split <;> try omega
  rfl
/-- With no completion in the cycle of the read, the status word reads as it stands. -/
theorem Engine.word_earlier (x : Engine) {cyc : Nat} (h : x.endCyc ≠ cyc + 1) :
    x.word cyc = statusWord x.firstSeq x.bad x.firstStatus x.lastStatus := by
  simp [Engine.word, h]
/-- With a completion in the cycle of the read, it reads as before that. -/
theorem Engine.word_sameCycle (x : Engine) {cyc q b f l : Nat} (h : x.endCyc = cyc + 1) (hb : x.before = [q, b, f, l]) :
    x.word cyc = statusWord q b f l := by
  simp [Engine.word, h, hb]
theorem Engine.cleared_earlier (x : Engine) {cyc : Nat} (h : x.endCyc ≠ cyc + 1) :
    x.cleared cyc = { x with firstSeq := 0, bad := 0, firstStatus := 0 } := by
  simp [Engine.cleared, h]
/-- What a completion in the cycle of the read recorded stands after the clear. -/
theorem Engine.cleared_sameCycle (x : Engine) {cyc : Nat} (h : x.endCyc = cyc + 1) :
    (x.cleared cyc).lastStatus = x.lastStatus ∧ (x.cleared cyc).bad = (if x.lastStatus = 0 then 0 else 1) ∧
      (x.cleared cyc).firstStatus = x.lastStatus ∧ (x.lastStatus ≠ 0 → (x.cleared cyc).firstSeq = x.endSeq) := by
  by_cases hl : x.lastStatus = 0 <;> simp [Engine.cleared, h, hl]

/-- Settles O12: the value comes from the state of the read's cycle, and the clear of an engine's status word commutes with the write on its way. -/
theorem specialValues : Obligations.SpecialValues := by
  intro t g d sel s s1 e hon hs1 he
  subst hs1
  generalize hs : s.toCore t g.core = s1
  have hx : exec (.srd t g d sel) s = .next (((s1.specialRead g.core sel.toNat t.cyc).send g.core (t.cyc + 1) 3
      (.setS d.toNat (s1.special g.core sel.toNat t.cyc))).ran g.core) := by
    rw [← State.specialRead_send, ← hs]
    exact whenOn_next (fun s => (s.send g.core (t.cyc + 1) 3 (.setS d.toNat (s.special g.core sel.toNat t.cyc))).specialRead g.core sel.toNat t.cyc) hon
  have hengine : ∀ c x, ((((s1.specialRead g.core sel.toNat t.cyc).send g.core (t.cyc + 1) 3
      (.setS d.toNat (s1.special g.core sel.toNat t.cyc))).ran g.core).engine c x) = (s1.specialRead g.core sel.toNat t.cyc).engine c x :=
    fun c x => by rw [(State.ran_counts _ _).engine, State.engine_send]
  refine ⟨_, s1.special g.core sel.toNat t.cyc, hx, (State.send_sends _ _ _ _ _).count (State.ran_counts _ _), ?_, ?_, ?_, ?_, ?_, ?_, ?_, ?_, ?_, ?_⟩
  · rintro rfl; rfl
  · rintro rfl; rfl
  · rintro rfl; rfl
  · rintro rfl; exact BitVec.toNat_ofNat _ _
  · rintro rfl; rfl
  · intro hsel hend
    rw [hengine, hsel, State.special_status _ _ _ he, State.specialRead_status _ _ _ he, State.engine_setEngine, Engine.word_earlier _ hend]
    exact ⟨BitVec.toNat_ofNat _ _, Engine.cleared_earlier _ hend⟩
  · intro hsel hend q b f l hb
    rw [hengine, hsel, State.special_status _ _ _ he, State.specialRead_status _ _ _ he, State.engine_setEngine, Engine.word_sameCycle _ hend hb]
    exact ⟨BitVec.toNat_ofNat _ _, Engine.cleared_sameCycle _ hend⟩
  · intro hsel
    rw [hengine, hsel, State.special_completed _ _ _ he, State.specialRead_other _ _ _ (by omega)]
    exact ⟨by simp; omega, rfl⟩
  · rintro rfl; rfl
  · exact fun h => State.special_none _ _ _ h
end Sys2Proof.Machine
end
section
/-! What a record of the log changes (R436 to R439). -/
namespace Sys2Proof.Machine

/-- Nothing changes but Onyx's record, what was put out and the log's own register ONX_LOG_STATUS. -/
def Logs (s u : State) : Prop :=
  u = { s with regs := u.regs, onyx := u.onyx, out := u.out } ∧ SameRegs s u [Reg.onxLogStatus]

theorem Logs.refl (s : State) : Logs s s := ⟨rfl, fun _ _ => rfl⟩
theorem Logs.trans {s u v : State} (h : Logs s u) (k : Logs u v) : Logs s v := by
  refine ⟨?_, fun a ha => (k.2 a ha).trans (h.2 a ha)⟩
  have h1 := k.1
  rw [h.1] at h1
  exact h1
theorem Logs.putF {s u : State} (h : Logs s u) (f : Fld) (v : Nat) : Logs s (u.putF Reg.onxLogStatus f v) :=
  h.trans ⟨rfl, fun _ ha => State.rd_wr_ne _ _ (by simpa using ha)⟩
theorem Logs.onyx {s u : State} (h : Logs s u) (o : Onyx) : Logs s { u with onyx := o } := h.trans ⟨rfl, fun _ _ => rfl⟩
theorem Logs.emit {s u : State} (h : Logs s u) (e : Emit) : Logs s (u.emit e) := h.trans ⟨rfl, fun _ _ => rfl⟩

theorem State.writeLog_logs (s : State) (r : LogRec) : Logs s (s.writeLog r) := by
  have h := ((Logs.refl s).putF F.onxLogStatusNextSequence (s.fld Reg.onxLogStatus F.onxLogStatusNextSequence + 1)).putF
    F.onxLogStatusWriteIndex (s.fld Reg.onxLogStatus F.onxLogStatusWriteIndex + 1)
  unfold State.writeLog
  dsimp only
  split
  · exact (h.onyx _).putF _ _
  · split
    · split
      · exact ((h.onyx _).onyx _).emit _
      · exact (h.onyx _).onyx _
    · exact h.onyx _
theorem State.flushMerge_logs (s : State) (code source : Nat) : Logs s (s.flushMerge code source) := by
  unfold State.flushMerge
  split
  · exact Logs.refl s
  · dsimp only
    split
    · exact Logs.refl s
    · split
      · exact (Logs.refl s).onyx _
      · exact ((Logs.refl s).onyx _).trans (State.writeLog_logs _ _)
theorem State.log_logs (s : State) (code source : Nat) (args : List Nat) : Logs s (s.log code source args) := by
  have h := (s.flushMerge_logs code source).trans ((s.flushMerge code source).flushMerge_logs code source)
  unfold State.log State.logAt
  dsimp only
  split
  · split
    · exact h.trans (State.writeLog_logs _ _)
    · exact h.onyx _
  · exact (h.trans (State.writeLog_logs _ _)).onyx _

theorem Logs.dev {s u : State} (h : Logs s u) : u.dev = s.dev := by rw [h.1]
theorem Logs.mem {s u : State} (h : Logs s u) : u.mem = s.mem := by rw [h.1]
theorem Logs.rd {s u : State} (h : Logs s u) {a : Nat} (ha : a ≠ Reg.onxLogStatus) : u.rd a = s.rd a := h.2 a (by simpa using ha)
end Sys2Proof.Machine
end
section
/-! Power, RESET_N and the end of a start (R13, R15, R27, R404, R479, R480), the sideband and the test access port (R471, R472). -/
namespace Sys2Proof.Machine

/-! Entering a device state. -/

/-- The registers that a change of the device state may write: ONX_STATE, and at HOLD the tiles' seam ratios (R290). -/
def enterRegs : List Nat := Reg.onxState :: (List.range 4).map Reg.flrClk

/-- A change of the device state: nothing else changes but the seam ratios, what was put out and these registers. -/
def Enters (s u : State) : Prop :=
  u = { s with dev := u.dev, regs := u.regs, ratios := u.ratios, out := u.out } ∧ SameRegs s u enterRegs

theorem Enters.refl (s : State) : Enters s s := ⟨rfl, fun _ _ => rfl⟩
theorem Enters.trans {s u v : State} (h : Enters s u) (k : Enters u v) : Enters s v := by
  refine ⟨?_, fun a ha => (k.2 a ha).trans (h.2 a ha)⟩
  have h1 := k.1
  rw [h.1] at h1
  exact h1
theorem Enters.wr {s u : State} (h : Enters s u) {a : Nat} (v : Word) (ha : a ∈ enterRegs) : Enters s (u.wr a v) :=
  h.trans ⟨rfl, fun _ hb => State.rd_wr_ne _ _ fun hba => hb (hba ▸ ha)⟩

theorem State.startRatio_enters (s : State) {n : Nat} (hn : n < 4) : Enters s (s.startRatio n) := by
  have hm : Reg.flrClk n ∈ enterRegs := List.mem_cons_of_mem _ (List.mem_map.2 ⟨n, List.mem_range.2 hn, rfl⟩)
  unfold State.startRatio
  split
  · exact Enters.refl s
  · exact (Enters.trans ⟨rfl, fun _ _ => rfl⟩ (Enters.refl _)).wr _ hm
theorem State.startRatios_enters (l : List Nat) (hl : ∀ n ∈ l, n < 4) (s : State) : Enters s (l.foldl State.startRatio s) := by
  induction l generalizing s with
  | nil => exact Enters.refl s
  | cons n r ih =>
    exact (s.startRatio_enters (hl n (by simp))).trans (ih (fun m hm => hl m (List.mem_cons_of_mem _ hm)) _)
theorem State.enter_enters (s : State) (d : DevState) : Enters s (s.enter d) := by
  have h : Enters s (if d = .hold then (List.range 4).foldl State.startRatio s else s) := by
    split
    · exact State.startRatios_enters _ (fun _ hn => List.mem_range.1 hn) s
    · exact Enters.refl s
  have hm : Reg.onxState ∈ enterRegs := List.mem_cons_self
  unfold State.enter
  dsimp only
  generalize (if d = .hold then (List.range 4).foldl State.startRatio s else s) = v at h ⊢
  have h1 : Enters s ({ v with dev := d }.putF Reg.onxState F.onxStateState (devNum d)) :=
    (h.trans (⟨rfl, fun _ _ => rfl⟩ : Enters v { v with dev := d })).wr _ hm
  split
  · exact h1
  · exact h1.trans ⟨rfl, fun _ _ => rfl⟩
theorem State.enter_dev (s : State) (d : DevState) : (s.enter d).dev = d := by
  unfold State.enter
  dsimp only
  generalize (if d = .hold then (List.range 4).foldl State.startRatio s else s) = v
  split <;> rfl
theorem Enters.rd {s u : State} (h : Enters s u) {a : Nat} (h1 : a ≠ Reg.onxState) (h2 : ∀ n < 4, a ≠ Reg.flrClk n) : u.rd a = s.rd a := by
  refine h.2 a fun hm => ?_
  rcases List.mem_cons.1 hm with e | hm
  · exact h1 e
  · obtain ⟨n, hn, e⟩ := List.mem_map.1 hm
    exact h2 n (List.mem_range.1 hn) e.symm

/-! What a start may change while BOOT chooses an image. -/

/-- The device stays in its state or goes to HOLD; memory, the cores, the fuses and the latched id stay. -/
def Boots (s u : State) : Prop :=
  u = { s with dev := u.dev, store := u.store, start := u.start, onyx := u.onyx, regs := u.regs, ratios := u.ratios, out := u.out } ∧
    u.start.pkg = s.start.pkg ∧ (u.dev = s.dev ∨ u.dev = .hold)

theorem Boots.refl (s : State) : Boots s s := ⟨rfl, rfl, .inl rfl⟩
theorem Boots.trans {s u v : State} (h : Boots s u) (k : Boots u v) : Boots s v := by
  refine ⟨?_, k.2.1.trans h.2.1, ?_⟩
  · have h1 := k.1
    rw [h.1] at h1
    exact h1
  · rcases k.2.2 with k3 | k3
    · rcases h.2.2 with h3 | h3
      · exact .inl (k3.trans h3)
      · exact .inr (k3.trans h3)
    · exact .inr k3
theorem Boots.wr {s u : State} (h : Boots s u) (a : Nat) (v : Word) : Boots s (u.wr a v) := h.trans ⟨rfl, rfl, .inl rfl⟩
theorem Logs.boots {s u : State} (h : Logs s u) : Boots s u := ⟨by rw [h.1], by rw [h.1], .inl h.dev⟩
theorem Enters.boots {s u : State} (h : Enters s u) (hd : u.dev = s.dev ∨ u.dev = .hold) : Boots s u := ⟨by rw [h.1], by rw [h.1], hd⟩
theorem Boots.byte {s u : State} (h : Boots s u) (a : Nat) : u.byte a = s.byte a := by rw [h.1]; rfl

theorem State.logStart_logs (s : State) (cause : Nat) : Logs s (s.logStart cause) := s.log_logs _ _ _
theorem State.startFail_boots (s : State) (cause : Nat) : Boots s (s.startFail cause) := by
  unfold State.startFail
  exact ((((Boots.refl s).wr _ _).wr _ _).trans (State.logStart_logs _ _).boots).trans
    ((State.enter_enters _ .hold).boots (.inr (State.enter_dev _ _)))
theorem State.startFail_dev (s : State) (cause : Nat) : (s.startFail cause).dev = .hold := by
  unfold State.startFail
  exact State.enter_dev _ .hold
/-- Beside the two registers that it writes, a start's failure touches the log's, ONX_STATE and the seam ratios' alone. -/
theorem State.startFail_rd (s : State) (cause : Nat) {a : Nat} (h1 : a ≠ Reg.onxLogStatus) (h2 : a ≠ Reg.onxState) (h3 : ∀ n < 4, a ≠ Reg.flrClk n) :
    (s.startFail cause).rd a = ((s.putF Reg.onxImgStatus F.onxImgStatusStartCause cause).wr Reg.onxHoldCause
      ((s.putF Reg.onxImgStatus F.onxImgStatusStartCause cause).rd Reg.onxHoldCause ||| 0x800)).rd a := by
  unfold State.startFail
  exact ((State.enter_enters _ .hold).rd h2 h3).trans ((State.logStart_logs _ cause).rd h1)
theorem State.startFail_cause (s : State) (cause : Nat) (h : cause < 256) :
    (s.startFail cause).fld Reg.onxImgStatus F.onxImgStatusStartCause = cause := by
  unfold State.fld
  rw [State.startFail_rd _ _ (by decide) (by decide) (by decide), State.rd_wr_ne _ _ (by decide)]
  exact (State.fld_putF _ _ _ _ (by decide) (by decide)).trans (Nat.mod_eq_of_lt h)
theorem State.startFail_holdCause (s : State) (cause : Nat) : (s.startFail cause).rd Reg.onxHoldCause = s.rd Reg.onxHoldCause ||| 0x800 := by
  rw [State.startFail_rd _ _ (by decide) (by decide) (by decide), State.rd_wr, State.rd_putF_ne _ _ _ (by decide)]

/-! BOOT (R391, R404, R406). -/

theorem State.raiseInc_boots (s : State) : Boots s s.raiseInc := by
  unfold State.raiseInc
  dsimp only
  refine Boots.wr ?_ _ _
  split <;> exact ⟨rfl, rfl, .inl rfl⟩
theorem State.raiseInc_rd (s : State) {a : Nat} (h : a ≠ Reg.fabIncarnation) : s.raiseInc.rd a = s.rd a := by
  unfold State.raiseInc
  dsimp only
  rw [State.rd_putF_ne _ _ _ h]
  split <;> rfl
/-- Raising the incarnation writes a slot of the store, and leaves the banks and the store's size. -/
theorem State.raiseInc_store (s : State) : s.raiseInc.store.bankA = s.store.bankA ∧ s.raiseInc.store.bankB = s.store.bankB ∧ s.raiseInc.store.size = s.store.size := by
  unfold State.raiseInc
  dsimp only
  rw [State.putF_store]
  split <;> exact ⟨rfl, rfl, rfl⟩
theorem State.numberLog_boots (s : State) : Boots s s.numberLog := (Boots.refl s).wr _ _
theorem State.bootFrom_boots (s : State) (b : Bool) : Boots s (s.bootFrom b) := by
  unfold State.bootFrom
  dsimp only
  split
  · exact ((((Boots.refl s).wr _ _).wr _ _).wr _ _).trans (State.startFail_boots _ _)
  · exact (((Boots.refl s).wr _ _).wr _ _).wr _ _
theorem State.tryBanks_boots (errs : List (Nat × Nat)) (l : List Bool) (s : State) : Boots s (s.tryBanks errs l) := by
  induction l generalizing s with
  | nil => exact s.startFail_boots 1
  | cons b r ih =>
    unfold State.tryBanks
    dsimp only
    split
    · exact ((Boots.refl s).wr _ _).trans (State.bootFrom_boots _ _)
    · exact ((Boots.refl s).wr _ _).trans (ih _)
theorem State.selectBank_boots (s : State) (named : Option Bool) (errs : List (Nat × Nat)) : Boots s (s.selectBank named errs) := by
  unfold State.selectBank
  exact (((((Boots.refl s).wr _ _).wr _ _).wr _ _).wr _ _).trans (State.tryBanks_boots _ _ _)
theorem State.headState_ne_one (s : State) (errs : List (Nat × Nat)) (b : Bool) (h : s.headerCheck (s.bank b).header ≠ 1) : s.headState errs b ≠ 1 := by
  unfold State.headState
  split
  · decide
  · exact h
/-- With no valid header in either bank the start ends with cause 1, in HOLD. -/
theorem State.selectBank_none (s : State) (errs : List (Nat × Nat)) (h : ∀ b, s.headerCheck (s.bank b).header ≠ 1) :
    (s.selectBank none errs).dev = .hold ∧ (s.selectBank none errs).fld Reg.onxImgStatus F.onxImgStatusStartCause = 1 := by
  have hf (b : Bool) : ((s.phaseTo 1).putB Reg.onxImgStatus F.onxImgStatusForced false).headState errs b ≠ 1 := State.headState_ne_one _ _ _ (h b)
  unfold State.selectBank
  simp only [Option.isSome_none, hf, false_and, if_false]
  exact ⟨State.startFail_dev _ _, State.startFail_cause _ _ (by decide)⟩
/-- A start begins: the size of the store is known. -/
def State.identified (s : State) (named : Option Bool) (sight : BootSight) : State :=
  { s with store := { s.store with size := min sight.size0 sight.size1 }, start := { s.start with named := named, badEngines := sight.badEngines },
           onyx := { s.onyx with bootAt := s.now } }
/-- Then the incarnation is raised and the log numbered. -/
def State.bootBegun (s : State) (named : Option Bool) (sight : BootSight) : State := (s.identified named sight).raiseInc.numberLog
theorem State.bootBegun_boots (s : State) (named : Option Bool) (sight : BootSight) : Boots s (s.bootBegun named sight) :=
  (Boots.trans (⟨rfl, rfl, .inl rfl⟩ : Boots s (s.identified named sight)) (State.raiseInc_boots _)).trans (State.numberLog_boots _)
theorem State.runBoot_eq (s : State) (named : Option Bool) (sight : BootSight) :
    s.runBoot named sight = if 32 ≤ s.pkg then (s.bootBegun named sight).startFail 4
      else (s.bootBegun named sight).selectBank named (sight.readErrors.filterMap fun x => flashBlock (s.bootBegun named sight).store.size x.1 x.2) := by
  unfold State.pkg
  rw [← (s.bootBegun_boots named sight).2.1]
  rfl
theorem State.runBoot_boots (s : State) (named : Option Bool) (sight : BootSight) : Boots s (s.runBoot named sight) := by
  rw [State.runBoot_eq]
  split
  · exact (s.bootBegun_boots named sight).trans (State.startFail_boots _ _)
  · exact (s.bootBegun_boots named sight).trans (State.selectBank_boots _ _ _)
theorem State.bootBegun_rd (s : State) (named : Option Bool) (sight : BootSight) {a : Nat} (h1 : a ≠ Reg.fabIncarnation) (h2 : a ≠ Reg.onxLogStatus) :
    (s.bootBegun named sight).rd a = s.rd a := by
  unfold State.bootBegun State.numberLog
  rw [State.rd_putF_ne _ _ _ h2, State.raiseInc_rd _ h1]
  rfl
/-- Identifying a store of the size already known leaves the checks of the banks' headers as they are. -/
theorem State.bootBegun_headerCheck (s : State) (named : Option Bool) (sight : BootSight) (h0 : sight.size0 = s.store.size)
    (h1 : sight.size1 = s.store.size) (b : Bool) :
    (s.bootBegun named sight).headerCheck ((s.bootBegun named sight).bank b).header = s.headerCheck (s.bank b).header := by
  obtain ⟨hA, hB, hsize⟩ := (s.identified named sight).raiseInc_store
  have hf : (s.bootBegun named sight).fuses = s.fuses := by rw [(s.bootBegun_boots named sight).1]
  have hsz : (s.bootBegun named sight).store.size = s.store.size := by
    unfold State.bootBegun State.numberLog
    rw [State.putF_store, hsize, State.identified, h0, h1, Nat.min_self]
  have hbank : (s.bootBegun named sight).bank b = s.bank b := by
    unfold State.bank State.bootBegun State.numberLog
    rw [State.putF_store, hA, hB]
    rfl
  unfold State.headerCheck State.bankSize State.headerSig State.sigOk
  rw [hbank, hsz, hf]
end Sys2Proof.Machine
end
section
namespace Sys2Proof.Machine

/-! Entering BOOT (R13, R454, R470). -/

theorem State.enter_rd (s : State) {d : DevState} (hd : d ≠ .hold) {a : Nat} (ha : a ≠ Reg.onxState) : (s.enter d).rd a = s.rd a := by
  unfold State.enter
  dsimp only
  rw [if_neg hd]
  split <;> exact State.rd_putF_ne { s with dev := d } _ _ ha
theorem State.cleared_rd (s : State) {a : Nat} (hm : a ≠ Reg.hstMac) (hi : ∀ i < 2, a ≠ Reg.hstIpv6 i) : s.cleared.rd a = resetWord a := by
  unfold State.cleared
  dsimp only
  rw [State.rd_wr_ne _ _ (hi 1 (by decide)), State.rd_wr_ne _ _ (hi 0 (by decide)), State.rd_putF_ne _ _ _ hm]
  simp [State.rd, State.reset, Sparse.get, (hi 0 (by decide)).symm, (hi 1 (by decide)).symm]
theorem State.enterBoot_rd (s : State) {a : Nat} (ho : a ≠ Reg.onxState) (hm : a ≠ Reg.hstMac) (hi : ∀ i < 2, a ≠ Reg.hstIpv6 i) :
    s.enterBoot.rd a = resetWord a := (State.enter_rd _ (by decide) ho).trans (s.cleared_rd hm hi)
theorem State.enterBoot_dev (s : State) : s.enterBoot.dev = .boot := State.enter_dev s.cleared .boot
theorem State.enterBoot_enters (s : State) : Enters s.cleared s.enterBoot := State.enter_enters s.cleared .boot
/-- Of what survives the entry to BOOT: memory, the store, the fuses, RESET_N; of what does not: the cores, their engines, remote operations, queues. -/
theorem State.enterBoot_kept (s : State) :
    s.enterBoot.mem = s.mem ∧ s.enterBoot.store = s.store ∧ s.enterBoot.fuses = s.fuses ∧ s.enterBoot.pins.resetN = s.pins.resetN ∧
      s.enterBoot.cores = [] ∧ s.enterBoot.engines = [] ∧ s.enterBoot.ops = [] ∧ s.enterBoot.txq = [] ∧ s.enterBoot.onyx.logQueue = s.onyx.logQueue := by
  rw [s.enterBoot_enters.1]
  exact ⟨rfl, rfl, rfl, rfl, rfl, rfl, rfl, rfl, rfl⟩

/-! The clauses of the obligation. -/

theorem sideband_commands (t : At) (bytes : List Byte) (b : Byte) (count : Nat) (a st : BitVec 7) (s : State) (h : (s.at t).sideOn = true) :
    exec (.i3cPrivateWrite t (b :: bytes)) s = .next { s.at t with pins := { s.pins with i3cOffset := b.toNat } } ∧
    exec (.i3cPrivateWrite t []) s = .next (s.at t) ∧
    exec (.i3cPrivateRead t count) s = .next ({ s.at t with pins := { s.pins with i3cOffset := (s.pins.i3cOffset + count) % 256 } }.emit
      (.i3c ((List.range count).map fun i => (s.at t).sideBytes.getD ((s.pins.i3cOffset + i) % 256) 0))) ∧
    exec (.dynamicAddressAssign t (.entdaa a)) s = .next { s.at t with pins := { s.pins with i3cAddr := some a } } ∧
    exec (.dynamicAddressAssign t (.setdasa 0x3A a)) s = .next { s.at t with pins := { s.pins with i3cAddr := some a } } ∧
    (st ≠ 0x3A → exec (.dynamicAddressAssign t (.setdasa st a)) s = .next (s.at t)) := by
  refine ⟨?_, ?_, ?_, ?_, ?_, fun hst => ?_⟩
  · exact congrArg Host.Outcome.next (if_pos h)
  · exact congrArg Host.Outcome.next (if_pos h)
  · exact congrArg Host.Outcome.next (if_pos h)
  · exact congrArg Host.Outcome.next (if_pos h)
  · exact congrArg Host.Outcome.next (if_pos h)
  · exact congrArg Host.Outcome.next ((if_pos h).trans (if_neg hst))
theorem jtag_instructions (t : At) (s : State) (h : s.dev ≠ .off) :
    exec (.jtagInstruction t .idcode) s = .next ({ s.at t with pins := { s.pins with tap := .idcode } }.emit (.tapId (idCode s.fuses.stepping))) ∧
    exec (.jtagInstruction t .extest) s = .next ({ s.at t with pins := { s.pins with tap := .extest } }.emit (.extest (!s.pins.resetN))) ∧
    exec (.jtagInstruction t .samplePreload) s = .next { s.at t with pins := { s.pins with tap := .samplePreload } } ∧
    exec (.jtagInstruction t .bypass) s = .next { s.at t with pins := { s.pins with tap := .bypass } } ∧
    exec (.jtagInstruction t .other) s = .next { s.at t with pins := { s.pins with tap := .bypass } } :=
  ⟨congrArg Host.Outcome.next (if_neg h), congrArg Host.Outcome.next (if_neg h), congrArg Host.Outcome.next (if_neg h),
    congrArg Host.Outcome.next (if_neg h), congrArg Host.Outcome.next (if_neg h)⟩

theorem powerOn_next (t : At) (s : State) :
    ∃ u, exec (.powerOn t) s = .next u ∧ (s.dev ≠ .off → u = s.at t) ∧
      (s.dev = .off → u.dev = .boot ∧ u.pins.resetN = false ∧ u.cores = [] ∧ u.store = s.store ∧ u.fuses = s.fuses ∧ ∀ a, u.byte a = 0) := by
  refine ⟨_, rfl, fun h => if_neg h, fun h => ?_⟩
  rw [if_pos (show (s.at t).dev = .off from h)]
  obtain ⟨hmem, hstore, hfuses, hresetN, hcores, -⟩ := (s.at t).unpowered.enterBoot_kept
  exact ⟨State.enterBoot_dev _, hresetN, hcores, hstore, hfuses, fun a => by rw [State.byte, hmem]; rfl⟩
/-- What RESET_N low abandons before BOOT is entered: the log's queue and the sideband's address and offset. -/
def State.resetLow (s : State) : State :=
  { s with onyx := { s.onyx with logQueue := [] }, pins := { s.pins with resetN := false, i3cAddr := none, i3cOffset := 0 } }
theorem execResetNAssert_eq (t : At) (s : State) :
    exec (.resetNAssert t) s = .next (if s.dev = .off ∨ s.dev = .tripped then { s.at t with pins := { s.pins with resetN := false } }
      else (s.at t).resetLow.enterBoot) := rfl
/-- RESET_N low enters BOOT, but not without power or after a thermal trip (R15, R480). -/
theorem resetNAssert_next (t : At) (s : State) :
    ∃ u, exec (.resetNAssert t) s = .next u ∧ u.pins.resetN = false ∧ SameBytes s u ∧ u.store = s.store ∧
      (s.dev = .off ∨ s.dev = .tripped → u = { s.at t with pins := { s.pins with resetN := false } }) ∧
      (s.dev ≠ .off → s.dev ≠ .tripped → u.dev = .boot ∧ u.cores = [] ∧ u.engines = [] ∧ u.ops = [] ∧ u.txq = [] ∧ u.onyx.logQueue = [] ∧
        ∀ a, a ≠ Reg.onxState → a ≠ Reg.hstMac → (∀ i, i < 2 → a ≠ Reg.hstIpv6 i) → u.rd a = resetWord a) := by
  rw [execResetNAssert_eq]
  by_cases h : s.dev = .off ∨ s.dev = .tripped
  · rw [if_pos h]
    exact ⟨_, rfl, rfl, fun _ => rfl, rfl, fun _ => rfl, fun h1 h2 => absurd h (not_or.2 ⟨h1, h2⟩)⟩
  · rw [if_neg h]
    obtain ⟨hmem, hstore, -, hresetN, hcores, hengines, hops, htxq, hlog⟩ := (s.at t).resetLow.enterBoot_kept
    exact ⟨_, rfl, hresetN, fun a => by rw [State.byte, hmem]; rfl, hstore, fun hd => absurd hd h, fun _ _ =>
      ⟨State.enterBoot_dev _, hcores, hengines, hops, htxq, hlog, fun _ ho hm hi => State.enterBoot_rd _ ho hm hi⟩⟩

/-- RESET_N is released and the straps are latched (R27). -/
def State.latched (s : State) (straps : BitVec 6) : State :=
  { s with pins := { s.pins with resetN := true }, start := { s.start with pkg := straps.toNat } }
theorem execResetNRelease_eq (t : At) (straps : BitVec 6) (sight : BootSight) (s : State) :
    exec (.resetNRelease t straps sight) s = .next (if s.dev = .off then s.at t
      else if s.dev = .boot ∧ s.pins.resetN = false then ((s.at t).latched straps).runBoot none sight
      else { s.at t with pins := { s.pins with resetN := true } }) := by
  by_cases h : s.dev = .off
  · rw [if_pos h]
    exact if_pos h
  · rw [if_neg h]
    refine (if_neg h).trans (congrArg Host.Outcome.next (if_congr ?_ rfl rfl))
    simp [State.at, and_comm]
/-- A start with an id above 31 ends in HOLD with cause 4 (R27). -/
theorem State.runBoot_badId (s : State) (sight : BootSight) (h : 32 ≤ s.pkg) :
    (s.runBoot none sight).dev = .hold ∧ (s.runBoot none sight).fld Reg.onxImgStatus F.onxImgStatusStartCause = 4 ∧
      (s.runBoot none sight).rd Reg.onxHoldCause = s.rd Reg.onxHoldCause ||| 0x800 := by
  rw [State.runBoot_eq, if_pos h, State.startFail_holdCause, State.bootBegun_rd _ _ _ (by decide) (by decide)]
  exact ⟨State.startFail_dev _ _, State.startFail_cause _ _ (by decide), rfl⟩
/-- A start with no valid header in either bank ends in HOLD with cause 1 (R404). -/
theorem State.runBoot_noImage (s : State) (sight : BootSight) (h : s.pkg < 32) (h0 : sight.size0 = s.store.size) (h1 : sight.size1 = s.store.size)
    (hb : ∀ b, s.headerCheck (s.bank b).header ≠ 1) :
    (s.runBoot none sight).dev = .hold ∧ (s.runBoot none sight).fld Reg.onxImgStatus F.onxImgStatusStartCause = 1 := by
  rw [State.runBoot_eq, if_neg (by omega)]
  exact State.selectBank_none _ _ fun b => by rw [State.bootBegun_headerCheck _ _ _ h0 h1]; exact hb b
theorem resetNRelease_next (t : At) (straps : BitVec 6) (sight : BootSight) (s : State) :
    ∃ u, exec (.resetNRelease t straps sight) s = .next u ∧ SameBytes s u ∧
      (s.dev = .off → u = s.at t) ∧
      (s.dev ≠ .off → s.pins.resetN = true ∨ s.dev ≠ .boot → u = { s.at t with pins := { s.pins with resetN := true } }) ∧
      (s.dev = .boot → s.pins.resetN = false → u.pins.resetN = true ∧ u.start.pkg = straps.toNat ∧ (u.dev = .boot ∨ u.dev = .hold) ∧
        (32 ≤ straps.toNat → u.dev = .hold ∧ u.fld Reg.onxImgStatus F.onxImgStatusStartCause = 4 ∧ u.rd Reg.onxHoldCause = s.rd Reg.onxHoldCause ||| 0x800) ∧
        (straps.toNat < 32 → sight.size0 = s.store.size → sight.size1 = s.store.size → s.headerCheck s.store.bankA.header ≠ 1 → s.headerCheck s.store.bankB.header ≠ 1 →
          u.dev = .hold ∧ u.fld Reg.onxImgStatus F.onxImgStatusStartCause = 1)) := by
  rw [execResetNRelease_eq]
  by_cases hoff : s.dev = .off
  · rw [if_pos hoff]
    exact ⟨_, rfl, fun _ => rfl, fun _ => rfl, fun h => absurd hoff h, fun h => by simp [hoff] at h⟩
  rw [if_neg hoff]
  by_cases hlow : s.dev = .boot ∧ s.pins.resetN = false
  · rw [if_pos hlow]
    have hboots := ((s.at t).latched straps).runBoot_boots none sight
    refine ⟨_, rfl, fun a => hboots.byte a, fun h => absurd h hoff, fun _ h => ?_, fun _ _ => ⟨?_, hboots.2.1, ?_, fun h => State.runBoot_badId _ _ h, ?_⟩⟩
    · simp [hlow] at h
    · rw [hboots.1]; rfl
    · exact hboots.2.2.imp (fun h => h.trans hlow.1) id
    · intro hid h0 h1 hA hB
      refine State.runBoot_noImage _ _ hid h0 h1 fun b => ?_
      cases b
      · exact hA
      · exact hB
  · rw [if_neg hlow]
    exact ⟨_, rfl, fun _ => rfl, fun h => absurd h hoff, fun _ _ => rfl, fun h1 h2 => absurd ⟨h1, h2⟩ hlow⟩

/-- Settles O59: each clause by the commands' own equations; that a start's failure leaves memory and ends in HOLD is `runBoot_boots`. -/
theorem sidebandPowerAndReset : Obligations.SidebandPowerAndReset := by
  refine ⟨?_, ?_, ?_, ?_⟩
  · rintro t bytes b count a st s _ rfl h
    exact sideband_commands t bytes b count a st s h
  · rintro t s _ rfl h
    exact jtag_instructions t s h
  · rintro t s _ rfl
    exact ⟨⟨_, rfl, rfl, rfl, rfl, rfl, rfl, fun _ => rfl⟩, powerOn_next t s, resetNAssert_next t s⟩
  · rintro t straps sight s _ rfl
    exact resetNRelease_next t straps sight s
end Sys2Proof.Machine
end
section
/-! WORM_HOP and a port that no router has (R181, R182). -/
namespace Sys2Proof.Machine

/-- A WORM_HOP of an existing core completes whatever port it names: where the router has no such port, nothing leaves by it. -/
theorem wormHop_completes (t : At) {core : Nat} (hcore : core < 3072) (port : Nat) (waiting : List (Nat × Worm)) (credits : List Nat) (headerBad : Bool)
    (s : State) : ∃ u, exec (.wormHop t core port waiting credits headerBad) s = .next u := ⟨_, if_pos hcore⟩
/-- A WORM_HOP that names a port above 6 is not well formed. -/
theorem wellFormed_wormHop_port (t : At) (core : Nat) {port : Nat} (hport : 7 ≤ port) (waiting : List (Nat × Worm)) (credits : List Nat) (headerBad : Bool) :
    wellFormed (.wormHop t core port waiting credits headerBad) = false :=
  Bool.and_eq_false_imp.2 fun _ => decide_eq_false (Nat.not_lt.2 hport)

/-- Refutes O3: a WORM_HOP of core 0 by port 7 is ill-formed, for a router has ports 0 to 6, yet it completes and does not stop with noSuchUnit:
`execWormHop` checks the core alone. -/
theorem not_wellFormedCommandsComplete : ¬ Obligations.WellFormedCommandsComplete := by
  rintro ⟨hcompletes, -⟩
  have hstops := (hcompletes (.wormHop ⟨0, 0⟩ 0 7 [] [] false) State.reset).2 (wellFormed_wormHop_port _ _ (by decide) _ _ _)
  obtain ⟨u, hu⟩ := wormHop_completes ⟨0, 0⟩ (core := 0) (by decide) 7 [] [] false State.reset
  cases hu.symm.trans hstops
end Sys2Proof.Machine
end
section
/-! An answer whose route follows from a register that the same command writes: a packet's package number is not bounded to its six bits (R327, R364). -/
namespace Sys2Proof.Machine

/-- The state that a command answers with. -/
def nextOf (o : Result) (s : State) : State :=
  match o with
  | .next u => u
  | _ => s
theorem eq_nextOf {o : Result} {u : State} (h : o = .next u) (s : State) : u = nextOf o s := by rw [h]; rfl

/-- In RUN, with RESET_N released. -/
def runState : State := { State.reset with dev := .run, pins := { resetN := true } }

/-- An atomic from package 0x3A002 to no address of this device. -/
def aliasAtomic : Packet := { cls := 8, op := 16, dstPkg := 1, originPkg := 0x3A002 }
/-- FAB_OP_STAT, at whose address the route table's entry of package 0x3A002 of ring 2 would lie, holds what reads, as a route entry, as a route whose tokens are 0. -/
def aliasState : State := (runState.wr Reg.fabOpStat 0x8800000FFF000000).at ⟨0, 0⟩
/-- The denied answer to it, by the route that stands before the command. -/
def aliasAnswer : Packet := aliasState.answerOf 2 aliasAtomic .denied 0 [] false

theorem aliasAtomic_denied : aliasState.check aliasAtomic 4 .at_ (decide (localAddr aliasAtomic.addr % 4 = 0)) false = .ends .denied none := by decide +kernel
theorem aliasAnswer_leaves : aliasState.onFloor aliasAtomic = false ∧ (aliasState.routedBack 2 aliasAnswer).isSome := by decide +kernel
/-- The denial counts first, and the answer takes the count's low bit as its first token. -/
theorem aliasAtomic_answer_routed : ((nextOf (exec (.atomic ⟨0, 0⟩ 2 aliasAtomic) aliasState) aliasState).queue 2 13).map Packet.tokens ≠
    (((aliasState.routedBack 2 aliasAnswer).map fun q => packetInto (packetRank 2 13)
      { q with hopSrc := 2, reached := if (ringTower 2).isSome then aliasState.clk else aliasState.now } (aliasState.queue 2 13)).getD []).map Packet.tokens := by
  decide +kernel

/-- Refutes O45: R327 gives a package number six bits, which the statement does not ask of the packet's origin. An atomic of package 0x3A002 is DENIED, which
counts in FAB_OP_STAT (R364); the model looks up the answer's route under that number and finds the same register, so the answer leaves by the route after
the count and not by the one before it. -/
theorem not_atomicsAndFlags : ¬ Obligations.AtomicsAndFlags := by
  rintro ⟨hatomic, -⟩
  obtain ⟨u, hu, hends, -⟩ := hatomic ⟨0, 0⟩ 2 aliasAtomic aliasState aliasState 4 (by decide) (by decide +kernel) (by decide +kernel) rfl (by decide) (by decide)
    (by decide) (by decide)
  obtain ⟨-, -, hroute⟩ := hends .denied none aliasAtomic_denied
  obtain ⟨hfloor, hsome⟩ := aliasAnswer_leaves
  obtain ⟨q, hq⟩ := Option.isSome_iff_exists.1 hsome
  refine aliasAtomic_answer_routed ?_
  rw [← eq_nextOf hu, hroute hfloor q hq, hq]
  rfl
end Sys2Proof.Machine
end
section
/-! A peer's incarnation in a register that the same command counts in: an operation's package number is not bounded to its six bits (R327, R349). -/
namespace Sys2Proof.Machine

/-- A LOAD of the information line of package 0xA0070, outstanding since tick 0. -/
def aliasLoad : RemOp := { pkt := { cls := 8, op := 1, addr := 0x030000000000, dstPkg := 0xA0070 }, engine := some 0, attempts := 1, left := true }
/-- Its response, of incarnation 0. -/
def aliasResponse : Packet := { cls := 9 }
/-- The load holds tag 0 of ring 2, whose first counter, at the address that the peer record of package 0xA0070 would have, counts the ticks of the tags in use (R442 event 0x213). -/
def aliasOpState : State := ((runState.setOp 2 0 aliasLoad).wr (Reg.fabEpmcSelEven 2 0) 0x1213).at ⟨1, 0⟩

/-- The tag was held for one tick, and the count of it stands where the incarnation was recorded. -/
theorem aliasResponse_counts :
    (nextOf (exec (.response ⟨1, 0⟩ 2 aliasResponse) aliasOpState) aliasOpState).fld (Reg.fabPeerInc 0xA0070) F.fabPeerIncIncarnation = 1 := by decide +kernel

/-- Refutes O47: R327 gives a package number six bits, which the statement does not ask of the operation's destination. The response to a LOAD of the
information line of package 0xA0070 records the incarnation 0 under that number, which is a performance counter of the same endpoint; freeing the tag then
counts in it, and it reads 1. -/
theorem not_responsesTimersAndTags : ¬ Obligations.ResponsesTimersAndTags := by
  rintro ⟨hresponse, -⟩
  obtain ⟨u, hu, -, -, -, hown, -⟩ := hresponse ⟨1, 0⟩ 2 aliasResponse aliasOpState aliasOpState (by decide) (by decide +kernel) (by decide +kernel)
  obtain ⟨-, -, -, hrecorded⟩ := hown aliasLoad 0 rfl (by decide +kernel) rfl rfl rfl (by decide) (.inl (by decide)) (by decide) (by decide +kernel)
  have hzero : u.fld (Reg.fabPeerInc 0xA0070) F.fabPeerIncIncarnation = 0 := hrecorded rfl rfl (by decide) rfl
  rw [eq_nextOf hu aliasOpState, aliasResponse_counts] at hzero
  exact absurd hzero (by decide)
end Sys2Proof.Machine
end
section
/-! A register's fields under a write (R8, R9): what a write leaves of a word, bit by bit. -/
namespace Sys2Proof.Machine

/-! Bits of a field. -/

/-- A bit lies in a field. -/
def Fld.has (f : Fld) (i : Nat) : Prop := f.lo ≤ i ∧ i ≤ f.hi

/-- A field's mask has ones at the field's place alone. -/
theorem Fld.mask_bit (f : Fld) {i : Nat} (h : i < 64) : f.mask.getLsbD i = true ↔ f.has i := by
  unfold Fld.mask Fld.max Fld.width Fld.has
  rw [BitVec.getLsbD_ofNat, Nat.testBit_mul_two_pow, Nat.testBit_two_pow_sub_one]
  simp only [h, decide_true, Bool.true_and, Bool.and_eq_true, decide_eq_true_eq]
  omega
theorem Fld.mask_bit_false (f : Fld) {i : Nat} (hi : i < 64) (h : ¬ f.has i) : f.mask.getLsbD i = false :=
  Bool.eq_false_iff.2 (mt (f.mask_bit hi).1 h)
/-- A field's value is its bits. -/
theorem Fld.testBit_get (f : Fld) (w : Word) (j : Nat) : (f.get w).testBit j = (decide (j < f.width) && w.getLsbD (j + f.lo)) := by
  unfold Fld.get
  rw [Nat.testBit_mod_two_pow, Nat.testBit_div_two_pow, BitVec.testBit_toNat]
/-- Words that agree in a field's bits have the same value there. -/
theorem Fld.get_congr (f : Fld) {w x : Word} (h : ∀ i, f.has i → w.getLsbD i = x.getLsbD i) : f.get w = f.get x := by
  refine Nat.eq_of_testBit_eq fun j => ?_
  rw [Fld.testBit_get, Fld.testBit_get]
  by_cases hj : j < f.width
  · rw [h (j + f.lo) (by unfold Fld.width at hj; unfold Fld.has; omega)]
  · simp [hj]
/-- A bit outside a field that is written keeps its value. -/
theorem Fld.put_bit_out (f : Fld) (w : Word) (v : Nat) {i : Nat} (hi : i < 64) (h : ¬ f.has i) : (f.put w v).getLsbD i = w.getLsbD i := by
  have hv : (v % 2 ^ f.width * 2 ^ f.lo).testBit i = false := by
    unfold Fld.has at h
    unfold Fld.width
    rw [Nat.testBit_mul_two_pow, Nat.testBit_mod_two_pow]
    simp only [Bool.and_eq_false_imp, decide_eq_true_eq]
    intros
    omega
  unfold Fld.put
  rw [BitVec.getLsbD_or, BitVec.getLsbD_and, BitVec.getLsbD_not, BitVec.getLsbD_ofNat, f.mask_bit_false hi h, hv]
  simp [hi]
/-- A field written with the same field of another word takes its bits. -/
theorem Fld.put_get_bit_in (f : Fld) (w v : Word) {i : Nat} (hi : i < 64) (h : f.has i) : (f.put w (f.get v)).getLsbD i = v.getLsbD i := by
  have hv : (f.get v % 2 ^ f.width * 2 ^ f.lo).testBit i = v.getLsbD i := by
    unfold Fld.has at h
    have hlt : i - f.lo < f.width := by unfold Fld.width; omega
    rw [Nat.testBit_mul_two_pow, Nat.testBit_mod_two_pow, Fld.testBit_get, Nat.sub_add_cancel h.1]
    simp [h.1, hlt]
  unfold Fld.put
  rw [BitVec.getLsbD_or, BitVec.getLsbD_and, BitVec.getLsbD_not, BitVec.getLsbD_ofNat, (f.mask_bit hi).2 h, hv]
  simp [hi]

/-! What a write leaves of one field. -/

/-- The word that a write of one field leaves (R8, R9). -/
def FieldRow.after (f : FieldRow) (fresh v : Word) (hold : Bool) (w : Word) : Word :=
  match f.acc with
  | .ro => w
  | .rw => f.fld.put w (f.fld.get v)
  | .rwh => if hold then f.fld.put w (f.fld.get v) else w
  | .w1c => w &&& ~~~(v &&& f.fld.mask &&& ~~~fresh)
/-- What a write of `v` should leave of a word in a field's bits, by its access code. -/
def FieldRow.asked (f : FieldRow) (fresh v : Word) (hold : Bool) (w : Word) : Word :=
  match f.acc with
  | .ro => w
  | .rw => v
  | .rwh => if hold then v else w
  | .w1c => w &&& ~~~(v &&& ~~~fresh)

theorem FieldRow.after_bit_out (f : FieldRow) (fresh v : Word) (hold : Bool) (w : Word) {i : Nat} (hi : i < 64) (h : ¬ f.fld.has i) :
    (f.after fresh v hold w).getLsbD i = w.getLsbD i := by
  unfold FieldRow.after
  cases f.acc with
  | ro => rfl
  | rw => exact f.fld.put_bit_out _ _ hi h
  | rwh =>
    cases hold
    · rfl
    · exact f.fld.put_bit_out _ _ hi h
  | w1c =>
    rw [BitVec.getLsbD_and, BitVec.getLsbD_not, BitVec.getLsbD_and, BitVec.getLsbD_and, f.fld.mask_bit_false hi h]
    simp [hi]
/-- In the field's own bits the write leaves what its access code asks, of any word that agrees there. -/
theorem FieldRow.after_bit_in (f : FieldRow) (fresh v : Word) (hold : Bool) (w x : Word) {i : Nat} (hi : i < 64) (h : f.fld.has i)
    (hw : w.getLsbD i = x.getLsbD i) : (f.after fresh v hold w).getLsbD i = (f.asked fresh v hold x).getLsbD i := by
  unfold FieldRow.after FieldRow.asked
  cases f.acc with
  | ro => exact hw
  | rw => exact f.fld.put_get_bit_in _ _ hi h
  | rwh =>
    cases hold
    · exact hw
    · exact f.fld.put_get_bit_in _ _ hi h
  | w1c => simp only [BitVec.getLsbD_and, BitVec.getLsbD_not, (f.fld.mask_bit hi).2 h, hw, Bool.and_true]

/-! What a write leaves of all fields. -/

/-- Fields of one register share no bit. -/
def FieldRow.Apart (f g : FieldRow) : Prop := ∀ i, f.fld.has i → ¬ g.fld.has i

theorem after_fold_bit_out (fresh v : Word) (hold : Bool) (l : List FieldRow) (w : Word) {i : Nat} (hi : i < 64) (h : ∀ g ∈ l, ¬ g.fld.has i) :
    (l.foldl (fun w g => g.after fresh v hold w) w).getLsbD i = w.getLsbD i := by
  induction l generalizing w with
  | nil => rfl
  | cons g r ih =>
    rw [List.foldl_cons, ih _ fun x hx => h x (List.mem_cons_of_mem _ hx)]
    exact g.after_bit_out _ _ _ _ hi (h g List.mem_cons_self)
/-- Each field of a register that is written takes what its access code asks, whatever the other fields are. -/
theorem after_fold_bit_in (fresh v : Word) (hold : Bool) (l : List FieldRow) (hl : l.Pairwise FieldRow.Apart) (w x : Word) {f : FieldRow} (hf : f ∈ l)
    {i : Nat} (hi : i < 64) (h : f.fld.has i) (hw : w.getLsbD i = x.getLsbD i) :
    (l.foldl (fun w g => g.after fresh v hold w) w).getLsbD i = (f.asked fresh v hold x).getLsbD i := by
  induction l generalizing w with
  | nil => cases hf
  | cons g r ih =>
    obtain ⟨hg, hr⟩ := List.pairwise_cons.1 hl
    rw [List.foldl_cons]
    rcases List.mem_cons.1 hf with rfl | hf
    · rw [after_fold_bit_out _ _ _ _ _ hi fun y hy => hg y hy i h]
      exact f.after_bit_in _ _ _ _ _ hi h hw
    · refine ih hr _ hf ?_
      rw [g.after_bit_out _ _ _ _ hi fun hgi => hg f hf i hgi h]
      exact hw

/-! The tables of registers. -/

/-- The fields of a register lie within its word, apart from one another. -/
def RegRow.sound (r : RegRow) : Bool :=
  r.fields.all (fun f => decide (f.fld.hi < 64)) && decide (r.fields.Pairwise fun f g => f.fld.hi < g.fld.lo ∨ g.fld.hi < f.fld.lo)
/-- The rows of a window, if any, are sound. -/
def soundWindow (o : Option (List RegRow)) : Prop := o.all (fun l => l.all RegRow.sound) = true
theorem windowRows_sound (a : Nat) : soundWindow (windowRows a) := by
  unfold windowRows
  repeat' refine iteInduction (fun _ => ?_) fun _ => ?_
  all_goals unfold soundWindow; decide +kernel
theorem findRow_mem {a : Nat} {l : List RegRow} {r : RegRow} {ix : List Nat} (h : findRow a l = some (r, ix)) : r ∈ l := by
  induction l with
  | nil => cases h
  | cons x t ih =>
    unfold findRow at h
    split at h
    · cases h
      exact List.mem_cons_self
    · exact List.mem_cons_of_mem _ (ih h)
theorem row_sound {a : Nat} {rows : List RegRow} {r : RegRow} {ix : List Nat} (hw : windowRows a = some rows) (hr : findRow a rows = some (r, ix)) :
    (∀ f ∈ r.fields, f.fld.hi < 64) ∧ r.fields.Pairwise FieldRow.Apart := by
  have h := windowRows_sound a
  rw [hw] at h
  replace h := List.all_eq_true.1 h r (findRow_mem hr)
  unfold RegRow.sound at h
  rw [Bool.and_eq_true, List.all_eq_true, decide_eq_true_eq] at h
  obtain ⟨hhi, hapart⟩ := h
  refine ⟨fun f hf => of_decide_eq_true (hhi f hf), hapart.imp fun h i hf hg => ?_⟩
  unfold Fld.has at hf hg
  omega
theorem fieldsAt_eq {a : Nat} {rows : List RegRow} {r : RegRow} {ix : List Nat} (hw : windowRows a = some rows) (hr : findRow a rows = some (r, ix)) :
    fieldsAt a = r.fields := by
  unfold fieldsAt
  rw [hw]
  dsimp only
  rw [hr]

/-! A write of a register (R8, R9). -/

/-- Nothing changes but one register. -/
def Writes (a : Nat) (s u : State) : Prop := u = { s with regs := u.regs } ∧ SameRegs s u [a]

theorem Writes.refl (a : Nat) (s : State) : Writes a s s := ⟨rfl, fun _ _ => rfl⟩
theorem Writes.trans {a : Nat} {s u v : State} (h : Writes a s u) (k : Writes a u v) : Writes a s v := by
  refine ⟨?_, fun b hb => (k.2 b hb).trans (h.2 b hb)⟩
  have h1 := k.1
  rw [h.1] at h1
  exact h1
theorem State.wr_writes (s : State) (a : Nat) (v : Word) : Writes a s (s.wr a v) :=
  ⟨rfl, fun _ hb => State.rd_wr_ne _ _ (by simpa using hb)⟩
theorem Writes.freshBits {a : Nat} {s u : State} (h : Writes a s u) (b : Nat) : u.freshBits b = s.freshBits b := by rw [h.1]; rfl

theorem State.fieldWrite_writes (s : State) (a : Nat) (v : Word) (hold : Bool) (f : FieldRow) : Writes a s (s.fieldWrite a v hold f) := by
  unfold State.fieldWrite
  cases f.acc with
  | ro => exact Writes.refl a s
  | rw => exact s.wr_writes a _
  | rwh =>
    cases hold
    · exact Writes.refl a s
    · exact s.wr_writes a _
  | w1c => exact s.wr_writes a _
theorem State.fieldWrite_rd (s : State) (a : Nat) (v : Word) (hold : Bool) (f : FieldRow) :
    (s.fieldWrite a v hold f).rd a = f.after (s.freshBits a) v hold (s.rd a) := by
  unfold State.fieldWrite FieldRow.after
  cases f.acc with
  | ro => rfl
  | rw => exact s.rd_wr a _
  | rwh =>
    cases hold
    · rfl
    · exact s.rd_wr a _
  | w1c => exact s.rd_wr a _
theorem State.fieldWrites_writes (a : Nat) (v : Word) (hold : Bool) (l : List FieldRow) (s : State) :
    Writes a s (l.foldl (fun s f => s.fieldWrite a v hold f) s) := by
  induction l generalizing s with
  | nil => exact Writes.refl a s
  | cons f r ih => exact (s.fieldWrite_writes a v hold f).trans (ih _)
theorem State.fieldWrites_rd (a : Nat) (v : Word) (hold : Bool) (l : List FieldRow) (s : State) :
    (l.foldl (fun s f => s.fieldWrite a v hold f) s).rd a = l.foldl (fun w f => f.after (s.freshBits a) v hold w) (s.rd a) := by
  induction l generalizing s with
  | nil => rfl
  | cons f r ih => rw [List.foldl_cons, List.foldl_cons, ih, (s.fieldWrite_writes a v hold f).freshBits, State.fieldWrite_rd]

theorem State.plainWrite_logs (s : State) (a : Nat) (v : Word) (hold : Bool) :
    Logs ((fieldsAt a).foldl (fun s f => s.fieldWrite a v hold f) s) (s.plainWrite a v hold) := by
  unfold State.plainWrite State.cfgRefused
  dsimp only
  split
  · exact State.log_logs _ _ _ _
  · exact Logs.refl _
/-- A write of a register changes no byte, and of the registers that one and the log's own. -/
theorem State.plainWrite_frame (s : State) (a : Nat) (v : Word) (hold : Bool) :
    SameBytes s (s.plainWrite a v hold) ∧ SameRegs s (s.plainWrite a v hold) [a, Reg.onxLogStatus] := by
  have h := State.fieldWrites_writes a v hold (fieldsAt a) s
  have k := s.plainWrite_logs a v hold
  refine ⟨fun x => ?_, fun b hb => ?_⟩
  · rw [State.byte, k.mem, h.1]
    rfl
  · simp only [List.mem_cons, List.not_mem_nil, or_false, not_or] at hb
    exact (k.rd hb.2).trans (h.2 b (by simpa using hb.1))
/-- Each field of the register takes what its access code asks. -/
theorem State.plainWrite_fld (s : State) {a : Nat} (v : Word) (hold : Bool) {rows : List RegRow} {r : RegRow} {ix : List Nat}
    (hw : windowRows a = some rows) (hr : findRow a rows = some (r, ix)) (ha : a ≠ Reg.onxLogStatus) {f : FieldRow} (hf : f ∈ r.fields) :
    (s.plainWrite a v hold).fld a f.fld = f.fld.get (f.asked (s.freshBits a) v hold (s.rd a)) := by
  obtain ⟨hhi, hapart⟩ := row_sound hw hr
  unfold State.fld
  rw [(s.plainWrite_logs a v hold).rd ha, State.fieldWrites_rd, fieldsAt_eq hw hr]
  refine f.fld.get_congr fun i hi => ?_
  have h64 := hhi f hf
  exact after_fold_bit_in _ _ _ _ hapart _ _ hf (by unfold Fld.has at hi; omega) hi rfl
end Sys2Proof.Machine
end
section
/-! Configuration writes (R6, R8, R9, R487). -/
namespace Sys2Proof.Machine

/-- Outside the cores' windows a write brings nothing to its cycle but an endpoint's counters. -/
theorem State.bringCfg_other (s : State) (cyc : Nat) {a : Nat} (h : a < Reg.coreId 0 ∨ Reg.coreId 3072 ≤ a) :
    s.bringCfg cyc a = if fabCounter a then s.countTags else s := by
  unfold State.bringCfg cfgCore
  rw [if_neg (by omega)]
theorem cfgCore_coreWindow {a c : Nat} (hc : c < 3072) (h0 : Reg.coreId c ≤ a) (h1 : a < Reg.coreId (c + 1)) : cfgCore a = some c := by
  unfold Reg.coreId at h0 h1
  unfold cfgCore Reg.coreId
  rw [if_pos (by omega)]
  congr 1
  omega
theorem State.bringCfg_core (s : State) (cyc : Nat) {a c : Nat} (hc : c < 3072) (h0 : Reg.coreId c ≤ a) (h1 : a < Reg.coreId (c + 1)) :
    s.bringCfg cyc a = s.toCycle c cyc := by
  unfold State.bringCfg
  rw [cfgCore_coreWindow hc h0 h1]

/-! A core with nothing under way stands at any cycle up to which it was looked at. -/

theorem State.landCore_quiet (s : State) (c upto n : Nat) (hl : (s.core c).landing = []) (ha : (s.core c).array = none) : s.landCore c upto n = s := by
  unfold State.landCore
  cases n with
  | zero => rfl
  | succ n =>
    unfold State.landSteps
    dsimp only
    rw [hl, ha]
theorem State.drainWb_empty (s : State) (c cyc : Nat) (h : (s.core c).wbq = []) : s.drainWb c cyc = s := by
  unfold State.drainWb
  exact if_pos (.inl h)
theorem State.countCycles_seen (s : State) (c cyc : Nat) (h : cyc ≤ (s.core c).seen) : s.countCycles c cyc = s := by
  unfold State.countCycles
  exact if_neg (Nat.not_lt.2 h)
theorem State.settleDroop_later (s : State) (t cyc : Nat) (h : ∀ d ∈ (s.tower t).droops, cyc < d) : s.settleDroop t cyc = s := by
  have hnone : (s.tower t).droops.filter (fun d => decide (d ≤ cyc)) = [] :=
    List.filter_eq_nil_iff.2 fun d hd => by simpa using h d hd
  unfold State.settleDroop
  dsimp only
  rw [hnone]
  rfl
theorem State.toCycle_quiet (s : State) (c cyc : Nat) (hl : (s.core c).landing = []) (ha : (s.core c).array = none) (hs : cyc ≤ (s.core c).seen)
    (hw : (s.core c).wbq = []) (hd : ∀ d ∈ (s.tower (towerOf c)).droops, cyc < d) : s.toCycle c cyc = s := by
  unfold State.toCycle
  rw [s.landCore_quiet c cyc _ hl ha, s.drainWb_empty c cyc hw, s.countCycles_seen c cyc hs, s.settleDroop_later _ cyc hd]

/-! The write itself. -/

theorem execConfigWrite_eq (t : At) (addr size : Nat) (v : BitVec 64) (s : State) :
    exec (.configWrite t addr size v) s = .next (if (s.at t).dead then s.at t
      else if size ≠ 8 ∨ addr % 8 ≠ 0 ∨ 2 ^ 40 ≤ addr then (s.at t).cfgRefused addr size
      else ((s.at t).bringCfg t.cyc addr).cfgWrite t.cyc addr v (decide (((s.at t).bringCfg t.cyc addr).dev = .hold))) := rfl
theorem State.cfgWrite_none (s : State) (cyc a : Nat) (v : Word) (hold : Bool) (h : windowRows a = none) : s.cfgWrite cyc a v hold = s.cfgRefused a 8 := by
  unfold State.cfgWrite
  rw [h]
theorem State.cfgWrite_plain (s : State) (cyc a : Nat) (v : Word) (hold : Bool) {rows : List RegRow} {r : RegRow} {ix : List Nat}
    (hw : windowRows a = some rows) (hr : findRow a rows = some (r, ix)) (hs : s.specialWrite cyc a r.base ix v hold = none) :
    s.cfgWrite cyc a v hold = s.plainWrite a v hold := by
  unfold State.cfgWrite
  rw [hw]
  dsimp only
  rw [hr]
  dsimp only
  rw [hs]
/-- What a plain write leaves of each field, code by code (R8, R9). -/
theorem State.plainWrite_codes (s : State) {a : Nat} (v : Word) (hold : Bool) {rows : List RegRow} {r : RegRow} {ix : List Nat}
    (hw : windowRows a = some rows) (hr : findRow a rows = some (r, ix)) (ha : a ≠ Reg.onxLogStatus) {f : FieldRow} (hf : f ∈ r.fields) :
    (f.acc = .ro → (s.plainWrite a v hold).fld a f.fld = s.fld a f.fld) ∧ (f.acc = .rw → (s.plainWrite a v hold).fld a f.fld = f.fld.get v) ∧
      (f.acc = .rwh → (s.plainWrite a v hold).fld a f.fld = if hold then f.fld.get v else s.fld a f.fld) ∧
      (f.acc = .w1c → (s.plainWrite a v hold).fld a f.fld = f.fld.get (s.rd a &&& ~~~(v &&& ~~~(s.freshBits a)))) := by
  rw [State.plainWrite_fld s v hold hw hr ha hf]
  unfold FieldRow.asked
  refine ⟨?_, ?_, ?_, ?_⟩ <;> intro h <;> rw [h]
  · rfl
  · cases hold <;> rfl

/-- The clauses on a configuration write. -/
theorem configWrite_next (t : At) (addr size : Nat) (v : BitVec 64) (s s1 s2 : State) (h1 : s1 = s.at t) (h2 : s2 = s1.bringCfg t.cyc addr) :
    ∃ u, exec (.configWrite t addr size v) s = .next u ∧
      (s1.dead = true → u = s1) ∧
      (s1.dead = false → size ≠ 8 ∨ addr % 8 ≠ 0 ∨ 2 ^ 40 ≤ addr → u = s1.cfgRefused addr size) ∧
      (s1.dead = false → size = 8 → addr % 8 = 0 → addr < 2 ^ 40 → u = s2.cfgWrite t.cyc addr v (decide (s2.dev = .hold))) := by
  subst h1 h2
  refine ⟨_, execConfigWrite_eq t addr size v s, fun h => if_pos h, fun h hbad => ?_, fun h h8 ha hlt => ?_⟩
  · rw [if_neg (by simp [h]), if_pos hbad]
  · rw [if_neg (by simp [h]), if_neg (by omega)]
end Sys2Proof.Machine
end
section
/-! QUOTE (R450, R451). -/
namespace Sys2Proof.Machine

theorem satAdd_le (limit a b : Nat) : satAdd limit a b ≤ limit := Nat.min_le_left _ _
/-- A field that counted holds the sum, up to its largest value. -/
theorem State.fld_bump (s : State) (a : Nat) (f : Fld) (n : Nat) (h : f.hi < 64) (hl : f.lo ≤ f.hi) :
    (s.bump a f n).fld a f = satAdd f.max (s.fld a f) n := by
  unfold State.bump
  rw [State.fld_putF _ _ _ _ h hl]
  have hpos : 0 < 2 ^ f.width := Nat.two_pow_pos _
  have hle := satAdd_le f.max (s.fld a f) n
  unfold Fld.max at hle ⊢
  exact Nat.mod_eq_of_lt (by omega)

theorem append_around (x n y z w : List Byte) : x ++ n ++ y ++ z ++ w = x ++ n ++ (y ++ z ++ w) := by simp only [List.append_assoc]
/-- A quote holds the nonce. -/
theorem State.quote_holds (s : State) (nonce : List Byte) : ∃ x y, (s.quote nonce).1 = x ++ nonce ++ y := by
  unfold State.quote
  dsimp only
  generalize decide (s.rd Reg.onxImgSeq ≠ 0) = booted
  cases booted <;> exact ⟨_, _, append_around _ _ _ _ _⟩
/-- A quote takes no more of the state than a free value. -/
theorem State.quote_frame (s : State) (nonce : List Byte) : ∃ n, (s.quote nonce).2 = { s with freeCtr := n } := by
  unfold State.quote
  dsimp only
  generalize decide (s.rd Reg.onxImgSeq ≠ 0) = booted
  cases booted
  · exact ⟨_, rfl⟩
  · exact ⟨_, rfl⟩

/-- The requests of the second before a moment (R451). -/
def State.recentQuotes (s : State) : List Nat := s.onyx.quotes.filter fun q => decide (s.now < q + 1000000000)
/-- A request for a quote is noted. -/
def State.quoteAsked (s : State) : State := { s with onyx := { s.onyx with quotes := s.now :: s.recentQuotes } }
/-- A quote is kept, counted and answered. -/
def quoteKept (number : Nat) (q : List Byte × State) : State :=
  ({ q.2 with onyx := { q.2.onyx with quote := q.1 } }.bump Reg.onxAttStatus F.onxAttStatusSigned 1).reply 0x88 0 number q.1
theorem execQuote_eq (t : At) (number : Nat) (nonce : List Byte) (s : State) :
    exec (.quote t number nonce) s = .next (if (!(s.at t).awake) = true then s.at t
      else if (s.at t).dev = .tripped then s.at t
      else if nonce.length ≠ 32 then (s.at t).reply 0x88 5 number []
      else if 10 ≤ (s.at t).recentQuotes.length then ((s.at t).quoteAsked.bump Reg.onxAttStatus F.onxAttStatusRefused 1).reply 0x88 4 number []
      else quoteKept number ((s.at t).quoteAsked.quote nonce)) := rfl

theorem State.quoteKept_next (s : State) (number : Nat) (nonce : List Byte) :
    SameBytes s (quoteKept number (s.quote nonce)) ∧
      (quoteKept number (s.quote nonce)).fld Reg.onxAttStatus F.onxAttStatusSigned =
        satAdd F.onxAttStatusSigned.max (s.fld Reg.onxAttStatus F.onxAttStatusSigned) 1 ∧
      (quoteKept number (s.quote nonce)).onyx.quote = (s.quote nonce).1 ∧
      (quoteKept number (s.quote nonce)).out = .msg 64 0xC8 0 number 0 0 (s.quote nonce).1 :: s.out := by
  obtain ⟨n, hn⟩ := s.quote_frame nonce
  unfold quoteKept
  rw [hn]
  exact ⟨fun _ => rfl, State.fld_bump _ _ _ _ (by decide) (by decide), rfl, rfl⟩
/-- The clauses on a request for a quote. -/
theorem quote_next (t : At) (number : Nat) (nonce : List Byte) (s s1 : State) (n : Nat) (h1 : s1 = s.at t) (hn : n = s1.recentQuotes.length) :
    ∃ u, exec (.quote t number nonce) s = .next u ∧ SameBytes s u ∧
      (s1.awake = false ∨ s.dev = .tripped → u = s1) ∧
      (s1.awake = true → s.dev ≠ .tripped → nonce.length ≠ 32 → u = s1.reply 0x88 5 number []) ∧
      (s1.awake = true → s.dev ≠ .tripped → nonce.length = 32 → 10 ≤ n →
        u.fld Reg.onxAttStatus F.onxAttStatusRefused = satAdd F.onxAttStatusRefused.max (s.fld Reg.onxAttStatus F.onxAttStatusRefused) 1 ∧
        u.onyx.quote = s.onyx.quote ∧ u.out = .msg 64 0xC8 4 number 0 0 [] :: s.out) ∧
      (s1.awake = true → s.dev ≠ .tripped → nonce.length = 32 → n < 10 →
        u.fld Reg.onxAttStatus F.onxAttStatusSigned = satAdd F.onxAttStatusSigned.max (s.fld Reg.onxAttStatus F.onxAttStatusSigned) 1 ∧
        ∃ x y, u.onyx.quote = x ++ nonce ++ y ∧ u.out = .msg 64 0xC8 0 number 0 0 u.onyx.quote :: s.out) := by
  subst h1 hn
  rw [execQuote_eq]
  by_cases hsleep : (!(s.at t).awake) = true
  · rw [if_pos hsleep]
    have hs : (s.at t).awake = false := by simpa using hsleep
    exact ⟨_, rfl, fun _ => rfl, fun _ => rfl, by simp [hs], by simp [hs], by simp [hs]⟩
  rw [if_neg hsleep]
  have ha : (s.at t).awake = true := by simpa using hsleep
  by_cases htrip : s.dev = .tripped
  · rw [if_pos (show (s.at t).dev = .tripped from htrip)]
    exact ⟨_, rfl, fun _ => rfl, fun _ => rfl, fun _ h => absurd htrip h, fun _ h => absurd htrip h, fun _ h => absurd htrip h⟩
  rw [if_neg (show ¬ (s.at t).dev = .tripped from htrip)]
  by_cases hlen : nonce.length = 32
  case neg =>
    rw [if_pos hlen]
    exact ⟨_, rfl, fun _ => rfl, by simp [ha, htrip], fun _ _ _ => rfl, fun _ _ h => absurd h hlen, fun _ _ h => absurd h hlen⟩
  rw [if_neg (not_not.2 hlen)]
  by_cases hmany : 10 ≤ (s.at t).recentQuotes.length
  · rw [if_pos hmany]
    exact ⟨_, rfl, fun _ => rfl, by simp [ha, htrip], fun _ _ h => absurd hlen h,
      fun _ _ _ _ => ⟨State.fld_bump _ _ _ _ (by decide) (by decide), rfl, rfl⟩, fun _ _ _ h => absurd hmany (Nat.not_le.2 h)⟩
  · rw [if_neg hmany]
    obtain ⟨hbytes, hsigned, hquote, hout⟩ := (s.at t).quoteAsked.quoteKept_next number nonce
    obtain ⟨x, y, hxy⟩ := (s.at t).quoteAsked.quote_holds nonce
    exact ⟨_, rfl, hbytes, by simp [ha, htrip], fun _ _ h => absurd hlen h, fun _ _ _ h => absurd h hmany,
      fun _ _ _ _ => ⟨hsigned, x, y, hquote.trans hxy, hquote ▸ hout⟩⟩
end Sys2Proof.Machine
end
section
/-! READ and WRITE of single words (R466, R469). -/
namespace Sys2Proof.Machine

/-! Little-endian words. -/

theorem bytesOf_length (n k : Nat) : (bytesOf n k).length = k := by
  induction k generalizing n with
  | zero => rfl
  | succ k ih => exact congrArg (· + 1) (ih _)
theorem natOf_lt (l : List Byte) : natOf l < 256 ^ l.length := by
  induction l with
  | nil => exact Nat.one_pos
  | cons b r ih =>
    have hb : b.toNat < 256 := b.isLt
    rw [natOf, List.length_cons, Nat.pow_succ]
    omega
theorem bytesOf_natOf (l : List Byte) : bytesOf (natOf l) l.length = l := by
  induction l with
  | nil => rfl
  | cons b r ih =>
    have hb : b.toNat < 256 := b.isLt
    have hdiv : (b.toNat + 256 * natOf r) / 256 = natOf r := by omega
    have hlow : BitVec.ofNat 8 (b.toNat + 256 * natOf r) = b := BitVec.eq_of_toNat_eq (by rw [BitVec.toNat_ofNat]; omega)
    rw [natOf, List.length_cons, bytesOf, hdiv, hlow, ih]
theorem State.bytes_length (s : State) (a n : Nat) : (s.bytes a n).length = n := by
  induction n generalizing a with
  | zero => rfl
  | succ n ih => exact congrArg (· + 1) (ih _)
/-- A word of eight bytes has those bytes. -/
theorem bytesOf_word {l : List Byte} (h : l.length = 8) : bytesOf (BitVec.ofNat 64 (natOf l)).toNat 8 = l := by
  have hlt := natOf_lt l
  rw [h] at hlt
  rw [BitVec.toNat_ofNat, Nat.mod_eq_of_lt (lt_of_lt_of_eq hlt (by norm_num)), ← h]
  exact bytesOf_natOf l

/-! The places that an address word names (R469). -/

theorem State.mgmtPlace_cfg (s : State) {a : Nat} (write : Bool) (h : a < 2 ^ 40) : s.mgmtPlace a write = some (.cfg a) := by
  have h63 : bit a 63 = false := by unfold bit; simp; omega
  have hhigh : bits a 62 40 = 0 := by unfold bits; omega
  unfold State.mgmtPlace
  rw [if_pos h63, if_pos hhigh, Nat.mod_eq_of_lt h]
theorem State.mgmtPlace_hbm (s : State) {x k o : Nat} (write : Bool) (hx : x < 2 ^ 45) (h8 : x % 8 = 0) (hp : placeOf x = .hbm k o)
    (hs : s.dev = .hold ∨ s.dev = .halted ∧ write = false) : s.mgmtPlace (2 ^ 63 + x) write = some (.data x) := by
  have h63 : ¬ bit (2 ^ 63 + x) 63 = false := by unfold bit; simp; omega
  have hhigh : bits (2 ^ 63 + x) 62 45 = 0 := by unfold bits; omega
  have hlow : (2 ^ 63 + x) % 2 ^ 45 = x := by omega
  unfold State.mgmtPlace
  rw [if_neg h63]
  dsimp only
  rw [hlow, hp, if_neg (not_or.2 ⟨not_not.2 hhigh, not_or.2 ⟨not_not.2 h8, by simp [Place.core]⟩⟩), if_pos hs]
theorem State.bring_cfg (s : State) (cyc a : Nat) : s.bring cyc [.cfg a] = s.bringCfg cyc a := by
  unfold State.bring State.bringCfg MgmtPlace.core
  simp only [List.any_cons, List.any_nil, Bool.or_false, List.filterMap_cons, List.filterMap_nil]
  cases hc : cfgCore a with
  | none => rfl
  | some c =>
    have hf : fabCounter a = false := by
      unfold cfgCore Reg.coreId at hc
      unfold fabCounter
      split at hc
      · simp only [decide_eq_false_iff_not]
        omega
      · cases hc
    simp [hf]
/-- A word of HBM is in no core's window. -/
theorem State.bring_hbm (s : State) (cyc : Nat) {x k o : Nat} (hp : placeOf x = .hbm k o) : s.bring cyc [.data x] = s := by
  unfold State.bring MgmtPlace.core
  simp only [List.any_cons, List.any_nil, Bool.or_false, List.filterMap_cons, List.filterMap_nil, hp, Place.core]
  rfl

/-! Reading HBM (R342, R352). -/

theorem State.lineCode_mem (s : State) (k a : Nat) : (s.lineCode k a).2.mem = s.mem := by
  unfold State.lineCode State.lineCorrected
  cases s.mark a with
  | good => rfl
  | poison => rfl
  | ce => dsimp only; split <;> rfl
  | cePoison => dsimp only; split <;> rfl
  | ue => exact (State.log_logs _ _ _ _).mem
theorem State.lineTaken_mem (s : State) (may : Bool) (k a : Nat) : (s.lineTaken may k a).2.mem = s.mem := by
  unfold State.lineTaken
  split
  · rfl
  · exact s.lineCode_mem k a
theorem State.lineRead_mem (s : State) (may : Bool) (k a n : Nat) : (s.lineRead may k a n).2.mem = s.mem := by
  induction n generalizing s a with
  | zero => rfl
  | succ n ih => exact (ih _ _).trans (s.lineTaken_mem may k a)
/-- A line whose stored code is good is delivered, and its read puts nothing out. -/
theorem State.lineTaken_good (s : State) {k a : Nat} (h : s.mark a = .good) : (s.lineTaken false k a).1 = false ∧ (s.lineTaken false k a).2.out = s.out := by
  have hc : s.lineCode k a = (false, s) := by unfold State.lineCode; rw [h]
  unfold State.lineTaken
  rw [Bool.false_and, if_neg (by decide), hc]
  exact ⟨rfl, rfl⟩

theorem State.lineRead_one (s : State) (may : Bool) (k a : Nat) :
    s.lineRead may k a 1 = (if (s.lineTaken may k a).1 then [a] else [], (s.lineTaken may k a).2) := rfl

/-- Onyx's read of an aligned word of HBM: its bytes, and what the read of its line says of the stored code. -/
theorem State.onyxRead_hbm (s : State) {x k o : Nat} (hp : placeOf x = .hbm k o) (h8 : x % 8 = 0) :
    s.onyxRead x 8 = (s.bytes x 8, ((s.lineRead false k (x / 64 * 64) 1).1.map fun l => (List.range 8).map fun i => l + 8 * i).flatten,
      (s.lineRead false k (x / 64 * 64) 1).2) := by
  have hone : (x + 8 + 63) / 64 - x / 64 * 64 / 64 = 1 := by omega
  unfold State.onyxRead State.readFor
  rw [hp]
  dsimp only
  rw [hone]
theorem State.directRead_hbm (s : State) {x k o : Nat} (hp : placeOf x = .hbm k o) :
    s.directRead x = (BitVec.ofNat 64 (natOf (s.onyxRead x 8).1), !(s.onyxRead x 8).2.1.isEmpty, (s.onyxRead x 8).2.2) := by
  unfold State.directRead
  rw [hp]
theorem State.directRead_hbm_word (s : State) {x k o : Nat} (hp : placeOf x = .hbm k o) (h8 : x % 8 = 0) :
    bytesOf (s.directRead x).1.toNat 8 = s.bytes x 8 ∧ (s.directRead x).2.2.mem = s.mem := by
  rw [s.directRead_hbm hp, s.onyxRead_hbm hp h8]
  exact ⟨bytesOf_word (s.bytes_length x 8), s.lineRead_mem false k _ 1⟩
theorem State.directRead_hbm_good (s : State) {x k o : Nat} (hp : placeOf x = .hbm k o) (h8 : x % 8 = 0) (hm : s.mark (x / 64 * 64) = .good) :
    (s.directRead x).2.1 = false ∧ (s.directRead x).2.2.out = s.out := by
  obtain ⟨hclean, hout⟩ := s.lineTaken_good (k := k) hm
  rw [s.directRead_hbm hp, s.onyxRead_hbm hp h8, State.lineRead_one, hclean]
  exact ⟨rfl, hout⟩

/-! READ. -/

/-- The places that a READ names. -/
def State.readPlaces (s : State) (a count : Nat) : List (Option MgmtPlace) := (List.range count).map fun i => s.mgmtPlace (a + 8 * i) false
/-- The answer to a READ, of its words and whether one could not be corrected. -/
def readAnswer (number : Nat) (x : List Byte × Bool × State) : State := x.2.2.reply 0x81 (if x.2.1 then 7 else 0) number x.1
theorem execRead_eq (t : At) (number count : Nat) (addr : BitVec 64) (s : State) :
    exec (.read t number addr count) s = .next (if (!(s.at t).awake) = true then s.at t
      else if count = 0 ∨ 1024 < count then (s.at t).reply 0x81 5 number []
      else if ((s.at t).readPlaces addr.toNat count).any (fun p => p.isNone) = true then (s.at t).reply 0x81 1 number []
      else readAnswer number (((s.at t).bring t.cyc (((s.at t).readPlaces addr.toNat count).filterMap id)).mgmtRead
        (((s.at t).readPlaces addr.toNat count).filterMap id))) := rfl
theorem State.mgmtRead_cfg (s : State) (a : Nat) : s.mgmtRead [.cfg a] = (bytesOf (s.cfgAccess a).1.toNat 8, false, (s.cfgAccess a).2) := by
  simp [State.mgmtRead]
theorem State.mgmtRead_data (s : State) (a : Nat) : s.mgmtRead [.data a] = (bytesOf (s.directRead a).1.toNat 8, (s.directRead a).2.1, (s.directRead a).2.2) := by
  simp [State.mgmtRead]
theorem State.cfgAccess_register (s : State) {a : Nat} (h8 : a % 8 = 0) (hlt : a < 2 ^ 40) (hw : (windowRows a).isSome) : s.cfgAccess a = (s.cfgRead a, s) := by
  unfold State.cfgAccess
  refine if_neg (not_or.2 ⟨not_not.2 h8, not_or.2 ⟨by omega, fun h => ?_⟩⟩)
  rw [h] at hw
  cases hw
theorem State.cfgAccess_refused (s : State) {a : Nat} (h : a % 8 ≠ 0 ∨ windowRows a = none) : s.cfgAccess a = (0, s.cfgRefused a 8) := by
  unfold State.cfgAccess
  exact if_pos (h.imp_right .inr)
/-- A READ of one word that may be named. -/
theorem execRead_one (t : At) (number : Nat) (addr : BitVec 64) (s : State) {p : MgmtPlace} (ha : (s.at t).awake = true)
    (hp : (s.at t).mgmtPlace addr.toNat false = some p) :
    exec (.read t number addr 1) s = .next (readAnswer number (((s.at t).bring t.cyc [p]).mgmtRead [p])) := by
  have hplaces : (s.at t).readPlaces addr.toNat 1 = [some p] := congrArg (fun q => [q]) hp
  rw [execRead_eq, hplaces, if_neg (by simp [ha]), if_neg (by omega), if_neg (by simp)]
  rfl

theorem read_cfg (t : At) (number : Nat) (addr : BitVec 64) (s s2 : State) (ha : (s.at t).awake = true) (hlt : addr.toNat < 2 ^ 40)
    (h2 : s2 = (s.at t).bringCfg t.cyc addr.toNat) :
    exec (.read t number addr 1) s = .next ((s2.cfgAccess addr.toNat).2.reply 0x81 0 number (bytesOf (s2.cfgAccess addr.toNat).1.toNat 8)) := by
  subst h2
  rw [execRead_one t number addr s ha ((s.at t).mgmtPlace_cfg false hlt), State.bring_cfg, State.mgmtRead_cfg]
  rfl
theorem read_hbm (t : At) (number : Nat) {addr : BitVec 64} (s : State) {x k o : Nat} (ha : (s.at t).awake = true) (haddr : addr.toNat = 2 ^ 63 + x)
    (hx : x < 2 ^ 45) (h8 : x % 8 = 0) (hp : placeOf x = .hbm k o) (hd : s.dev = .hold ∨ s.dev = .halted) :
    exec (.read t number addr 1) s = .next (((s.at t).directRead x).2.2.reply 0x81 (if ((s.at t).directRead x).2.1 then 7 else 0) number (s.bytes x 8)) := by
  have hplace : (s.at t).mgmtPlace addr.toNat false = some (.data x) := by
    rw [haddr]
    exact (s.at t).mgmtPlace_hbm false hx h8 hp (hd.imp_right fun h => ⟨h, rfl⟩)
  rw [execRead_one t number addr s ha hplace, State.bring_hbm _ _ hp, State.mgmtRead_data, ((s.at t).directRead_hbm_word hp h8).1]
  rfl
theorem SameBytes.of_mem {s u : State} (h : u.mem = s.mem) : SameBytes s u := fun a => by rw [State.byte, h]; rfl

/-- The clauses on a READ. -/
theorem read_next (t : At) (number count a : Nat) (addr : BitVec 64) (s s1 : State) (h1 : s1 = s.at t) (haddr : a = addr.toNat) :
    ∃ u, exec (.read t number addr count) s = .next u ∧
      (s1.awake = false → u = s1) ∧
      (s1.awake = true → count = 0 ∨ 1024 < count → u = s1.reply 0x81 5 number []) ∧
      (s1.awake = true → 0 < count → count ≤ 1024 → (∃ i, i < count ∧ s1.mgmtPlace (a + 8 * i) false = none) → u = s1.reply 0x81 1 number []) ∧
      (∀ s2, s1.awake = true → count = 1 → a < 2 ^ 40 → s2 = s1.bringCfg t.cyc a →
        (a % 8 = 0 → (windowRows a).isSome → u = s2.reply 0x81 0 number (bytesOf (s2.cfgRead a).toNat 8)) ∧
        (a % 8 ≠ 0 ∨ windowRows a = none → u = (s2.log 0x0301 (srcUnit 12 0) [a, 8, devNum s2.dev]).reply 0x81 0 number (bytesOf 0 8))) ∧
      (∀ x k o, s1.awake = true → count = 1 → a = 2 ^ 63 + x → x < 2 ^ 45 → x % 8 = 0 → placeOf x = .hbm k o → s.dev = .hold ∨ s.dev = .halted →
        SameBytes s u ∧ (s.mark (x / 64 * 64) = .good → u.out = .msg 64 0xC1 0 number 0 0 (s.bytes x 8) :: s.out)) := by
  subst h1 haddr
  obtain ⟨u, hu⟩ : ∃ u, exec (.read t number addr count) s = .next u := ⟨_, rfl⟩
  have hlong := hu
  rw [execRead_eq] at hlong
  refine ⟨u, hu, fun h => ?_, fun h hc => ?_, fun h h0 hc hnone => ?_, fun s2 h hone hlt h2 => ?_, fun x k o h hone hxa hx h8 hp hd => ?_⟩
  · rw [if_pos (by simp [h])] at hlong
    exact (Host.Outcome.next.inj hlong).symm
  · rw [if_neg (by simp [h]), if_pos hc] at hlong
    exact (Host.Outcome.next.inj hlong).symm
  · obtain ⟨i, hi, hplace⟩ := hnone
    have hany : ((s.at t).readPlaces addr.toNat count).any (fun p => p.isNone) = true :=
      List.any_eq_true.2 ⟨none, List.mem_map.2 ⟨i, List.mem_range.2 hi, hplace⟩, rfl⟩
    rw [if_neg (by simp [h]), if_neg (by omega), if_pos hany] at hlong
    exact (Host.Outcome.next.inj hlong).symm
  · subst hone
    have huv := Host.Outcome.next.inj (hu.symm.trans (read_cfg t number addr s s2 h hlt h2))
    refine ⟨fun h8 hw => ?_, fun hbad => ?_⟩
    · rw [huv, s2.cfgAccess_register h8 hlt hw]
    · rw [huv, s2.cfgAccess_refused hbad]
      rfl
  · subst hone
    have huv := Host.Outcome.next.inj (hu.symm.trans (read_hbm t number s h hxa hx h8 hp hd))
    refine ⟨SameBytes.of_mem ?_, fun hm => ?_⟩
    · rw [huv]
      exact ((s.at t).directRead_hbm_word hp h8).2
    · obtain ⟨hclean, hout⟩ := (s.at t).directRead_hbm_good hp h8 hm
      rw [huv, hclean]
      exact congrArg (_ :: ·) hout

/-! Writing HBM (R353, R469). -/

/-- A write of HBM lines leaves the channels' merge entries of them behind, and nothing else. -/
theorem State.unmergeLines_only (s : State) (k : Nat) (l : List Nat) : s.unmergeLines k l = { s with arbs := (s.unmergeLines k l).arbs } := by
  unfold State.unmergeLines
  induction l generalizing s with
  | nil => rfl
  | cons x r ih =>
    rw [List.foldl_cons, ih]
    dsimp only
    split <;> rfl
/-- Onyx's write of an aligned word of HBM: the bytes, and the mark of its line. -/
theorem State.directWrite_hbm (s : State) {x k o : Nat} (v : Word) (hp : placeOf x = .hbm k o) (h8 : x % 8 = 0) :
    s.directWrite x v = ((s.unmergeLines k [x / 64 * 64]).setBytes x (bytesOf v.toNat 8)).setMark (x / 64 * 64) .good := by
  have hone : (x + 8 + 63) / 64 - x / 64 * 64 / 64 = 1 := by omega
  unfold State.directWrite
  rw [hp]
  dsimp only
  unfold State.writeAt
  rw [hp]
  dsimp only
  rw [bytesOf_length, hone]
  rfl
theorem State.directWrite_hbm_next (s : State) {x k o : Nat} (v : Word) (hp : placeOf x = .hbm k o) (h8 : x % 8 = 0) :
    s.directWrite x v = { s with arbs := (s.directWrite x v).arbs, mem := (s.directWrite x v).mem, marks := (s.directWrite x v).marks } ∧
      (∀ b, (s.directWrite x v).byte b = if x ≤ b ∧ b < x + 8 then (bytesOf v.toNat 8).getD (b - x) 0 else s.byte b) ∧
      (s.directWrite x v).mark (x / 64 * 64) = .good := by
  rw [s.directWrite_hbm v hp h8]
  refine ⟨?_, fun b => ?_, State.mark_setMark _ _ _⟩
  · rw [State.setBytes_only, State.unmergeLines_only]
    rfl
  · refine (State.byte_setBytes _ _ _ _).trans ?_
    rw [bytesOf_length, State.byte, State.unmergeLines_mem]
    rfl

/-! WRITE. -/

/-- A signed request that is good, allowed and newer than the last is carried out (R466, R467). -/
theorem State.onSigned_accepted (s : State) (type : Nat) (q : Signed) (f : State → Nat × List Byte × State) (g : State → State)
    (ha : s.awake = true) (ht : s.dev ≠ .tripped) (hs : s.signedOk q = true) (hn : ∀ n, s.onyx.lastNumber = some n → n < q.number)
    (h0 : (f s).1 = 0) : s.onSigned type true q f g = g ((f s).2.2.accept type 0 q.number (f s).2.1) := by
  have hrepeat : s.onyx.lastNumber ≠ some q.number := fun h => Nat.lt_irrefl _ (hn _ h)
  have hold : (s.onyx.lastNumber.any fun n => decide (q.number ≤ n)) = false := by
    cases hl : s.onyx.lastNumber with
    | none => rfl
    | some n => simp [hn n hl]
  unfold State.onSigned
  rw [if_neg (by simp [ha, ht]), if_neg (by simp [hrepeat]), if_neg (by decide), if_neg (by simp [hs]), if_neg (by simp [hold])]
  dsimp only
  rw [h0]
  rfl
theorem State.awake_of_hold {s : State} (h : s.dev = .hold) : s.awake = true := by
  unfold State.awake
  rw [h]
  rfl
end Sys2Proof.Machine
end
section
/-! The management accesses together (R450, R451, R466, R469, R487). -/
namespace Sys2Proof.Machine

/-- The places that a WRITE names, with the words for them. -/
def State.writePlaces (s : State) (pairs : List (BitVec 64 × BitVec 64)) : List (Option (MgmtPlace × Word)) :=
  pairs.map fun p => (s.mgmtPlace p.1.toNat true).map fun q => (q, p.2)
/-- What an accepted WRITE does: its status, its payload and the state. -/
def State.writePairs (s : State) (cyc : Nat) (pairs : List (BitVec 64 × BitVec 64)) : Nat × List Byte × State :=
  if pairs.isEmpty || decide (64 < pairs.length) then (5, [], s)
  else if (s.writePlaces pairs).any (fun p => p.isNone) then (1, [], s)
  else (0, [], (s.bring cyc (((s.writePlaces pairs).filterMap id).map Prod.fst)).mgmtWrite cyc ((s.writePlaces pairs).filterMap id))
theorem execWrite_eq (t : At) (q : Signed) (pairs : List (BitVec 64 × BitVec 64)) (s : State) :
    exec (.write t q pairs) s = .next ((s.at t).onSigned 0x82 (decide (s.dev = .run ∨ s.dev = .hold ∨ s.dev = .halted)) q
      (fun s => s.writePairs t.cyc pairs) id) := rfl
theorem State.writePairs_hbm (s : State) (cyc : Nat) {addr v : BitVec 64} {x k o : Nat} (hd : s.dev = .hold) (haddr : addr.toNat = 2 ^ 63 + x)
    (hx : x < 2 ^ 45) (h8 : x % 8 = 0) (hp : placeOf x = .hbm k o) : s.writePairs cyc [(addr, v)] = (0, [], s.directWrite x v) := by
  have hplaces : s.writePlaces [(addr, v)] = [some (.data x, v)] := by
    unfold State.writePlaces
    rw [List.map_singleton, haddr, s.mgmtPlace_hbm true hx h8 hp (.inl hd)]
    rfl
  unfold State.writePairs
  rw [hplaces, if_neg (by simp), if_neg (by simp)]
  simp only [List.filterMap_cons, List.filterMap_nil, id, List.map_cons, List.map_nil]
  rw [State.bring_hbm _ _ hp]
  rfl
/-- The clause on a WRITE of one word of HBM in HOLD. -/
theorem write_next (t : At) (q : Signed) (addr v : BitVec 64) (x k o : Nat) (s s1 : State) (h1 : s1 = s.at t) (hd : s.dev = .hold)
    (haddr : addr.toNat = 2 ^ 63 + x) (hx : x < 2 ^ 45) (h8 : x % 8 = 0) (hp : placeOf x = .hbm k o) :
    ∃ u, exec (.write t q [(addr, v)]) s = .next u ∧
      (s1.signedOk q = true → (∀ n, s.onyx.lastNumber = some n → n < q.number) →
        (∀ b, u.byte b = if x ≤ b ∧ b < x + 8 then (bytesOf v.toNat 8).getD (b - x) 0 else s.byte b) ∧ u.mark (x / 64 * 64) = .good ∧
        u.onyx.lastNumber = some q.number ∧ u.regs = s.regs ∧ u.out = .msg 64 0xC2 0 q.number 0 0 [] :: s.out) := by
  subst h1
  refine ⟨_, execWrite_eq t q _ s, fun hsigned hnew => ?_⟩
  have hbody := (s.at t).writePairs_hbm t.cyc (v := v) hd haddr hx h8 hp
  have hnext := (s.at t).onSigned_accepted 0x82 q (fun s => s.writePairs t.cyc [(addr, v)]) id (State.awake_of_hold hd) (by simp [hd]) hsigned hnew
    (by rw [hbody])
  obtain ⟨honly, hbyte, hmark⟩ := (s.at t).directWrite_hbm_next v hp h8
  rw [decide_eq_true (.inr (.inl hd) : s.dev = .run ∨ s.dev = .hold ∨ s.dev = .halted), hnext, hbody]
  refine ⟨hbyte, hmark, rfl, ?_, ?_⟩
  · show ((s.at t).directWrite x v).regs = _
    rw [honly]
    rfl
  · show _ :: ((s.at t).directWrite x v).out = _
    rw [honly]
    rfl

/-- Settles O54: each kind of access by the equation of its command; what a write leaves of a register's fields is `plainWrite_codes`. -/
theorem managementAccesses : Obligations.ManagementAccesses := by
  refine ⟨read_next, write_next, ?_, ?_⟩
  · intro t number nonce s s1 n h1 hn
    exact quote_next t number nonce s s1 n h1 (by rw [hn, h1]; rfl)
  · intro t addr size v s s1 s2 h1 h2
    refine ⟨fun h => h2.trans (s1.bringCfg_other t.cyc h), fun c hc hlo hhi => ?_, ?_⟩
    · have hcore := h2.trans (s1.bringCfg_core t.cyc hc hlo hhi)
      refine ⟨hcore, fun hl ha hs hw hd => ?_⟩
      subst h1
      rw [hcore]
      exact (s.at t).toCycle_quiet c t.cyc hl ha hs hw hd
    · obtain ⟨u, hu, hdead, hbad, hgood⟩ := configWrite_next t addr size v s s1 s2 h1 h2
      refine ⟨u, hu, hdead, fun h hx => ?_, fun h hs ha hlt hw => ?_, fun rows r ix h hs ha hlt hw hr hspecial => ?_⟩
      · rw [hbad h hx, h1]
        rfl
      · rw [hgood h hs ha hlt, s2.cfgWrite_none _ _ _ _ hw, hs]
        rfl
      · rw [hgood h hs ha hlt, s2.cfgWrite_plain _ _ _ _ hw hr hspecial]
        obtain ⟨hbytes, hregs⟩ := s2.plainWrite_frame addr v (decide (s2.dev = .hold))
        refine ⟨hbytes, hregs, fun f hf hlog => ?_⟩
        obtain ⟨hro, hrw, hrwh, hw1c⟩ := s2.plainWrite_codes v (decide (s2.dev = .hold)) hw hr hlog hf
        exact ⟨hro, hrw, fun h => by simpa using hrwh h, hw1c⟩
end Sys2Proof.Machine
end
section
/-! Reading an own vault (R49, R117, R134, R190 to R195): what the port's reading changes, and which words come poisoned. -/
namespace Sys2Proof.Machine

/-! What a read at a vault's port changes. -/

/-- The core's write-back queue has used every free cycle up to the present one (R117). -/
def State.wbDrained (s : State) (c : Nat) : Prop := (s.core c).wbq = [] ∨ s.clk ≤ (s.core c).wbAt
/-- The registers that a read at a core's port may write: the log's, the codes' counts, CORE_FAULT, the performance counters. -/
def portRegs (c : Nat) : List Nat := Reg.onxLogStatus :: Reg.coreVaultEcc c :: Reg.coreFault c :: (List.range 8).map (Reg.corePmc c)
/-- A read at a core's port: memory and marks stay, and of the core's record all but its write-back queue, which stays drained. -/
structure PortReads (c : Nat) (s u : State) : Prop where
  only : u = { s with regs := u.regs, fresh := u.fresh, cores := u.cores, arbs := u.arbs, onyx := u.onyx, out := u.out }
  core : ∃ q w, u.core c = { s.core c with wbq := q, wbAt := w }
  rd : SameRegs s u (portRegs c)
  drained : s.wbDrained c → u.wbDrained c

theorem PortReads.refl (c : Nat) (s : State) : PortReads c s s := ⟨rfl, ⟨_, _, rfl⟩, fun _ _ => rfl, id⟩
theorem PortReads.trans {c : Nat} {s u v : State} (h : PortReads c s u) (k : PortReads c u v) : PortReads c s v := by
  refine ⟨?_, ?_, fun a ha => (k.rd a ha).trans (h.rd a ha), k.drained ∘ h.drained⟩
  · have honly := k.only
    rw [h.only] at honly
    exact honly
  · obtain ⟨q, w, hk⟩ := k.core
    obtain ⟨_, _, hh⟩ := h.core
    exact ⟨q, w, by rw [hk, hh]⟩
theorem PortReads.mem {c : Nat} {s u : State} (h : PortReads c s u) : u.mem = s.mem := by rw [h.only]
theorem PortReads.mark {c : Nat} {s u : State} (h : PortReads c s u) (a : Nat) : u.mark a = s.mark a := by rw [h.only]; rfl
/-- A change that leaves the cores and the clock alone. -/
theorem PortReads.of_cores {c : Nat} {s u : State}
    (honly : u = { s with regs := u.regs, fresh := u.fresh, arbs := u.arbs, onyx := u.onyx, out := u.out }) (hrd : SameRegs s u (portRegs c)) :
    PortReads c s u := by
  have hcore : u.core c = s.core c := by rw [honly]; rfl
  have hclk : u.clk = s.clk := by rw [honly]
  exact ⟨by rw [honly], ⟨_, _, hcore⟩, hrd, fun h => by rwa [State.wbDrained, hcore, hclk]⟩
theorem Counts.portReads {c : Nat} {s u : State} (h : Counts s u c) : PortReads c s u :=
  .of_cores (by rw [h.1]) fun a ha => h.2 a fun hm => ha (by simp [portRegs, hm])
theorem Logs.portReads {s u : State} (h : Logs s u) (c : Nat) : PortReads c s u :=
  .of_cores (by rw [h.1]) fun a ha => h.2 a fun hm => ha (by simp [portRegs, List.mem_singleton.1 hm])
theorem State.setArb_portReads (s : State) (c : Nat) (a : Arbiter) (x : Arb) : PortReads c s (s.setArb a x) := .of_cores rfl fun _ _ => rfl
theorem State.wr_portReads (s : State) {c a : Nat} (v : Word) (ha : a ∈ portRegs c) : PortReads c s (s.wr a v) :=
  .of_cores rfl fun _ hb => s.rd_wr_ne v fun h => hb (h ▸ ha)
theorem State.bump_portReads (s : State) (c : Nat) (f : Fld) (n : Nat) : PortReads c s (s.bump (Reg.coreVaultEcc c) f n) :=
  s.wr_portReads _ (by simp [portRegs])
theorem PortReads.fresh {c : Nat} {s u : State} (h : PortReads c s u) (f : List (Nat × Nat × Word)) : PortReads c s { u with fresh := f } :=
  h.trans (.of_cores rfl fun _ _ => rfl)
theorem State.raiseFault_portReads (s : State) (c : Nat) (f : Fld) : PortReads c s (s.raiseBit (Reg.coreFault c) f) :=
  (s.wr_portReads _ (by simp [portRegs])).fresh _
theorem State.coreFault_portReads (s : State) (c : Nat) (f : Fld) : PortReads c s (s.coreFault c f) := by
  unfold State.coreFault
  split
  · exact s.raiseFault_portReads c f
  · exact (s.raiseFault_portReads c f).trans ((State.log_logs _ _ _ _).portReads c)
theorem State.queueWb_portReads (s : State) (c a : Nat) : PortReads c s (s.queueWb c a) := by
  unfold State.queueWb
  dsimp only
  split
  · refine ⟨rfl, ⟨_, _, State.core_setCore _ _ _⟩, fun _ _ => rfl, fun h => .inr ?_⟩
    rw [State.core_setCore]
    show s.clk ≤ if (s.core c).wbq = [] then s.clk + 1 else (s.core c).wbAt
    split
    · omega
    · next hq => exact h.resolve_left hq
  · exact s.bump_portReads c _ _
theorem State.readWord_portReads (s : State) (c a : Nat) : PortReads c s (s.readWord c a).2 := by
  unfold State.readWord
  split
  · exact .refl c s
  · exact (s.bump_portReads c _ _).trans (State.queueWb_portReads _ _ _)
  · exact (s.bump_portReads c _ _).trans (State.coreFault_portReads _ _ _)
  · exact .refl c s
  · exact .refl c s
theorem State.readWords_portReads (c : Nat) (merged : List Nat) (n : Nat) (s : State) (a : Nat) : PortReads c s (s.readWords c a merged n).2 := by
  induction n generalizing s a with
  | zero => exact .refl c s
  | succ n ih =>
    unfold State.readWords
    dsimp only
    split
    · exact ih _ _
    · exact (s.readWord_portReads c a).trans (ih _ _)
theorem State.portRead_portReads (s : State) (c code off n : Nat) : PortReads c s (s.portRead c code off n).2 := by
  have hfold : ∀ (l : List (List Nat × Nat)) (r : List Nat × State), PortReads c s r.2 → PortReads c s
      (l.foldl (fun r x =>
        if r.2.follows c code x.1 x.2 then (x.1 ++ r.1, r.2.pmcCore c 0x01C 1)
        else
          let b := r.2.arb (.vault c)
          (r.1, (r.2.setArb (.vault c) { b with merge := (x :: b.merge).take 32, served := ((code, x.1) :: b.served).take 64 }).pmcCore c 0x018 1)) r).2 := by
    intro l
    induction l with
    | nil => exact fun _ h => h
    | cons x l ih =>
      intro r h
      rw [List.foldl_cons]
      refine ih _ ?_
      split
      · exact h.trans (State.pmcCore_counts _ _ _ _).portReads
      · exact (h.trans (State.setArb_portReads _ _ _ _)).trans (State.pmcCore_counts _ _ _ _).portReads
  exact hfold _ _ (.refl c s)
/-- A drained queue has nothing to drain. -/
theorem State.drainWb_drained {s : State} {c : Nat} (h : s.wbDrained c) : s.drainWb c s.clk = s := if_pos h
/-- A vault read with nothing to drain: the bytes as they stand, a port's reading, then the stored codes of the words. The number of words and the
results stay opaque throughout, for the kernel must not evaluate `readWords`. -/
theorem State.vaultRead_drained {s : State} {c : Nat} (h : s.wbDrained c) (code off n : Nat) :
    ∃ merged s1 p s2, s.portRead c code off n = (merged, s1) ∧
      s1.readWords c ((windowOf c + off) / 8 * 8) merged ((windowOf c + off + n + 7) / 8 - (windowOf c + off) / 8 * 8 / 8) = (p, s2) ∧
      s.vaultRead c code off n = (s.bytes (windowOf c + off) n, p, s2) := by
  obtain ⟨k, hk⟩ : ∃ k, (windowOf c + off + n + 7) / 8 - (windowOf c + off) / 8 * 8 / 8 = k := ⟨_, rfl⟩
  obtain ⟨⟨merged, s1⟩, hport⟩ : ∃ r, s.portRead c code off n = r := ⟨_, rfl⟩
  obtain ⟨⟨p, s2⟩, hwords⟩ : ∃ r, s1.readWords c ((windowOf c + off) / 8 * 8) merged k = r := ⟨_, rfl⟩
  refine ⟨merged, s1, p, s2, hport, by rw [hk, hwords], ?_⟩
  generalize hf : @State.vaultRead = f
  delta State.vaultRead at hf
  subst hf
  beta_reduce
  extract_lets a w
  have hk' : (a + n + 7) / 8 - w / 8 = k := hk
  have hwords' : s1.readWords c w merged k = (p, s2) := hwords
  rewrite [State.drainWb_drained h, hport, hk']
  dsimp only
  rewrite [hwords']
  rfl
/-- A read that begins inside the vault is one of the vault's, cut at its end and padded. -/
theorem State.ownRead_inside (s : State) (c code : Nat) {off : Nat} (n : Nat) (h : off < vaultSize) :
    ∃ b p u, s.vaultRead c code off (min n (vaultSize - off)) = (b, p, u) ∧ s.ownRead c code off n = (padTo n b, p, u) := by
  obtain ⟨⟨b, p, u⟩, hread⟩ : ∃ r, s.vaultRead c code off (min n (vaultSize - off)) = r := ⟨_, rfl⟩
  refine ⟨b, p, u, hread, ?_⟩
  unfold State.ownRead
  rewrite [if_pos h]
  extract_lets m
  subst m
  rewrite [hread]
  rfl
theorem State.ownRead_outside (s : State) (c code : Nat) {off : Nat} (n : Nat) (h : ¬ off < vaultSize) :
    s.ownRead c code off n = (List.replicate n 0, [], s) := if_neg h
theorem State.vaultRead_portReads {s : State} {c : Nat} (h : s.wbDrained c) (code off n : Nat) : PortReads c s (s.vaultRead c code off n).2.2 := by
  obtain ⟨merged, s1, p, s2, hport, hwords, heq⟩ := State.vaultRead_drained h code off n
  have h1 := s.portRead_portReads c code off n
  have h2 := State.readWords_portReads c merged ((windowOf c + off + n + 7) / 8 - (windowOf c + off) / 8 * 8 / 8) s1 ((windowOf c + off) / 8 * 8)
  rw [hport] at h1
  rw [hwords] at h2
  rw [heq]
  exact h1.trans h2
theorem State.ownRead_portReads {s : State} {c : Nat} (h : s.wbDrained c) (code off n : Nat) : PortReads c s (s.ownRead c code off n).2.2 := by
  by_cases hoff : off < vaultSize
  · obtain ⟨b, p, u, hread, heq⟩ := s.ownRead_inside c code n hoff
    have hvault := State.vaultRead_portReads h code off (min n (vaultSize - off))
    rw [hread] at hvault
    rw [heq]
    exact hvault
  · rw [State.ownRead_outside _ _ _ _ hoff]
    exact .refl c s
theorem State.vaultBlock_portReads {s : State} {c : Nat} (h : s.wbDrained c) (f : Elem) (off scale : Nat) :
    PortReads c s (s.vaultBlock c f off scale).2 := by
  have hcodes := State.ownRead_portReads h 11 off f.blockSize
  unfold State.vaultBlock
  generalize s.ownRead c 11 off f.blockSize = r at hcodes ⊢
  obtain ⟨b, p, s1⟩ := r
  have hscale := State.ownRead_portReads (hcodes.drained h) 11 scale 1
  dsimp only at hscale ⊢
  generalize s1.ownRead c 11 scale 1 = r at hscale ⊢
  exact hcodes.trans hscale
theorem State.vaultBlocks_portReads (c : Nat) (f : Elem) (n : Nat) {s : State} (h : s.wbDrained c) (off scale : Nat) :
    PortReads c s (s.vaultBlocks c f off scale n).2 := by
  induction n generalizing s off scale with
  | zero => exact .refl c s
  | succ n ih =>
    have hblock := State.vaultBlock_portReads h f (off % 2 ^ 24) (scale % 2 ^ 24)
    unfold State.vaultBlocks
    generalize s.vaultBlock c f (off % 2 ^ 24) (scale % 2 ^ 24) = r at hblock ⊢
    exact hblock.trans (ih (hblock.drained h) _ _)
theorem State.residuals_portReads (c n : Nat) {s : State} (h : s.wbDrained c) (off : Nat) : PortReads c s (s.residuals c off n).2 := by
  induction n generalizing s off with
  | zero => exact .refl c s
  | succ n ih =>
    have hread := State.ownRead_portReads h 11 (off % 2 ^ 24) 32
    unfold State.residuals
    generalize s.ownRead c 11 (off % 2 ^ 24) 32 = r at hread ⊢
    exact hread.trans (ih (hread.drained h) _)

/-! The cycle of a command finds the write-back queue drained. -/

theorem State.unmerge_only (s : State) (c : Nat) (l : List Nat) : s.unmerge c l = { s with arbs := (s.unmerge c l).arbs } := by
  unfold State.unmerge
  dsimp only
  split <;> rfl
theorem Counts.clk {s u : State} {c : Nat} (h : Counts s u c) : u.clk = s.clk := by rw [h.1]
theorem State.drainWb_clk (s : State) (c cyc : Nat) : (s.drainWb c cyc).clk = s.clk := by
  unfold State.drainWb
  dsimp only
  split
  · rfl
  · split
    · rfl
    · rw [(State.pmcCore_counts _ _ _ _).clk, (State.pmcCore_counts _ _ _ _).clk, State.unmerge_only, State.setMarks_only]
      rfl
theorem State.unmerge_core (s : State) (c : Nat) (l : List Nat) (d : Nat) : (s.unmerge c l).core d = s.core d := by rw [State.unmerge_only]; rfl
theorem State.setMarks_core (s : State) (m : Mark) (l : List Nat) (d : Nat) : (s.setMarks m l).core d = s.core d := by rw [State.setMarks_only]; rfl
theorem State.drainWb_drains (s : State) (c cyc : Nat) : ((s.drainWb c cyc).core c).wbq = [] ∨ cyc ≤ ((s.drainWb c cyc).core c).wbAt := by
  unfold State.drainWb
  dsimp only
  split
  · next h => exact h
  · refine .inr (Nat.le_of_eq ?_)
    split
    · rw [State.core_setCore]
    · rw [(State.pmcCore_counts _ _ _ _).core, (State.pmcCore_counts _ _ _ _).core, State.unmerge_core, State.setMarks_core,
        State.core_setCore]
theorem State.countCycles_wb (s : State) (c cyc : Nat) :
    (s.countCycles c cyc).clk = s.clk ∧ ((s.countCycles c cyc).core c).wbq = (s.core c).wbq ∧ ((s.countCycles c cyc).core c).wbAt = (s.core c).wbAt := by
  unfold State.countCycles
  dsimp only
  split
  · rw [(State.pmcCore_counts _ _ _ _).core, (State.pmcCore_counts _ _ _ _).clk, State.core_setCore]
    exact ⟨rfl, rfl, rfl⟩
  · exact ⟨rfl, rfl, rfl⟩
/-- Stretched periods are counted in registers and in the tower's record. -/
theorem State.settleDroop_only (s : State) (t cyc : Nat) :
    ∃ regs fresh towers, s.settleDroop t cyc = { s with regs := regs, fresh := fresh, towers := towers } := by
  have hfold : ∀ (n : Nat) (l : List Nat) (u : State), ∃ regs fresh,
      l.foldl (fun s l => (s.bump (Reg.coreStretch (256 * t + l)) F.coreStretchCount n).pmcCore (256 * t + l) 0x00A n) u =
        { u with regs := regs, fresh := fresh } := by
    intro n l
    induction l with
    | nil => exact fun u => ⟨u.regs, u.fresh, rfl⟩
    | cons x l ih =>
      intro u
      obtain ⟨regs, fresh, h⟩ := ih ((u.bump (Reg.coreStretch (256 * t + x)) F.coreStretchCount n).pmcCore (256 * t + x) 0x00A n)
      exact ⟨regs, fresh, by rw [List.foldl_cons, h, (State.pmcCore_counts _ _ _ _).1, State.bump, State.putF, State.wr]⟩
  unfold State.settleDroop
  dsimp only
  split
  · exact ⟨s.regs, s.fresh, s.towers, rfl⟩
  · obtain ⟨regs, fresh, h⟩ := hfold ((s.tower t).droops.filter (· ≤ cyc)).length (List.range 256)
      (s.setTower t { s.tower t with droops := (s.tower t).droops.filter (cyc < ·) })
    exact ⟨regs, fresh, _, h⟩
theorem State.toCore_drained (s : State) (t : At) (c : Nat) : (s.toCore t c).wbDrained c := by
  unfold State.toCore State.toCycle
  generalize hl : (s.at t).landCore c t.cyc ((s.at t).core c).work = l
  have hlclk : l.clk = t.cyc := by rw [← hl]; rfl
  obtain ⟨hclk, hq, hat⟩ := (l.drainWb c t.cyc).countCycles_wb c t.cyc
  obtain ⟨regs, fresh, towers, hdroop⟩ := ((l.drainWb c t.cyc).countCycles c t.cyc).settleDroop_only (towerOf c) t.cyc
  rw [hdroop]
  show (((l.drainWb c t.cyc).countCycles c t.cyc).core c).wbq = [] ∨
    ((l.drainWb c t.cyc).countCycles c t.cyc).clk ≤ (((l.drainWb c t.cyc).countCycles c t.cyc).core c).wbAt
  rw [hclk, hq, hat, State.drainWb_clk, hlclk]
  exact State.drainWb_drains _ _ _

/-! Poisoned words, and the lanes of a vector load (R49). -/

/-- A word with this stored code is delivered poisoned (R49, R117). -/
def markPoisons : Mark → Bool
  | .good | .ce => false
  | .ue | .poison | .cePoison => true
theorem State.readWord_poisons (s : State) (c a : Nat) : (s.readWord c a).1 = markPoisons (s.mark a) := by
  unfold State.readWord
  split <;> (next h => rw [h]; rfl)
/-- The first word of a reading of several: whether its code is read or not, it is delivered by its mark. -/
theorem State.readWords_succ (s : State) (c a : Nat) (merged : List Nat) (n : Nat) :
    ∃ s1, PortReads c s s1 ∧ (s.readWords c a merged (n + 1)).1 =
      if markPoisons (s.mark a) then a :: (s1.readWords c (a + 8) merged n).1 else (s1.readWords c (a + 8) merged n).1 := by
  rw [State.readWords, ← State.readWord_poisons s c a]
  by_cases hm : (a - windowOf c) / 64 ∈ merged
  · exact ⟨s, .refl c s, by rw [if_pos hm]⟩
  · exact ⟨(s.readWord c a).2, s.readWord_portReads c a, by rw [if_neg hm]⟩
theorem State.mem_readWords (c : Nat) (merged : List Nat) (n : Nat) (s : State) (a x : Nat) :
    x ∈ (s.readWords c a merged n).1 ↔ (∃ i < n, x = a + 8 * i) ∧ markPoisons (s.mark x) = true := by
  induction n generalizing s a with
  | zero => simp [State.readWords]
  | succ n ih =>
    obtain ⟨s1, hreads, heq⟩ := s.readWords_succ c a merged n
    have hrange : (∃ i < n + 1, x = a + 8 * i) ↔ x = a ∨ ∃ i < n, x = a + 8 + 8 * i := by
      constructor
      · rintro ⟨i, hi, rfl⟩
        rcases i with _ | i
        · exact .inl rfl
        · exact .inr ⟨i, by omega, by omega⟩
      · rintro (rfl | ⟨i, hi, rfl⟩)
        · exact ⟨0, by omega, rfl⟩
        · exact ⟨i + 1, by omega, by omega⟩
    rw [heq, hrange]
    by_cases hp : markPoisons (s.mark a) = true
    · rw [if_pos hp, List.mem_cons, ih, hreads.mark]
      constructor
      · rintro (rfl | ⟨h, hx⟩)
        · exact ⟨.inl rfl, hp⟩
        · exact ⟨.inr h, hx⟩
      · rintro ⟨h, hx⟩
        exact h.imp id fun h => ⟨h, hx⟩
    · rw [if_neg hp, ih, hreads.mark]
      constructor
      · exact fun h => ⟨.inr h.1, h.2⟩
      · rintro ⟨rfl | h, hx⟩
        · exact absurd hx hp
        · exact ⟨h, hx⟩
theorem State.bytes_add (s : State) (m n a : Nat) : s.bytes a (m + n) = s.bytes a m ++ s.bytes (a + m) n := by
  induction m generalizing a with
  | zero => rw [Nat.zero_add]; rfl
  | succ m ih => rw [Nat.succ_add, State.bytes, State.bytes, ih, Nat.add_assoc a 1 m, Nat.add_comm 1 m]; rfl
/-- A number within bytes read from memory and padded. -/
theorem fieldAt_padTo_bytes (s : State) (a : Nat) {m n o k : Nat} (hok : o + k ≤ m) (hmn : m ≤ n) :
    fieldAt (padTo n (s.bytes a m)) o k = natOf (s.bytes (a + o) k) := by
  have hpad : padTo n (s.bytes a m) = s.bytes a m ++ List.replicate (n - m) 0 := by
    rw [padTo, List.take_of_length_le (by rw [State.bytes_length]; exact hmn), State.bytes_length]
  obtain ⟨r, rfl⟩ := Nat.exists_eq_add_of_le hok
  rw [fieldAt, hpad, State.bytes_add, State.bytes_add, List.append_assoc, List.append_assoc, List.drop_left' (State.bytes_length _ _ _),
    List.take_left' (State.bytes_length _ _ _)]
/-- A lane of a vector load from a line of the vault. -/
theorem State.ownRead_lane {s : State} {c off i : Nat} (h : s.wbDrained c) (hline : off % 64 = 0) (hi : i < 64) (hin : off + 4 * i < 0xA00000) :
    (loadedLanes (windowOf c + off) (s.ownRead c 11 off 256).1 (s.ownRead c 11 off 256).2.1)[i]? =
      some (if markPoisons (s.mark (windowOf c + (off + 4 * i) / 8 * 8)) then f32.poison else natOf (s.bytes (windowOf c + off + 4 * i) 4)) := by
  have hwin : windowOf c = 0x020000000000 + c * 0x1000000 := rfl
  have hsize : vaultSize = 0xA00000 := rfl
  obtain ⟨b, p, u, hread, heq⟩ := s.ownRead_inside c 11 256 (off := off) (by omega)
  obtain ⟨merged, s1, p', s2, hport, hwords, hvault⟩ := State.vaultRead_drained h 11 off (min 256 (vaultSize - off))
  rw [hread] at hvault
  obtain ⟨rfl, rfl, rfl⟩ : b = _ ∧ p = p' ∧ u = s2 := by simpa using hvault
  have hword : (windowOf c + off + 4 * i) / 8 * 8 = windowOf c + (off + 4 * i) / 8 * 8 := by omega
  have hp : p.contains ((windowOf c + off + 4 * i) / 8 * 8) = markPoisons (s.mark (windowOf c + (off + 4 * i) / 8 * 8)) := by
    have hreads := s.portRead_portReads c 11 off (min 256 (vaultSize - off))
    rw [hport] at hreads
    have hmem := State.mem_readWords c merged ((windowOf c + off + min 256 (vaultSize - off) + 7) / 8 - (windowOf c + off) / 8 * 8 / 8) s1
      ((windowOf c + off) / 8 * 8) (windowOf c + (off + 4 * i) / 8 * 8)
    rw [hwords, hreads.mark] at hmem
    have hrange : ∃ j < (windowOf c + off + min 256 (vaultSize - off) + 7) / 8 - (windowOf c + off) / 8 * 8 / 8,
        windowOf c + (off + 4 * i) / 8 * 8 = (windowOf c + off) / 8 * 8 + 8 * j := ⟨i / 2, by omega, by omega⟩
    rw [hword, Bool.eq_iff_iff, List.contains_iff_mem]
    exact hmem.trans ⟨fun hx => hx.2, fun hx => ⟨hrange, hx⟩⟩
  rw [heq, loadedLanes, List.getElem?_map, List.getElem?_range hi]
  simp only [Option.map_some, hp, fieldAt_padTo_bytes s (windowOf c + off) (show 4 * i + 4 ≤ min 256 (vaultSize - off) by omega) (Nat.min_le_left _ _)]
end Sys2Proof.Machine
end
section
/-! What an instruction leaves alone while it puts writes on their way (R98, R133), and the vector slot's vault accesses (R49, R134, R156, R162). -/
namespace Sys2Proof.Machine

theorem mem_landInto (first : Bool) (x y : Landing) (l : List Landing) : y ∈ landInto first x l ↔ y = x ∨ y ∈ l := by
  induction l with
  | nil => simp [landInto]
  | cons z r ih =>
    unfold landInto
    split
    · rw [List.mem_cons, ih, List.mem_cons]; tauto
    · split
      · split
        · exact List.mem_cons
        · rw [List.mem_cons, ih, List.mem_cons]; tauto
      · exact List.mem_cons

/-- Memory and the scalar registers stay, nothing on its way is lost, and the accesses that wait at the vault stay as they are. -/
structure Keeps (c : Nat) (s u : State) : Prop where
  mem : u.mem = s.mem
  sreg : ∀ r, u.sreg c r = s.sreg c r
  landing : ∀ x ∈ (s.core c).landing, x ∈ (u.core c).landing
  waiting : (u.core c).waiting = (s.core c).waiting

theorem Keeps.refl (c : Nat) (s : State) : Keeps c s s := ⟨rfl, fun _ => rfl, fun _ => id, rfl⟩
theorem Keeps.trans {c : Nat} {s u v : State} (h : Keeps c s u) (k : Keeps c u v) : Keeps c s v :=
  ⟨k.mem.trans h.mem, fun r => (k.sreg r).trans (h.sreg r), fun x hx => k.landing x (h.landing x hx), k.waiting.trans h.waiting⟩
/-- No scalar register is among those that a port's reading writes. -/
theorem coreS_notMem_portRegs (c r : Nat) : Reg.coreS c r ∉ portRegs c := by
  unfold portRegs Reg.coreS Reg.onxLogStatus Reg.coreVaultEcc Reg.coreFault Reg.corePmc
  simp only [List.mem_cons, List.mem_map, List.mem_range, not_or, not_exists, not_and]
  exact ⟨by omega, by omega, by omega, fun i hi => by omega⟩
theorem PortReads.keeps {c : Nat} {s u : State} (h : PortReads c s u) : Keeps c s u := by
  obtain ⟨q, w, hcore⟩ := h.core
  refine ⟨h.mem, fun r => ?_, fun x hx => by rw [hcore]; exact hx, by rw [hcore]⟩
  unfold State.sreg
  rw [h.rd _ (coreS_notMem_portRegs c r)]
theorem Counts.keeps {c : Nat} {s u : State} (h : Counts s u c) : Keeps c s u := h.portReads.keeps
/-- Changing the core's record but for what is on its way and what waits. -/
theorem State.modCore_keeps (s : State) (c : Nat) (f : Core → Core) (hl : (f (s.core c)).landing = (s.core c).landing)
    (hw : (f (s.core c)).waiting = (s.core c).waiting) : Keeps c s (s.modCore c f) := by
  have hcore : (s.modCore c f).core c = f (s.core c) := State.core_setCore _ _ _
  exact ⟨rfl, fun _ => rfl, fun x hx => by rw [hcore, hl]; exact hx, by rw [hcore, hw]⟩
theorem State.reportTime_keeps (s : State) (c due : Nat) : Keeps c s (s.reportTime c due) := s.modCore_keeps c _ rfl rfl
theorem Sends.landing {s u : State} {c due pri : Nat} {e : Eff} (h : Sends s u c due pri e) (x : Landing) :
    x ∈ (u.core c).landing ↔ x = ⟨due, pri, e⟩ ∨ x ∈ (s.core c).landing := by
  obtain ⟨n, first, h⟩ := h
  rw [h.core, State.core_setCore]
  exact mem_landInto _ _ _ _
theorem Sends.lands {s u : State} {c due pri : Nat} {e : Eff} (h : Sends s u c due pri e) : ⟨due, pri, e⟩ ∈ (u.core c).landing :=
  (h.landing _).2 (.inl rfl)
theorem Sends.keeps {s u : State} {c due pri : Nat} {e : Eff} (h : Sends s u c due pri e) : Keeps c s u := by
  have hlanding := h.landing
  obtain ⟨n, first, h⟩ := h
  have hcount := h.keeps
  refine ⟨hcount.mem, hcount.sreg, fun x hx => (hlanding x).2 (.inr hx), hcount.waiting.trans ?_⟩
  rw [State.core_setCore]
theorem State.send_keeps (s : State) (c due pri : Nat) (e : Eff) : Keeps c s (s.send c due pri e) := (s.send_sends c due pri e).keeps
theorem State.sendReport_keeps (s : State) (c due : Nat) (i : Incl) : Keeps c s (s.sendReport c due i) :=
  (s.modCore_keeps c _ rfl rfl).trans (State.send_keeps _ _ _ _ _)
theorem State.sendReport_lands (s : State) (c due : Nat) (i : Incl) : ∃ gen, ⟨due, 8, .report gen i⟩ ∈ ((s.sendReport c due i).core c).landing :=
  ⟨_, (State.send_sends _ _ _ _ _).lands⟩
/-- A post-increment of a register that still holds what it held at the issue. -/
theorem State.advance_sends {s v : State} {c r : Nat} (h : v.sreg c r = s.sreg c r) (due : Nat) (f : Fld) (n : Nat) :
    Sends v (v.advance c due r f n) c due 1 (.setS r (addField (s.sreg c r) f n)) := by
  unfold State.advance
  rw [h]
  exact v.send_sends _ _ _ _

/-! VLD and VST. -/

theorem ownPart_eq_take (off : Nat) (b : List Byte) : ownPart off b = b.take (0xA00000 - off) := by
  unfold ownPart
  split
  · rfl
  · next h =>
    have hzero : 0xA00000 - off = 0 := Nat.sub_eq_zero_of_le (Nat.le_of_not_lt h)
    rw [hzero, List.take_zero]
/-- The lanes that a vector load at an own-vault offset reads. -/
def State.vldLanes (s : State) (c off : Nat) : List Nat :=
  loadedLanes (windowOf c + off) (s.ownRead c 11 off 256).1 (s.ownRead c 11 off 256).2.1
theorem State.vldLanes_length (s : State) (c off : Nat) : (s.vldLanes c off).length = 64 := by simp [State.vldLanes, loadedLanes]
theorem State.vldRead_sends (s : State) (c v off cyc : Nat) :
    Sends (s.ownRead c 11 off 256).2.2 (s.vldRead c v off cyc) c (cyc + 7) 1 (.setV v (s.vldLanes c off)) := by
  unfold State.vldRead State.vldLanes
  obtain ⟨⟨b, p, u⟩, hread⟩ : ∃ r, s.ownRead c 11 off 256 = r := ⟨_, rfl⟩
  rw [hread]
  exact u.send_sends _ _ _ _
/-- A vector load at the vault's port: it waits where the port is frozen, and reads elsewhere (R162, R192). -/
def State.vldAccess (s : State) (c v off cyc : Nat) : State :=
  if s.frozen c && decide (off < vaultSize) then s.modCore c fun k => { k with waiting := k.waiting ++ [.vld v off] } else s.vldRead c v off cyc
theorem State.vldAccess_waits {s : State} {c off : Nat} (hf : s.frozen c = true) (hoff : off < 0xA00000) (v cyc : Nat) :
    s.vldAccess c v off cyc = s.modCore c fun k => { k with waiting := k.waiting ++ [.vld v off] } :=
  if_pos (by rw [hf]; exact decide_eq_true hoff)
theorem State.vldAccess_reads {s : State} {c off : Nat} (h : s.frozen c = false ∨ 0xA00000 ≤ off) (v cyc : Nat) :
    s.vldAccess c v off cyc = s.vldRead c v off cyc := by
  refine if_neg fun hwait => ?_
  obtain ⟨hf, hoff⟩ := Bool.and_eq_true_iff.1 hwait
  rcases h with h | h
  · rw [h] at hf; cases hf
  · exact absurd (of_decide_eq_true hoff) (Nat.not_lt.2 h)
theorem exec_vld {t : At} {g : Gate} {s : State} (d : BitVec 6) (a : BitVec 5) (imm : BitVec 11) (h : Enabled t g s) :
    exec (.vld t g d a imm) s = .next ((((s.toCore t g.core).vldAccess g.core d.toNat (lineOffset ((s.toCore t g.core).sreg g.core a.toNat) imm)
      t.cyc).pmcCore g.core 0x004 1).ran g.core) :=
  whenOn_next (fun s => (s.vldAccess g.core d.toNat (lineOffset (s.sreg g.core a.toNat) imm) t.cyc).pmcCore g.core 0x004 1) h
theorem exec_vst {t : At} {g : Gate} {s : State} (d : BitVec 6) (a : BitVec 5) (imm : BitVec 11) (h : Enabled t g s) :
    exec (.vst t g d a imm) s = .next ((((s.toCore t g.core).send g.core (t.cyc + 4) ((s.toCore t g.core).portPri g.core 11)
      (.vault (lineOffset ((s.toCore t g.core).sreg g.core a.toNat) imm) (ownPart (lineOffset ((s.toCore t g.core).sreg g.core a.toNat) imm)
        (((s.toCore t g.core).vreg g.core d.toNat).map fun l => bytesOf l 4).flatten) [])).pmcCore g.core 0x004 1).ran g.core) :=
  whenOn_next (fun s => (s.send g.core (t.cyc + 4) (s.portPri g.core 11) (.vault (lineOffset (s.sreg g.core a.toNat) imm)
    (ownPart (lineOffset (s.sreg g.core a.toNat) imm) ((s.vreg g.core d.toNat).map fun l => bytesOf l 4).flatten) [])).pmcCore g.core 0x004 1) h
/-- VLD (R49, R134, R156, R162, R192). -/
theorem vld_next (t : At) (g : Gate) (d : BitVec 6) (a : BitVec 5) (imm : BitVec 11) (s s1 : State) (off : Nat) (h : Enabled t g s)
    (h1 : s1 = s.toCore t g.core) (hoff : off = lineOffset (s1.sreg g.core a.toNat) imm) :
    ∃ u lanes, exec (.vld t g d a imm) s = .next u ∧ lanes.length = 64 ∧ SameBytes s1 u ∧
      (s1.frozen g.core = false ∨ 0xA00000 ≤ off → Sends (s1.ownRead g.core 11 off 256).2.2 u g.core (t.cyc + 7) 1 (.setV d.toNat lanes)) ∧
      (s1.frozen g.core = true → off < 0xA00000 →
        OwnCore s1 u g.core [] ∧ u.core g.core = { s1.core g.core with waiting := (s1.core g.core).waiting ++ [.vld d.toNat off] }) ∧
      ∀ i, i < 64 → off + 4 * i < 0xA00000 →
        (s1.mark (windowOf g.core + (off + 4 * i) / 8 * 8) = .good ∨ s1.mark (windowOf g.core + (off + 4 * i) / 8 * 8) = .ce →
          lanes[i]? = some (natOf (s1.bytes (windowOf g.core + off + 4 * i) 4))) ∧
        (s1.mark (windowOf g.core + (off + 4 * i) / 8 * 8) = .ue ∨ s1.mark (windowOf g.core + (off + 4 * i) / 8 * 8) = .poison ∨
          s1.mark (windowOf g.core + (off + 4 * i) / 8 * 8) = .cePoison → lanes[i]? = some 0x7FFFFFFF) := by
  have hdrained : s1.wbDrained g.core := by rw [h1]; exact s.toCore_drained t g.core
  have hline : off % 64 = 0 := by rw [hoff]; exact Nat.mul_mod_left _ _
  have hexec := exec_vld d a imm h
  rw [← h1, ← hoff] at hexec
  generalize hv : s1.vldAccess g.core d.toNat off t.cyc = v at hexec
  have hcounts : Counts v ((v.pmcCore g.core 0x004 1).ran g.core) g.core := (v.pmcCore_counts _ _ _).trans (State.ran_counts _ _)
  have hsends : s1.frozen g.core = false ∨ 0xA00000 ≤ off → Sends (s1.ownRead g.core 11 off 256).2.2 v g.core (t.cyc + 7) 1
      (.setV d.toNat (s1.vldLanes g.core off)) := fun hfree => by
    rw [← hv, State.vldAccess_reads hfree]
    exact s1.vldRead_sends _ _ _ _
  have hwaits : s1.frozen g.core = true → off < 0xA00000 →
      v = s1.modCore g.core fun k => { k with waiting := k.waiting ++ [.vld d.toNat off] } := fun hf hin => by rw [← hv, State.vldAccess_waits hf hin]
  refine ⟨_, s1.vldLanes g.core off, hexec, State.vldLanes_length _ _ _, .of_mem (hcounts.mem.trans ?_), fun hfree => (hsends hfree).count hcounts,
    fun hf hin => ⟨?_, ?_⟩, fun i hi hin => ?_⟩
  · by_cases hwait : s1.frozen g.core = true ∧ off < 0xA00000
    · rw [hwaits hwait.1 hwait.2]; rfl
    · have hfree : s1.frozen g.core = false ∨ 0xA00000 ≤ off := by
        rw [not_and_or, Bool.not_eq_true, Nat.not_lt] at hwait
        exact hwait
      exact (hsends hfree).keeps.mem.trans (State.ownRead_portReads hdrained _ _ _).mem
  · rw [hwaits hf hin] at hcounts ⊢
    exact ((OwnCore.refl _ _ _).modCore _).count hcounts
  · rw [hcounts.core, hwaits hf hin]
    exact State.core_setCore _ _ _
  · have hlane : (s1.vldLanes g.core off)[i]? = _ := State.ownRead_lane hdrained hline hi hin
    rw [hlane]
    constructor
    · rintro (hm | hm) <;> rw [hm] <;> rfl
    · rintro (hm | hm | hm) <;> rw [hm] <;> rfl
/-- VST (R134, R156, R162). -/
theorem vst_gives (t : At) (g : Gate) (d : BitVec 6) (a : BitVec 5) (imm : BitVec 11) (s s1 : State) (off : Nat) (h : Enabled t g s)
    (h1 : s1 = s.toCore t g.core) (hoff : off = lineOffset (s1.sreg g.core a.toNat) imm) :
    Gives t g s (.vst t g d a imm) 4 (s1.portPri g.core 11)
      (fun s => .vault off ((((s.vreg g.core d.toNat).map fun l => bytesOf l 4).flatten).take (0xA00000 - off)) []) := by
  have hexec := exec_vst d a imm h
  rw [← h1, ← hoff, ownPart_eq_take] at hexec
  subst h1
  exact ⟨_, hexec, ((State.send_sends _ _ _ _ _).count (State.pmcCore_counts _ _ _ _)).count (State.ran_counts _ _)⟩
end Sys2Proof.Machine
end
section
/-! The dequantizing load (R38, R49, R65, R163, R192). -/
namespace Sys2Proof.Machine

/-- The lanes that a dequantizing load makes of four blocks of the own vault. -/
def State.vdqLanes (s : State) (c : Nat) (f : Elem) (tscale data scale : Nat) : List Nat :=
  ((s.vaultBlocks c f data scale 4).1.map fun b => dequantize f tscale b).flatten
theorem State.vdqRead_eq (s : State) (c v tscale data scale cyc : Nat) {fmt : Nat} {f : Elem} (hf : Elem.ofCode fmt = some f) :
    ∃ i, s.vdqRead c v fmt tscale data scale cyc =
      ((s.vaultBlocks c f data scale 4).2.send c (cyc + 9) 1 (.setV v (s.vdqLanes c f tscale data scale))).sendReport c (cyc + 9) i := by
  obtain ⟨⟨bs, u⟩, hread⟩ : ∃ r, s.vaultBlocks c f data scale 4 = r := ⟨_, rfl⟩
  unfold State.vdqRead State.vdqLanes
  rw [hf]
  dsimp only
  rw [hread]
  exact ⟨_, rfl⟩
/-- A dequantizing load at the vault's port: where the port is frozen it waits and is taken to report at its latency (R163, R192). -/
def State.vdqAccess (s : State) (c v : Nat) (d : Tensor) (cyc : Nat) : State :=
  if s.frozen c then
    (s.modCore c fun k => { k with waiting := k.waiting ++ [.vdq v d.fmt d.tscale (d.data % 2 ^ 24) (d.scale % 2 ^ 24)] }).reportTime c (cyc + 9)
  else s.vdqRead c v d.fmt d.tscale (d.data % 2 ^ 24) (d.scale % 2 ^ 24) cyc
/-- The post-increment of a dequantizing load's descriptor (R163). -/
def State.vdqAdvance (s : State) (c cyc k : Nat) (f : Elem) (p : Bool) : State :=
  if p then (s.advance c (cyc + 1) (4 * k) baseField (4 * f.blockSize)).advance c (cyc + 1) (4 * k + 1) baseField 4 else s

theorem exec_vdq (t : At) (g : Gate) (vd : BitVec 6) (k : BitVec 3) (p : Bool) (s : State) : exec (.vdq t g vd k p) s = execVdq t g vd k p s := rfl
theorem exec_vdq_reserved {t : At} {g : Gate} {s : State} (vd : BitVec 6) (p : Bool) (h : Enabled t g s) :
    exec (.vdq t g vd 0 p) s = .next (s.toCore t g.core) := by
  rw [exec_vdq, execVdq, onSlot_next _ h.1]
  rfl
/-- A tensor that is not narrow loads nothing (R163): the instruction is only taken to report at its latency. -/
theorem exec_vdq_wide {t : At} {g : Gate} {s : State} (vd : BitVec 6) {k : BitVec 3} (p : Bool) (h : Enabled t g s) (hk : k ≠ 0)
    (hwide : ∀ x, Elem.ofCode ((s.toCore t g.core).tensor g.core k.toNat).fmt = some x → x.narrow = false) :
    exec (.vdq t g vd k p) s = .next ((s.toCore t g.core).reportTime g.core (t.cyc + 9)) := by
  rw [exec_vdq, execVdq, onSlot_next _ h.1]
  refine congrArg Host.Outcome.next ?_
  dsimp only
  rw [h.2, if_neg hk]
  cases hf : Elem.ofCode ((s.toCore t g.core).tensor g.core k.toNat).fmt with
  | none => rfl
  | some x =>
    dsimp only
    rw [hwide x hf]
    rfl
theorem exec_vdq_narrow {t : At} {g : Gate} {s : State} (vd : BitVec 6) {k : BitVec 3} (p : Bool) (h : Enabled t g s) (hk : k ≠ 0) {f : Elem}
    (hf : Elem.ofCode ((s.toCore t g.core).tensor g.core k.toNat).fmt = some f) (hn : f.narrow = true) :
    exec (.vdq t g vd k p) s = .next ((((((s.toCore t g.core).vdqAccess g.core vd.toNat ((s.toCore t g.core).tensor g.core k.toNat) t.cyc).vdqAdvance
      g.core t.cyc k.toNat f p)).pmcCore g.core 0x004 1).ran g.core) := by
  rw [exec_vdq, execVdq, onSlot_next _ h.1]
  refine congrArg Host.Outcome.next ?_
  dsimp only
  rw [h.2, if_neg hk, hf]
  dsimp only
  rw [hn]
  rfl

theorem State.vdqAccess_frozen {s : State} {c : Nat} (hf : s.frozen c = true) (v : Nat) (d : Tensor) (cyc : Nat) :
    (s.vdqAccess c v d cyc).mem = s.mem ∧
      ((s.vdqAccess c v d cyc).core c).waiting = (s.core c).waiting ++ [.vdq v d.fmt d.tscale (d.data % 2 ^ 24) (d.scale % 2 ^ 24)] ∧
      ∀ r, (s.vdqAccess c v d cyc).sreg c r = s.sreg c r := by
  have heq : s.vdqAccess c v d cyc = _ := if_pos hf
  have hreport := State.reportTime_keeps
    (s.modCore c fun k => { k with waiting := k.waiting ++ [.vdq v d.fmt d.tscale (d.data % 2 ^ 24) (d.scale % 2 ^ 24)] }) c (cyc + 9)
  rw [heq]
  refine ⟨hreport.mem, hreport.waiting.trans ?_, hreport.sreg⟩
  exact congrArg Core.waiting (State.core_setCore s c _)
theorem State.vdqAccess_reads {s : State} {c : Nat} (hd : s.wbDrained c) (hz : s.frozen c = false) (v : Nat) {d : Tensor} (cyc : Nat) {f : Elem}
    (hf : Elem.ofCode d.fmt = some f) : Keeps c s (s.vdqAccess c v d cyc) ∧
      ⟨cyc + 9, 1, .setV v (s.vdqLanes c f d.tscale (d.data % 2 ^ 24) (d.scale % 2 ^ 24))⟩ ∈ ((s.vdqAccess c v d cyc).core c).landing := by
  have heq : s.vdqAccess c v d cyc = _ := if_neg (by rw [hz]; exact Bool.false_ne_true)
  obtain ⟨i, hread⟩ := s.vdqRead_eq c v d.tscale (d.data % 2 ^ 24) (d.scale % 2 ^ 24) cyc hf
  have hblocks := (State.vaultBlocks_portReads c f 4 hd (d.data % 2 ^ 24) (d.scale % 2 ^ 24)).keeps
  rw [heq, hread]
  generalize (s.vaultBlocks c f (d.data % 2 ^ 24) (d.scale % 2 ^ 24) 4).2 = u at hblocks ⊢
  have hsend := u.send_sends c (cyc + 9) 1 (.setV v (s.vdqLanes c f d.tscale (d.data % 2 ^ 24) (d.scale % 2 ^ 24)))
  have hreport := State.sendReport_keeps (u.send c (cyc + 9) 1 (.setV v (s.vdqLanes c f d.tscale (d.data % 2 ^ 24) (d.scale % 2 ^ 24)))) c (cyc + 9) i
  exact ⟨(hblocks.trans hsend.keeps).trans hreport, hreport.landing _ hsend.lands⟩
theorem State.vdqAdvance_keeps (s : State) (c cyc k : Nat) (f : Elem) (p : Bool) : Keeps c s (s.vdqAdvance c cyc k f p) := by
  unfold State.vdqAdvance
  split
  · exact (State.advance_sends rfl _ _ _).keeps.trans (State.advance_sends rfl _ _ _).keeps
  · exact .refl c s
/-- Both bases advance from what the descriptor held at the issue. -/
theorem State.vdqAdvance_lands {s v : State} {c : Nat} (h : ∀ r, v.sreg c r = s.sreg c r) (cyc k : Nat) (f : Elem) :
    ⟨cyc + 1, 1, .setS (4 * k) (addField (s.sreg c (4 * k)) ⟨50, 0⟩ (4 * f.blockSize))⟩ ∈ ((v.vdqAdvance c cyc k f true).core c).landing ∧
      ⟨cyc + 1, 1, .setS (4 * k + 1) (addField (s.sreg c (4 * k + 1)) ⟨50, 0⟩ 4)⟩ ∈ ((v.vdqAdvance c cyc k f true).core c).landing := by
  have hdata := State.advance_sends (h (4 * k)) (cyc + 1) baseField (4 * f.blockSize)
  have hscale := State.advance_sends ((hdata.keeps.sreg (4 * k + 1)).trans (h (4 * k + 1))) (cyc + 1) baseField 4
  exact ⟨hscale.keeps.landing _ hdata.lands, hscale.lands⟩

/-- VDQ of a narrow tensor (R38, R65, R163, R192). -/
theorem vdq_next (t : At) (g : Gate) (vd : BitVec 6) (k : BitVec 3) (p : Bool) (s s1 : State) (f : Elem) (h : Enabled t g s)
    (h1 : s1 = s.toCore t g.core) (hk : k ≠ 0) (hf : Elem.ofCode (s1.tensor g.core k.toNat).fmt = some f) (hn : f.narrow = true) :
    ∃ u, exec (.vdq t g vd k p) s = .next u ∧ SameBytes s1 u ∧
      (s1.frozen g.core = true → (u.core g.core).waiting = (s1.core g.core).waiting ++ [.vdq vd.toNat (s1.tensor g.core k.toNat).fmt
        (s1.tensor g.core k.toNat).tscale ((s1.tensor g.core k.toNat).data % 2 ^ 24) ((s1.tensor g.core k.toNat).scale % 2 ^ 24)]) ∧
      (s1.frozen g.core = false → ⟨t.cyc + 9, 1, .setV vd.toNat (((s1.vaultBlocks g.core f ((s1.tensor g.core k.toNat).data % 2 ^ 24)
        ((s1.tensor g.core k.toNat).scale % 2 ^ 24) 4).1.map fun b => dequantize f (s1.tensor g.core k.toNat).tscale b).flatten)⟩ ∈
          (u.core g.core).landing) ∧
      (p = true → ⟨t.cyc + 1, 1, .setS (4 * k.toNat) (addField (s1.sreg g.core (4 * k.toNat)) ⟨50, 0⟩ (4 * f.blockSize))⟩ ∈ (u.core g.core).landing ∧
        ⟨t.cyc + 1, 1, .setS (4 * k.toNat + 1) (addField (s1.sreg g.core (4 * k.toNat + 1)) ⟨50, 0⟩ 4)⟩ ∈ (u.core g.core).landing) := by
  have hdrained : s1.wbDrained g.core := by rw [h1]; exact s.toCore_drained t g.core
  rw [h1] at hf
  have hexec := exec_vdq_narrow vd p h hk hf hn
  rw [← h1] at hexec hf
  generalize s1.tensor g.core k.toNat = d at hexec hf ⊢
  generalize hv : s1.vdqAccess g.core vd.toNat d t.cyc = v at hexec
  have hrest : Keeps g.core (v.vdqAdvance g.core t.cyc k.toNat f p) _ :=
    ((State.pmcCore_counts _ g.core 0x004 1).trans (State.ran_counts _ _)).keeps
  have hafter := (v.vdqAdvance_keeps g.core t.cyc k.toNat f p).trans hrest
  have haccess : v.mem = s1.mem ∧ ∀ r, v.sreg g.core r = s1.sreg g.core r := by
    rw [← hv]
    cases hz : s1.frozen g.core with
    | true =>
      obtain ⟨hmem, -, hsreg⟩ := State.vdqAccess_frozen hz vd.toNat d t.cyc
      exact ⟨hmem, hsreg⟩
    | false =>
      obtain ⟨hkeeps, -⟩ := State.vdqAccess_reads hdrained hz vd.toNat t.cyc hf
      exact ⟨hkeeps.mem, hkeeps.sreg⟩
  refine ⟨_, hexec, .of_mem (hafter.mem.trans haccess.1), fun hz => hafter.waiting.trans ?_, fun hz => hafter.landing _ ?_, ?_⟩
  · obtain ⟨-, hwaiting, -⟩ := State.vdqAccess_frozen hz vd.toNat d t.cyc
    rw [← hv]
    exact hwaiting
  · obtain ⟨-, hlands⟩ := State.vdqAccess_reads hdrained hz vd.toNat t.cyc hf
    rw [← hv]
    exact hlands
  · rintro rfl
    obtain ⟨hdata, hscale⟩ := State.vdqAdvance_lands haccess.2 t.cyc k.toNat f
    exact ⟨hrest.landing _ hdata, hrest.landing _ hscale⟩
end Sys2Proof.Machine
end
section
/-! The quantizer's blocks and their lengths (R47, R57, R75). -/
namespace Sys2Proof.Machine

theorem quantize_codes_length (f : Elem) (rnd : Option (List Nat)) (ys : List Nat) : (quantize f rnd ys).codes.length = 16 := by
  unfold quantize
  dsimp only
  split
  · exact List.length_replicate
  · split
    · exact List.length_replicate
    · rw [List.length_map, List.length_map, List.length_range]
theorem quantizeBlock_resid_length (f : Elem) (q : Nat) (rnd : Option (List Nat)) {xs rs : List Nat} (hx : xs.length = 16) (hr : rs.length = 16) :
    (quantizeBlock f q rnd xs (some rs)).resid.length = 16 := by
  unfold quantizeBlock
  dsimp only
  split
  · exact List.length_replicate
  · simp [lanes2, quantize_codes_length, hx, hr]
theorem quantizeBlocks_length (f : Elem) (q : Nat) (drawAt : Option (Nat → Nat)) (n ix : Nat) (xs : List Nat) (rs : List (List Nat)) :
    (quantizeBlocks f q drawAt n ix xs rs).length = n := by
  induction n generalizing ix xs rs with
  | zero => rfl
  | succ n ih => exact congrArg Nat.succ (ih _ _ _)
/-- The data bytes of n blocks. -/
theorem quantizeBlocks_bytes_length (f : Elem) (q : Nat) (drawAt : Option (Nat → Nat)) (n ix : Nat) (xs : List Nat) (rs : List (List Nat)) :
    (((quantizeBlocks f q drawAt n ix xs rs).map (·.bytes)).flatten).length = n * f.blockSize := by
  induction n generalizing ix xs rs with
  | zero => rw [Nat.zero_mul]; rfl
  | succ n ih =>
    rw [quantizeBlocks, List.map_cons, List.flatten_cons, List.length_append, ih, Nat.succ_mul, Nat.add_comm]
    exact congrArg (n * f.blockSize + ·) (bytesOf_length _ _)
theorem residBytes_length (l : List Nat) : (l.map fun r => bytesOf r 2).flatten.length = 2 * l.length := by
  induction l with
  | nil => rfl
  | cons x l ih => rw [List.map_cons, List.flatten_cons, List.length_append, ih, bytesOf_length, List.length_cons]; omega
/-- The residual bytes of n blocks under error feedback. -/
theorem quantizeBlocks_resid_length (f : Elem) (q : Nat) (drawAt : Option (Nat → Nat)) (n ix : Nat) (xs : List Nat) (rs : List (List Nat))
    (hx : 16 * n ≤ xs.length) (hn : rs.length = n) (hr : ∀ r ∈ rs, r.length = 16) :
    (((quantizeBlocks f q drawAt n ix xs rs).map fun b => (b.resid.map fun r => bytesOf r 2).flatten).flatten).length = 32 * n := by
  induction n generalizing ix xs rs with
  | zero => rfl
  | succ n ih =>
    obtain _ | ⟨r, rs⟩ := rs
    · cases hn
    · have hrest := ih (ix + 16) (xs.drop 16) rs (by rw [List.length_drop]; omega) (Nat.succ.inj hn) fun x hx => hr x (List.mem_cons_of_mem _ hx)
      have hblock := quantizeBlock_resid_length f q (drawAt.map fun d => (List.range 16).map fun j => d ((ix + j) % 2 ^ 48))
        (show (xs.take 16).length = 16 by rw [List.length_take]; omega) (hr r List.mem_cons_self)
      rw [quantizeBlocks, List.map_cons, List.flatten_cons, List.length_append, List.tail_cons, hrest, residBytes_length, List.head?_cons, hblock]
      omega
theorem State.residuals_lengths (c n : Nat) (s : State) (off : Nat) :
    (s.residuals c off n).1.length = n ∧ ∀ r ∈ (s.residuals c off n).1, r.length = 16 := by
  induction n generalizing s off with
  | zero => exact ⟨rfl, fun r hr => absurd hr List.not_mem_nil⟩
  | succ n ih =>
    obtain ⟨⟨b, p, u⟩, hread⟩ : ∃ r, s.ownRead c 11 (off % 2 ^ 24) 32 = r := ⟨_, rfl⟩
    obtain ⟨hlen, hall⟩ := ih u (off + 32)
    rw [State.residuals, hread]
    refine ⟨congrArg Nat.succ hlen, fun r hr => ?_⟩
    rcases List.mem_cons.1 hr with rfl | hr
    · rw [List.length_map, List.length_range]
    · exact hall r hr
theorem State.row_length (s : State) (n a : Nat) : (s.row a n).length = 2 * n := by
  induction n generalizing a with
  | zero => rfl
  | succ n ih => rw [State.row, List.length_cons, List.length_cons, ih]; omega
theorem halves_length (l : List Nat) : (halves l).length = 2 * l.length := by
  induction l with
  | nil => rfl
  | cons x l ih =>
    have hcons : (halves (x :: l)).length = (halves l).length + 1 + 1 := rfl
    rw [hcons, ih, List.length_cons]
    omega
/-- A quantizer's inputs: the 64 lanes, or the 128 halves, of a vector register. -/
theorem State.quantInputs_length (s : State) (c v : Nat) (h : Bool) :
    (if h then (halves (s.vreg c v)).map b16ToF32 else s.vreg c v).length = 16 * if h then 8 else 4 := by
  cases h
  · exact s.row_length 32 _
  · show ((halves (s.vreg c v)).map b16ToF32).length = 128
    rw [List.length_map, halves_length]
    exact congrArg (2 * ·) (s.row_length 32 _)

/-! Writes of a VQ to its destination (R164). -/

theorem State.quantTo_keeps (s : State) (c due dst off : Nat) (scale : Bool) (b : List Byte) : Keeps c s (s.quantTo c due dst off scale b) := by
  unfold State.quantTo
  dsimp only
  split
  · split
    · exact .refl c s
    · exact s.send_keeps _ _ _ _
  · generalize (if scale = true then storePart (scaleSize dst) off b else storePart (dataSize dst) off b) = part
    split
    · exact .refl c s
    · exact s.send_keeps _ _ _ _
theorem State.quantTo_vault (s : State) (c due off : Nat) (scale : Bool) {b : List Byte} (hb : 0 < b.length) (hfit : off % 2 ^ 24 + b.length ≤ 0xA00000) :
    ∃ pri, ⟨due, pri, .vault (off % 2 ^ 24) b []⟩ ∈ ((s.quantTo c due 0 off scale b).core c).landing := by
  have hpart : ownPart (off % 2 ^ 24) b = b := by rw [ownPart_eq_take, List.take_of_length_le (by omega)]
  unfold State.quantTo
  dsimp only
  rw [if_pos rfl, hpart, if_neg (List.ne_nil_of_length_pos hb)]
  exact ⟨_, (s.send_sends _ _ _ _).lands⟩
theorem storePart_fits {size off : Nat} {b : List Byte} (hb : 0 < b.length) (hfit : off + b.length ≤ size) : storePart size off b = b := by
  rw [storePart, if_pos (by omega), List.take_of_length_le (by omega)]
theorem State.quantTo_data (s : State) (c due off : Nat) {dst : Nat} (hdst : dst ≠ 0) {b : List Byte} (hb : 0 < b.length)
    (hfit : off + b.length ≤ dataSize dst) : ⟨due, 1, .buffer dst off b []⟩ ∈ ((s.quantTo c due dst off false b).core c).landing := by
  have hpart : (if false = true then storePart (scaleSize dst) off b else storePart (dataSize dst) off b) = b := storePart_fits hb hfit
  unfold State.quantTo
  dsimp only
  rw [if_neg hdst, hpart, if_neg (List.ne_nil_of_length_pos hb)]
  exact (s.send_sends _ _ _ _).lands
theorem State.quantTo_scale (s : State) (c due off : Nat) {dst : Nat} (hdst : dst ≠ 0) {b : List Byte} (hb : 0 < b.length)
    (hfit : off + b.length ≤ scaleSize dst) :
    ⟨due, 1, .buffer dst (dataSize dst + off) b []⟩ ∈ ((s.quantTo c due dst off true b).core c).landing := by
  have hpart : (if true = true then storePart (scaleSize dst) off b else storePart (dataSize dst) off b) = b := storePart_fits hb hfit
  unfold State.quantTo
  dsimp only
  rw [if_neg hdst, hpart, if_neg (List.ne_nil_of_length_pos hb)]
  exact (s.send_sends _ _ _ _).lands

/-! A quantize with its operands (R57 to R64, R75, R164). -/

/-- The residuals that a quantize adds, and the state after their read. -/
def State.quantResiduals (s : State) (c : Nat) (q : Quant) : List (List Nat) × State := if q.ef then s.residuals c q.base q.blocks else ([], s)
/-- The blocks that a quantize makes of its operands and the residuals. -/
def State.quantOuts (s : State) (c : Nat) (q : Quant) (f : Elem) : List BlockOut :=
  quantizeBlocks f q.q (q.draw.map fun d => draw d.1 d.2.1 d.2.2) q.blocks q.index q.vs (s.quantResiduals c q).1
/-- The cycles from a quantize's port access to its writes and its report (R164). -/
def quantLatency (q : Quant) : Nat := if q.ef then 17 else 10
/-- A quantize puts its data and its scales on their way. -/
def State.quantWrites (s : State) (c due : Nat) (q : Quant) (os : List BlockOut) : State :=
  (s.quantTo c due q.dst q.data false ((os.map (·.bytes)).flatten)).quantTo c due q.dst q.scale true (os.map fun b => BitVec.ofNat 8 b.k8)
/-- Under error feedback a quantize puts its new residuals on their way. -/
def State.quantFeedback (s : State) (c due : Nat) (q : Quant) (os : List BlockOut) : State :=
  if q.ef then s.quantTo c due 0 q.base false ((os.map fun b => (b.resid.map fun r => bytesOf r 2).flatten).flatten) else s

theorem State.quantRun_eq (s : State) (c cyc : Nat) (q : Quant) {f : Elem} (hf : Elem.ofCode q.fmt = some f) :
    s.quantRun c cyc q = (((s.quantResiduals c q).2.quantWrites c (cyc + quantLatency q) q (s.quantOuts c q f)).quantFeedback c (cyc + quantLatency q) q
      (s.quantOuts c q f)).sendReport c (cyc + quantLatency q) (inclSum (s.quantOuts c q f)) := by
  obtain ⟨⟨rs, u⟩, hread⟩ : ∃ r, s.quantResiduals c q = r := ⟨_, rfl⟩
  unfold State.quantRun State.quantOuts
  rw [hf, hread]
  dsimp only
  rw [State.quantResiduals] at hread
  rw [hread]
  rfl
theorem State.quantResiduals_keeps {s : State} {c : Nat} (hd : s.wbDrained c) (q : Quant) : Keeps c s (s.quantResiduals c q).2 := by
  unfold State.quantResiduals
  split
  · exact (State.residuals_portReads c q.blocks hd q.base).keeps
  · exact .refl c s
theorem State.quantWrites_keeps (s : State) (c due : Nat) (q : Quant) (os : List BlockOut) : Keeps c s (s.quantWrites c due q os) :=
  (s.quantTo_keeps _ _ _ _ _ _).trans (State.quantTo_keeps _ _ _ _ _ _ _)
theorem State.quantFeedback_keeps (s : State) (c due : Nat) (q : Quant) (os : List BlockOut) : Keeps c s (s.quantFeedback c due q os) := by
  unfold State.quantFeedback
  split
  · exact s.quantTo_keeps _ _ _ _ _ _
  · exact .refl c s

section
variable {s : State} {c : Nat} {q : Quant} {f : Elem} (cyc : Nat) (hf : Elem.ofCode q.fmt = some f)
include hf

theorem State.quantRun_keeps (hd : s.wbDrained c) : Keeps c s (s.quantRun c cyc q) := by
  rw [s.quantRun_eq c cyc q hf]
  exact (((State.quantResiduals_keeps hd q).trans (State.quantWrites_keeps _ _ _ _ _)).trans (State.quantFeedback_keeps _ _ _ _ _)).trans
    (State.sendReport_keeps _ _ _ _)
/-- It reports what it counted (R64). -/
theorem State.quantRun_reports :
    ∃ gen, ⟨cyc + quantLatency q, 8, .report gen (inclSum (s.quantOuts c q f))⟩ ∈ ((s.quantRun c cyc q).core c).landing := by
  rw [s.quantRun_eq c cyc q hf]
  exact State.sendReport_lands _ _ _ _
/-- What its writes put on their way stays on its way. -/
theorem State.quantRun_after : Keeps c ((s.quantResiduals c q).2.quantWrites c (cyc + quantLatency q) q (s.quantOuts c q f))
    (s.quantRun c cyc q) := by
  rw [s.quantRun_eq c cyc q hf]
  exact (State.quantFeedback_keeps _ _ _ _ _).trans (State.sendReport_keeps _ _ _ _)
/-- The data bytes of a quantize into the own vault (R164). -/
theorem State.quantRun_vault (hdst : q.dst = 0) (hpos : 0 < q.blocks * f.blockSize) (hfit : q.data % 2 ^ 24 + q.blocks * f.blockSize ≤ 0xA00000) :
    ∃ pri, ⟨cyc + quantLatency q, pri, .vault (q.data % 2 ^ 24) (((s.quantOuts c q f).map (·.bytes)).flatten) []⟩ ∈
      ((s.quantRun c cyc q).core c).landing := by
  have hlen : (((s.quantOuts c q f).map (·.bytes)).flatten).length = q.blocks * f.blockSize := quantizeBlocks_bytes_length _ _ _ _ _ _ _
  obtain ⟨pri, hlands⟩ := (s.quantResiduals c q).2.quantTo_vault c (cyc + quantLatency q) q.data false (hlen ▸ hpos) (hlen ▸ hfit)
  rw [← hdst] at hlands
  exact ⟨pri, (State.quantRun_after cyc hf).landing _ ((State.quantTo_keeps _ _ _ _ _ _ _).landing _ hlands)⟩
/-- The data bytes of a quantize into a buffer half (R164). -/
theorem State.quantRun_data (hdst : q.dst ≠ 0) (hpos : 0 < q.blocks * f.blockSize) (hfit : q.data + q.blocks * f.blockSize ≤ dataSize q.dst) :
    ⟨cyc + quantLatency q, 1, .buffer q.dst q.data (((s.quantOuts c q f).map (·.bytes)).flatten) []⟩ ∈
      ((s.quantRun c cyc q).core c).landing := by
  have hlen : (((s.quantOuts c q f).map (·.bytes)).flatten).length = q.blocks * f.blockSize := quantizeBlocks_bytes_length _ _ _ _ _ _ _
  have hlands := (s.quantResiduals c q).2.quantTo_data c (cyc + quantLatency q) q.data hdst (hlen ▸ hpos) (hlen ▸ hfit)
  exact (State.quantRun_after cyc hf).landing _ ((State.quantTo_keeps _ _ _ _ _ _ _).landing _ hlands)
/-- The scale bytes of a quantize into a buffer half (R164). -/
theorem State.quantRun_scale (hdst : q.dst ≠ 0) (hpos : 0 < q.blocks) (hfit : q.scale + q.blocks ≤ scaleSize q.dst) :
    ⟨cyc + quantLatency q, 1, .buffer q.dst (dataSize q.dst + q.scale) ((s.quantOuts c q f).map fun b => BitVec.ofNat 8 b.k8) []⟩ ∈
      ((s.quantRun c cyc q).core c).landing := by
  have hlen : ((s.quantOuts c q f).map fun b => BitVec.ofNat 8 b.k8).length = q.blocks :=
    (List.length_map _).trans (quantizeBlocks_length _ _ _ _ _ _ _)
  exact (State.quantRun_after cyc hf).landing _ (State.quantTo_scale _ _ _ _ hdst (hlen ▸ hpos) (hlen ▸ hfit))
/-- The new residuals of a quantize with error feedback (R75). -/
theorem State.quantRun_feedback (hef : q.ef = true) (hx : 16 * q.blocks ≤ q.vs.length) (hpos : 0 < q.blocks) (hfit : q.base % 2 ^ 24 + 32 * q.blocks ≤ 0xA00000) :
    ∃ pri, ⟨cyc + quantLatency q, pri, .vault (q.base % 2 ^ 24)
      (((s.quantOuts c q f).map fun b => (b.resid.map fun r => bytesOf r 2).flatten).flatten) []⟩ ∈ ((s.quantRun c cyc q).core c).landing := by
  have hlen : (((s.quantOuts c q f).map fun b => (b.resid.map fun r => bytesOf r 2).flatten).flatten).length = 32 * q.blocks := by
    have hread : s.quantResiduals c q = s.residuals c q.base q.blocks := if_pos hef
    obtain ⟨hn, hr⟩ := State.residuals_lengths c q.blocks s q.base
    rw [State.quantOuts, hread]
    exact quantizeBlocks_resid_length _ _ _ _ _ _ _ hx hn hr
  rw [s.quantRun_eq c cyc q hf]
  generalize (s.quantResiduals c q).2.quantWrites c (cyc + quantLatency q) q (s.quantOuts c q f) = u
  obtain ⟨pri, hlands⟩ := u.quantTo_vault c (cyc + quantLatency q) q.base false (hlen ▸ by omega) (hlen ▸ hfit)
  rw [State.quantFeedback, if_pos hef]
  exact ⟨pri, (State.sendReport_keeps _ _ _ _).landing _ hlands⟩
end
end Sys2Proof.Machine
end
section
/-! VQ, and the vector slot's vault accesses together (R57 to R65, R75, R112, R132, R134, R156, R162 to R165, R192). -/
namespace Sys2Proof.Machine

theorem Elem.blockSize_pos (f : Elem) : 0 < f.blockSize := by cases f <;> decide
theorem vqReserved_true {k dst : BitVec 3} {a : BitVec 5} {ef : Bool} (h : k = 0 ∨ dst = 1 ∨ dst = 6 ∨ dst = 7 ∨ ef = true ∧ a.toNat % 2 = 1) :
    vqReserved k dst a ef = true := by
  simp only [vqReserved, Bool.or_eq_true, Bool.and_eq_true, decide_eq_true_eq]
  tauto
theorem vqReserved_false {k dst : BitVec 3} {a : BitVec 5} {ef : Bool} (hk : k ≠ 0) (hdst : dst = 0 ∨ 2 ≤ dst.toNat ∧ dst.toNat ≤ 5)
    (ha : ef = true → a.toNat % 2 = 0) : vqReserved k dst a ef = false := by
  have hnone : ¬ (dst = 1 ∨ dst = 6 ∨ dst = 7) := by
    rintro (rfl | rfl | rfl) <;> revert hdst <;> decide
  have heven : (ef && decide (a.toNat % 2 = 1 ∨ 30 < a.toNat)) = false := by
    cases ef
    · rfl
    · have := ha rfl
      have := a.isLt
      exact decide_eq_false (by omega)
  rw [vqReserved, decide_eq_false hk, decide_eq_false hnone, heven]
  rfl

/-- The post-increments of a VQ (R165). -/
def State.vqAdvance (s : State) (c due k a n : Nat) (f : Elem) (p ef : Bool) : State :=
  if p then
    let s := s.advance c due (4 * k) baseField (n * f.blockSize)
    let s := s.advance c due (4 * k + 1) baseField n
    let s := s.advance c due (4 * k + 3) indexField (16 * n)
    if ef then s.send c due 1 (.setS (a + 1) (s.sreg c (a + 1) + BitVec.ofNat 64 (32 * n))) else s
  else s
/-- What follows the first of the post-increments. -/
theorem State.vqAdvance_after (s : State) (c due k a n : Nat) (f : Elem) (ef : Bool) :
    Keeps c (s.advance c due (4 * k) baseField (n * f.blockSize)) (s.vqAdvance c due k a n f true ef) := by
  have hbases : ∀ v : State, Keeps c v ((v.advance c due (4 * k + 1) baseField n).advance c due (4 * k + 3) indexField (16 * n)) := fun v =>
    (State.advance_sends rfl _ _ _).keeps.trans (State.advance_sends rfl _ _ _).keeps
  unfold State.vqAdvance
  rw [if_pos rfl]
  dsimp only
  split
  · exact (hbases _).trans (State.send_keeps _ _ _ _ _)
  · exact hbases _
theorem State.vqAdvance_keeps (s : State) (c due k a n : Nat) (f : Elem) (p ef : Bool) : Keeps c s (s.vqAdvance c due k a n f p ef) := by
  cases p with
  | false => exact .refl c s
  | true => exact (State.advance_sends rfl _ _ _).keeps.trans (s.vqAdvance_after c due k a n f ef)
theorem State.vqAdvance_lands {s v : State} {c k : Nat} (h : v.sreg c (4 * k) = s.sreg c (4 * k)) (due a n : Nat) (f : Elem) (ef : Bool) :
    ⟨due, 1, .setS (4 * k) (addField (s.sreg c (4 * k)) ⟨50, 0⟩ (n * f.blockSize))⟩ ∈ ((v.vqAdvance c due k a n f true ef).core c).landing :=
  (v.vqAdvance_after c due k a n f ef).landing _ (State.advance_sends h _ _ _).lands

theorem exec_vq (t : At) (g : Gate) (vs : BitVec 6) (k : BitVec 3) (a : BitVec 5) (dst : BitVec 3) (sr ef p h : Bool) (s : State) :
    exec (.vq t g vs k a dst sr ef p h) s = execVq t g vs k a dst sr ef p h s := rfl
theorem exec_vq_reserved {t : At} {g : Gate} {s : State} (vs : BitVec 6) {k : BitVec 3} {a : BitVec 5} {dst : BitVec 3} (sr : Bool) {ef : Bool} (p h : Bool)
    (hon : Enabled t g s) (hr : vqReserved k dst a ef = true) : exec (.vq t g vs k a dst sr ef p h) s = .next (s.toCore t g.core) := by
  rw [exec_vq, execVq, if_pos hr]
  exact onCore_next _ hon.1.1 hon.1.2.1
theorem exec_vq_narrow {t : At} {g : Gate} {s s1 : State} (vs : BitVec 6) {k : BitVec 3} {a : BitVec 5} {dst : BitVec 3} (sr : Bool) {ef : Bool} (p h : Bool)
    (hon : Enabled t g s) (h1 : s1 = s.toCore t g.core) (hr : vqReserved k dst a ef = false) (hz : (ef && s1.frozen g.core) = false) {f : Elem}
    (hf : Elem.ofCode (s1.tensor g.core k.toNat).fmt = some f) (hn : f.narrow = true) :
    exec (.vq t g vs k a dst sr ef p h) s = .next (((((s1.quantRun g.core t.cyc (s1.quantOf g.core vs k a dst sr ef h)).vqAdvance g.core
      (t.cyc + if h then 2 else 1) k.toNat a.toNat (if h then 8 else 4) f p ef).pmcCore g.core 0x004 1).pmcCore g.core 0x005 (if h then 8 else 4)).ran g.core) := by
  rw [exec_vq, execVq, hr, if_neg Bool.false_ne_true, onSlot_next _ hon.1, hon.2, ← h1]
  refine congrArg Host.Outcome.next ?_
  dsimp only
  rw [hf]
  dsimp only
  rw [hn, hz]
  rfl
/-- The blocks of a VQ in terms of its operands (R57, R61, R75, R112). -/
theorem State.quantOuts_quantOf (s : State) (c : Nat) (vs : BitVec 6) (k : BitVec 3) (a : BitVec 5) (dst : BitVec 3) (sr ef h : Bool) (f : Elem) :
    s.quantOuts c (s.quantOf c vs k a dst sr ef h) f =
      quantizeBlocks f ((s.sreg c a.toNat).toNat % 2 ^ 32)
        (if sr then some (draw (s.rd (Reg.coreSeed c)) ((s.rd (Reg.coreStep c)).toNat % 2 ^ 32) (s.tensor c k.toNat).tid) else none)
        (if h then 8 else 4) (s.tensor c k.toNat).index (if h then (halves (s.vreg c vs.toNat)).map b16ToF32 else s.vreg c vs.toNat)
        (if ef then (s.residuals c ((s.sreg c (a.toNat + 1)).toNat % 2 ^ 24) (if h then 8 else 4)).1 else []) := by
  cases sr <;> cases ef <;> rfl

/-- VQ of a narrow tensor (R57 to R64, R75, R112, R164, R165). -/
theorem vq_next (t : At) (g : Gate) (vs : BitVec 6) (k : BitVec 3) (a : BitVec 5) (dst : BitVec 3) (sr ef p h : Bool) (s s1 : State) (hon : Enabled t g s)
    (h1 : s1 = s.toCore t g.core) (f : Elem) (d : Tensor) (n lat base : Nat) (os : List BlockOut) (hk : k ≠ 0)
    (hdst : dst = 0 ∨ (2 ≤ dst.toNat ∧ dst.toNat ≤ 5)) (hef : ef = true → a.toNat % 2 = 0 ∧ s1.frozen g.core = false)
    (hd : d = s1.tensor g.core k.toNat) (hf : Elem.ofCode d.fmt = some f) (hnarrow : f.narrow = true)
    (hn : n = (if h then 8 else 4)) (hlat : lat = (if ef then 17 else 10)) (hbase : base = (s1.sreg g.core (a.toNat + 1)).toNat % 2 ^ 24)
    (hos : os = quantizeBlocks f ((s1.sreg g.core a.toNat).toNat % 2 ^ 32)
      (if sr then some (draw (s1.rd (Reg.coreSeed g.core)) ((s1.rd (Reg.coreStep g.core)).toNat % 2 ^ 32) d.tid) else none) n d.index
      (if h then (halves (s1.vreg g.core vs.toNat)).map b16ToF32 else s1.vreg g.core vs.toNat) (if ef then (s1.residuals g.core base n).1 else [])) :
    ∃ u, exec (.vq t g vs k a dst sr ef p h) s = .next u ∧ SameBytes s1 u ∧
      (dst = 0 → d.data % 2 ^ 24 + n * f.blockSize ≤ 0xA00000 → ∃ pri,
        ⟨t.cyc + lat, pri, .vault (d.data % 2 ^ 24) ((os.map (·.bytes)).flatten) []⟩ ∈ (u.core g.core).landing) ∧
      (dst ≠ 0 → d.data + n * f.blockSize ≤ dataSize dst.toNat →
        ⟨t.cyc + lat, 1, .buffer dst.toNat d.data ((os.map (·.bytes)).flatten) []⟩ ∈ (u.core g.core).landing) ∧
      (dst ≠ 0 → d.scale + n ≤ scaleSize dst.toNat →
        ⟨t.cyc + lat, 1, .buffer dst.toNat (dataSize dst.toNat + d.scale) (os.map fun b => BitVec.ofNat 8 b.k8) []⟩ ∈ (u.core g.core).landing) ∧
      (∃ gen, ⟨t.cyc + lat, 8, .report gen (inclSum os)⟩ ∈ (u.core g.core).landing) ∧
      (ef = true → base + 32 * n ≤ 0xA00000 → ∃ pri,
        ⟨t.cyc + lat, pri, .vault base (((os.map fun b => (b.resid.map fun r => bytesOf r 2).flatten).flatten)) []⟩ ∈ (u.core g.core).landing) ∧
      (p = true → ⟨t.cyc + (if h then 2 else 1), 1, .setS (4 * k.toNat) (addField (s1.sreg g.core (4 * k.toNat)) ⟨50, 0⟩ (n * f.blockSize))⟩ ∈
        (u.core g.core).landing) := by
  have hdrained : s1.wbDrained g.core := by rw [h1]; exact s.toCore_drained t g.core
  have hz : (ef && s1.frozen g.core) = false := by
    cases ef
    · rfl
    · exact (hef rfl).2
  rw [hd] at hf
  have hexec := exec_vq_narrow vs sr p h hon h1 (vqReserved_false hk hdst fun he => (hef he).1) hz hf hnarrow
  have houts := s1.quantOuts_quantOf g.core vs k a dst sr ef h f
  have hx := s1.quantInputs_length g.core vs.toNat h
  rw [← hd, ← hn, ← hbase, ← hos] at houts
  have hpos : 0 < n := by rw [hn]; cases h <;> decide
  have hbytes : 0 < n * f.blockSize := Nat.mul_pos hpos f.blockSize_pos
  have hbasemod : base % 2 ^ 24 = base := by rw [hbase, Nat.mod_mod]
  have hnz : dst ≠ 0 → dst.toNat ≠ 0 := fun hne hz => hne (BitVec.eq_of_toNat_eq hz)
  have hqf : Elem.ofCode (s1.quantOf g.core vs k a dst sr ef h).fmt = some f := hf
  have hrun := State.quantRun_keeps t.cyc hqf hdrained
  have hrest := (((State.pmcCore_counts ((s1.quantRun g.core t.cyc (s1.quantOf g.core vs k a dst sr ef h)).vqAdvance g.core (t.cyc + if h then 2 else 1)
    k.toNat a.toNat (if h then 8 else 4) f p ef) g.core 0x004 1).trans (State.pmcCore_counts _ g.core 0x005 (if h then 8 else 4))).trans
      (State.ran_counts _ _)).keeps
  have hafter := (State.vqAdvance_keeps _ _ _ _ _ _ _ _ _).trans hrest
  subst houts hd hlat hn
  refine ⟨_, hexec, .of_mem (hafter.mem.trans hrun.mem), fun h0 hfit => ?_, fun hne hfit => hafter.landing _ ?_, fun hne hfit => hafter.landing _ ?_, ?_,
    fun he hfit => ?_, ?_⟩
  · obtain ⟨pri, hlands⟩ := State.quantRun_vault t.cyc hqf (congrArg BitVec.toNat h0) hbytes hfit
    exact ⟨pri, hafter.landing _ hlands⟩
  · exact State.quantRun_data t.cyc hqf (hnz hne) hbytes hfit
  · exact State.quantRun_scale t.cyc hqf (hnz hne) hpos hfit
  · obtain ⟨gen, hlands⟩ := State.quantRun_reports t.cyc hqf
    exact ⟨gen, hafter.landing _ hlands⟩
  · subst hbase
    rw [← hbasemod] at hfit ⊢
    obtain ⟨pri, hlands⟩ := State.quantRun_feedback t.cyc hqf he hx.ge hpos hfit
    exact ⟨pri, hafter.landing _ hlands⟩
  · rintro rfl
    exact hrest.landing _ (State.vqAdvance_lands (hrun.sreg _) _ _ _ _ _)

/-- Settles O22: each instruction by the equation of its command; what a read at the vault's port changes is `PortReads`, and what an instruction
puts on its way stays there through all that follows (`Keeps`). -/
theorem vectorVaultAccessAndFormats : Obligations.VectorVaultAccessAndFormats := by
  refine ⟨?_, ?_, ?_⟩
  · intro t g d a imm s s1 off hon h1 hoff
    exact ⟨vld_next t g d a imm s s1 off hon h1 hoff, vst_gives t g d a imm s s1 off hon h1 hoff⟩
  · rintro t g vd k p s s1 f hon h1
    refine ⟨?_, fun hk hwide => ?_, vdq_next t g vd k p s s1 f hon h1⟩
    · rintro rfl
      rw [h1]
      exact exec_vdq_reserved vd p hon
    · subst h1
      refine ⟨_, exec_vdq_wide vd p hon hk hwide, (OwnCore.refl _ _ _).modCore _, ?_⟩
      rw [State.reportTime, State.modCore, State.core_setCore]
  · intro t g vs k a dst sr ef p h s s1 hon h1
    refine ⟨fun hr => ?_, vq_next t g vs k a dst sr ef p h s s1 hon h1⟩
    rw [h1]
    exact exec_vq_reserved vs sr p h hon (vqReserved_true hr)
end Sys2Proof.Machine
end
section
/-! Fields and rows of registers after a write (R6, R101, R102). -/
namespace Sys2Proof.Machine

/-- A field apart from one that is written keeps its value. -/
theorem Fld.get_put_apart {f g : Fld} (w : Word) (v : Nat) (hf : f.hi < 64) (h : f.hi < g.lo ∨ g.hi < f.lo) : f.get (g.put w v) = f.get w :=
  f.get_congr fun i hi => by
    unfold Fld.has at hi
    exact g.put_bit_out w v (by omega) (by unfold Fld.has; omega)
theorem State.fld_putF_apart (s : State) (a : Nat) {f g : Fld} (v : Nat) (hf : f.hi < 64) (h : f.hi < g.lo ∨ g.hi < f.lo) :
    (s.putF a g v).fld a f = s.fld a f := by
  unfold State.fld State.putF
  rw [State.rd_wr, Fld.get_put_apart _ _ hf h]
theorem State.fld_putF_ne (s : State) {a b : Nat} (f g : Fld) (v : Nat) (h : b ≠ a) : (s.putF a g v).fld b f = s.fld b f := by
  unfold State.fld
  rw [State.rd_putF_ne _ _ _ h]
theorem State.fld_of_rd {s u : State} {a : Nat} (f : Fld) (h : u.rd a = s.rd a) : u.fld a f = s.fld a f := by unfold State.fld; rw [h]
theorem State.flag_of_rd {s u : State} {a : Nat} (f : Fld) (h : u.rd a = s.rd a) : u.flag a f = s.flag a f := by unfold State.flag; rw [h]

/-- A one-bit field is the value of its only bit. -/
theorem Fld.bit_put (f : Fld) (w : Word) (b : Bool) (h : f.hi < 64) (hl : f.lo = f.hi) : f.bit (f.put w (b2n b)) = b := by
  have hb := f.testBit_get (f.put w (b2n b)) 0
  rw [f.get_put w _ h hl.le, Nat.zero_add] at hb
  have hw : f.width = 1 := by unfold Fld.width; omega
  rw [hw] at hb
  unfold Fld.bit
  cases b <;> simpa [b2n] using hb.symm
theorem Fld.bit_put_apart {f g : Fld} (w : Word) (v : Nat) (hf : f.lo < 64) (h : f.lo < g.lo ∨ g.hi < f.lo) : f.bit (g.put w v) = f.bit w :=
  g.put_bit_out w v hf (by unfold Fld.has; omega)
theorem State.flag_putB (s : State) (a : Nat) (f : Fld) (b : Bool) (h : f.hi < 64) (hl : f.lo = f.hi) : (s.putB a f b).flag a f = b := by
  unfold State.flag State.putB State.putF
  rw [State.rd_wr, f.bit_put _ _ h hl]
theorem State.flag_putF_apart (s : State) (a : Nat) {f g : Fld} (v : Nat) (hf : f.lo < 64) (h : f.lo < g.lo ∨ g.hi < f.lo) :
    (s.putF a g v).flag a f = s.flag a f := by
  unfold State.flag State.putF
  rw [State.rd_wr, Fld.bit_put_apart _ _ hf h]
theorem State.flag_raiseBit (s : State) (a : Nat) (f : Fld) (h : f.hi < 64) (hl : f.lo = f.hi) : (s.raiseBit a f).flag a f = true :=
  s.flag_putB a f true h hl
theorem State.rd_raiseBit_ne (s : State) {a b : Nat} (f : Fld) (h : b ≠ a) : (s.raiseBit a f).rd b = s.rd b := s.rd_putB_ne f true h

/-! Rows of lanes. -/

theorem State.row_congr {s u : State} (n a : Nat) (h : ∀ i < n, u.rd (a + 8 * i) = s.rd (a + 8 * i)) : u.row a n = s.row a n := by
  induction n generalizing a with
  | zero => rfl
  | succ n ih =>
    have hhead : u.rd a = s.rd a := h 0 (by omega)
    have htail := ih (a + 8) fun i hi => by
      have := h (i + 1) (by omega)
      rwa [show a + 8 * (i + 1) = a + 8 + 8 * i by omega] at this
    unfold State.row
    rw [hhead, htail]
/-- Writing lanes changes no register but those of their words. -/
theorem State.setRow_rd (n : Nat) (s : State) (a : Nat) (l : List Nat) (hl : l.length = 2 * n) {b : Nat} (hb : ∀ i < n, b ≠ a + 8 * i) :
    (s.setRow a l).rd b = s.rd b := by
  induction n generalizing s a l with
  | zero =>
    obtain rfl := List.length_eq_zero_iff.1 hl
    rfl
  | succ n ih =>
    match l, hl with
    | x :: y :: r, hl =>
      unfold State.setRow
      rw [ih _ _ _ (by simp only [List.length_cons] at hl; omega) fun i hi => by have := hb (i + 1) (by omega); omega]
      exact State.rd_wr_ne _ _ (hb 0 (by omega))
/-- The two lanes of a word. -/
theorem laneWord_toNat (x y : Nat) : (BitVec.ofNat 64 (x % 2 ^ 32 + y % 2 ^ 32 * 2 ^ 32)).toNat = x % 2 ^ 32 + y % 2 ^ 32 * 2 ^ 32 := by
  rw [BitVec.toNat_ofNat]
  omega
/-- Lanes that were written read back, each cut to its 32 bits. -/
theorem State.row_setRow (n : Nat) (s : State) (a : Nat) (l : List Nat) (hl : l.length = 2 * n) : (s.setRow a l).row a n = l.map (· % 2 ^ 32) := by
  induction n generalizing s a l with
  | zero =>
    obtain rfl := List.length_eq_zero_iff.1 hl
    rfl
  | succ n ih =>
    match l, hl with
    | x :: y :: r, hl =>
      have hr : r.length = 2 * n := by simp only [List.length_cons] at hl; omega
      unfold State.setRow State.row
      rw [ih _ _ _ hr, State.setRow_rd n _ _ _ hr fun i _ => by omega, State.rd_wr, laneWord_toNat]
      simp only [List.map_cons, List.cons.injEq, and_true]
      exact ⟨by omega, by omega⟩
theorem State.setRow_cons (s : State) (a x y : Nat) (r : List Nat) : ∃ v, s.setRow a (x :: y :: r) = (s.wr a v).setRow (a + 8) r :=
  ⟨BitVec.ofNat 64 (x % 2 ^ 32 + y % 2 ^ 32 * 2 ^ 32), by rw [State.setRow]⟩
/-- Writing lanes changes registers alone. -/
theorem State.setRow_only (l : List Nat) (s : State) (a : Nat) : ∃ regs, s.setRow a l = { s with regs := regs } := by
  induction l using List.twoStepInduction generalizing s a with
  | nil => exact ⟨s.regs, rfl⟩
  | singleton x => exact ⟨s.regs, rfl⟩
  | cons_cons x y r ih =>
    obtain ⟨v, hv⟩ := s.setRow_cons a x y r
    obtain ⟨regs, h⟩ := ih (s.wr a v) (a + 8)
    exact ⟨regs, hv.trans h⟩
end Sys2Proof.Machine
end
section
/-! Commands' register writes taken together (R6, R8). -/
namespace Sys2Proof.Machine

/-- Nothing changes but registers, and of these none of a set. -/
structure Spares (R : Nat → Prop) (s u : State) : Prop where
  only : u = { s with regs := u.regs }
  rd : ∀ a, R a → u.rd a = s.rd a

theorem Spares.refl (R : Nat → Prop) (s : State) : Spares R s s := ⟨rfl, fun _ _ => rfl⟩
theorem Spares.trans {R : Nat → Prop} {s u v : State} (h : Spares R s u) (k : Spares R u v) : Spares R s v := by
  refine ⟨?_, fun a ha => (k.rd a ha).trans (h.rd a ha)⟩
  have honly := k.only
  rw [h.only] at honly
  exact honly
theorem Spares.wr {R : Nat → Prop} {s u : State} (h : Spares R s u) {a : Nat} (v : Word) (ha : ¬ R a) : Spares R s (u.wr a v) :=
  h.trans ⟨rfl, fun _ hb => State.rd_wr_ne _ _ fun hba => ha (hba ▸ hb)⟩
theorem Spares.putF {R : Nat → Prop} {s u : State} (h : Spares R s u) {a : Nat} (f : Fld) (v : Nat) (ha : ¬ R a) : Spares R s (u.putF a f v) := h.wr _ ha
theorem Spares.putB {R : Nat → Prop} {s u : State} (h : Spares R s u) {a : Nat} (f : Fld) (b : Bool) (ha : ¬ R a) : Spares R s (u.putB a f b) := h.wr _ ha
theorem Spares.bump {R : Nat → Prop} {s u : State} (h : Spares R s u) {a : Nat} (f : Fld) (n : Nat) (ha : ¬ R a) : Spares R s (u.bump a f n) := h.wr _ ha
theorem Spares.mem {R : Nat → Prop} {s u : State} (h : Spares R s u) : u.mem = s.mem := by rw [h.only]
theorem Spares.core {R : Nat → Prop} {s u : State} (h : Spares R s u) (c : Nat) : u.core c = s.core c := by rw [h.only]; rfl
end Sys2Proof.Machine
end
section
/-! Bringing a core to a cycle (R98, R117, R125, R133): what beside its landings changes, and the one landing of a core that has no other. -/
namespace Sys2Proof.Machine

/-- The registers in which a cycle counts: the performance counters, and the stretched periods, of some core. -/
def cycleReg (a : Nat) : Prop := ∃ d, a = Reg.coreStretch d ∨ ∃ i < 8, a = Reg.corePmc d i
/-- What the passing of cycles changes beside the landings: memory stays, and of the core's record all but its write-back queue and the cycle up to which
it was looked at. -/
structure Cycles (c : Nat) (s u : State) : Prop where
  only : u = { s with regs := u.regs, fresh := u.fresh, marks := u.marks, cores := u.cores, towers := u.towers, arbs := u.arbs }
  core : ∃ q w n, u.core c = { s.core c with wbq := q, wbAt := w, seen := n }
  others : ∀ d, d ≠ c → u.core d = s.core d
  rd : ∀ a, ¬ cycleReg a → u.rd a = s.rd a

theorem Cycles.refl (c : Nat) (s : State) : Cycles c s s := ⟨rfl, ⟨_, _, _, rfl⟩, fun _ _ => rfl, fun _ _ => rfl⟩
theorem Cycles.trans {c : Nat} {s u v : State} (h : Cycles c s u) (k : Cycles c u v) : Cycles c s v := by
  refine ⟨?_, ?_, fun d hd => (k.others d hd).trans (h.others d hd), fun a ha => (k.rd a ha).trans (h.rd a ha)⟩
  · have honly := k.only
    rw [h.only] at honly
    exact honly
  · obtain ⟨q, w, n, hk⟩ := k.core
    obtain ⟨_, _, _, hh⟩ := h.core
    exact ⟨q, w, n, by rw [hk, hh]⟩
theorem Cycles.mem {c : Nat} {s u : State} (h : Cycles c s u) : u.mem = s.mem := by rw [h.only]
theorem Counts.cycles {c d : Nat} {s u : State} (h : Counts s u d) : Cycles c s u :=
  ⟨by rw [h.1], ⟨_, _, _, h.core c⟩, fun e _ => h.core e, fun a ha => h.2 a fun hm => by
    obtain ⟨i, hi, rfl⟩ := List.mem_map.1 hm
    exact ha ⟨d, .inr ⟨i, List.mem_range.1 hi, rfl⟩⟩⟩
theorem State.setCore_cycles (s : State) (c : Nat) {k : Core} (h : ∃ q w n, k = { s.core c with wbq := q, wbAt := w, seen := n }) :
    Cycles c s (s.setCore c k) :=
  ⟨rfl, by rwa [State.core_setCore], fun _ hd => s.core_setCore_ne _ hd, fun _ _ => rfl⟩
theorem State.setMarks_cycles (s : State) (c : Nat) (m : Mark) (l : List Nat) : Cycles c s (s.setMarks m l) := by
  rw [State.setMarks_only]
  exact ⟨rfl, ⟨_, _, _, rfl⟩, fun _ _ => rfl, fun _ _ => rfl⟩
theorem State.unmerge_cycles (s : State) (c d : Nat) (l : List Nat) : Cycles c s (s.unmerge d l) := by
  rw [State.unmerge_only]
  exact ⟨rfl, ⟨_, _, _, rfl⟩, fun _ _ => rfl, fun _ _ => rfl⟩
theorem State.drainWb_cycles (s : State) (c cyc : Nat) : Cycles c s (s.drainWb c cyc) := by
  unfold State.drainWb
  dsimp only
  split
  · exact .refl c s
  · split
    · exact s.setCore_cycles c ⟨_, _, _, rfl⟩
    · exact ((((s.setCore_cycles c ⟨_, _, _, rfl⟩).trans (State.setMarks_cycles _ _ _ _)).trans (State.unmerge_cycles _ _ _ _)).trans
        (State.pmcCore_counts _ _ _ _).cycles).trans (State.pmcCore_counts _ _ _ _).cycles
theorem State.countCycles_cycles (s : State) (c cyc : Nat) : Cycles c s (s.countCycles c cyc) := by
  unfold State.countCycles
  dsimp only
  split
  · exact (s.setCore_cycles c ⟨_, _, _, rfl⟩).trans (State.pmcCore_counts _ _ _ _).cycles
  · exact .refl c s
theorem State.bumpStretch_cycles (s : State) (c d n : Nat) : Cycles c s (s.bump (Reg.coreStretch d) F.coreStretchCount n) :=
  ⟨rfl, ⟨_, _, _, rfl⟩, fun _ _ => rfl, fun _ ha => State.rd_bump_ne _ _ _ fun h => ha ⟨d, .inl h⟩⟩
theorem State.settleDroop_cycles (s : State) (c t cyc : Nat) : Cycles c s (s.settleDroop t cyc) := by
  have hfold : ∀ (n : Nat) (l : List Nat) (u : State), Cycles c s u → Cycles c s
      (l.foldl (fun s l => (s.bump (Reg.coreStretch (256 * t + l)) F.coreStretchCount n).pmcCore (256 * t + l) 0x00A n) u) := by
    intro n l
    induction l with
    | nil => exact fun _ h => h
    | cons x l ih => exact fun u h => ih _ ((h.trans (u.bumpStretch_cycles c _ _)).trans (State.pmcCore_counts _ _ _ _).cycles)
  unfold State.settleDroop
  dsimp only
  split
  · exact .refl c s
  · exact hfold _ _ _ ⟨rfl, ⟨_, _, _, rfl⟩, fun _ _ => rfl, fun _ _ => rfl⟩
/-- Beside the landings, bringing a core to a cycle changes no more than the passing of cycles does. -/
theorem State.toCycle_cycles (s : State) (c cyc : Nat) : Cycles c (s.landCore c cyc (s.core c).work) (s.toCycle c cyc) :=
  ((State.drainWb_cycles _ _ _).trans (State.countCycles_cycles _ _ _)).trans (State.settleDroop_cycles _ _ _ _)

/-! A core at whose cycle nothing is left to do. -/

/-- Nothing lands, drains or is counted in a core up to a cycle. -/
structure State.Still (s : State) (c cyc : Nat) : Prop where
  landing : (s.core c).landing = []
  array : (s.core c).array = none
  drained : (s.core c).wbq = [] ∨ cyc ≤ (s.core c).wbAt
  seen : cyc ≤ (s.core c).seen
  droops : ∀ d ∈ (s.tower (towerOf c)).droops, cyc < d
theorem State.Still.toCycle {s : State} {c cyc : Nat} (h : s.Still c cyc) : s.toCycle c cyc = s := by
  have hdrain : s.drainWb c cyc = s := if_pos h.drained
  unfold State.toCycle
  rw [s.landCore_quiet c cyc _ h.landing h.array, hdrain, s.countCycles_seen c cyc h.seen, s.settleDroop_later _ cyc h.droops]
theorem State.countCycles_seenUp (s : State) (c cyc : Nat) : cyc ≤ ((s.countCycles c cyc).core c).seen := by
  unfold State.countCycles
  dsimp only
  split
  · rw [(State.pmcCore_counts _ _ _ _).core, State.core_setCore]
  · next h => exact Nat.le_of_not_lt h
theorem State.tower_of_towers {s u : State} (h : u.towers = s.towers) (t : Nat) : u.tower t = s.tower t := by unfold State.tower; rw [h]
theorem Counts.towers {s u : State} {c : Nat} (h : Counts s u c) : u.towers = s.towers := by rw [h.1]
theorem State.settleDroop_droops (s : State) (t cyc : Nat) : ∀ d ∈ ((s.settleDroop t cyc).tower t).droops, cyc < d := by
  have hfold : ∀ (n : Nat) (l : List Nat) (u : State), (l.foldl (fun s l =>
      (s.bump (Reg.coreStretch (256 * t + l)) F.coreStretchCount n).pmcCore (256 * t + l) 0x00A n) u).towers = u.towers := by
    intro n l
    induction l with
    | nil => exact fun _ => rfl
    | cons x l ih => exact fun u => (ih _).trans (State.pmcCore_counts _ _ _ _).towers
  unfold State.settleDroop
  dsimp only
  split
  · next hnone => exact fun d hd => by simpa using List.filter_eq_nil_iff.1 (List.length_eq_zero_iff.1 hnone) d hd
  · rw [State.tower_of_towers (hfold _ _ _), State.tower_setTower]
    exact fun d hd => by simpa using (List.mem_filter.1 hd).2
/-- A core that was brought to a cycle is still there where nothing more is on its way and its array is idle. -/
theorem State.toCycle_still {s : State} {c cyc : Nat} (hl : ((s.toCycle c cyc).core c).landing = []) (ha : ((s.toCycle c cyc).core c).array = none) :
    (s.toCycle c cyc).Still c cyc := by
  obtain ⟨u, hu⟩ : ∃ u : State, s.toCycle c cyc = ((u.drainWb c cyc).countCycles c cyc).settleDroop (towerOf c) cyc := ⟨_, rfl⟩
  obtain ⟨-, hq, hat⟩ := (u.drainWb c cyc).countCycles_wb c cyc
  have hsettled : ((s.toCycle c cyc).core c) = ((u.drainWb c cyc).countCycles c cyc).core c := by
    obtain ⟨regs, fresh, towers, h⟩ := ((u.drainWb c cyc).countCycles c cyc).settleDroop_only (towerOf c) cyc
    rw [hu, h]; rfl
  refine ⟨hl, ha, ?_, ?_, ?_⟩
  · rw [hsettled, hq, hat]
    exact u.drainWb_drains c cyc
  · rw [hsettled]
    exact State.countCycles_seenUp _ _ _
  · rw [hu]
    exact State.settleDroop_droops _ _ _

/-! One landing. -/

/-- A core whose only happening by a cycle is one write: it lands, and the cycle of the command at hand stands again. -/
theorem State.landCore_one (s : State) (c upto : Nat) {x : Landing} (hl : (s.core c).landing = [x]) (ha : (s.core c).array = none) (hx : x.due ≤ upto) :
    s.landCore c upto (s.core c).work = { (s.setCore c { s.core c with landing := [] }).land c x with clk := s.clk } := by
  have hwork : (s.core c).work = 1 := by unfold Core.work; rw [hl, ha]; rfl
  unfold State.landCore
  rw [hwork]
  unfold State.landSteps
  dsimp only
  rw [hl, ha]
  dsimp only
  rw [if_pos hx]
  rfl
end Sys2Proof.Machine
end
section
/-! The one landing of a core at a command's cycle, and inclusion records (R72, R73, R97, R171). -/
namespace Sys2Proof.Machine

/-- A command's core, with its one write landed. -/
def State.landed (s : State) (t : At) (c : Nat) (x : Landing) : State :=
  { ((s.at t).setCore c { s.core c with landing := [] }).land c x with clk := t.cyc }
/-- At a command's cycle the one write on its way has landed; beside it no more than the passing of cycles happens. -/
theorem State.toCore_one {s : State} {t : At} {c : Nat} {x : Landing} (hl : (s.core c).landing = [x]) (ha : (s.core c).array = none) (hx : x.due ≤ t.cyc) :
    Cycles c (s.landed t c x) (s.toCore t c) := by
  have h := (s.at t).toCycle_cycles c t.cyc
  rwa [State.landCore_one (s.at t) c t.cyc hl ha hx] at h
/-- A command that only looks at a core brings it to its cycle. -/
theorem onCore_looks {t : At} {c : Nat} {s : State} (hc : c < 3072) (ha : Awake t s) : onCore t c s (fun s => s) = .next (s.toCore t c) := onCore_next _ hc ha
theorem exec_recordForm (t : At) (c : Nat) (s : State) : exec (.recordForm t c) s = onCore t c s (fun s => s) := rfl

/-! Forming a record. -/

/-- Writing the live counters after the first leaves the first, and what lies outside the counters. -/
theorem State.setLive_spares (s : State) (c : Nat) (i : Incl) : Spares (fun a => a ≤ Reg.coreInclElem c ∨ Reg.coreInclStatus c < a)
    (s.putF (Reg.coreInclElem c) F.coreInclElemCount i.elem) (s.setLive c i) := by
  have h := Spares.refl (fun a => a ≤ Reg.coreInclElem c ∨ Reg.coreInclStatus c < a) (s.putF (Reg.coreInclElem c) F.coreInclElemCount i.elem)
  unfold State.setLive
  dsimp only
  refine ((((((((((h.putF _ _ ?_).putF _ _ ?_).putF _ _ ?_).putF _ _ ?_).putF _ _ ?_).putF _ _ ?_).putF _ _ ?_).putF _ _ ?_).putF _ _ ?_).putB _ _ ?_).putB _ _ ?_
  all_goals
    simp only [Reg.coreInclElem, Reg.coreInclSat, Reg.coreInclFlush, Reg.coreInclPoisb, Reg.coreInclRsvd, Reg.coreInclPpair, Reg.coreInclCapdrop,
      Reg.coreInclCapdef, Reg.coreInclMaxmag, Reg.coreInclStatus]
    omega
theorem State.setLive_mem (s : State) (c : Nat) (i : Incl) : (s.setLive c i).mem = s.mem := (s.setLive_spares c i).mem
theorem State.setLive_core (s : State) (c : Nat) (i : Incl) (d : Nat) : (s.setLive c i).core d = s.core d := (s.setLive_spares c i).core d
theorem State.setLive_elem (s : State) (c : Nat) (i : Incl) : (s.setLive c i).fld (Reg.coreInclElem c) F.coreInclElemCount = i.elem % 2 ^ 48 :=
  (State.fld_of_rd _ ((s.setLive_spares c i).rd _ (.inl le_rfl))).trans (s.fld_putF _ _ _ (by decide) (by decide))
theorem State.setLive_faults (s : State) (c : Nat) (i : Incl) :
    (s.setLive c i).fld (Reg.coreInclStatus c) F.coreInclStatusArithFaults = i.faults % 2 ^ 16 := by
  unfold State.setLive State.putB
  dsimp only
  rw [State.fld_putF_apart _ _ _ (by decide) (by decide), State.fld_putF_apart _ _ _ (by decide) (by decide)]
  exact State.fld_putF _ _ _ _ (by decide) (by decide)
/-- A record is formed: the bytes of the live counters are kept, which then go on from the held ones. -/
theorem State.formRecord_on (s : State) (c tid due : Nat) :
    s.formRecord c tid due true = (s.setLive c (s.core c).held).setCore c
      { s.core c with records := (due, (s.live c).record tid ((s.rd (Reg.coreStep c)).toNat % 2 ^ 32) 1 false) :: (s.core c).records,
                      held := {}, formed := (s.core c).formed + 1, recordDue := none } := by
  unfold State.formRecord State.modCore
  rw [if_neg (by decide)]
  dsimp only
  rw [State.setLive_core]
theorem inclElem_notCycle (c : Nat) : ¬ cycleReg (Reg.coreInclElem c) := by
  rintro ⟨d, h | ⟨i, hi, h⟩⟩
  · unfold Reg.coreInclElem Reg.coreStretch at h; omega
  · unfold Reg.coreInclElem Reg.corePmc at h; omega
theorem inclStatus_notCycle (c : Nat) : ¬ cycleReg (Reg.coreInclStatus c) := by
  rintro ⟨d, h | ⟨i, hi, h⟩⟩
  · unfold Reg.coreInclStatus Reg.coreStretch at h; omega
  · unfold Reg.coreInclStatus Reg.corePmc at h; omega
/-- The state in which a core's one write lands, in its own cycle. -/
def State.landing1 (s : State) (t : At) (c due : Nat) : State := { (s.at t).setCore c { s.core c with landing := [] } with clk := due }
theorem State.landing1_core (s : State) (t : At) (c due : Nat) : (s.landing1 t c due).core c = { s.core c with landing := [] } :=
  State.core_setCore _ _ _
theorem State.landing1_mem (s : State) (t : At) (c due : Nat) : (s.landing1 t c due).mem = s.mem := rfl
theorem State.landing1_live (s : State) (t : At) (c due : Nat) : (s.landing1 t c due).live c = s.live c := rfl
theorem State.landing1_rd (s : State) (t : At) (c due a : Nat) : (s.landing1 t c due).rd a = s.rd a := rfl
/-- Where nothing holds the write back (a vault's port is another case), landing is its effect in its cycle. -/
theorem State.landed_eq (s : State) (t : At) (c : Nat) (x : Landing) (h : ∀ off data po, x.eff ≠ .vault off data po) :
    s.landed t c x = { (s.landing1 t c x.due).apply c x.eff with clk := t.cyc } := by
  unfold State.landed State.land State.landing1
  dsimp only
  split
  · next heff => exact absurd heff (h _ _ _)
  · rfl
/-- The core's record once a record of some bytes is formed and nothing is on its way. -/
def Core.formedWith (k : Core) (due : Nat) (b : List Byte) : Core :=
  { k with landing := [], held := {}, formed := k.formed + 1, recordDue := none, records := (due, b) :: k.records }
theorem State.landed_form (s : State) (t : At) (c due tid : Nat) : s.landed t c ⟨due, 9, .form tid due true⟩ =
    { ((s.landing1 t c due).setLive c (s.core c).held).setCore c
        ((s.core c).formedWith due ((s.live c).record tid ((s.rd (Reg.coreStep c)).toNat % 2 ^ 32) 1 false)) with clk := t.cyc } := by
  refine (s.landed_eq t c _ fun _ _ _ => Eff.noConfusion).trans ?_
  show { (s.landing1 t c due).formRecord c tid due true with clk := t.cyc } = _
  rw [State.formRecord_on, State.landing1_core, State.landing1_live, State.landing1_rd]
  rfl
/-- RECORD_FORM (R72, R73, R171). -/
theorem recordForm_next (t : At) (c due tid : Nat) (s : State) (hc : c < 3072) (ha : Awake t s) (hdue : due ≤ t.cyc) (harray : (s.core c).array = none)
    (hl : (s.core c).landing = [⟨due, 9, .form tid due true⟩]) :
    ∃ u, exec (.recordForm t c) s = .next u ∧ SameBytes s u ∧ (u.core c).recordDue = none ∧ (u.core c).held = {} ∧
      (u.core c).formed = (s.core c).formed + 1 ∧
      (u.core c).records = (due, (s.live c).record tid ((s.rd (Reg.coreStep c)).toNat % 2 ^ 32) 1 false) :: (s.core c).records ∧
      u.fld (Reg.coreInclElem c) F.coreInclElemCount = (s.core c).held.elem % 2 ^ 48 ∧
      u.fld (Reg.coreInclStatus c) F.coreInclStatusArithFaults = (s.core c).held.faults % 2 ^ 16 := by
  have h := State.toCore_one hl harray hdue
  rw [State.landed_form] at h
  generalize (s.live c).record tid ((s.rd (Reg.coreStep c)).toNat % 2 ^ 32) 1 false = b at h ⊢
  obtain ⟨v, hv⟩ : ∃ v, (s.landing1 t c due).setLive c (s.core c).held = v := ⟨_, rfl⟩
  rw [hv] at h
  obtain ⟨q, w, n, hcore⟩ := h.core
  rw [show ∀ k : Core, ({ v.setCore c k with clk := t.cyc } : State).core c = k from fun _ => State.core_setCore _ _ _] at hcore
  refine ⟨_, (exec_recordForm t c s).trans (onCore_looks hc ha), .of_mem (h.mem.trans ?_), by rw [hcore]; rfl, by rw [hcore]; rfl, by rw [hcore]; rfl,
    by rw [hcore]; rfl, ?_, ?_⟩
  · show v.mem = s.mem
    rw [← hv, State.setLive_mem, State.landing1_mem]
  · refine (State.fld_of_rd (s := v) _ (h.rd _ (inclElem_notCycle c))).trans ?_
    rw [← hv, State.setLive_elem]
  · refine (State.fld_of_rd (s := v) _ (h.rd _ (inclStatus_notCycle c))).trans ?_
    rw [← hv, State.setLive_faults]

/-! RECST. -/

/-- The descriptor and the formation that an enabled RECST puts on their ways. -/
def State.recstPuts (s : State) (t : At) (c e : Nat) (a b : Nat) : State :=
  ((s.modCore c fun k => { k with recordDue := some (max (t.cyc + 1) k.lastReport), gen := k.gen + 1 }).send c (max (t.cyc + 1) (s.core c).lastReport) 9
    (.form ((s.sreg c b).toNat % 2 ^ 32) (max (t.cyc + 1) (s.core c).lastReport) true)).enqueue c e t true
      (.recst ((s.sreg c a).toNat % 2 ^ 51) (max (t.cyc + 1) (s.core c).lastReport))
theorem exec_recst {t : At} {g : Gate} {s : State} (e : BitVec 2) (a b : BitVec 5) (h : Enabled t g s) :
    exec (.recst t g e a b) s = .next (if ((s.toCore t g.core).core g.core).recordDue.isSome ∨ 4 ≤ ((s.toCore t g.core).engine g.core e.toNat).queue.length
      then (s.toCore t g.core).stall g.core 1 else (s.toCore t g.core).recstPuts t g.core e.toNat a.toNat b.toNat) := by
  show execRecst t g e a b s = _
  unfold execRecst
  rw [onSlot_next _ h.1, h.2]
  rfl
theorem State.stall_frame (s : State) (c n : Nat) : (s.stall c n).mem = s.mem ∧ (s.stall c n).engines = s.engines ∧
    (s.stall c n).core c = { s.core c with heldBy := (s.core c).heldBy + n } ∧
    (s.stall c n).fld (Reg.coreStall c) F.coreStallCount = min (2 ^ 48 - 1) (s.fld (Reg.coreStall c) F.coreStallCount + n) := by
  have h := (s.bump (Reg.coreStall c) F.coreStallCount n).pmcCore_counts c 0x006 n
  unfold State.stall State.modCore
  refine ⟨h.mem, ?_, ?_, ?_⟩
  · show ((s.bump (Reg.coreStall c) F.coreStallCount n).pmcCore c 0x006 n).engines = _
    rw [h.1]; rfl
  · rw [State.core_setCore, h.core]; rfl
  · refine (State.fld_of_rd F.coreStallCount (h.2 (Reg.coreStall c) ?_)).trans (State.fld_bump _ _ _ _ (by decide) (by decide))
    simp only [List.mem_map, List.mem_range, not_exists, not_and]
    intro i _
    unfold Reg.corePmc Reg.coreStall
    omega
theorem Sends.core_eq {s u : State} {c due pri : Nat} {e : Eff} (h : Sends s u c due pri e) : ∃ l, u.core c = { s.core c with landing := l } := by
  obtain ⟨n, first, h⟩ := h
  exact ⟨_, (h.core c).trans (State.core_setCore _ _ _)⟩
theorem State.send_now (s : State) (c due pri : Nat) (e : Eff) : (s.send c due pri e).now = s.now := by
  unfold State.send
  dsimp only
  split <;> rfl
/-- An enabled instruction's descriptor joins its engine's queue; beside it the core counts. -/
theorem State.enqueue_counts (s : State) (c e : Nat) (t : At) (a : Act) : Counts (s.setEngine c e { s.engine c e with
    queue := (s.engine c e).queue ++ [{ act := a, enabled := true, seq := (s.engine c e).issued, issueCyc := t.cyc, issueTick := s.now }],
    issued := (s.engine c e).issued + 1 }) (s.enqueue c e t true a) c := State.ran_counts _ c
theorem State.recstPuts_frame (s : State) (t : At) (c e a b due : Nat) (hdue : due = max (t.cyc + 1) (s.core c).lastReport) :
    (s.recstPuts t c e a b).mem = s.mem ∧ ((s.recstPuts t c e a b).core c).recordDue = some due ∧
      ((s.recstPuts t c e a b).core c).gen = (s.core c).gen + 1 ∧
      ⟨due, 9, .form ((s.sreg c b).toNat % 2 ^ 32) due true⟩ ∈ ((s.recstPuts t c e a b).core c).landing ∧
      ((s.recstPuts t c e a b).engine c e).queue = (s.engine c e).queue ++
        [{ act := .recst ((s.sreg c a).toNat % 2 ^ 51) due, seq := (s.engine c e).issued, issueCyc := t.cyc, issueTick := s.now }] := by
  unfold State.recstPuts
  rw [← hdue]
  generalize Eff.form ((s.sreg c b).toNat % 2 ^ 32) due true = f
  generalize Act.recst ((s.sreg c a).toNat % 2 ^ 51) due = x
  generalize hm : s.modCore c (fun k => { k with recordDue := some (max (t.cyc + 1) k.lastReport), gen := k.gen + 1 }) = m
  have hmcore : m.core c = { s.core c with recordDue := some due, gen := (s.core c).gen + 1 } := by rw [← hm, hdue]; exact State.core_setCore _ _ _
  have hsends := m.send_sends c due 9 f
  obtain ⟨l, hl⟩ := hsends.core_eq
  have hcounts := (m.send c due 9 f).enqueue_counts c e t x
  have hcore : ((m.send c due 9 f).enqueue c e t true x).core c = (m.send c due 9 f).core c := hcounts.core c
  have hengine := (hcounts.engine c e).trans (State.engine_setEngine _ _ _ _)
  rw [State.engine_send, State.send_now] at hengine
  refine ⟨hcounts.mem.trans (hsends.keeps.mem.trans (by rw [← hm]; rfl)), ?_, ?_, ?_, ?_⟩
  · rw [hcore, hl, hmcore]
  · rw [hcore, hl, hmcore]
  · rw [hcore]
    exact hsends.lands
  · rw [hengine, ← hm]
    rfl
/-- RECST (R73, R97, R171). -/
theorem recst_next (t : At) (g : Gate) (e : BitVec 2) (a b : BitVec 5) (s s1 : State) (due : Nat) (h : Enabled t g s) (h1 : s1 = s.toCore t g.core)
    (hdue : due = max (t.cyc + 1) (s1.core g.core).lastReport) :
    ∃ u, exec (.recst t g e a b) s = .next u ∧ SameBytes s1 u ∧
      ((s1.core g.core).recordDue = none → (s1.engine g.core e.toNat).queue.length < 4 →
        (u.core g.core).recordDue = some due ∧ (u.core g.core).gen = (s1.core g.core).gen + 1 ∧
        ⟨due, 9, .form ((s1.sreg g.core b.toNat).toNat % 2 ^ 32) due true⟩ ∈ (u.core g.core).landing ∧
        (u.engine g.core e.toNat).queue = (s1.engine g.core e.toNat).queue ++
          [{ act := .recst ((s1.sreg g.core a.toNat).toNat % 2 ^ 51) due, seq := (s1.engine g.core e.toNat).issued, issueCyc := t.cyc, issueTick := s1.now }]) ∧
      ((s1.core g.core).recordDue ≠ none ∨ 4 ≤ (s1.engine g.core e.toNat).queue.length →
        u.engines = s1.engines ∧ (u.core g.core).recordDue = (s1.core g.core).recordDue ∧
        u.fld (Reg.coreStall g.core) F.coreStallCount = min (2 ^ 48 - 1) (s1.fld (Reg.coreStall g.core) F.coreStallCount + 1)) := by
  have hexec := exec_recst e a b h
  rw [← h1] at hexec
  by_cases hwait : (s1.core g.core).recordDue.isSome ∨ 4 ≤ (s1.engine g.core e.toNat).queue.length
  · rw [if_pos hwait] at hexec
    obtain ⟨hmem, hengines, hcore, hstall⟩ := s1.stall_frame g.core 1
    refine ⟨_, hexec, .of_mem hmem, fun hnone hroom => ?_, fun _ => ⟨hengines, by rw [hcore], hstall⟩⟩
    rw [hnone] at hwait
    exact absurd (hwait.resolve_left (by decide)) (Nat.not_le.2 hroom)
  · rw [if_neg hwait] at hexec
    obtain ⟨hmem, hrest⟩ := s1.recstPuts_frame t g.core e.toNat a.toNat b.toNat due hdue
    exact ⟨_, hexec, .of_mem hmem, fun _ _ => hrest, fun hw => absurd (hw.imp_left Option.isSome_iff_ne_none.2) hwait⟩

/-- Settles O24: an issue and a stall by RECST's two branches, a formation as the one landing of the core's cycle. -/
theorem inclusionRecords : Obligations.InclusionRecords := by
  refine ⟨fun t g e a b s s1 due h h1 hdue => recst_next t g e a b s s1 due h h1 hdue, ?_⟩
  exact fun t c due tid s hc ha hdue harray hl => recordForm_next t c due tid s hc ha hdue harray hl
end Sys2Proof.Machine
end
section
/-! The array's delayed results: a fold's accumulator row and a checksum instruction's predicate (R79, R80, R106). -/
namespace Sys2Proof.Machine

/-! Predicates (R99). -/

theorem bit_eq_testBit (n i : Nat) : bit n i = n.testBit i := (Nat.testBit_eq_decide_div_mod_eq ..).symm
theorem State.preg_eq (s : State) (c : Nat) {p : Nat} (hp : p < 8) : s.preg c p = (decide (p = 0) || (s.rd (Reg.corePred c)).getLsbD p) := by
  unfold State.preg State.fld
  rw [bit_eq_testBit, Fld.testBit_get]
  by_cases h : p = 0
  · simp [h]
  · simp [h, F.corePredP, Fld.width, hp]
/-- A predicate that is written reads back; p0 reads as 1. -/
theorem State.preg_setP (s : State) (c : Nat) {p : Nat} (v : Bool) (hp : p < 8) : (s.setP c p v).preg c p = (decide (p = 0) || v) := by
  rw [State.preg_eq _ _ hp]
  by_cases h : p = 0
  · simp [h]
  · unfold State.setP
    rw [if_neg h]
    exact congrArg _ (State.flag_putB s (Reg.corePred c) ⟨p, p⟩ v (by simp; omega) rfl)
theorem State.preg_setP_ne (s : State) (c : Nat) {p q : Nat} (v : Bool) (hq : q < 8) (h : q ≠ p) : (s.setP c p v).preg c q = s.preg c q := by
  rw [State.preg_eq _ _ hq, State.preg_eq _ _ hq]
  unfold State.setP
  split
  · rfl
  · exact congrArg _ (State.flag_putF_apart s (Reg.corePred c) (f := ⟨q, q⟩) (g := ⟨p, p⟩) (b2n v) (by simp; omega) (by simp; omega))
theorem State.preg_of_rd {s u : State} {c : Nat} (h : u.rd (Reg.corePred c) = s.rd (Reg.corePred c)) (p : Nat) : u.preg c p = s.preg c p := by
  unfold State.preg
  rw [State.fld_of_rd _ h]
theorem State.setP_mem (s : State) (c p : Nat) (v : Bool) : (s.setP c p v).mem = s.mem := by
  unfold State.setP
  split <;> rfl
theorem State.setP_core (s : State) (c p : Nat) (v : Bool) (d : Nat) : (s.setP c p v).core d = s.core d := by
  unfold State.setP
  split <;> rfl

/-! A report (R70, R73, R80). -/

/-- A report arrives: memory, the predicates and what is on its way stay. -/
structure Reports (c : Nat) (s u : State) : Prop where
  mem : u.mem = s.mem
  landing : (u.core c).landing = (s.core c).landing
  pred : u.rd (Reg.corePred c) = s.rd (Reg.corePred c)

theorem Reports.refl (c : Nat) (s : State) : Reports c s s := ⟨rfl, rfl, rfl⟩
theorem Reports.trans {c : Nat} {s u v : State} (h : Reports c s u) (k : Reports c u v) : Reports c s v :=
  ⟨k.mem.trans h.mem, k.landing.trans h.landing, k.pred.trans h.pred⟩
theorem State.modCore_reports (s : State) (c : Nat) (f : Core → Core) (h : (f (s.core c)).landing = (s.core c).landing) : Reports c s (s.modCore c f) :=
  ⟨rfl, (congrArg Core.landing (s.core_setCore c _)).trans h, rfl⟩
theorem State.setLive_reports (s : State) (c : Nat) (i : Incl) : Reports c s (s.setLive c i) := by
  refine ⟨s.setLive_mem c i, by rw [State.setLive_core], ((s.setLive_spares c i).rd _ (.inr ?_)).trans (s.rd_putF_ne _ _ ?_)⟩
  · unfold Reg.corePred Reg.coreInclStatus; omega
  · unfold Reg.corePred Reg.coreInclElem; omega
theorem Reports.boundary {c : Nat} {s u : State} (h : Reports c s u) (b : Boundary) : Reports c s { u with boundary := b } := h.trans ⟨rfl, rfl, rfl⟩
theorem State.log_reports (s : State) (c code source : Nat) (args : List Nat) : Reports c s (s.log code source args) := by
  have h := s.log_logs code source args
  refine ⟨h.mem, by rw [h.1]; rfl, h.rd ?_⟩
  unfold Reg.corePred Reg.onxLogStatus
  omega
theorem State.noteFaults_reports (s : State) (c n : Nat) : Reports c s (s.noteFaults c n) := by
  have hraise : Reports c s (s.raiseBit (Reg.coreInclStatus c) F.coreInclStatusArithFaultSticky) :=
    ⟨rfl, rfl, State.rd_raiseBit_ne _ _ (by unfold Reg.corePred Reg.coreInclStatus; omega)⟩
  unfold State.noteFaults
  dsimp only
  split
  · exact .refl c s
  · split
    · exact hraise.boundary _
    · exact ((hraise.boundary _).trans (State.modCore_reports _ _ _ rfl)).trans (State.log_reports _ _ _ _ _)
theorem State.report_reports (s : State) (c gen : Nat) (i : Incl) : Reports c s (s.report c gen i) := by
  unfold State.report
  dsimp only
  refine Reports.trans ?_ (State.noteFaults_reports _ _ _)
  split
  · exact s.modCore_reports c _ rfl
  · exact s.setLive_reports c _

/-! The landings. -/

/-- A core's registers outside the counters of cycles: neither a row of its accumulators, a scalar register nor its predicates. -/
theorem accReg_notCycle (c a m w : Nat) (ha : a < 2) (hm : m < 64) (hw : w < 32) : ¬ cycleReg (Reg.coreAcc c a m 0 + 8 * w) := by
  rintro ⟨d, h | ⟨i, hi, h⟩⟩
  · unfold Reg.coreAcc Reg.coreStretch at h; omega
  · unfold Reg.coreAcc Reg.corePmc at h; omega
theorem sReg_notCycle (c r : Nat) (hr : r < 32) : ¬ cycleReg (Reg.coreS c r) := by
  rintro ⟨d, h | ⟨i, hi, h⟩⟩
  · unfold Reg.coreS Reg.coreStretch at h; omega
  · unfold Reg.coreS Reg.corePmc at h; omega
theorem predReg_notCycle (c : Nat) : ¬ cycleReg (Reg.corePred c) := by
  rintro ⟨d, h | ⟨i, hi, h⟩⟩
  · unfold Reg.corePred Reg.coreStretch at h; omega
  · unfold Reg.corePred Reg.corePmc at h; omega
theorem State.accRow_of_rd {s u : State} {c a m : Nat} (h : ∀ w < 32, u.rd (Reg.coreAcc c a m 0 + 8 * w) = s.rd (Reg.coreAcc c a m 0 + 8 * w)) :
    u.accRow c a m = s.accRow c a m := State.row_congr 32 _ h
theorem State.accRow_length (s : State) (c a m : Nat) : (s.accRow c a m).length = 64 := s.row_length 32 _
theorem State.sreg_of_rd {s u : State} {c r : Nat} (h : u.rd (Reg.coreS c r) = s.rd (Reg.coreS c r)) : u.sreg c r = s.sreg c r := by
  unfold State.sreg
  rw [h]
/-- A row of an accumulator set is written: it reads back, cut to its lanes' bits; other rows and the scalar registers stay. -/
theorem State.setAccRow_frame (s : State) (c : Nat) {a m : Nat} {l : List Nat} (hm : m < 64) (hl : l.length = 64) :
    (s.setAccRow c a m l).accRow c a m = l.map (· % 2 ^ 32) ∧
      (∀ b n w, b < 2 → n < 64 → w < 32 → (b ≠ a ∨ n ≠ m) → a < 2 → (s.setAccRow c a m l).rd (Reg.coreAcc c b n 0 + 8 * w) = s.rd (Reg.coreAcc c b n 0 + 8 * w)) ∧
      (∀ r, r < 32 → (s.setAccRow c a m l).rd (Reg.coreS c r) = s.rd (Reg.coreS c r)) := by
  refine ⟨s.row_setRow 32 _ l hl, fun b n w hb hn hw hne ha => ?_, fun r hr => ?_⟩
  · refine State.setRow_rd 32 s _ l hl fun i hi => ?_
    unfold Reg.coreAcc
    omega
  · refine State.setRow_rd 32 s _ l hl fun i hi => ?_
    unfold Reg.coreAcc Reg.coreS
    omega
theorem exec_arrayFoldWrite (t : At) (c : Nat) (s : State) : exec (.arrayFoldWrite t c) s = onCore t c s (fun s => s) := rfl
theorem exec_checksumResult (t : At) (c : Nat) (s : State) : exec (.checksumResult t c) s = onCore t c s (fun s => s) := rfl
theorem State.landing1_accRow (s : State) (t : At) (c due a m : Nat) : (s.landing1 t c due).accRow c a m = s.accRow c a m :=
  State.accRow_of_rd fun _ _ => rfl
/-- A fold, landed: its row is written. -/
theorem State.landed_fold (s : State) (t : At) (c due a m : Nat) (row : List Contrib) : s.landed t c ⟨due, 2, .fold a m row⟩ =
    { (s.landing1 t c due).setAccRow c a m (List.zipWith foldAcc (s.accRow c a m) row) with clk := t.cyc } := by
  refine (s.landed_eq t c _ fun _ _ _ => Eff.noConfusion).trans ?_
  show { (s.landing1 t c due).setAccRow c a m (List.zipWith foldAcc ((s.landing1 t c due).accRow c a m) row) with clk := t.cyc } = _
  rw [State.landing1_accRow]
/-- ARRAY_FOLD_WRITE (R106). -/
theorem arrayFoldWrite_next (t : At) (c due : Nat) (s : State) (a m : Nat) (row : List Contrib) (hc : c < 3072) (haw : Awake t s) (hdue : due ≤ t.cyc)
    (harray : (s.core c).array = none) (hl : (s.core c).landing = [⟨due, 2, .fold a m row⟩]) (ha : a < 2) (hm : m < 64) (hrow : row.length = 64) :
    ∃ u, exec (.arrayFoldWrite t c) s = .next u ∧ (u.core c).landing = [] ∧ SameBytes s u ∧
      u.accRow c a m = (List.zipWith foldAcc (s.accRow c a m) row).map (· % 2 ^ 32) ∧
      (∀ b n, b < 2 → n < 64 → (b ≠ a ∨ n ≠ m) → u.accRow c b n = s.accRow c b n) ∧ (∀ r, r < 32 → u.sreg c r = s.sreg c r) := by
  have h := State.toCore_one hl harray hdue
  rw [State.landed_fold] at h
  have hlen : (List.zipWith foldAcc (s.accRow c a m) row).length = 64 := by rw [List.length_zipWith, State.accRow_length, hrow]; rfl
  generalize List.zipWith foldAcc (s.accRow c a m) row = l at h hlen ⊢
  obtain ⟨hsame, hother, hsreg⟩ := (s.landing1 t c due).setAccRow_frame c (a := a) hm hlen
  obtain ⟨regs, honly⟩ := State.setRow_only l (s.landing1 t c due) (Reg.coreAcc c a m 0)
  obtain ⟨v, hv⟩ : ∃ v, (s.landing1 t c due).setAccRow c a m l = v := ⟨_, rfl⟩
  change (s.landing1 t c due).setAccRow c a m l = _ at honly
  rw [hv] at h hsame hother hsreg honly
  have hrd : ∀ x, ¬ cycleReg x → (s.toCore t c).rd x = v.rd x := h.rd
  have hvcore : v.core c = { s.core c with landing := [] } := by rw [honly]; exact s.landing1_core t c due
  obtain ⟨q, w, n, hcore⟩ := h.core
  refine ⟨_, (exec_arrayFoldWrite t c s).trans (onCore_looks hc haw), ?_, .of_mem (h.mem.trans ?_), ?_, fun b n hb hn hne => ?_, fun r hr => ?_⟩
  · rw [hcore]
    show (v.core c).landing = []
    rw [hvcore]
  · show v.mem = s.mem
    rw [honly]
    rfl
  · exact (State.accRow_of_rd fun w hw => hrd _ (accReg_notCycle c a m w ha hm hw)).trans hsame
  · exact State.accRow_of_rd fun w hw => (hrd _ (accReg_notCycle c b n w hb hn hw)).trans (hother b n w hb hn hw hne ha)
  · exact State.sreg_of_rd ((hrd _ (sReg_notCycle c r hr)).trans (hsreg r hr))

/-- The number of checked columns that fault. -/
def faultCount (cols : List Column) (alpha beta : Nat) : Nat := (cols.filter fun k => k.faults alpha beta).length
theorem faultCount_pos (cols : List Column) (alpha beta : Nat) : decide (0 < faultCount cols alpha beta) = cols.any fun k => k.faults alpha beta := by
  unfold faultCount
  rw [Bool.eq_iff_iff, decide_eq_true_iff, List.length_pos_iff, ne_eq, List.filter_eq_nil_iff, List.any_eq_true]
  simp
/-- A checksum instruction's result, landed: its predicate is written and the faulting columns are reported. -/
theorem State.landed_check (s : State) (t : At) (c due pd gen : Nat) (cols : List Column) (alpha beta : Nat) :
    s.landed t c ⟨due, 2, .check pd gen cols alpha beta⟩ = { ((s.landing1 t c due).setP c pd (cols.any fun k => k.faults alpha beta)).report c gen
      { faults := faultCount cols alpha beta } with clk := t.cyc } := by
  rw [← faultCount_pos]
  exact s.landed_eq t c _ fun _ _ _ => Eff.noConfusion
/-- CHECKSUM_RESULT (R79, R80). -/
theorem checksumResult_next (t : At) (c due : Nat) (s : State) (pd gen : Nat) (cols : List Column) (alpha beta : Nat) (hc : c < 3072) (ha : Awake t s)
    (hdue : due ≤ t.cyc) (harray : (s.core c).array = none) (hl : (s.core c).landing = [⟨due, 2, .check pd gen cols alpha beta⟩]) (hpd : pd < 8) :
    ∃ u, exec (.checksumResult t c) s = .next u ∧ (u.core c).landing = [] ∧ SameBytes s u ∧
      u.preg c pd = (pd = 0 || cols.any fun k => k.faults alpha beta) ∧ (∀ p, p < 8 → p ≠ pd → u.preg c p = s.preg c p) := by
  have h := State.toCore_one hl harray hdue
  rw [State.landed_check] at h
  generalize (cols.any fun k => k.faults alpha beta) = b at h ⊢
  have hreports := ((s.landing1 t c due).setP c pd b).report_reports c gen { faults := faultCount cols alpha beta }
  obtain ⟨v, hv⟩ : ∃ v, ((s.landing1 t c due).setP c pd b).report c gen { faults := faultCount cols alpha beta } = v := ⟨_, rfl⟩
  rw [hv] at h hreports
  have hpred : (s.toCore t c).rd (Reg.corePred c) = ((s.landing1 t c due).setP c pd b).rd (Reg.corePred c) := (h.rd _ (predReg_notCycle c)).trans hreports.pred
  obtain ⟨q, w, n, hcore⟩ := h.core
  refine ⟨_, (exec_checksumResult t c s).trans (onCore_looks hc ha), ?_, .of_mem (h.mem.trans (hreports.mem.trans (State.setP_mem _ _ _ _))), ?_, fun p hp hne => ?_⟩
  · rw [hcore]
    show (v.core c).landing = []
    rw [hreports.landing, State.setP_core, State.landing1_core]
  · rw [State.preg_of_rd hpred, State.preg_setP _ _ _ hpd]
  · rw [State.preg_of_rd hpred, State.preg_setP_ne _ _ _ hp hne]
    rfl
end Sys2Proof.Machine
end
section
/-! The governed issue of a matrix-array instruction (R126, R203). -/
namespace Sys2Proof.Machine

/-! A command's second look at a core that it has brought to its cycle. -/

theorem State.at_self {s : State} {t : At} (hnow : t.tick ≤ s.now) (hclk : s.clk = t.cyc) : s.at t = s := by
  unfold State.at
  rw [max_eq_left hnow, ← hclk]
/-! Landing leaves the device's time alone (R293). -/

theorem State.setRow_now (s : State) (a : Nat) (l : List Nat) : (s.setRow a l).now = s.now := by
  obtain ⟨regs, h⟩ := State.setRow_only l s a
  rw [h]
theorem State.setAccRow_now (s : State) (c a m : Nat) (l : List Nat) : (s.setAccRow c a m l).now = s.now := s.setRow_now _ l
theorem State.setBytes_now (s : State) (a : Nat) (l : List Byte) : (s.setBytes a l).now = s.now := by rw [State.setBytes_only]
theorem State.setMarks_now (s : State) (m : Mark) (l : List Nat) : (s.setMarks m l).now = s.now := by rw [State.setMarks_only]
theorem State.unmerge_now (s : State) (c : Nat) (l : List Nat) : (s.unmerge c l).now = s.now := by rw [State.unmerge_only]
theorem Cycles.now {c : Nat} {s u : State} (h : Cycles c s u) : u.now = s.now := by rw [h.only]
theorem State.vaultWrite_now (s : State) (c off : Nat) (d : List Byte) (p : List Nat) : (s.vaultWrite c off d p).now = s.now := by
  have h : ∀ m n ws ls, (((((s.drainWb c s.clk).setBytes n d).setMarks .good ws).setMarks .poison m).unmerge c ls).now = s.now := fun m n ws ls => by
    rw [State.unmerge_now, State.setMarks_now, State.setMarks_now, State.setBytes_now, (s.drainWb_cycles c s.clk).now]
  unfold State.vaultWrite
  dsimp only
  split
  · exact h _ _ _ _
  · rw [State.setCore_now]
    exact h _ _ _ _
theorem State.bufferWrite_now (s : State) (c half off : Nat) (d : List Byte) (p : List Nat) : (s.bufferWrite c half off d p).now = s.now := by
  unfold State.bufferWrite
  dsimp only
  rw [State.setMarks_now, State.setMarks_now, State.setBytes_now]
theorem State.clearAcc_now (s : State) (c a : Nat) : (s.clearAcc c a).now = s.now := by
  unfold State.clearAcc
  generalize List.range 64 = l
  induction l generalizing s with
  | nil => rfl
  | cons m l ih => rw [List.foldl_cons, ih, State.setAccRow_now]
theorem State.setLive_now (s : State) (c : Nat) (i : Incl) : (s.setLive c i).now = s.now := by rw [(s.setLive_spares c i).only]; rfl
theorem State.noteFaults_now (s : State) (c n : Nat) : (s.noteFaults c n).now = s.now := by
  unfold State.noteFaults
  dsimp only
  split
  · rfl
  · split
    · rfl
    · rw [(State.log_logs _ _ _ _).1]
      rfl
theorem State.report_now (s : State) (c gen : Nat) (i : Incl) : (s.report c gen i).now = s.now := by
  unfold State.report
  dsimp only
  rw [State.noteFaults_now]
  split
  · rfl
  · exact s.setLive_now _ _
theorem State.formRecord_now (s : State) (c tid due : Nat) (on : Bool) : (s.formRecord c tid due on).now = s.now := by
  cases on
  · rfl
  · rw [State.formRecord_on, State.setCore_now, State.setLive_now]
theorem State.apply_now (s : State) (c : Nat) (e : Eff) : (s.apply c e).now = s.now := by
  cases e with
  | setS r v => unfold State.apply State.setS; dsimp only; split <;> rfl
  | setP p v => unfold State.apply State.setP; dsimp only; split <;> rfl
  | setV v l => exact s.setRow_now _ l
  | vault off d p => exact s.vaultWrite_now _ _ _ _
  | buffer half off d p => exact s.bufferWrite_now _ _ _ _ _
  | accRow a m l => exact s.setAccRow_now _ _ _ l
  | accClear a => exact s.clearAcc_now _ _
  | fold a m row => exact s.setAccRow_now _ _ _ _
  | report gen i => exact s.report_now _ _ _
  | check pd gen cols al be =>
    refine (State.report_now _ _ _ _).trans ?_
    unfold State.setP
    split <;> rfl
  | form tid due on => exact s.formRecord_now _ _ _ _
theorem State.land_now (s : State) (c : Nat) (x : Landing) : (s.land c x).now = s.now := by
  unfold State.land
  dsimp only
  split
  · split
    · rfl
    · split
      · rfl
      · exact State.apply_now _ _ _
  · exact State.apply_now _ _ _
theorem State.arrayRows_now (c b : Nat) (l : List Nat) (s : State) (o : ArrayOp) : (s.arrayRows c o b l).1.now = s.now := by
  induction l generalizing s o with
  | nil => rfl
  | cons m r ih =>
    unfold State.arrayRows
    dsimp only
    rw [ih, State.send_now]
theorem State.arrayEnd_now (s : State) (c : Nat) (o : ArrayOp) : (s.arrayEnd c o).now = s.now := by
  unfold State.arrayEnd
  split
  · rfl
  · split
    · exact State.send_now _ _ _ _ _
    · exact (State.send_now _ _ _ _ _).trans (State.send_now _ _ _ _ _)
theorem State.arrayCycle_now (s : State) (c : Nat) (o : ArrayOp) : (s.arrayCycle c o).now = s.now := by
  obtain ⟨p, hp⟩ : ∃ p, (if o.enabled then s.arrayRows c o (o.next / (64 / o.rows)) ((List.range o.rows).map fun i => o.rows * (o.next % (64 / o.rows)) + i)
      else (s, o)) = p := ⟨_, rfl⟩
  have hnow : p.1.now = s.now := by
    rw [← hp]
    split
    · exact State.arrayRows_now _ _ _ _ _
    · rfl
  unfold State.arrayCycle
  dsimp only
  rw [hp]
  split
  · exact hnow
  · exact (State.arrayEnd_now _ _ _).trans hnow
theorem State.landSteps_now (c upto n : Nat) (s : State) : (s.landSteps c upto n).now = s.now := by
  induction n generalizing s with
  | zero => rfl
  | succ n ih =>
    have hland : ∀ r x, (((s.setCore c { s.core c with landing := r }).land c x).landSteps c upto n).now = s.now := fun r x =>
      (ih _).trans (State.land_now _ _ _)
    have harray : ∀ o, ((s.arrayCycle c o).landSteps c upto n).now = s.now := fun o => (ih _).trans (s.arrayCycle_now c o)
    unfold State.landSteps
    dsimp only
    split
    · rfl
    · split
      · exact hland _ _
      · rfl
    · split
      · exact harray _
      · rfl
    · split
      · split
        · exact hland _ _
        · rfl
      · split
        · exact harray _
        · rfl
/-- The moment of a command stands in a core that was brought to it. -/
theorem State.toCore_moment (s : State) (t : At) (c : Nat) : t.tick ≤ (s.toCore t c).now ∧ (s.toCore t c).clk = t.cyc := by
  have honly : s.toCore t c = _ := ((s.at t).toCycle_cycles c t.cyc).only
  have hnow : ((s.at t).landCore c t.cyc ((s.at t).core c).work).now = (s.at t).now := State.landSteps_now _ _ _ _
  rw [honly]
  exact ⟨hnow ▸ le_max_right _ _, rfl⟩
theorem State.Still.toCore {s : State} {t : At} {c : Nat} (h : s.Still c t.cyc) (hnow : t.tick ≤ s.now) (hclk : s.clk = t.cyc) : s.toCore t c = s := by
  unfold State.toCore
  rw [State.at_self hnow hclk, h.toCycle]
/-- Ending a core's wait leaves it still. -/
theorem State.Still.unwait {s : State} {c cyc : Nat} (h : s.Still c cyc) (w : Wait) : (s.setCore c { s.core c with wait := w }).Still c cyc := by
  have hcore : (s.setCore c { s.core c with wait := w }).core c = { s.core c with wait := w } := State.core_setCore _ _ _
  exact ⟨by rw [hcore]; exact h.landing, by rw [hcore]; exact h.array, by rw [hcore]; exact h.drained, by rw [hcore]; exact h.seen, h.droops⟩

/-! The issue. -/

/-- What CORE_GOV counts is no performance counter. -/
theorem govReg_notPmc (c : Nat) : Reg.coreGov c ∉ (List.range 8).map (Reg.corePmc c) := by
  simp only [List.mem_map, List.mem_range, not_exists, not_and]
  intro i _
  unfold Reg.corePmc Reg.coreGov
  omega
theorem govReg_ne_twrGov {c : Nat} (hc : c < 3072) (t col : Nat) : Reg.coreGov c ≠ Reg.twrGov t col := by
  unfold Reg.coreGov Reg.twrGov
  omega
/-- A delayed instruction issues: the core's delay ends and CORE_GOV counts its cycles. -/
theorem State.countGoverned_frame (s : State) {c : Nat} (cyc : Nat) {d : Governed} (hc : c < 3072) (hd : (s.core c).governed = some d) :
    (s.countGoverned c cyc).mem = s.mem ∧
      (s.countGoverned c cyc).core c = { s.core c with governed := none, heldBy := (s.core c).heldBy + (cyc - d.due) } ∧
      (s.countGoverned c cyc).fld (Reg.coreGov c) F.coreGovCount = min (2 ^ 48 - 1) (s.fld (Reg.coreGov c) F.coreGovCount + (cyc - d.due)) := by
  have hbumps := ((Spares.refl (fun _ => False) s).bump (a := Reg.coreGov c) F.coreGovCount (cyc - d.due) id).bump
    (a := Reg.twrGov (towerOf c) (colOf c)) F.twrGovEvents 1 id
  have h := ((s.bump (Reg.coreGov c) F.coreGovCount (cyc - d.due)).bump (Reg.twrGov (towerOf c) (colOf c)) F.twrGovEvents 1).pmcCore_counts c 0x009 (cyc - d.due)
  unfold State.countGoverned State.modCore
  rw [hd]
  refine ⟨h.mem.trans hbumps.mem, ?_, ?_⟩
  · rw [State.core_setCore, h.core, hbumps.core]
  · have hgov := (h.2 _ (govReg_notPmc c)).trans (State.rd_bump_ne _ _ _ (govReg_ne_twrGov hc _ _))
    exact (State.fld_of_rd F.coreGovCount hgov).trans (State.fld_bump _ _ _ _ (by decide) (by decide))
/-- What the array's start changes of a core's record, and what it leaves: memory and every register but the performance counters. -/
structure Starts (c : Nat) (s u : State) : Prop where
  mem : u.mem = s.mem
  rd : SameRegs s u ((List.range 8).map (Reg.corePmc c))
  core : ∃ l n, u.core c = { s.core c with landing := l, lastReport := n }

theorem Starts.refl (c : Nat) (s : State) : Starts c s s := ⟨rfl, fun _ _ => rfl, ⟨_, _, rfl⟩⟩
theorem Starts.trans {c : Nat} {s u v : State} (h : Starts c s u) (k : Starts c u v) : Starts c s v := by
  obtain ⟨_, _, hcore⟩ := h.core
  obtain ⟨l, n, kcore⟩ := k.core
  exact ⟨k.mem.trans h.mem, fun a ha => (k.rd a ha).trans (h.rd a ha), l, n, by rw [kcore, hcore]⟩
theorem State.debit_starts (s : State) (c d : Nat) : Starts c s (s.debit c d) := ⟨rfl, fun _ _ => rfl, ⟨_, _, rfl⟩⟩
theorem State.send_starts (s : State) (c due pri : Nat) (e : Eff) : Starts c s (s.send c due pri e) := by
  have h := s.send_sends c due pri e
  obtain ⟨l, hl⟩ := h.core_eq
  obtain ⟨n, first, hcounts⟩ := h
  exact ⟨hcounts.mem, hcounts.2, ⟨l, _, hl⟩⟩
theorem State.reportTime_starts (s : State) (c due : Nat) : Starts c s (s.reportTime c due) := ⟨rfl, fun _ _ => rfl, ⟨_, _, State.core_setCore _ _ _⟩⟩
/-- What the array's start has put on its way before the array itself is set. -/
def State.beforeArray (s : State) (c : Nat) (o : ArrayOp) (report : Nat) : State :=
  (if o.init && o.enabled then (s.debit c o.occ).send c (o.cyc + 11) 1 (.accClear o.acc) else s.debit c o.occ).reportTime c (o.cyc + report)
theorem State.beforeArray_starts (s : State) (c : Nat) (o : ArrayOp) (report : Nat) : Starts c s (s.beforeArray c o report) := by
  unfold State.beforeArray
  refine (s.debit_starts c o.occ).trans (Starts.trans ?_ (State.reportTime_starts _ _ _))
  split
  · exact State.send_starts _ _ _ _ _
  · exact .refl c _
/-- A core whose array has taken an instruction. -/
def Core.taking (k : Core) (o : ArrayOp) : Core := { k with array := some o, arrayFree := o.cyc + o.occ }
theorem State.startArray_eq (s : State) (c : Nat) (o : ArrayOp) (report : Nat) : s.startArray c o report =
    ((s.beforeArray c o report).modCore c fun k => k.taking { o with gen := ((s.beforeArray c o report).core c).gen }).pmcCore c 0x003
      (if o.enabled then o.occ else 0) := rfl
/-- The array takes an instruction: of the core's record no more changes than what is on its way, the report's time and the array. -/
theorem State.startArray_frame (s : State) (c : Nat) (o : ArrayOp) (report : Nat) :
    (s.startArray c o report).mem = s.mem ∧ SameRegs s (s.startArray c o report) ((List.range 8).map (Reg.corePmc c)) ∧
      ∃ l n gen, (s.startArray c o report).core c = { s.core c with landing := l, lastReport := n }.taking { o with gen := gen } := by
  have h := s.beforeArray_starts c o report
  rw [State.startArray_eq]
  generalize s.beforeArray c o report = u at h ⊢
  obtain ⟨l, n, hcore⟩ := h.core
  have hcounts := (u.modCore c fun k => k.taking { o with gen := (u.core c).gen }).pmcCore_counts c 0x003 (if o.enabled then o.occ else 0)
  refine ⟨hcounts.mem.trans h.mem, fun a ha => (hcounts.2 a ha).trans (h.rd a ha), l, n, (u.core c).gen, ?_⟩
  rw [hcounts.core]
  unfold State.modCore
  rw [State.core_setCore, hcore]
/-- A matrix-array instruction within its largest K, with a free array and the governor's leave, issues; an enabled one counts. -/
theorem matrixArray_issues {t : At} {g : Gate} {s s1 : State} (i : Instr) {largest : Nat} (report : Nat) (op : State → ArrayOp) {o : ArrayOp}
    (h : Issuing t g.core s) (h1 : s.toCore t g.core = s1) (ho : o = { op s1 with cyc := t.cyc, enabled := s1.on g }) (hk : 16 * o.blocks ≤ largest)
    (hfree : (s1.core g.core).arrayFree ≤ t.cyc) (hlets : s1.governorLets g.core o.occ (s1.dueCycle g.core t.cyc) = true) :
    ∃ u, matrixArray t g i largest report op s = .next u ∧ Counts ((s1.countGoverned g.core t.cyc).startArray g.core o (o.occ + report)) u g.core := by
  subst ho
  unfold matrixArray
  rw [onSlot_next _ h, h1]
  refine ⟨_, rfl, ?_⟩
  dsimp only at hk hlets ⊢
  rw [if_neg (Nat.not_lt.2 hk), if_neg (Nat.not_lt.2 hfree), hlets, Bool.or_true, if_pos rfl]
  split
  · exact State.ran_counts _ _
  · exact Counts.refl _ _

/-- A core issues only in a device that acts. -/
theorem State.dead_of_issues {s : State} {c cyc : Nat} (h : s.issues c cyc = true) : s.dead = false := by
  have hrun : s.dev = .run := by
    unfold State.issues State.running at h
    simp only [Bool.and_eq_true, decide_eq_true_eq] at h
    exact h.1.1.1
  simp [State.dead, hrun]

/-! The governor's command. -/

theorem State.aheadInColumn_setCore (s : State) (c due : Nat) (k : Core) : (s.setCore c k).aheadInColumn c due = s.aheadInColumn c due := by
  unfold State.aheadInColumn
  congr 1
  funext l
  dsimp only
  by_cases hd : 256 * towerOf c + 64 * l + colOf c = c
  · simp [hd]
  · rw [State.core_setCore_ne _ _ hd]
    rfl
/-- The governor looks at the column's debits and at the other cores. -/
theorem State.governorLets_setCore (s : State) (c d due : Nat) (k : Core) : (s.setCore c k).governorLets c d due = s.governorLets c d due := by
  unfold State.governorLets
  rw [State.aheadInColumn_setCore]
  rfl
theorem State.runSlot_next {s u : State} {i : Instr} (h : slotMeaning i s = .next u) : s.runSlot (some i) = u := by
  unfold State.runSlot
  dsimp only
  rw [h]
/-- A delayed MMA is issued anew at the governor's command. -/
theorem exec_governorIssue_mma {t t0 : At} {c : Nat} {s s1 : State} {due : Nat} {q : Gate} {pair : BitVec 4} {acc init ah hi bh : Bool} {kb : BitVec 6}
    (hc : c < 3072) (ha : Awake t s) (h1 : s.toCore t c = s1)
    (hgov : (s1.core c).governed = some { due := due, instr := some (.mma t0 q pair acc init ah hi bh kb) }) :
    exec (.governorIssue t c) s = .next ((s1.setCore c { s1.core c with wait := .none }).runSlot (some (.mma t q pair acc init ah hi bh kb))) := by
  show execGovernorIssue t c s = _
  unfold execGovernorIssue
  rw [onCore_next _ hc ha, h1]
  dsimp only
  rw [hgov]
/-- An MMA of pairing 0: its operation in the array. -/
def f4Op (cyc : Nat) (on acc init ah hi bh : Bool) (kb : BitVec 6) : ArrayOp :=
  { cyc := cyc, fa := .f4, fb := .f4, acc := b2n acc, init := init, aHalf := 2 + b2n ah, aOff := aOffset hi, bHalf := 4 + b2n bh, blocks := blocksOf kb,
    rows := 4, enabled := on }
theorem f4Op_occ (cyc : Nat) (on acc init ah hi bh : Bool) (kb : BitVec 6) : (f4Op cyc on acc init ah hi bh kb).occ = blocksOf kb * 16 := by
  show blocksOf kb * (64 / 4) = _
  norm_num
theorem slotMeaning_mma_f4 (t : At) (g : Gate) (acc init ah hi bh : Bool) (kb : BitVec 6) (s : State) :
    slotMeaning (.mma t g 0 acc init ah hi bh kb) s =
      matrixArray t g (.mma t g 0 acc init ah hi bh kb) 1024 10 (fun _ => f4Op 0 true acc init ah hi bh kb) s := rfl
theorem blocksOf_le (kb : BitVec 6) : blocksOf kb ≤ 64 := by
  unfold blocksOf
  have := kb.isLt
  split <;> omega
/-- GOVERNOR_ISSUE of a delayed MMA that the governor lets issue (R126, R203). -/
theorem governorIssue_next (t t0 : At) (g : Gate) (acc init ah hi bh : Bool) (kb : BitVec 6) (s s1 : State) (blocks due : Nat) (hc : g.core < 3072)
    (ha : Awake t s) (h1 : s1 = s.toCore t g.core) (hl : (s1.core g.core).landing = []) (harray : (s1.core g.core).array = none)
    (hgov : (s1.core g.core).governed = some { due := due, instr := some (.mma t0 g 0 acc init ah hi bh kb) })
    (hblocks : blocks = (if kb = 0 then 64 else kb.toNat)) (hfree : (s1.core g.core).arrayFree ≤ t.cyc)
    (hlets : s1.governorLets g.core (blocks * 16) due = true)
    (hissues : (s1.setCore g.core { s1.core g.core with wait := .none }).issues g.core t.cyc = true) :
    ∃ u, exec (.governorIssue t g.core) s = .next u ∧ SameBytes s1 u ∧ (u.core g.core).wait = .none ∧ (u.core g.core).governed = none ∧
      (u.core g.core).arrayFree = t.cyc + blocks * 16 ∧
      u.fld (Reg.coreGov g.core) F.coreGovCount = min (2 ^ 48 - 1) (s1.fld (Reg.coreGov g.core) F.coreGovCount + (t.cyc - due)) ∧
      ∃ o, (u.core g.core).array = some o ∧ o.cyc = t.cyc ∧ o.blocks = blocks ∧ o.fa = .f4 ∧ o.fb = .f4 ∧ o.rows = 4 ∧
        o.enabled = s1.on g ∧ o.acc = b2n acc := by
  replace hblocks : blocks = blocksOf kb := hblocks
  have hstill : s1.Still g.core t.cyc := by
    rw [h1] at hl harray ⊢
    exact State.toCycle_still hl harray
  obtain ⟨hnow, hclk⟩ := s.toCore_moment t g.core
  rw [← h1] at hnow hclk
  have hexec := exec_governorIssue_mma hc ha h1.symm hgov
  obtain ⟨s2, hs2⟩ : ∃ s2, s1.setCore g.core { s1.core g.core with wait := .none } = s2 := ⟨_, rfl⟩
  rw [hs2] at hexec hissues
  have hself : s2.at t = s2 := by rw [← hs2]; exact State.at_self hnow hclk
  have hagain : s2.toCore t g.core = s2 := by rw [← hs2]; exact (hstill.unwait .none).toCore hnow hclk
  have hk : s2.core g.core = { s1.core g.core with wait := .none } := by rw [← hs2, State.core_setCore]
  have hgov2 : (s2.core g.core).governed = some { due := due, instr := some (.mma t0 g 0 acc init ah hi bh kb) } := by rw [hk]; exact hgov
  have hdue : s2.dueCycle g.core t.cyc = due := by unfold State.dueCycle; rw [hgov2]
  have hissuing : Issuing t g.core s2 := ⟨hc, by rw [hself]; exact State.dead_of_issues hissues, by rw [hagain]; exact hissues⟩
  have hle := blocksOf_le kb
  obtain ⟨w, hw, hcounts⟩ := matrixArray_issues (.mma t g 0 acc init ah hi bh kb) 10 (fun _ => f4Op 0 true acc init ah hi bh kb) hissuing hagain
    (o := f4Op t.cyc (s2.on g) acc init ah hi bh kb) (largest := 1024) rfl (by show 16 * blocksOf kb ≤ 1024; omega) (by rw [hk]; exact hfree)
    (by rw [hdue, ← hs2, State.governorLets_setCore, f4Op_occ]; rw [hblocks] at hlets; exact hlets)
  rw [State.runSlot_next ((slotMeaning_mma_f4 t g acc init ah hi bh kb s2).trans hw)] at hexec
  obtain ⟨hcmem, hccore, hcount⟩ := s2.countGoverned_frame t.cyc hc hgov2
  obtain ⟨hsmem, hsrd, l, n, gen, hscore⟩ := (s2.countGoverned g.core t.cyc).startArray_frame g.core (f4Op t.cyc (s2.on g) acc init ah hi bh kb)
    ((f4Op t.cyc (s2.on g) acc init ah hi bh kb).occ + 10)
  have hcore := (hcounts.core g.core).trans hscore
  rw [hccore, hk] at hcore
  refine ⟨w, hexec, .of_mem ?_, by rw [hcore]; rfl, by rw [hcore]; rfl, ?_, ?_, _, by rw [hcore]; rfl, rfl, hblocks.symm, rfl, rfl, rfl, ?_, rfl⟩
  · rw [hcounts.mem, hsmem, hcmem, ← hs2, State.setCore_mem]
  · rw [hcore, hblocks, ← f4Op_occ t.cyc (s2.on g) acc init ah hi bh kb]
    rfl
  · rw [State.fld_of_rd _ ((hcounts.2 _ (govReg_notPmc _)).trans (hsrd _ (govReg_notPmc _))), hcount, ← hs2]
    rfl
  · show s2.on g = s1.on g
    rw [← hs2]
    rfl

/-- Settles O19: a delayed issue is the matrix slot's own, on a core that its command has already brought to the cycle; a fold and a check are the one
landing of theirs. -/
theorem governedIssueAndArrayWrites : Obligations.GovernedIssueAndArrayWrites := by
  refine ⟨fun t t0 g acc init ah hi bh kb s s1 blocks due hc ha h1 hl harray hgov hblocks hfree hlets hissues =>
    governorIssue_next t t0 g acc init ah hi bh kb s s1 blocks due hc ha h1 hl harray hgov hblocks hfree hlets hissues, fun t c due s hc ha hdue harray => ⟨?_, ?_⟩⟩
  · exact fun a m row hl hacc hm hrow => arrayFoldWrite_next t c due s a m row hc ha hdue harray hl hacc hm hrow
  · exact fun pd gen cols alpha beta hl hpd => checksumResult_next t c due s pd gen cols alpha beta hc ha hdue harray hl hpd
end Sys2Proof.Machine
end
section
/-! What goes on beside the step boundary's own account: its registers stay. -/
namespace Sys2Proof.Machine

/-- The registers in which a boundary keeps its account (R84, R86, R128, R319 to R322), of the rules and slots the first. -/
def stepReg (a : Nat) : Prop :=
  a ∈ [Reg.onxSchedBase, Reg.onxSchedArrive, Reg.onxSchedStatus, Reg.onxVarStatus, Reg.onxHoldCause, Reg.onxVarRun 0, Reg.onxVarSel 0] ∨
    ∃ c, a = Reg.coreStep c
theorem stepReg_coreStep (c : Nat) : stepReg (Reg.coreStep c) := .inr ⟨c, rfl⟩
theorem stepReg_iff (a : Nat) : stepReg a ↔ (a = 0x5020 ∨ a = 0x5028 ∨ a = 0x5008 ∨ a = 0x2000 ∨ a = 0x18 ∨ a = 0xA000 ∨ a = 0x2100) ∨
    ∃ c, a = 0x100000048 + c * 0x10000 := by
  simp [stepReg, Reg.onxSchedBase, Reg.onxSchedArrive, Reg.onxSchedStatus, Reg.onxVarStatus, Reg.onxHoldCause, Reg.onxVarRun, Reg.onxVarSel, Reg.coreStep]
/-- A register that is no account of the boundary lies apart from its registers and from every CORE_STEP. -/
theorem not_stepReg {a : Nat} (h : a ≠ 0x5020 ∧ a ≠ 0x5028 ∧ a ≠ 0x5008 ∧ a ≠ 0x2000 ∧ a ≠ 0x18 ∧ a ≠ 0xA000 ∧ a ≠ 0x2100)
    (hc : a < 0x100000000 ∨ a % 0x10000 ≠ 0x48) : ¬ stepReg a := by
  rw [stepReg_iff]
  rintro (hs | ⟨c, rfl⟩)
  · omega
  · omega
theorem onxLogStatus_notStep : ¬ stepReg Reg.onxLogStatus := not_stepReg (by decide) (by decide)
theorem hstCounts_notStep : ¬ stepReg Reg.hstCounts := not_stepReg (by decide) (by decide)
theorem fabRtStat_notStep : ¬ stepReg Reg.fabRtStat := not_stepReg (by decide) (by decide)
theorem corePmc_notStep (c : Nat) {i : Nat} (hi : i < 8) : ¬ stepReg (Reg.corePmc c i) := by
  unfold Reg.corePmc
  exact not_stepReg (by omega) (by omega)
theorem cycleReg_notStep {a : Nat} (h : cycleReg a) : ¬ stepReg a := by
  obtain ⟨d, rfl | ⟨i, hi, rfl⟩⟩ := h
  · unfold Reg.coreStretch
    exact not_stepReg (by omega) (by omega)
  · exact corePmc_notStep d hi
theorem portRegs_notStep {c a : Nat} (h : a ∈ portRegs c) : ¬ stepReg a := by
  unfold portRegs at h
  simp only [List.mem_cons, List.mem_map, List.mem_range] at h
  rcases h with rfl | rfl | rfl | ⟨i, hi, rfl⟩
  · exact onxLogStatus_notStep
  · unfold Reg.coreVaultEcc
    exact not_stepReg (by omega) (by omega)
  · unfold Reg.coreFault
    exact not_stepReg (by omega) (by omega)
  · exact corePmc_notStep c hi
theorem hbmEcc_notStep (k : Nat) : ¬ stepReg (Reg.hbmEcc k) := by
  unfold Reg.hbmEcc
  exact not_stepReg (by omega) (by omega)
theorem hbmStatus_notStep (k : Nat) : ¬ stepReg (Reg.hbmStatus k) := by
  unfold Reg.hbmStatus
  exact not_stepReg (by omega) (by omega)

/-- Memory, the device state, time and the start's knowledge stay, and the registers of a set. -/
structure Leaves (R : Nat → Prop) (s u : State) : Prop where
  only : u = { s with regs := u.regs, fresh := u.fresh, marks := u.marks, cores := u.cores, towers := u.towers, arbs := u.arbs, txq := u.txq,
                      ops := u.ops, boundary := u.boundary, onyx := u.onyx, shards := u.shards, egress := u.egress, out := u.out }
  rd : ∀ a, R a → u.rd a = s.rd a

section
variable {R : Nat → Prop} {s u v : State}
theorem Leaves.refl (R : Nat → Prop) (s : State) : Leaves R s s := ⟨rfl, fun _ _ => rfl⟩
theorem Leaves.trans (h : Leaves R s u) (k : Leaves R u v) : Leaves R s v := by
  refine ⟨?_, fun a ha => (k.rd a ha).trans (h.rd a ha)⟩
  have honly := k.only
  rw [h.only] at honly
  exact honly
theorem Leaves.mono {Q : Nat → Prop} (h : Leaves R s u) (hq : ∀ a, Q a → R a) : Leaves Q s u := ⟨h.only, fun a ha => h.rd a (hq a ha)⟩
theorem Leaves.mem (h : Leaves R s u) : u.mem = s.mem := by rw [h.only]
theorem Leaves.dev (h : Leaves R s u) : u.dev = s.dev := by rw [h.only]
theorem Leaves.start (h : Leaves R s u) : u.start = s.start := by rw [h.only]
theorem Leaves.tcNat (h : Leaves R s u) : u.tcNat = s.tcNat := by rw [h.only]; rfl
theorem Spares.leaves (h : Spares R s u) : Leaves R s u := ⟨by rw [h.only], h.rd⟩
theorem Logs.leaves (h : Logs s u) (hr : ¬ R Reg.onxLogStatus) : Leaves R s u :=
  ⟨by rw [h.1], fun _ ha => h.rd fun he => hr (he ▸ ha)⟩
theorem Counts.leaves {c : Nat} (h : Counts s u c) : Leaves stepReg s u :=
  ⟨by rw [h.1], fun a ha => h.2 a fun hm => by
    obtain ⟨i, hi, rfl⟩ := List.mem_map.1 hm
    exact corePmc_notStep c (List.mem_range.1 hi) ha⟩
theorem PortReads.leaves {c : Nat} (h : PortReads c s u) : Leaves stepReg s u :=
  ⟨by rw [h.only], fun a ha => h.rd a fun hm => portRegs_notStep hm ha⟩
theorem Cycles.leaves {c : Nat} (h : Cycles c s u) : Leaves stepReg s u :=
  ⟨by rw [h.only], fun a ha => h.rd a fun hm => cycleReg_notStep hm ha⟩
theorem Leaves.wr {a : Nat} (h : Leaves R s u) (w : Word) (ha : ¬ R a) : Leaves R s (u.wr a w) := h.trans ((Spares.refl R u).wr w ha).leaves
theorem Leaves.setCore (h : Leaves R s u) (c : Nat) (k : Core) : Leaves R s (u.setCore c k) := h.trans ⟨rfl, fun _ _ => rfl⟩
theorem Leaves.setTower (h : Leaves R s u) (t : Nat) (x : Tower) : Leaves R s (u.setTower t x) := h.trans ⟨rfl, fun _ _ => rfl⟩
theorem Leaves.setArb (h : Leaves R s u) (a : Arbiter) (x : Arb) : Leaves R s (u.setArb a x) := h.trans ⟨rfl, fun _ _ => rfl⟩
theorem Leaves.setBoundary (h : Leaves R s u) (b : Boundary) : Leaves R s { u with boundary := b } := h.trans ⟨rfl, fun _ _ => rfl⟩
theorem Leaves.setShards (h : Leaves R s u) (l : List Shard) : Leaves R s { u with shards := l } := h.trans ⟨rfl, fun _ _ => rfl⟩
theorem Leaves.setEgress (h : Leaves R s u) (l : List Egress) : Leaves R s { u with egress := l } := h.trans ⟨rfl, fun _ _ => rfl⟩
/-- What every step of a run leaves, the run leaves. -/
theorem Leaves.foldl {α : Type} {f : State → α → State} (l : List α) (hf : ∀ x ∈ l, ∀ v, Leaves R v (f v x)) (s : State) : Leaves R s (l.foldl f s) := by
  induction l generalizing s with
  | nil => exact .refl R s
  | cons x l ih => exact (hf x (by simp) s).trans (ih (fun y hy => hf y (List.mem_cons_of_mem _ hy)) _)
end

/-! The host port (R459, R464). -/

/-- E0 sends operations: beside them only two counters and the waiting flags change. -/
def Hosts (s u : State) : Prop :=
  u = { s with regs := u.regs, onyx := u.onyx, ops := u.ops, txq := u.txq } ∧ SameRegs s u [Reg.hstCounts, Reg.fabRtStat]
theorem Hosts.refl (s : State) : Hosts s s := ⟨rfl, fun _ _ => rfl⟩
theorem Hosts.trans {s u v : State} (h : Hosts s u) (k : Hosts u v) : Hosts s v := by
  refine ⟨?_, fun a ha => (k.2 a ha).trans (h.2 a ha)⟩
  have honly := k.1
  rw [h.1] at honly
  exact honly
theorem Hosts.wr {s u : State} (h : Hosts s u) {a : Nat} (v : Word) (ha : a ∈ [Reg.hstCounts, Reg.fabRtStat]) : Hosts s (u.wr a v) :=
  h.trans ⟨rfl, fun _ hb => State.rd_wr_ne _ _ fun hba => hb (hba ▸ ha)⟩
theorem Hosts.onyx {s u : State} (h : Hosts s u) (o : Onyx) : Hosts s { u with onyx := o } := h.trans ⟨rfl, fun _ _ => rfl⟩
theorem Hosts.leaves {s u : State} (h : Hosts s u) : Leaves stepReg s u :=
  ⟨by rw [h.1], fun a ha => h.2 a fun hm => by
    rcases List.mem_cons.1 hm with rfl | hm
    · exact hstCounts_notStep ha
    · exact fabRtStat_notStep (List.mem_singleton.1 hm ▸ ha)⟩
theorem Hosts.egress {s u : State} (h : Hosts s u) : u.egress = s.egress := by rw [h.1]
theorem Hosts.shards {s u : State} (h : Hosts s u) : u.shards = s.shards := by rw [h.1]
theorem State.originate_hosts {s u : State} {r tag : Nat} {o : RemOp} (h : s.originate r tag o = some u) : Hosts s u := by
  unfold State.originate at h
  obtain ⟨q, -, rfl⟩ := Option.map_eq_some_iff.1 h
  exact ⟨rfl, fun _ _ => rfl⟩
theorem State.pumpHostFlags_hosts (n : Nat) (s : State) : Hosts s (s.pumpHostFlags n) := by
  induction n generalizing s with
  | zero => exact .refl s
  | succ n ih =>
    have hlate : ∀ (b : Prop) [Decidable b] (u : State), Hosts s u → Hosts s (if b then u.bump Reg.hstCounts F.hstCountsShardsLate 1 else u) := by
      intro b _ u hu
      split
      · exact hu.wr _ (by simp)
      · exact hu
    unfold State.pumpHostFlags
    dsimp only
    split
    · refine Hosts.trans ?_ (ih _)
      split
      · next hsent => exact (hlate _ _ ((Hosts.refl s).onyx _)).trans (State.originate_hosts hsent)
      · exact (hlate _ _ ((Hosts.refl s).onyx _)).wr _ (by simp)
    · exact .refl s
theorem State.hostFlag_hosts (s : State) (job core flag due : Nat) : Hosts s (s.hostFlag job core flag due) :=
  ((Hosts.refl s).onyx _).trans (State.pumpHostFlags_hosts _ _)
/-- What is abandoned of the egress is dropped, and E0 sends its flag (R464). -/
theorem State.abandonEgress_hosts (s : State) (e : Nat) : Hosts { s with egress := s.egress.filter fun y => decide (y.stream ≠ e) } (s.abandonEgress e) := by
  unfold State.abandonEgress State.endEgress
  exact (State.hostFlag_hosts _ _ _ _ _).wr _ (by simp)
theorem State.abandonEgress_leaves (s : State) (e : Nat) : Leaves stepReg s (s.abandonEgress e) :=
  ((Leaves.refl _ s).setEgress _).trans (s.abandonEgress_hosts e).leaves
theorem State.abandonEgress_shards (s : State) (e : Nat) : (s.abandonEgress e).shards = s.shards := (s.abandonEgress_hosts e).shards
theorem State.abandonEgress_egress (s : State) (e : Nat) : (s.abandonEgress e).egress = s.egress.filter fun y => decide (y.stream ≠ e) :=
  (s.abandonEgress_hosts e).egress
theorem State.hostHold_leaves (s : State) : Leaves stepReg s s.hostHold :=
  ((Leaves.refl _ s).setShards []).trans (Leaves.foldl _ (fun x _ v => v.abandonEgress_leaves x.stream) _)
/-- At entry to HOLD every shard and all running egress is dropped (R462, R464). -/
theorem State.hostHold_empties (s : State) : s.hostHold.shards = [] ∧ s.hostHold.egress = [] := by
  have hfold : ∀ (l : List Egress) (u : State), (l.foldl (fun s x => s.abandonEgress x.stream) u).shards = u.shards ∧
      ∀ y ∈ (l.foldl (fun s x => s.abandonEgress x.stream) u).egress, y ∈ u.egress ∧ y ∉ l := by
    intro l
    induction l with
    | nil => exact fun u => ⟨rfl, fun y hy => ⟨hy, by simp⟩⟩
    | cons x l ih =>
      intro u
      obtain ⟨hshards, hegress⟩ := ih (u.abandonEgress x.stream)
      refine ⟨hshards.trans (u.abandonEgress_shards _), fun y hy => ?_⟩
      obtain ⟨hin, hout⟩ := hegress y hy
      rw [State.abandonEgress_egress, List.mem_filter] at hin
      refine ⟨hin.1, ?_⟩
      rw [List.mem_cons, not_or]
      exact ⟨fun he => by simp [he] at hin, hout⟩
  obtain ⟨hshards, hegress⟩ := hfold s.egress { s with shards := [] }
  exact ⟨hshards, List.eq_nil_iff_forall_not_mem.2 fun y hy => (hegress y hy).2 (hegress y hy).1⟩
theorem State.toServer_leaves (s : State) (v type number offset stream : Nat) (p : List Byte) : Leaves stepReg s (s.toServer v type number offset stream p) := by
  unfold State.toServer
  split
  · exact ⟨rfl, fun _ _ => rfl⟩
  · exact .refl _ s
theorem State.requestShard_leaves (s : State) (x : Shard) : Leaves stepReg s (s.requestShard x) := s.toServer_leaves _ _ _ _ _ _
theorem State.newShard_leaves (s : State) (rel stream shard : Nat) : Leaves stepReg s (s.newShard rel stream shard) := by
  unfold State.newShard
  split
  · exact .refl _ s
  · exact ((Leaves.refl _ s).setShards _).trans (State.requestShard_leaves _ _)
theorem State.startEgress_leaves (s : State) (n e : Nat) : Leaves stepReg s (s.startEgress n e) := by
  unfold State.startEgress
  split
  · split
    · exact (Leaves.refl _ s).wr _ hstCounts_notStep
    · exact (Leaves.refl _ s).setEgress _
  · exact .refl _ s
theorem State.hostStep_leaves (s : State) (n rel : Nat) (first : Bool) : Leaves stepReg s (s.hostStep n rel first) := by
  unfold State.hostStep
  refine Leaves.trans (Leaves.foldl _ (fun i _ v => ?_) s) (Leaves.foldl _ (fun e _ v => v.startEgress_leaves n e) _)
  dsimp only
  split
  · split
    · exact Leaves.foldl _ (fun j _ v => v.newShard_leaves _ _ _) v
    · exact v.newShard_leaves _ _ _
  · exact .refl _ v

/-! The boundary's message (R319, R328). -/

theorem State.sendMessage_leaves (R : Nat → Prop) (s : State) (m : BMsg) : Leaves R s (s.sendMessage m) := ⟨rfl, fun _ _ => rfl⟩
theorem State.lateFault_leaves (R : Nat → Prop) (s : State) : Leaves R s s.lateFault := by
  unfold State.lateFault
  split
  · split
    · exact s.sendMessage_leaves R _
    · exact .refl R s
  · exact .refl R s
/-- Forming the message writes no register but ONX_SCHED_STATUS, and of that in_boundary alone; what the evaluation has left in the boundary stays. -/
theorem State.tryForm_frame (s : State) : Leaves (· ≠ Reg.onxSchedStatus) s s.tryForm ∧
    s.tryForm.fld Reg.onxSchedStatus F.onxSchedStatusSteps = s.fld Reg.onxSchedStatus F.onxSchedStatusSteps ∧
    s.tryForm.boundary.evalFor = s.boundary.evalFor ∧ s.tryForm.boundary.evalDone = s.boundary.evalDone ∧ s.tryForm.boundary.newSel = s.boundary.newSel := by
  have hput : Leaves (· ≠ Reg.onxSchedStatus) s (s.putF Reg.onxSchedStatus F.onxSchedStatusInBoundary 1) := (Leaves.refl _ s).wr _ (by simp)
  have hsteps : (s.putF Reg.onxSchedStatus F.onxSchedStatusInBoundary 1).fld Reg.onxSchedStatus F.onxSchedStatusSteps =
      s.fld Reg.onxSchedStatus F.onxSchedStatusSteps := s.fld_putF_apart _ _ (by decide) (by decide)
  unfold State.tryForm
  dsimp only
  split
  · exact ⟨.refl _ s, rfl, rfl, rfl, rfl⟩
  · split
    · exact ⟨hput, hsteps, rfl, rfl, rfl⟩
    · generalize hv : s.putF Reg.onxSchedStatus F.onxSchedStatusInBoundary 1 = v at hput hsteps ⊢
      exact ⟨(hput.setBoundary _).trans (State.sendMessage_leaves _ _ _), hsteps, rfl, rfl, rfl⟩
theorem State.tryForm_formed {s : State} (h : s.boundary.formed = true) : s.tryForm = s := by
  unfold State.tryForm
  dsimp only
  rw [h, Bool.true_or, if_pos rfl]
end Sys2Proof.Machine
end
section
/-! The evaluation of the inclusion records and of the variant table (R82 to R86). -/
namespace Sys2Proof.Machine

/-! Onyx's reading. -/

/-- What a reading of Onyx leaves: the boundary's registers, and in every core what is on its way and its array. -/
structure Reads (s u : State) : Prop where
  leaves : Leaves stepReg s u
  landing : ∀ c, (u.core c).landing = (s.core c).landing
  array : ∀ c, (u.core c).array = (s.core c).array

section
variable {s u v : State}
theorem Reads.refl (s : State) : Reads s s := ⟨.refl _ s, fun _ => rfl, fun _ => rfl⟩
theorem Reads.trans (h : Reads s u) (k : Reads u v) : Reads s v :=
  ⟨h.leaves.trans k.leaves, fun c => (k.landing c).trans (h.landing c), fun c => (k.array c).trans (h.array c)⟩
/-- A change that leaves the cores alone. -/
theorem Reads.of_cores (h : Leaves stepReg s u) (hc : u.cores = s.cores) : Reads s u := by
  have hcore : ∀ c, u.core c = s.core c := fun c => by unfold State.core; rw [hc]
  exact ⟨h, fun c => by rw [hcore], fun c => by rw [hcore]⟩
theorem Cycles.reads {c : Nat} (h : Cycles c s u) : Reads s u := by
  have hcore : ∀ d, (u.core d).landing = (s.core d).landing ∧ (u.core d).array = (s.core d).array := fun d => by
    rcases eq_or_ne d c with rfl | hd
    · obtain ⟨q, w, n, hk⟩ := h.core
      rw [hk]
      exact ⟨rfl, rfl⟩
    · rw [h.others d hd]
      exact ⟨rfl, rfl⟩
  exact ⟨h.leaves, fun d => (hcore d).1, fun d => (hcore d).2⟩
theorem Counts.reads {c : Nat} (h : Counts s u c) : Reads s u := .of_cores h.leaves (by rw [h.1])
theorem Logs.reads (h : Logs s u) : Reads s u := .of_cores (h.leaves onxLogStatus_notStep) (by rw [h.1])
theorem Reads.wr {a : Nat} (h : Reads s u) (w : Word) (ha : ¬ stepReg a) : Reads s (u.wr a w) := h.trans (.of_cores ((Leaves.refl _ u).wr w ha) rfl)
theorem Reads.setArb (h : Reads s u) (a : Arbiter) (x : Arb) : Reads s (u.setArb a x) := h.trans (.of_cores ((Leaves.refl _ u).setArb a x) rfl)
end

theorem State.coreFault_reads (s : State) (c : Nat) (f : Fld) : Reads s (s.coreFault c f) := by
  have hraise : Reads s (s.raiseBit (Reg.coreFault c) f) := .of_cores (s.raiseFault_portReads c f).leaves rfl
  unfold State.coreFault
  split
  · exact hraise
  · exact hraise.trans (State.log_logs _ _ _ _).reads
theorem State.queueWb_reads (s : State) (c a : Nat) : Reads s (s.queueWb c a) := by
  unfold State.queueWb
  dsimp only
  split
  · exact (s.setCore_cycles c ⟨_, _, _, rfl⟩).reads
  · exact (Reads.refl s).wr _ (portRegs_notStep (c := c) (by simp [portRegs]))
theorem State.readWord_reads (s : State) (c a : Nat) : Reads s (s.readWord c a).2 := by
  have hcount : ∀ f n, Reads s (s.bump (Reg.coreVaultEcc c) f n) := fun f n => (Reads.refl s).wr _ (portRegs_notStep (c := c) (by simp [portRegs]))
  unfold State.readWord
  split
  · exact .refl s
  · exact (hcount _ _).trans (State.queueWb_reads _ _ _)
  · exact (hcount _ _).trans (State.coreFault_reads _ _ _)
  · exact .refl s
  · exact .refl s
theorem State.readWords_reads (c : Nat) (merged : List Nat) (n : Nat) (s : State) (a : Nat) : Reads s (s.readWords c a merged n).2 := by
  induction n generalizing s a with
  | zero => exact .refl s
  | succ n ih =>
    unfold State.readWords
    dsimp only
    split
    · exact ih _ _
    · exact (s.readWord_reads c a).trans (ih _ _)
theorem State.portRead_reads (s : State) (c code off n : Nat) : Reads s (s.portRead c code off n).2 := by
  have hfold : ∀ (l : List (List Nat × Nat)) (r : List Nat × State), Reads s r.2 → Reads s
      (l.foldl (fun r x =>
        if r.2.follows c code x.1 x.2 then (x.1 ++ r.1, r.2.pmcCore c 0x01C 1)
        else
          let b := r.2.arb (.vault c)
          (r.1, (r.2.setArb (.vault c) { b with merge := (x :: b.merge).take 32, served := ((code, x.1) :: b.served).take 64 }).pmcCore c 0x018 1)) r).2 := by
    intro l
    induction l with
    | nil => exact fun _ h => h
    | cons x l ih =>
      intro r h
      rw [List.foldl_cons]
      refine ih _ ?_
      split
      · exact h.trans (State.pmcCore_counts _ _ _ _).reads
      · exact (h.setArb _ _).trans (State.pmcCore_counts _ _ _ _).reads
  exact hfold _ _ (.refl s)
/-- A vault read leaves the state that the port's reading and then the stored codes of the words leave. Both results stay opaque throughout, as in
`State.vaultRead_drained`. -/
theorem State.vaultRead_state (s : State) (c code off n : Nat) :
    ∃ merged s1 p s2 k, (s.drainWb c s.clk).portRead c code off n = (merged, s1) ∧ s1.readWords c ((windowOf c + off) / 8 * 8) merged k = (p, s2) ∧
      s.vaultRead c code off n = (s.bytes (windowOf c + off) n, p, s2) := by
  obtain ⟨k, hk⟩ : ∃ k, (windowOf c + off + n + 7) / 8 - (windowOf c + off) / 8 * 8 / 8 = k := ⟨_, rfl⟩
  obtain ⟨⟨merged, s1⟩, hport⟩ : ∃ r, (s.drainWb c s.clk).portRead c code off n = r := ⟨_, rfl⟩
  obtain ⟨⟨p, s2⟩, hwords⟩ : ∃ r, s1.readWords c ((windowOf c + off) / 8 * 8) merged k = r := ⟨_, rfl⟩
  refine ⟨merged, s1, p, s2, k, hport, hwords, ?_⟩
  generalize hf : @State.vaultRead = f
  delta State.vaultRead at hf
  subst hf
  beta_reduce
  extract_lets a w
  have hk' : (a + n + 7) / 8 - w / 8 = k := hk
  have hwords' : s1.readWords c w merged k = (p, s2) := hwords
  rewrite [hport, hk']
  dsimp only
  rewrite [hwords']
  rfl
theorem State.vaultRead_reads (s : State) (c code off n : Nat) : Reads s (s.vaultRead c code off n).2.2 := by
  obtain ⟨merged, s1, p, s2, k, hport, hwords, heq⟩ := s.vaultRead_state c code off n
  have h1 := State.portRead_reads (s.drainWb c s.clk) c code off n
  have h2 := State.readWords_reads c merged k s1 ((windowOf c + off) / 8 * 8)
  rw [hport] at h1
  rw [hwords] at h2
  rw [heq]
  exact ((s.drainWb_cycles c s.clk).reads.trans h1).trans h2
theorem State.lineCorrected_reads (s : State) (k a : Nat) : Reads s (s.lineCorrected k a) := by
  have hcount : Reads s (s.bump (Reg.hbmEcc k) F.hbmEccCeLines 1) := (Reads.refl s).wr _ (hbmEcc_notStep k)
  unfold State.lineCorrected
  dsimp only
  split
  · exact hcount.setArb _ _
  · exact hcount.wr _ (hbmEcc_notStep k)
theorem State.lineCode_reads (s : State) (k a : Nat) : Reads s (s.lineCode k a).2 := by
  unfold State.lineCode
  split
  · exact .refl s
  · exact .refl s
  · exact s.lineCorrected_reads k a
  · exact s.lineCorrected_reads k a
  · exact ((Reads.refl s).wr _ (hbmEcc_notStep k)).trans (State.log_logs _ _ _ _).reads
theorem State.lineTaken_reads (s : State) (may : Bool) (k a : Nat) : Reads s (s.lineTaken may k a).2 := by
  unfold State.lineTaken
  split
  · exact (Reads.refl s).wr _ (hbmStatus_notStep k)
  · exact (s.lineCode_reads k a).setArb _ _
theorem State.lineRead_reads (may : Bool) (k n : Nat) (s : State) (a : Nat) : Reads s (s.lineRead may k a n).2 := by
  induction n generalizing s a with
  | zero => exact .refl s
  | succ n ih =>
    unfold State.lineRead
    exact (s.lineTaken_reads may k a).trans (ih _ _)
theorem State.onyxRead_reads (s : State) (a n : Nat) : Reads s (s.onyxRead a n).2.2 := by
  unfold State.onyxRead State.readFor
  split
  · exact s.vaultRead_reads _ _ _ _
  · exact State.lineRead_reads _ _ _ _ _
  · exact .refl s
/-- A core on which nothing is on its way is read where it stands. -/
theorem State.settle_quiet (s : State) (a cyc : Nat) (h : ∀ c o, placeOf a = .vault c o → (s.core c).landing = [] ∧ (s.core c).array = none) :
    s.settle a cyc = s := by
  unfold State.settle
  split
  · next c o hp => exact s.landCore_quiet c cyc _ (h c o hp).1 (h c o hp).2
  · rfl

/-! Rules, slots and the evaluation's end. -/

theorem assoc_assocSet (l : List (Nat × Nat)) (k v : Nat) : assoc (assocSet l k v) k = v := Sparse.get_set_same (fun _ => 0) l k v

/-- Onyx reads a rule's record; it then writes the rule's run, or counts the record as missing, as it does a poisoned one (R82, R83). -/
theorem State.evalRule_next (s : State) (cyc step : Nat) (poisoned : Bool) (n : Nat) (r : VRule)
    (h : ∀ c o, placeOf (r.addr % 2 ^ 45) = .vault c o → (s.core c).landing = [] ∧ (s.core c).array = none) :
    ∃ v, Reads s v ∧ (poisoned = false ∧ (∃ m, s.evalRule cyc step poisoned n r = v.setRun n m) ∨
      s.evalRule cyc step poisoned n r = v.bump Reg.onxVarStatus F.onxVarStatusMissingRecords 1) := by
  have hreads := s.onyxRead_reads (r.addr % 2 ^ 45) 64
  obtain ⟨⟨b, bad, v⟩, hread⟩ : ∃ x, s.onyxRead (r.addr % 2 ^ 45) 64 = x := ⟨_, rfl⟩
  obtain ⟨⟨i, tid, st, _, mixed, _, ok⟩, hrec⟩ : ∃ x, readRecord b = x := ⟨_, rfl⟩
  rw [hread] at hreads
  refine ⟨v, hreads, ?_⟩
  unfold State.evalRule
  rewrite [s.settle_quiet _ cyc h, hread]
  dsimp only
  rewrite [hrec]
  dsimp only
  split
  · next hok =>
    refine .inl ⟨?_, _, rfl⟩
    cases poisoned
    · rfl
    · simp at hok
  · exact .inr rfl
/-- Nothing is on its way to the core in whose vault a rule's record lies, and its array is idle. -/
def State.quietFor (s : State) (r : VRule) : Prop :=
  ∀ c o, placeOf (r.addr % 2 ^ 45) = .vault c o → (s.core c).landing = [] ∧ (s.core c).array = none
theorem State.quietFor_of_same {s u : State} (hl : ∀ c, (u.core c).landing = (s.core c).landing) (ha : ∀ c, (u.core c).array = (s.core c).array)
    {r : VRule} (h : s.quietFor r) : u.quietFor r := fun c o hp => by
  rw [hl, ha]
  exact h c o hp
/-- The evaluation of rules leaves memory, and what is on its way in the cores. -/
theorem State.evalRules_leaves (cyc step : Nat) (poisoned : List Nat) (l : List (VRule × Nat)) (s : State) (h : ∀ x ∈ l, s.quietFor x.1) :
    Leaves (fun _ => False) s (l.foldl (fun s x => s.evalRule cyc step (poisoned.contains x.2) x.2 x.1) s) := by
  induction l generalizing s with
  | nil => exact .refl _ s
  | cons x l ih =>
    obtain ⟨v, hreads, hnext⟩ := s.evalRule_next cyc step (poisoned.contains x.2) x.2 x.1 (h x (by simp))
    have hv : ∀ a w, Leaves (fun _ => False) s (v.wr a w) := fun a w => (hreads.leaves.mono fun _ h => h.elim).wr w id
    have hquiet : ∀ a w, ∀ y ∈ l, (v.wr a w).quietFor y.1 := fun a w y hy =>
      State.quietFor_of_same (u := v.wr a w) hreads.landing hreads.array (h y (List.mem_cons_of_mem _ hy))
    rw [List.foldl_cons]
    rcases hnext with ⟨-, m, hrun⟩ | hmiss
    · rw [hrun]
      exact (hv _ _).trans (ih _ (hquiet _ _))
    · rw [hmiss]
      exact (hv _ _).trans (ih _ (hquiet _ _))
theorem State.setRuns_leaves (l : List (Nat × VRule)) (s : State) : Leaves (fun _ => False) s (l.foldl (fun s x => s.setRun x.1 0) s) :=
  Leaves.foldl l (fun _ _ v => (Leaves.refl _ v).wr _ id) s
theorem State.evalSlot_leaves (s : State) (slot : Nat) : Leaves (fun _ => False) s (s.evalSlot slot) := by
  unfold State.evalSlot
  dsimp only
  split
  · exact .refl _ s
  · exact (((Leaves.refl _ s).setBoundary _).wr _ id).trans (State.setRuns_leaves _ _)
theorem State.evaluate_leaves (s : State) (cyc step : Nat) (poisoned : List Nat) (h : ∀ r ∈ s.start.vtable.rules, s.quietFor r) :
    Leaves (fun _ => False) s (s.evaluate cyc step poisoned) := by
  unfold State.evaluate
  refine (((s.evalRules_leaves cyc step poisoned _ fun x hx => h x.1 ?_).trans (Leaves.foldl _ (fun x _ v => v.evalSlot_leaves x) _)).wr _ id)
  exact List.fst_mem_of_mem_zipIdx hx
theorem State.evaluate_lastStep (s : State) (cyc step : Nat) (poisoned : List Nat) :
    (s.evaluate cyc step poisoned).fld Reg.onxVarStatus F.onxVarStatusLastStep = step % 2 ^ F.onxVarStatusLastStep.width :=
  State.fld_putF _ _ _ _ (by decide) (by decide)

/-! One rule whose record cannot be read. -/

/-- The evaluation of one rule whose record is poisoned: a reading, a count, the slots, the step's number. -/
theorem State.evaluate_missing (s : State) (cyc step : Nat) (poisoned : List Nat) {r : VRule} (hr : s.start.vtable.rules = [r]) (hq : s.quietFor r)
    (hp : 0 ∈ poisoned) : ∃ v, Reads s v ∧ s.evaluate cyc step poisoned =
      ((List.range s.start.vtable.slots.length).foldl State.evalSlot (v.bump Reg.onxVarStatus F.onxVarStatusMissingRecords 1)).putF
        Reg.onxVarStatus F.onxVarStatusLastStep step := by
  obtain ⟨v, hreads, hnext⟩ := s.evalRule_next cyc step true 0 r hq
  refine ⟨v, hreads, ?_⟩
  have hmiss := hnext.resolve_left fun h => by simp at h
  have hcontains : poisoned.contains 0 = true := by simpa using hp
  unfold State.evaluate
  dsimp only
  rw [hr, List.zipIdx_singleton, List.foldl_cons, List.foldl_nil, hcontains, hmiss]
theorem VTable.on_zero {v : VTable} {r : VRule} (hr : v.rules = [r]) (h0 : r.slot = 0) : v.on 0 = [(0, r)] := by
  unfold VTable.on
  rw [hr]
  simp [h0]
/-- A slot's only rule that has reached its count with another target fires (R83, R84). -/
theorem State.evalSlot_fires (s : State) {r : VRule} (hr : s.start.vtable.rules = [r]) (h0 : r.slot = 0) (hrun : s.runOf 0 = r.nSteps) (ht : r.target ≠ s.sel 0) :
    s.evalSlot 0 = (({ s with boundary := { s.boundary with newSel := assocSet s.boundary.newSel 0 (r.target + 1) } }).bump
      Reg.onxVarStatus F.onxVarStatusSwitches 1).setRun 0 0 := by
  unfold State.evalSlot
  dsimp only
  rw [VTable.on_zero hr h0, List.find?_cons_of_pos (by simpa using ⟨hrun, ht⟩)]
  rfl
end Sys2Proof.Machine
end
section
/-! VARIANT_EVALUATION (R83, R84). -/
namespace Sys2Proof.Machine

/-- Outside RUN, or with nothing to evaluate, the command only brings the clock. -/
theorem variantEvaluation_idle {t : At} {s : State} (poisoned : List Nat) (ha : Awake t s) (h : s.boundary.evalFor = none ∨ s.dev ≠ .run) :
    exec (.variantEvaluation t poisoned) s = .next (s.at t) := by
  show execVariantEvaluation t poisoned s = _
  unfold execVariantEvaluation
  dsimp only
  rw [ha, if_neg (by simp)]
  split
  · rfl
  · next k hk =>
    have hrun : (s.at t).running = false := decide_eq_false (h.resolve_left fun hn => by
      have hk' : s.boundary.evalFor = some k := hk
      simp [hn] at hk')
    rw [hrun]
    rfl
/-- The boundary knows the tick at which the evaluation ended. -/
def State.evalEnded (s : State) : State := { s with boundary := { s.boundary with evalFor := none, evalDone := some s.tcNat } }
/-- In RUN the evaluation of a step ends, and the boundary's message is formed where that was awaited. -/
theorem variantEvaluation_run {t : At} {s : State} {k : Nat} (poisoned : List Nat) (ha : Awake t s) (hk : s.boundary.evalFor = some k) (hd : s.dev = .run) :
    ∃ u, exec (.variantEvaluation t poisoned) s = .next u ∧ Leaves (· ≠ Reg.onxSchedStatus) ((s.at t).evaluate t.cyc k poisoned) u ∧
      u.boundary.evalFor = none ∧ u.boundary.evalDone = some ((s.at t).evaluate t.cyc k poisoned).tcNat ∧
      u.boundary.newSel = ((s.at t).evaluate t.cyc k poisoned).boundary.newSel := by
  have hk' : (s.at t).boundary.evalFor = some k := hk
  have hrun : (s.at t).running = true := decide_eq_true hd
  have hexec : exec (.variantEvaluation t poisoned) s = .next ((s.at t).evaluate t.cyc k poisoned).evalEnded.tryForm := by
    show execVariantEvaluation t poisoned s = _
    unfold execVariantEvaluation
    dsimp only
    rw [ha, if_neg (by simp), hk']
    dsimp only
    rw [hrun, if_pos rfl]
    rfl
  generalize (s.at t).evaluate t.cyc k poisoned = e at hexec ⊢
  obtain ⟨hleaves, -, hfor, hdone, hsel⟩ := e.evalEnded.tryForm_frame
  exact ⟨_, hexec, ((Leaves.refl _ e).setBoundary _).trans hleaves, hfor, hdone, hsel⟩
/-- The clause on a rule whose record cannot be read, with no slot. -/
theorem evaluate_missing_next {s : State} (cyc k : Nat) {poisoned : List Nat} {r : VRule} (hr : s.start.vtable.rules = [r]) (hx : s.start.vtable.slots = [])
    (hq : s.quietFor r) (hp : 0 ∈ poisoned) : (s.evaluate cyc k poisoned).runOf 0 = s.runOf 0 ∧
      (s.evaluate cyc k poisoned).fld Reg.onxVarStatus F.onxVarStatusMissingRecords =
        satAdd F.onxVarStatusMissingRecords.max (s.fld Reg.onxVarStatus F.onxVarStatusMissingRecords) 1 := by
  obtain ⟨v, hreads, heq⟩ := s.evaluate_missing cyc k poisoned hr hq hp
  have hvar : v.fld Reg.onxVarStatus F.onxVarStatusMissingRecords = s.fld Reg.onxVarStatus F.onxVarStatusMissingRecords :=
    State.fld_of_rd _ (hreads.leaves.rd _ (.inl (by simp)))
  have hrun : v.runOf 0 = s.runOf 0 := State.fld_of_rd _ (hreads.leaves.rd _ (.inl (by simp)))
  rw [heq, hx, List.length_nil, List.range_zero, List.foldl_nil]
  constructor
  · unfold State.runOf at hrun ⊢
    rw [State.fld_putF_ne _ _ _ _ (by decide), State.bump, State.fld_putF_ne _ _ _ _ (by decide), hrun]
  · rw [State.fld_putF_apart _ _ _ (by decide) (by decide), State.fld_bump _ _ _ _ (by decide) (by decide), hvar]
/-- The clause on a rule that has reached its count, in its slot: it fires, whatever its record. -/
theorem evaluate_fires_next {s : State} (cyc k : Nat) {poisoned : List Nat} {r : VRule} {x : Nat × Nat} (hr : s.start.vtable.rules = [r])
    (hx : s.start.vtable.slots = [x]) (h0 : r.slot = 0) (hq : s.quietFor r) (hp : 0 ∈ poisoned) (hrun : s.runOf 0 = r.nSteps) (ht : r.target ≠ s.sel 0) :
    assoc (s.evaluate cyc k poisoned).boundary.newSel 0 = r.target + 1 ∧ (s.evaluate cyc k poisoned).runOf 0 = 0 ∧
      (s.evaluate cyc k poisoned).fld Reg.onxVarStatus F.onxVarStatusSwitches =
        satAdd F.onxVarStatusSwitches.max (s.fld Reg.onxVarStatus F.onxVarStatusSwitches) 1 := by
  obtain ⟨v, hreads, heq⟩ := s.evaluate_missing cyc k poisoned hr hq hp
  obtain ⟨w, hw⟩ : ∃ w, v.bump Reg.onxVarStatus F.onxVarStatusMissingRecords 1 = w := ⟨_, rfl⟩
  have hleft : Leaves (fun a => stepReg a ∧ a ≠ Reg.onxVarStatus) s w := by
    rw [← hw]
    exact (hreads.leaves.mono fun _ h => h.1).wr _ (by simp)
  have hwrules : w.start.vtable.rules = [r] := by rw [hleft.start, hr]
  have hwrun : w.runOf 0 = r.nSteps := (State.fld_of_rd _ (hleft.rd _ ⟨.inl (by simp), by decide⟩)).trans hrun
  have hwsel : w.sel 0 = s.sel 0 := by
    unfold State.sel
    rw [hleft.rd _ ⟨.inl (by simp), by decide⟩]
  have hswitches : w.fld Reg.onxVarStatus F.onxVarStatusSwitches = s.fld Reg.onxVarStatus F.onxVarStatusSwitches := by
    rw [← hw, State.bump, State.fld_putF_apart _ _ _ (by decide) (by decide)]
    exact State.fld_of_rd _ (hreads.leaves.rd _ (.inl (by simp)))
  rw [heq, hx, hw, List.length_singleton, List.range_one, List.foldl_cons, List.foldl_nil,
    w.evalSlot_fires hwrules h0 hwrun (by rw [hwsel]; exact ht)]
  refine ⟨?_, ?_, ?_⟩
  · rw [State.putF_boundary, State.setRun, State.putF_boundary, State.bump_boundary]
    dsimp only
    exact assoc_assocSet _ _ _
  · unfold State.runOf State.setRun
    rw [State.fld_putF_ne _ _ _ _ (by decide)]
    exact State.fld_putF _ _ _ _ (by decide) (by decide)
  · rw [State.fld_putF_apart _ _ _ (by decide) (by decide), State.setRun, State.fld_putF_ne _ _ _ _ (by decide),
      State.fld_bump _ _ _ _ (by decide) (by decide), ← hswitches]
    rfl
/-- The clause on VARIANT_EVALUATION. -/
theorem variantEvaluation_next (t : At) (poisoned : List Nat) (s s1 : State) (ha : Awake t s) (h1 : s1 = s.at t) :
    ∃ u, exec (.variantEvaluation t poisoned) s = .next u ∧ (s.boundary.evalFor = none ∨ s.dev ≠ .run → u = s1) ∧
      ((∀ r c o, r ∈ s.start.vtable.rules → placeOf (r.addr % 2 ^ 45) = .vault c o → (s.core c).landing = [] ∧ (s.core c).array = none) → SameBytes s u ∧
       ∀ k, s.boundary.evalFor = some k → s.dev = .run → u.boundary.evalFor = none ∧ u.boundary.evalDone = some s1.tcNat ∧
        u.fld Reg.onxVarStatus F.onxVarStatusLastStep = k % 2 ^ F.onxVarStatusLastStep.width ∧
        (∀ r, s.start.vtable.rules = [r] → s.start.vtable.slots = [] → 0 ∈ poisoned → u.runOf 0 = s.runOf 0 ∧
          u.fld Reg.onxVarStatus F.onxVarStatusMissingRecords = min F.onxVarStatusMissingRecords.max (s.fld Reg.onxVarStatus F.onxVarStatusMissingRecords + 1)) ∧
        (∀ r x, s.start.vtable.rules = [r] → s.start.vtable.slots = [x] → r.slot = 0 → 0 ∈ poisoned → s.runOf 0 = r.nSteps → r.target ≠ s.sel 0 →
          assoc u.boundary.newSel 0 = r.target + 1 ∧ u.runOf 0 = 0 ∧
          u.fld Reg.onxVarStatus F.onxVarStatusSwitches = min F.onxVarStatusSwitches.max (s.fld Reg.onxVarStatus F.onxVarStatusSwitches + 1))) := by
  subst h1
  by_cases hidle : s.boundary.evalFor = none ∨ s.dev ≠ .run
  · refine ⟨_, variantEvaluation_idle poisoned ha hidle, fun _ => rfl, fun _ => ⟨fun _ => rfl, fun k hk hd => ?_⟩⟩
    rcases hidle with h | h
    · simp [h] at hk
    · exact absurd hd h
  · obtain ⟨hsome, hd⟩ := not_or.1 hidle
    obtain ⟨k, hk⟩ := Option.ne_none_iff_exists'.1 hsome
    obtain ⟨u, hu, hleaves, hfor, hdone, hsel⟩ := variantEvaluation_run poisoned ha hk (not_not.1 hd)
    refine ⟨u, hu, fun h => absurd h hidle, fun hquiet => ?_⟩
    have hq : ∀ r ∈ (s.at t).start.vtable.rules, (s.at t).quietFor r := fun r hr c o hp => hquiet r c o hr hp
    have heval := (s.at t).evaluate_leaves t.cyc k poisoned hq
    have hvar : ∀ f, u.fld Reg.onxVarStatus f = ((s.at t).evaluate t.cyc k poisoned).fld Reg.onxVarStatus f := fun f =>
      State.fld_of_rd f (hleaves.rd _ (by decide))
    have hrun : u.runOf 0 = ((s.at t).evaluate t.cyc k poisoned).runOf 0 := State.fld_of_rd _ (hleaves.rd _ (by decide))
    refine ⟨.of_mem (hleaves.mem.trans heval.mem), fun k' hk' _ => ?_⟩
    obtain rfl : k = k' := Option.some.inj (hk.symm.trans hk')
    refine ⟨hfor, by rw [hdone, heval.tcNat], by rw [hvar, State.evaluate_lastStep], fun r hr hx hp => ?_, fun r x hr hx h0 hp hcount ht => ?_⟩
    · obtain ⟨hr0, hmiss⟩ := evaluate_missing_next t.cyc k (s := s.at t) hr hx (hq r (by rw [show (s.at t).start.vtable.rules = [r] from hr]; simp)) hp
      exact ⟨hrun.trans hr0, (hvar _).trans hmiss⟩
    · obtain ⟨hnew, hr0, hswitch⟩ := evaluate_fires_next t.cyc k (s := s.at t) hr hx h0
        (hq r (by rw [show (s.at t).start.vtable.rules = [r] from hr]; simp)) hp hcount ht
      exact ⟨by rw [hsel, hnew], hrun.trans hr0, (hvar _).trans hswitch⟩
end Sys2Proof.Machine
end
section
/-! Entering HOLD at a boundary (R85, R319 to R322, R421). -/
namespace Sys2Proof.Machine

/-! STEP_TIMEOUT (R322). -/

theorem State.enter_fld_apart (s : State) {d : DevState} (hd : d ≠ .hold) {f : Fld} (hf : f.hi < 64) (h : f.hi < F.onxStateState.lo ∨ F.onxStateState.hi < f.lo) :
    (s.enter d).fld Reg.onxState f = s.fld Reg.onxState f := by
  have hput := ({ s with dev := d } : State).fld_putF_apart Reg.onxState (devNum d) hf h
  unfold State.enter
  rw [if_neg hd]
  dsimp only
  split
  · exact hput
  · exact hput
theorem State.enter_mem (s : State) (d : DevState) : (s.enter d).mem = s.mem := by rw [(s.enter_enters d).1]
/-- HALTED keeps its cause (R14, R421). -/
theorem State.halt_next (s : State) (cause : Nat) (h : cause < 256) : (s.halt cause).dev = .halted ∧ (s.halt cause).mem = s.mem ∧
    (s.halt cause).fld Reg.onxState F.onxStateHaltCause = cause ∧ ∀ a, a ≠ Reg.onxState → (∀ n < 4, a ≠ Reg.flrClk n) → (s.halt cause).rd a = s.rd a := by
  unfold State.halt
  refine ⟨State.enter_dev _ _, (State.enter_mem _ _).trans (State.putF_mem ..), ?_, fun a h1 h2 => ?_⟩
  · rw [State.enter_fld_apart _ (by decide) (by decide) (by decide), State.fld_putF _ _ _ _ (by decide) (by decide)]
    exact Nat.mod_eq_of_lt h
  · rw [(State.enter_enters _ _).rd h1 h2, State.rd_putF_ne _ _ _ h1]
theorem stepTimeout_next (t : At) (s s1 : State) (limit : Nat) (ha : Awake t s) (h1 : s1 = s.at t)
    (hlimit : limit = s.fld Reg.onxSchedCfg F.onxSchedCfgStepTimeout) :
    ∃ u, exec (.stepTimeout t) s = .next u ∧ SameBytes s u ∧
      (s.dev ≠ .run ∨ limit = 0 ∨ s1.tcNat < s.base + s.planTicks + 1024 * limit → u = s1) ∧
      (s.dev = .run → limit ≠ 0 → s.base + s.planTicks + 1024 * limit ≤ s1.tcNat → u.dev = .halted ∧ u.fld Reg.onxState F.onxStateHaltCause = 1 ∧
        u.flag Reg.onxSchedStatus F.onxSchedStatusTimeout = true) := by
  subst h1
  have hexec : exec (.stepTimeout t) s = execStepTimeout t s := rfl
  have hlimit' : (s.at t).fld Reg.onxSchedCfg F.onxSchedCfgStepTimeout = limit := hlimit.symm
  unfold execStepTimeout at hexec
  dsimp only at hexec
  rw [ha, if_neg (by simp), hlimit'] at hexec
  by_cases hlate : s.dev = .run ∧ limit ≠ 0 ∧ s.base + s.planTicks + 1024 * limit ≤ (s.at t).tcNat
  · obtain ⟨hd, hnonzero, htick⟩ := hlate
    have hcond : ((s.at t).running && decide (limit ≠ 0 ∧ (s.at t).base + (s.at t).planTicks + 1024 * limit ≤ (s.at t).tcNat)) = true :=
      Bool.and_eq_true_iff.2 ⟨decide_eq_true hd, decide_eq_true ⟨hnonzero, htick⟩⟩
    rw [if_pos hcond] at hexec
    refine ⟨_, hexec, ?_, fun h => ?_, fun _ _ _ => ?_⟩
    · refine .of_mem ?_
      rw [(State.halt_next _ 1 (by decide)).2.1, State.raiseBit_mem, (State.log_logs _ _ _ _).mem]
      rfl
    · rcases h with h | h | h
      · exact absurd hd h
      · exact absurd h hnonzero
      · omega
    · obtain ⟨hdev, -, hcause, hrd⟩ := State.halt_next ((((s.at t).log 0x0802 (srcUnit 12 0) [(s.at t).stepNow,
        ((s.at t).awaited.filter fun u => decide (assoc (s.at t).boundary.arrived u = 0)).foldl (fun m u => m + 2 ^ u) 0])).raiseBit
          Reg.onxSchedStatus F.onxSchedStatusTimeout) 1 (by decide)
      exact ⟨hdev, hcause, (State.flag_of_rd _ (hrd _ (by decide) (by decide))).trans (State.flag_raiseBit _ _ _ (by decide) (by decide))⟩
  · have hcond : ¬ ((s.at t).running && decide (limit ≠ 0 ∧ (s.at t).base + (s.at t).planTicks + 1024 * limit ≤ (s.at t).tcNat)) = true := fun h => by
      obtain ⟨hd, hrest⟩ := Bool.and_eq_true_iff.1 h
      exact hlate ⟨of_decide_eq_true hd, of_decide_eq_true hrest⟩
    rw [if_neg hcond] at hexec
    exact ⟨_, hexec, fun _ => rfl, fun _ => rfl, fun hd hn ht => absurd ⟨hd, hn, ht⟩ hlate⟩

/-! Requests for HOLD. -/

/-- What asks for HOLD at a boundary: causes are added and stay, bits of ONX_VAR_STATUS are raised, records written. -/
structure Requests (s u : State) : Prop where
  only : u = { s with regs := u.regs, fresh := u.fresh, boundary := { s.boundary with causes := u.boundary.causes }, onyx := u.onyx, out := u.out }
  causes : ∀ b ∈ s.boundary.causes, b ∈ u.boundary.causes
  nodup : s.boundary.causes.Nodup → u.boundary.causes.Nodup
  digest : s.flag Reg.onxVarStatus F.onxVarStatusDigestMismatch = true → u.flag Reg.onxVarStatus F.onxVarStatusDigestMismatch = true
  fault : s.flag Reg.onxVarStatus F.onxVarStatusFaultHold = true → u.flag Reg.onxVarStatus F.onxVarStatusFaultHold = true
  rd : SameRegs s u [Reg.onxSchedArrive, Reg.onxSchedStatus, Reg.onxVarStatus, Reg.onxLogStatus]

section
variable {s u v : State}
theorem Requests.refl (s : State) : Requests s s := ⟨rfl, fun _ h => h, id, id, id, fun _ _ => rfl⟩
theorem Requests.trans (h : Requests s u) (k : Requests u v) : Requests s v := by
  refine ⟨?_, fun b hb => k.causes b (h.causes b hb), k.nodup ∘ h.nodup, k.digest ∘ h.digest, k.fault ∘ h.fault, fun a ha => (k.rd a ha).trans (h.rd a ha)⟩
  have honly := k.only
  rw [h.only] at honly
  exact honly
theorem Requests.dev (h : Requests s u) : u.dev = s.dev := by rw [h.only]
theorem Requests.mem (h : Requests s u) : u.mem = s.mem := by rw [h.only]
theorem Requests.pkg (h : Requests s u) : u.pkg = s.pkg := by rw [h.only]; rfl
theorem Requests.msgs (h : Requests s u) : u.boundary.msgs = s.boundary.msgs := by rw [h.only]
theorem Requests.faultHold (h : Requests s u) : u.faultHold = s.faultHold := by rw [h.only]; rfl
/-- A change of other registers than the causes', and of ONX_VAR_STATUS no bit of a cause. -/
theorem Requests.of_regs (honly : u = { s with regs := u.regs, fresh := u.fresh, onyx := u.onyx, out := u.out })
    (hdigest : s.flag Reg.onxVarStatus F.onxVarStatusDigestMismatch = true → u.flag Reg.onxVarStatus F.onxVarStatusDigestMismatch = true)
    (hfault : s.flag Reg.onxVarStatus F.onxVarStatusFaultHold = true → u.flag Reg.onxVarStatus F.onxVarStatusFaultHold = true)
    (hrd : SameRegs s u [Reg.onxSchedArrive, Reg.onxSchedStatus, Reg.onxVarStatus, Reg.onxLogStatus]) : Requests s u := by
  have hcauses : u.boundary = s.boundary := by rw [honly]
  exact ⟨by rw [honly], fun b hb => by rwa [hcauses], fun h => by rwa [hcauses], hdigest, hfault, hrd⟩
theorem Logs.requests (h : Logs s u) : Requests s u :=
  .of_regs (by rw [h.1]) (fun hf => (State.flag_of_rd _ (h.rd (by decide))).trans hf) (fun hf => (State.flag_of_rd _ (h.rd (by decide))).trans hf)
    fun a ha => h.rd fun he => ha (by simp [he])
theorem Requests.wr (h : Requests s u) {a : Nat} (w : Word) (ha : a = Reg.onxSchedArrive ∨ a = Reg.onxSchedStatus) : Requests s (u.wr a w) := by
  have hne : Reg.onxVarStatus ≠ a := by rcases ha with rfl | rfl <;> decide
  refine h.trans (.of_regs rfl (fun hf => ?_) (fun hf => ?_) fun b hb => State.rd_wr_ne _ _ fun hba => ?_)
  · exact (State.flag_of_rd _ (State.rd_wr_ne _ _ hne)).trans hf
  · exact (State.flag_of_rd _ (State.rd_wr_ne _ _ hne)).trans hf
  · rcases ha with rfl | rfl <;> simp [hba] at hb
end

theorem State.raiseBit_requests (s : State) {f : Fld} (hf : f = F.onxVarStatusDigestMismatch ∨ f = F.onxVarStatusFaultHold) :
    Requests s (s.raiseBit Reg.onxVarStatus f) := by
  have hrd : SameRegs s (s.raiseBit Reg.onxVarStatus f) [Reg.onxSchedArrive, Reg.onxSchedStatus, Reg.onxVarStatus, Reg.onxLogStatus] := fun a ha =>
    s.rd_raiseBit_ne f fun h => ha (by simp [h])
  rcases hf with rfl | rfl
  · exact .of_regs rfl (fun _ => State.flag_raiseBit _ _ _ (by decide) (by decide))
      (fun h => (State.flag_putF_apart _ _ _ (by decide) (by decide)).trans h) hrd
  · exact .of_regs rfl (fun h => (State.flag_putF_apart _ _ _ (by decide) (by decide)).trans h)
      (fun _ => State.flag_raiseBit _ _ _ (by decide) (by decide)) hrd
/-- A cause of HOLD is kept from its request on (R321). -/
theorem State.holdCause_requests (s : State) (b : Nat) : Requests s (s.holdCause b) ∧ (s.dev = .run → b ∈ (s.holdCause b).boundary.causes) := by
  unfold State.holdCause
  split
  · dsimp only
    have hstep : ∀ l, (∀ x ∈ s.boundary.causes, x ∈ l) → (s.boundary.causes.Nodup → l.Nodup) →
        Requests s { s with boundary := { s.boundary with causes := l } } := fun l h1 h2 => ⟨rfl, h1, h2, id, id, fun _ _ => rfl⟩
    split
    · next hin => exact ⟨(hstep _ (fun _ h => h) id).wr _ (.inr rfl), fun _ => hin⟩
    · next hout => exact ⟨(hstep _ (fun _ h => List.mem_cons_of_mem _ h) fun h => List.nodup_cons.2 ⟨hout, h⟩).wr _ (.inr rfl), fun _ => List.mem_cons_self⟩
  · next hrun => exact ⟨.refl s, fun hd => absurd (decide_eq_true hd) hrun⟩

/-! The stages of a boundary that enters HOLD. -/

/-- Another digest is a cause (R85). -/
def State.holdForDigest (s : State) : Option Nat → State
  | some d => ((s.holdCause 2).raiseBit Reg.onxVarStatus F.onxVarStatusDigestMismatch).log 0x0801 (srcUnit 12 0)
      [s.stepNow, ((s.boundary.msgs.find? fun m : BMsg => decide (m.pkg = s.pkg)).map fun m : BMsg => m.digest).getD 0, d]
  | none => s
/-- A fault is a cause where the policy holds for it (R81, R85). -/
def State.holdForFault (s : State) : State := if s.faultHold then (s.holdCause 1).raiseBit Reg.onxVarStatus F.onxVarStatusFaultHold else s
/-- Another package's request is a cause (R321). -/
def State.holdForOthers (s : State) : State := if s.boundary.msgs.any fun m => m.request && decide (m.pkg ≠ s.pkg) then s.holdCause 12 else s
/-- The causes are written, E0 drops what it holds, and the device is in HOLD (R421, R462, R464). -/
def State.holdNow (s : State) : State :=
  let s := s.wr Reg.onxHoldCause (s.rd Reg.onxHoldCause ||| BitVec.ofNat 64 (s.boundary.causes.foldl (fun m b => m + 2 ^ b) 0))
  let s := (s.putF Reg.onxSchedStatus F.onxSchedStatusInBoundary 0).putF Reg.onxSchedStatus F.onxSchedStatusHoldRequested 0
  { s.hostHold with boundary := {} }.enter .hold
theorem State.enterHold_eq (s : State) (diff : Option Nat) :
    s.enterHold diff = (((s.wr Reg.onxSchedArrive (BitVec.ofNat 64 s.boundaryA)).holdForDigest diff).holdForFault.holdForOthers).holdNow := by
  cases diff <;> rfl
theorem State.holdForDigest_requests (s : State) (diff : Option Nat) : Requests s (s.holdForDigest diff) ∧ (diff.isSome → s.dev = .run →
    2 ∈ (s.holdForDigest diff).boundary.causes ∧ (s.holdForDigest diff).flag Reg.onxVarStatus F.onxVarStatusDigestMismatch = true) := by
  cases diff with
  | none => exact ⟨.refl s, fun h => by simp at h⟩
  | some d =>
    obtain ⟨hcause, hin⟩ := s.holdCause_requests 2
    have hlog := ((s.holdCause 2).raiseBit Reg.onxVarStatus F.onxVarStatusDigestMismatch).log_logs 0x0801 (srcUnit 12 0)
      [s.stepNow, ((s.boundary.msgs.find? fun m : BMsg => decide (m.pkg = s.pkg)).map fun m : BMsg => m.digest).getD 0, d]
    have hraise := (s.holdCause 2).raiseBit_requests (.inl rfl)
    exact ⟨(hcause.trans hraise).trans hlog.requests, fun _ hd =>
      ⟨hlog.requests.causes _ (hraise.causes _ (hin hd)), hlog.requests.digest (State.flag_raiseBit _ _ _ (by decide) (by decide))⟩⟩
theorem State.holdForFault_requests (s : State) : Requests s s.holdForFault ∧ (s.faultHold = true → s.dev = .run →
    1 ∈ s.holdForFault.boundary.causes ∧ s.holdForFault.flag Reg.onxVarStatus F.onxVarStatusFaultHold = true) := by
  unfold State.holdForFault
  split
  · obtain ⟨hcause, hin⟩ := s.holdCause_requests 1
    have hraise := (s.holdCause 1).raiseBit_requests (.inr rfl)
    exact ⟨hcause.trans hraise, fun _ hd => ⟨hraise.causes _ (hin hd), State.flag_raiseBit _ _ _ (by decide) (by decide)⟩⟩
  · next h => exact ⟨.refl s, fun hf => absurd hf h⟩
theorem State.holdForOthers_requests (s : State) : Requests s s.holdForOthers := by
  unfold State.holdForOthers
  split
  · exact (s.holdCause_requests 12).1
  · exact .refl s
/-- HOLD at a boundary, for causes that were all requested. -/
theorem State.holdNow_next (s : State) : s.holdNow.mem = s.mem ∧ s.holdNow.dev = .hold ∧ s.holdNow.boundary = {} ∧ s.holdNow.shards = [] ∧ s.holdNow.egress = [] ∧
    s.holdNow.rd Reg.onxVarStatus = s.rd Reg.onxVarStatus ∧
    s.holdNow.rd Reg.onxHoldCause = s.rd Reg.onxHoldCause ||| BitVec.ofNat 64 (s.boundary.causes.foldl (fun m b => m + 2 ^ b) 0) := by
  obtain ⟨w, hw⟩ : ∃ w, s.rd Reg.onxHoldCause ||| BitVec.ofNat 64 (s.boundary.causes.foldl (fun m b => m + 2 ^ b) 0) = w := ⟨_, rfl⟩
  obtain ⟨v, hv⟩ : ∃ v, ((s.wr Reg.onxHoldCause w).putF Reg.onxSchedStatus F.onxSchedStatusInBoundary 0).putF
      Reg.onxSchedStatus F.onxSchedStatusHoldRequested 0 = v := ⟨_, rfl⟩
  have hvmem : v.mem = s.mem := by rw [← hv, State.putF_mem, State.putF_mem, State.wr_mem]
  have hvrd : ∀ a, a ≠ Reg.onxSchedStatus → v.rd a = (s.wr Reg.onxHoldCause w).rd a := fun a ha => by
    rw [← hv, State.rd_putF_ne _ _ _ ha, State.rd_putF_ne _ _ _ ha]
  have hnow : s.holdNow = State.enter { v.hostHold with boundary := {} } .hold := by
    unfold State.holdNow
    dsimp only
    rw [hw, hv]
  have hleft := v.hostHold_leaves
  obtain ⟨hshards, hegress⟩ := v.hostHold_empties
  have henters := State.enter_enters { v.hostHold with boundary := {} } .hold
  rw [hw, hnow]
  refine ⟨?_, State.enter_dev _ _, by rw [henters.1], by rw [henters.1]; exact hshards, by rw [henters.1]; exact hegress, ?_, ?_⟩
  · rw [State.enter_mem]
    exact hleft.mem.trans hvmem
  · rw [henters.rd (by decide) (by decide)]
    exact (hleft.rd _ (.inl (by simp))).trans ((hvrd _ (by decide)).trans (State.rd_wr_ne _ _ (by decide)))
  · rw [henters.rd (by decide) (by decide)]
    exact (hleft.rd _ (.inl (by simp))).trans ((hvrd _ (by decide)).trans (State.rd_wr _ _ _))
/-- The causes' bits are those of the list. -/
theorem testBit_causes {l : List Nat} (h : l.Nodup) (b : Nat) : (l.foldl (fun m b => m + 2 ^ b) 0).testBit b = true ↔ b ∈ l := by
  have hsum : l.foldl (fun m b => m + 2 ^ b) 0 = ∑ i ∈ l.toFinset, 2 ^ i := by
    rw [List.sum_toFinset _ h, List.sum_eq_foldl, List.foldl_map]
  rw [hsum, ← Nat.mem_bitIndices, ← List.mem_toFinset, Finset.toFinset_bitIndices_sum_two_pow, List.mem_toFinset]
theorem bit_of_cause {l : List Nat} (h : l.Nodup) {b : Nat} (hb : b ∈ l) (hlt : b < 64) (w : Word) :
    bit (w ||| BitVec.ofNat 64 (l.foldl (fun m b => m + 2 ^ b) 0)).toNat b = true := by
  rw [bit_eq_testBit, BitVec.toNat_or, Nat.testBit_or, BitVec.toNat_ofNat, Nat.testBit_mod_two_pow, (testBit_causes h b).2 hb, decide_eq_true hlt]
  simp
theorem State.enterHold_mem (s : State) (diff : Option Nat) : (s.enterHold diff).mem = s.mem := by
  rw [State.enterHold_eq, (State.holdNow_next _).1, (State.holdForOthers_requests _).mem, (State.holdForFault_requests _).1.mem,
    (State.holdForDigest_requests _ _).1.mem, State.wr_mem]
/-- Every cause at a boundary is kept in ONX_HOLD_CAUSE, and noted in ONX_VAR_STATUS (R85, R321). -/
theorem State.enterHold_next (s : State) (diff : Option Nat) (hd : s.dev = .run) (hn : s.boundary.causes.Nodup) :
    (s.enterHold diff).dev = .hold ∧ (s.enterHold diff).boundary = {} ∧
      (diff.isSome → (s.enterHold diff).flag Reg.onxVarStatus F.onxVarStatusDigestMismatch = true ∧ bit ((s.enterHold diff).rd Reg.onxHoldCause).toNat 2 = true) ∧
      (s.faultHold = true → (s.enterHold diff).flag Reg.onxVarStatus F.onxVarStatusFaultHold = true ∧ bit ((s.enterHold diff).rd Reg.onxHoldCause).toNat 1 = true) := by
  obtain ⟨a, harrive⟩ : ∃ a, s.wr Reg.onxSchedArrive (BitVec.ofNat 64 s.boundaryA) = a := ⟨_, rfl⟩
  have ha : Requests s a := harrive ▸ (Requests.refl s).wr _ (.inl rfl)
  obtain ⟨hb, hdigest⟩ := a.holdForDigest_requests diff
  obtain ⟨hc, hfault⟩ := (a.holdForDigest diff).holdForFault_requests
  have hothers := (a.holdForDigest diff).holdForFault.holdForOthers_requests
  obtain ⟨-, hdev, hboundary, -, -, hvar, hcause⟩ := (a.holdForDigest diff).holdForFault.holdForOthers.holdNow_next
  have hnodup := ((ha.trans hb).trans (hc.trans hothers)).nodup hn
  rw [State.enterHold_eq, harrive]
  refine ⟨hdev, hboundary, fun hsome => ?_, fun hf => ?_⟩
  · obtain ⟨hin, hflag⟩ := hdigest hsome (ha.dev.trans hd)
    refine ⟨(State.flag_of_rd _ hvar).trans ((hc.trans hothers).digest hflag), ?_⟩
    rw [hcause]
    exact bit_of_cause hnodup ((hc.trans hothers).causes _ hin) (by decide) _
  · obtain ⟨hin, hflag⟩ := hfault ((ha.trans hb).faultHold.trans hf) ((ha.trans hb).dev.trans hd)
    refine ⟨(State.flag_of_rd _ hvar).trans (hothers.fault hflag), ?_⟩
    rw [hcause]
    exact bit_of_cause hnodup (hothers.causes _ hin) (by decide) _
/-- A package that alone asks for HOLD, for one cause, enters it for that cause alone. -/
theorem State.enterHold_one (s : State) {b : Nat} (hb : s.boundary.causes = [b]) (hf : s.faultHold = false)
    (hothers : ∀ n ∈ s.boundary.msgs, n.pkg = s.pkg ∨ n.request = false) :
    (s.enterHold none).rd Reg.onxHoldCause = s.rd Reg.onxHoldCause ||| BitVec.ofNat 64 (2 ^ b) ∧
      (s.enterHold none).shards = [] ∧ (s.enterHold none).egress = [] := by
  obtain ⟨a, harrive⟩ : ∃ a, s.wr Reg.onxSchedArrive (BitVec.ofNat 64 s.boundaryA) = a := ⟨_, rfl⟩
  have ha : Requests s a := harrive ▸ (Requests.refl s).wr _ (.inl rfl)
  have hcauses : a.boundary.causes = [b] := by rw [← harrive, State.wr_boundary, hb]
  have hfault : (a.holdForDigest none).holdForFault = a := if_neg (by show ¬ a.faultHold = true; simp [ha.faultHold, hf])
  have hforeign : a.holdForOthers = a := by
    refine if_neg fun h => ?_
    obtain ⟨m, hm, hreq⟩ := List.any_eq_true.1 h
    rw [Bool.and_eq_true, decide_eq_true_eq, ha.pkg] at hreq
    rw [ha.msgs] at hm
    rcases hothers m hm with h | h
    · exact hreq.2 h
    · simp [h] at hreq
  obtain ⟨-, -, -, hshards, hegress, -, hcause⟩ := a.holdNow_next
  rw [State.enterHold_eq, harrive, hfault, hforeign]
  refine ⟨?_, hshards, hegress⟩
  rw [hcause, hcauses, ha.rd _ (by decide), List.foldl_cons, List.foldl_nil, Nat.zero_add]
end Sys2Proof.Machine
end
section
/-! The boundary's release (R84, R128, R319, R320, R322). -/
namespace Sys2Proof.Machine

/-! The account of the release. -/

/-- The selections, A, the step base and the steps' count of a release (R84, R319, R320). -/
def State.releaseTimes (s : State) : State :=
  let s' := s.boundary.newSel.foldl (fun s x => s.setSel x.1 (x.2 - 1)) s
  ((s'.wr Reg.onxSchedArrive (BitVec.ofNat 64 s'.boundaryA)).wr Reg.onxSchedBase (BitVec.ofNat 64 s.relTick)).bump Reg.onxSchedStatus F.onxSchedStatusSteps 1
/-- What a release notes of its lateness, its hold carats and its dilation (R320, R322). -/
def State.releaseNotes (s : State) (rel plan h : Nat) : State :=
  let s := if plan < rel then
    ((s.bump Reg.onxSchedStatus F.onxSchedStatusLateSteps 1).bump Reg.onxSchedLate F.onxSchedLateLateCarats ((rel - plan) / 1024)).raise Reg.onxSchedLate F.onxSchedLateLateMax (rel - plan)
  else s
  let s := (s.bump Reg.onxSchedHold F.onxSchedHoldHoldCarats h).putF Reg.onxSchedHold F.onxSchedHoldHLast (min h 0xFFFF)
  let s := s.putF Reg.onxSchedHold F.onxSchedHoldDilApplied ((s.boundary.msgs.map fun m => m.d).foldl max 0)
  s.putF Reg.onxSchedStatus F.onxSchedStatusInBoundary 0
/-- The cores of a release: their steps' numbers, faults and waits (R80, R128, R149). -/
def State.releaseCores (s : State) (cyc : Nat) : State :=
  (List.range 12).foldl (fun s t =>
    let s := s.setTower t { s.tower t with stepDue := none, stepSent := false }
    ((s.jobCores t).filter fun c => !(s.core c).halted).foldl (fun s c => s.releaseCore cyc c) s) s.newStepFaults
/-- The next boundary begins (R84, R319). -/
def State.nextBoundary (s : State) (ended : Nat) : State :=
  { s with boundary := { causes := s.boundary.causes, evalFor := if s.start.vtable.rules.isEmpty then none else some ended } }
theorem State.releaseStep_eq (s : State) (cyc : Nat) : ∃ h plan n,
    s.releaseStep cyc = (let u := ((((s.releaseTimes.releaseNotes s.relTick plan h).advanceSteps.releaseCores cyc).nextBoundary s.stepNow).hostStep n s.relTick false)
      if u.awaited.isEmpty then u.tryForm else u) := ⟨s.boundaryH, s.base + s.planTicks + 1024 * s.boundaryH, _, rfl⟩

/-- The selections stand in registers below those of the schedule. -/
theorem State.setSels_spares (l : List (Nat × Nat)) (h : ∀ x ∈ l, x.1 < 256) (s : State) :
    Spares (fun a => 0x2180 ≤ a) s (l.foldl (fun s x => s.setSel x.1 (x.2 - 1)) s) := by
  induction l generalizing s with
  | nil => exact .refl _ s
  | cons x l ih =>
    refine ((Spares.refl _ s).putF _ _ ?_).trans (ih (fun y hy => h y (List.mem_cons_of_mem _ hy)) _)
    have := h x (by simp)
    unfold Reg.onxVarSel
    omega
theorem State.releaseTimes_next (s : State) (h : ∀ x ∈ s.boundary.newSel, x.1 < 256) :
    Spares (fun a => 0x100000000 ≤ a) s s.releaseTimes ∧ s.releaseTimes.rd Reg.onxSchedBase = BitVec.ofNat 64 s.relTick ∧
      s.releaseTimes.rd Reg.onxSchedArrive = BitVec.ofNat 64 s.boundaryA ∧
      s.releaseTimes.fld Reg.onxSchedStatus F.onxSchedStatusSteps = satAdd F.onxSchedStatusSteps.max (s.fld Reg.onxSchedStatus F.onxSchedStatusSteps) 1 := by
  obtain ⟨v, hv⟩ : ∃ v, s.boundary.newSel.foldl (fun s x => s.setSel x.1 (x.2 - 1)) s = v := ⟨_, rfl⟩
  have hsel : Spares (fun a => 0x2180 ≤ a) s v := hv ▸ State.setSels_spares _ h s
  have hA : v.boundaryA = s.boundaryA := by rw [hsel.only]; rfl
  have htimes : s.releaseTimes = ((v.wr Reg.onxSchedArrive (BitVec.ofNat 64 v.boundaryA)).wr Reg.onxSchedBase (BitVec.ofNat 64 s.relTick)).bump
      Reg.onxSchedStatus F.onxSchedStatusSteps 1 := by rw [← hv]; rfl
  rw [htimes]
  refine ⟨?_, ?_, ?_, ?_⟩
  · have hlow : Spares (fun a => 0x100000000 ≤ a) s v := ⟨hsel.only, fun a ha => hsel.rd a (by omega)⟩
    exact ((hlow.wr _ (by decide)).wr _ (by decide)).bump _ _ (by decide)
  · rw [State.rd_bump_ne _ _ _ (by decide), State.rd_wr]
  · rw [State.rd_bump_ne _ _ _ (by decide), State.rd_wr_ne _ _ (by decide), State.rd_wr, hA]
  · rw [State.fld_bump _ _ _ _ (by decide) (by decide), State.fld_of_rd _ (State.rd_wr_ne _ _ (by decide)), State.fld_of_rd _ (State.rd_wr_ne _ _ (by decide)),
      State.fld_of_rd _ (hsel.rd _ (by decide))]
/-- The notes leave the step base, A and CORE_STEP, and of ONX_SCHED_STATUS the count of the steps. -/
theorem State.releaseNotes_frame (s : State) (rel plan h : Nat) :
    Spares (fun a => a = Reg.onxSchedBase ∨ a = Reg.onxSchedArrive ∨ 0x100000000 ≤ a) s (s.releaseNotes rel plan h) ∧
      (s.releaseNotes rel plan h).fld Reg.onxSchedStatus F.onxSchedStatusSteps = s.fld Reg.onxSchedStatus F.onxSchedStatusSteps := by
  have hlate : ∀ n m k, Spares (fun a => a = Reg.onxSchedBase ∨ a = Reg.onxSchedArrive ∨ 0x100000000 ≤ a) s
      (((s.bump Reg.onxSchedStatus F.onxSchedStatusLateSteps n).bump Reg.onxSchedLate F.onxSchedLateLateCarats m).raise Reg.onxSchedLate F.onxSchedLateLateMax k) ∧
      (((s.bump Reg.onxSchedStatus F.onxSchedStatusLateSteps n).bump Reg.onxSchedLate F.onxSchedLateLateCarats m).raise Reg.onxSchedLate F.onxSchedLateLateMax k).fld
        Reg.onxSchedStatus F.onxSchedStatusSteps = s.fld Reg.onxSchedStatus F.onxSchedStatusSteps := fun n m k => by
    refine ⟨(((Spares.refl _ s).bump _ _ (by decide)).bump _ _ (by decide)).putF _ _ (by decide), ?_⟩
    rw [State.raise, State.fld_putF_ne _ _ _ _ (by decide), State.bump, State.fld_putF_ne _ _ _ _ (by decide), State.bump,
      State.fld_putF_apart _ _ _ (by decide) (by decide)]
  unfold State.releaseNotes
  dsimp only
  generalize hv : (if plan < rel then _ else s) = v
  have hnoted : Spares (fun a => a = Reg.onxSchedBase ∨ a = Reg.onxSchedArrive ∨ 0x100000000 ≤ a) s v ∧
      v.fld Reg.onxSchedStatus F.onxSchedStatusSteps = s.fld Reg.onxSchedStatus F.onxSchedStatusSteps := by
    rw [← hv]
    split
    · exact hlate _ _ _
    · exact ⟨.refl _ s, rfl⟩
  refine ⟨(((hnoted.1.bump _ _ (by decide)).putF _ _ (by decide)).putF _ _ (by decide)).putF _ _ (by decide), ?_⟩
  rw [State.fld_putF_apart _ _ _ (by decide) (by decide), State.fld_putF_ne _ _ _ _ (by decide), State.fld_putF_ne _ _ _ _ (by decide), State.bump,
    State.fld_putF_ne _ _ _ _ (by decide), hnoted.2]

/-! The cores' steps. -/

theorem coreStep_inj {c d : Nat} : Reg.coreStep c = Reg.coreStep d ↔ c = d := by
  unfold Reg.coreStep
  omega
/-- Every core of a list without repeats makes one step (R128). -/
theorem State.stepCores_frame (l : List Nat) (h : l.Nodup) (s : State) :
    Spares (fun a => ∀ c ∈ l, a ≠ Reg.coreStep c) s (l.foldl (fun s c => s.wr (Reg.coreStep c) (s.rd (Reg.coreStep c) + 1)) s) ∧
      ∀ c ∈ l, (l.foldl (fun s c => s.wr (Reg.coreStep c) (s.rd (Reg.coreStep c) + 1)) s).rd (Reg.coreStep c) = s.rd (Reg.coreStep c) + 1 := by
  induction l generalizing s with
  | nil => exact ⟨.refl _ s, fun c hc => by simp at hc⟩
  | cons d l ih =>
    obtain ⟨hd, hl⟩ := List.nodup_cons.1 h
    have hne : ∀ e ∈ l, Reg.coreStep d ≠ Reg.coreStep e := fun e he hde => hd (coreStep_inj.1 hde ▸ he)
    obtain ⟨hspares, hsteps⟩ := ih hl (s.wr (Reg.coreStep d) (s.rd (Reg.coreStep d) + 1))
    rw [List.foldl_cons]
    constructor
    · refine ((Spares.refl _ s).wr _ fun hno => hno d List.mem_cons_self rfl).trans ⟨hspares.only, fun a ha => hspares.rd a fun c hc => ha c (List.mem_cons_of_mem _ hc)⟩
    · intro c hc
      rcases List.mem_cons.1 hc with rfl | hc
      · rw [hspares.rd _ hne, State.rd_wr]
      · rw [hsteps c hc, State.rd_wr_ne _ _ (hne c hc).symm]
/-- Every enabled core makes a step, and no other (R128, R319). -/
theorem State.advanceSteps_next (s : State) : Spares (fun a => ∀ c, a ≠ Reg.coreStep c) s s.advanceSteps ∧
    ∀ c < 3072, s.advanceSteps.rd (Reg.coreStep c) =
      if s.flag (Reg.coreCtrl c) F.coreCtrlEnable then s.rd (Reg.coreStep c) + 1 else s.rd (Reg.coreStep c) := by
  obtain ⟨hspares, hsteps⟩ := State.stepCores_frame ((List.range 3072).filter fun c => s.flag (Reg.coreCtrl c) F.coreCtrlEnable)
    (List.nodup_range.filter _) s
  refine ⟨⟨hspares.only, fun a ha => hspares.rd a fun c _ => ha c⟩, fun c hc => ?_⟩
  split
  · next hon => exact hsteps c (List.mem_filter.2 ⟨List.mem_range.2 hc, hon⟩)
  · next hoff => exact hspares.rd _ fun d hd he => hoff (coreStep_inj.1 he ▸ (List.mem_filter.1 hd).2)
theorem State.markStage_leaves (s : State) (c i cyc : Nat) (which : Sample → Bool) : Leaves stepReg s (s.markStage c i cyc which) := by
  unfold State.markStage
  dsimp only
  split
  · exact .refl _ s
  · exact (Leaves.refl _ s).setCore _ _
theorem State.release_leaves (s : State) (c cyc : Nat) : Leaves stepReg s (s.release c cyc) := by
  have hcounted : ∀ u, Leaves stepReg s u → Leaves stepReg s ((u.modCore c fun k => { k with wait := .none, ready := max k.ready cyc }).markStage c 0 cyc
      fun m => m.waits && decide (m.stages.head? = some none)) := fun u h => (h.setCore _ _).trans (State.markStage_leaves _ _ _ _ _)
  unfold State.release
  refine hcounted _ ?_
  split
  · exact .refl _ s
  · exact .refl _ s
  · exact .refl _ s
  · exact (s.pmcCore_counts _ _ _).leaves
  · exact (s.pmcCore_counts _ _ _).leaves
theorem State.releaseCore_leaves (s : State) (cyc c : Nat) : Leaves stepReg s (s.releaseCore cyc c) := by
  unfold State.releaseCore
  dsimp only
  split
  · exact ((Leaves.refl _ s).setCore _ _).trans (State.release_leaves _ _ _)
  · exact (Leaves.refl _ s).setCore _ _
theorem State.releaseCores_leaves (s : State) (cyc : Nat) : Leaves stepReg s (s.releaseCores cyc) := by
  refine Leaves.trans (u := s.newStepFaults) (Leaves.foldl _ (fun x _ v => (Leaves.refl _ v).setCore _ _) s) (Leaves.foldl _ (fun t _ v => ?_) _)
  exact ((Leaves.refl _ v).setTower _ _).trans (Leaves.foldl _ (fun c _ v => v.releaseCore_leaves cyc c) _)
/-- A release at its tick (R84, R128, R319, R322). -/
theorem State.releaseStep_next (s : State) (cyc : Nat) (h : ∀ x ∈ s.boundary.newSel, x.1 < 256) :
    (s.releaseStep cyc).mem = s.mem ∧ (s.releaseStep cyc).dev = s.dev ∧ (s.releaseStep cyc).rd Reg.onxSchedBase = BitVec.ofNat 64 s.relTick ∧
      (s.releaseStep cyc).rd Reg.onxSchedArrive = BitVec.ofNat 64 s.boundaryA ∧
      (s.releaseStep cyc).fld Reg.onxSchedStatus F.onxSchedStatusSteps = satAdd F.onxSchedStatusSteps.max (s.fld Reg.onxSchedStatus F.onxSchedStatusSteps) 1 ∧
      ∀ c < 3072, (s.releaseStep cyc).rd (Reg.coreStep c) =
        if s.flag (Reg.coreCtrl c) F.coreCtrlEnable then s.rd (Reg.coreStep c) + 1 else s.rd (Reg.coreStep c) := by
  obtain ⟨h', plan, n, heq⟩ := s.releaseStep_eq cyc
  obtain ⟨htimes, hbase, harrive, hcount⟩ := s.releaseTimes_next h
  obtain ⟨hnotes, hnoted⟩ := s.releaseTimes.releaseNotes_frame s.relTick plan h'
  obtain ⟨v, hv⟩ : ∃ v, s.releaseTimes.releaseNotes s.relTick plan h' = v := ⟨_, rfl⟩
  rw [hv] at heq hnotes hnoted
  have hcore : ∀ a, 0x100000000 ≤ a → v.rd a = s.rd a := fun a ha => (hnotes.rd a (.inr (.inr ha))).trans (htimes.rd a ha)
  obtain ⟨hsteps, hstep⟩ := v.advanceSteps_next
  have hlow : ∀ a, a < 0x100000000 → v.advanceSteps.rd a = v.rd a := fun a ha => hsteps.rd a fun c => by unfold Reg.coreStep; omega
  obtain ⟨w, hw⟩ : ∃ w, ((v.advanceSteps.releaseCores cyc).nextBoundary s.stepNow).hostStep n s.relTick false = w := ⟨_, rfl⟩
  rw [hw] at heq
  have hleft : Leaves stepReg v.advanceSteps w := hw ▸ ((State.releaseCores_leaves _ cyc).setBoundary _).trans (State.hostStep_leaves _ _ _ _)
  have hsame := State.fld_of_rd F.onxSchedStatusSteps (hleft.rd Reg.onxSchedStatus (.inl (by simp)))
  have hend : Leaves (fun a => stepReg a ∧ a ≠ Reg.onxSchedStatus) v.advanceSteps (s.releaseStep cyc) ∧
      (s.releaseStep cyc).fld Reg.onxSchedStatus F.onxSchedStatusSteps = v.advanceSteps.fld Reg.onxSchedStatus F.onxSchedStatusSteps := by
    rw [heq]
    dsimp only
    split
    · obtain ⟨hform, hformed, -⟩ := w.tryForm_frame
      exact ⟨(hleft.mono fun _ ha => ha.1).trans (hform.mono fun _ ha => ha.2), hformed.trans hsame⟩
    · exact ⟨hleft.mono fun _ ha => ha.1, hsame⟩
  obtain ⟨hrest, hfld⟩ := hend
  refine ⟨?_, ?_, ?_, ?_, ?_, fun c hc => ?_⟩
  · rw [hrest.mem, hsteps.mem, hnotes.mem, htimes.mem]
  · rw [hrest.dev, hsteps.leaves.dev, hnotes.leaves.dev, htimes.leaves.dev]
  · rw [hrest.rd _ ⟨.inl (by simp), by decide⟩, hlow _ (by decide), hnotes.rd _ (.inl rfl), hbase]
  · rw [hrest.rd _ ⟨.inl (by simp), by decide⟩, hlow _ (by decide), hnotes.rd _ (.inr (.inl rfl)), harrive]
  · rw [hfld, State.fld_of_rd _ (hlow _ (by decide)), hnoted, hcount]
  · have hge : ∀ d, 0x100000000 ≤ Reg.coreStep d ∧ 0x100000000 ≤ Reg.coreCtrl d := fun d => by unfold Reg.coreStep Reg.coreCtrl; omega
    rw [hrest.rd _ ⟨stepReg_coreStep c, by unfold Reg.coreStep Reg.onxSchedStatus; omega⟩, hstep c hc, State.flag_of_rd _ (hcore _ (hge c).2), hcore _ (hge c).1]

end Sys2Proof.Machine
end
section
/-! STEP_RELEASE: the release or HOLD (R85, R319, R321). -/
namespace Sys2Proof.Machine

/-! The messages held. -/

/-- The message held of a package. -/
def State.held (s : State) (p : Nat) : Option BMsg := s.boundary.msgs.find? fun m => decide (m.pkg = p)
theorem State.held_pkg {s : State} {p : Nat} {m : BMsg} (h : s.held p = some m) : m.pkg = p := by
  simpa using List.find?_some h
theorem State.held_mem {s : State} {p : Nat} {m : BMsg} (h : s.held p = some m) : m ∈ s.boundary.msgs := List.mem_of_find?_eq_some h
theorem State.held_own {s : State} (h : s.allMessages = true) : ∃ m, s.held s.pkg = some m := by
  unfold State.allMessages at h
  rw [List.all_cons, Bool.and_eq_true] at h
  exact Option.isSome_iff_exists.1 (by unfold State.held; rw [List.find?_isSome]; simpa using h.1)
/-- A digest differs where another package's message holds another one than the own message (R85). -/
theorem State.otherDigest_isSome (s : State) : s.otherDigest.isSome = true ↔
    ∃ o, s.held s.pkg = some o ∧ ∃ p ∈ s.others, ∃ m, s.held p = some m ∧ m.digest ≠ o.digest := by
  unfold State.otherDigest
  show (match s.held s.pkg with
    | none => none
    | some o => ((s.others.filterMap s.held).find? fun m : BMsg => decide (m.digest ≠ o.digest)).map fun m : BMsg => m.digest).isSome = true ↔ _
  cases s.held s.pkg with
  | none => simp
  | some o =>
    dsimp only
    rw [Option.isSome_map, List.find?_isSome]
    simp only [List.mem_filterMap, decide_eq_true_eq]
    constructor
    · rintro ⟨m, ⟨p, hp, hm⟩, hne⟩
      exact ⟨o, rfl, p, hp, m, hm, hne⟩
    · rintro ⟨o', ho, p, hp, m, hm, hne⟩
      obtain rfl := Option.some.inj ho
      exact ⟨m, ⟨p, hp, hm⟩, hne⟩
/-- The own message, sent again with the request for HOLD. -/
def BMsg.asking (m : BMsg) : BMsg := { m with request := true }
theorem State.lateFault_calm {s : State} (h : s.faultHold = false) : s.lateFault = s := by
  unfold State.lateFault
  split
  · rw [h, Bool.false_and, if_neg (by simp)]
  · rfl
theorem State.held_sendMessage (s : State) (m : BMsg) (p : Nat) : (s.sendMessage m).held p = if p = m.pkg then some m else s.held p := by
  show (m :: s.boundary.msgs.filter fun x => decide (x.pkg ≠ m.pkg)).find? (fun x => decide (x.pkg = p)) = _
  split
  · next h => exact List.find?_cons_of_pos (by simp [h])
  · next h =>
    rw [List.find?_cons_of_neg (by simpa using fun he => h he.symm), List.find?_filter]
    unfold State.held
    congr 1
    funext x
    by_cases hx : x.pkg = p
    · simp [hx, h]
    · simp [hx]
/-- A late fault changes of the messages only the own one, which then asks for HOLD (R85). -/
theorem State.lateFault_cases (s : State) : s.lateFault = s ∨ ∃ m, s.held s.pkg = some m ∧ s.lateFault = s.sendMessage m.asking := by
  unfold State.lateFault
  split
  · next m hm =>
    split
    · exact .inr ⟨m, hm, rfl⟩
    · exact .inl rfl
  · exact .inl rfl
/-- A late fault leaves the digests, and so whether one differs. -/
theorem State.lateFault_otherDigest {s : State} (h : s.otherDigest.isSome = true) : s.lateFault.otherDigest.isSome = true := by
  rcases s.lateFault_cases with hsame | ⟨m, hm, hsent⟩
  · rwa [hsame]
  · obtain ⟨o, ho, p, hp, n, hn, hdigest⟩ := s.otherDigest_isSome.1 h
    obtain rfl : m = o := Option.some.inj (hm.symm.trans ho)
    have hpkg : m.asking.pkg = s.pkg := (State.held_pkg hm : m.pkg = s.pkg)
    have hother : p ≠ m.asking.pkg := fun he => by
      rw [he, hpkg] at hn
      exact hdigest (congrArg BMsg.digest (Option.some.inj (hn.symm.trans hm)))
    rw [hsent]
    refine (State.otherDigest_isSome _).2 ⟨m.asking, ?_, p, hp, n, ?_, hdigest⟩
    · rw [State.held_sendMessage]
      exact if_pos hpkg.symm
    · rw [State.held_sendMessage, if_neg hother, hn]
/-- After a fault the own message asks for HOLD (R85; assumption 115). -/
theorem State.lateFault_asks {s : State} (hall : s.allMessages = true) (hf : s.faultHold = true) : s.lateFault.boundary.msgs.any (fun m => m.request) = true := by
  obtain ⟨m, hm⟩ := State.held_own hall
  have hm' : (s.boundary.msgs.find? fun m => decide (m.pkg = s.pkg)) = some m := hm
  unfold State.lateFault
  rw [hm']
  dsimp only
  rw [hf, Bool.true_and]
  split
  · rfl
  · next h => exact List.any_eq_true.2 ⟨m, State.held_mem hm, by simpa using h⟩
theorem State.lateFault_keeps (s : State) : s.lateFault.dev = s.dev ∧ s.lateFault.faultHold = s.faultHold ∧
    s.lateFault.boundary.causes = s.boundary.causes ∧ s.lateFault.boundary.newSel = s.boundary.newSel := by
  rcases s.lateFault_cases with h | ⟨m, -, h⟩
  · rw [h]
    exact ⟨rfl, rfl, rfl, rfl⟩
  · rw [h]
    exact ⟨rfl, rfl, rfl, rfl⟩

/-! The end of a boundary. -/

/-- With every message held: HOLD, the release, or neither as yet. -/
def State.endBoundary (s : State) (cyc : Nat) : State :=
  if s.otherDigest.isSome || s.boundary.msgs.any (fun m => m.request) then s.enterHold s.otherDigest
  else if s.relTick ≤ s.tcNat then s.releaseStep cyc else s
theorem State.endBoundary_hold (s : State) (cyc : Nat) (h : s.otherDigest.isSome = true ∨ s.boundary.msgs.any (fun m => m.request) = true) :
    s.endBoundary cyc = s.enterHold s.otherDigest := if_pos (by rcases h with h | h <;> simp [h])
theorem State.endBoundary_calm {s : State} (cyc : Nat) (hd : s.otherDigest = none) (hr : ∀ m ∈ s.boundary.msgs, m.request = false) :
    s.endBoundary cyc = if s.relTick ≤ s.tcNat then s.releaseStep cyc else s := by
  refine if_neg ?_
  rw [hd, Option.isSome_none, Bool.false_or, List.any_eq_true]
  rintro ⟨m, hm, hreq⟩
  simp [hr m hm] at hreq
theorem State.endBoundary_mem (s : State) (cyc : Nat) (h : ∀ x ∈ s.boundary.newSel, x.1 < 256) : (s.endBoundary cyc).mem = s.mem := by
  unfold State.endBoundary
  split
  · exact s.enterHold_mem _
  · split
    · exact (s.releaseStep_next cyc h).1
    · rfl
/-- What STEP_RELEASE comes to. -/
theorem stepRelease_eq {t : At} {s : State} (ha : Awake t s) : exec (.stepRelease t) s = .next (if (s.at t).running then
    if (s.at t).tryForm.allMessages && (s.at t).tryForm.boundary.formed then (s.at t).tryForm.lateFault.endBoundary t.cyc else (s.at t).tryForm else s.at t) := by
  show execStepRelease t s = _
  unfold execStepRelease
  dsimp only
  rw [ha, if_neg (by simp)]
  split
  · split
    · rfl
    · rfl
  · rfl
theorem stepRelease_off {t : At} {s : State} (ha : Awake t s) (hd : s.dev ≠ .run) : exec (.stepRelease t) s = .next (s.at t) := by
  rw [stepRelease_eq ha]
  exact congrArg _ (if_neg fun h => hd (of_decide_eq_true h))
/-- In RUN, with the own message formed. -/
theorem stepRelease_formed {t : At} {s : State} (ha : Awake t s) (hd : s.dev = .run) (hf : s.boundary.formed = true) :
    exec (.stepRelease t) s = .next (if s.allMessages then (s.at t).lateFault.endBoundary t.cyc else s.at t) := by
  have hform : (s.at t).tryForm = s.at t := State.tryForm_formed hf
  have hall : (s.at t).allMessages = s.allMessages := rfl
  have hf' : (s.at t).boundary.formed = true := hf
  rw [stepRelease_eq ha, hform, hall, hf', Bool.and_true]
  exact congrArg _ (if_pos (decide_eq_true hd))
/-- No outcome of the boundary touches memory. -/
theorem stepRelease_bytes {t : At} {s : State} (ha : Awake t s) (h : ∀ x ∈ s.boundary.newSel, x.1 < 256) :
    ∃ u, exec (.stepRelease t) s = .next u ∧ SameBytes s u := by
  refine ⟨_, stepRelease_eq ha, .of_mem ?_⟩
  obtain ⟨hform, -, -, -, hsel⟩ := (s.at t).tryForm_frame
  split
  · split
    · have hkeys : ∀ x ∈ (s.at t).tryForm.lateFault.boundary.newSel, x.1 < 256 := by
        rw [(State.lateFault_keeps _).2.2.2, hsel]
        exact h
      rw [State.endBoundary_mem _ _ hkeys, (State.lateFault_leaves (fun _ => False) _).mem, hform.mem]
      rfl
    · exact hform.mem
  · rfl
/-- The clause on STEP_RELEASE. -/
theorem stepRelease_next (t : At) (s s1 : State) (ha : Awake t s) (h1 : s1 = s.at t) (hsel : ∀ x ∈ s.boundary.newSel, x.1 < 256) :
    ∃ u, exec (.stepRelease t) s = .next u ∧ SameBytes s u ∧ (s.dev ≠ .run → u = s1) ∧
      (s.dev = .run → s.boundary.formed = true → s.allMessages = false → u = s1) ∧
      (s.dev = .run → s.boundary.formed = true → s.allMessages = true →
      (s.otherDigest = none → s.faultHold = false → (∀ m ∈ s.boundary.msgs, m.request = false) → s1.tcNat < s1.relTick → u = s1) ∧
      (s.otherDigest = none → s.faultHold = false → (∀ m ∈ s.boundary.msgs, m.request = false) → s1.relTick ≤ s1.tcNat → u.dev = .run ∧
        u.rd Reg.onxSchedBase = BitVec.ofNat 64 s1.relTick ∧ u.rd Reg.onxSchedArrive = BitVec.ofNat 64 s.boundaryA ∧
        u.fld Reg.onxSchedStatus F.onxSchedStatusSteps = min F.onxSchedStatusSteps.max (s.fld Reg.onxSchedStatus F.onxSchedStatusSteps + 1) ∧
        (∀ c, c < 3072 → s.flag (Reg.coreCtrl c) F.coreCtrlEnable = true → u.rd (Reg.coreStep c) = s.rd (Reg.coreStep c) + 1) ∧
        (∀ c, c < 3072 → s.flag (Reg.coreCtrl c) F.coreCtrlEnable = false → u.rd (Reg.coreStep c) = s.rd (Reg.coreStep c))) ∧
      (∀ d, s.otherDigest = some d → s.boundary.causes.Nodup → u.dev = .hold ∧ u.flag Reg.onxVarStatus F.onxVarStatusDigestMismatch = true ∧
        bit (u.rd Reg.onxHoldCause).toNat 2 = true ∧ u.boundary = {}) ∧
      (s.faultHold = true → s.boundary.causes.Nodup → u.dev = .hold ∧ u.flag Reg.onxVarStatus F.onxVarStatusFaultHold = true ∧
        bit (u.rd Reg.onxHoldCause).toNat 1 = true ∧ u.boundary = {}) ∧
      (∀ b m, b < 13 → s.otherDigest = none → s.boundary.causes = [b] → s.faultHold = false →
        (∀ n ∈ s.boundary.msgs, n.pkg = s.pkg ∨ n.request = false) → m ∈ s.boundary.msgs → m.request = true →
        u.dev = .hold ∧ u.rd Reg.onxHoldCause = s.rd Reg.onxHoldCause ||| BitVec.ofNat 64 (2 ^ b) ∧ u.boundary = {} ∧ u.shards = [] ∧ u.egress = [])) := by
  subst h1
  obtain ⟨u, hu, hbytes⟩ := stepRelease_bytes ha hsel
  have hout : ∀ {v}, exec (.stepRelease t) s = .next v → u = v := fun h => by simpa using hu.symm.trans h
  refine ⟨u, hu, hbytes, fun hd => hout (stepRelease_off ha hd), fun hd hf hall => ?_, fun hd hf hall => ?_⟩
  · exact hout (by rw [stepRelease_formed ha hd hf, hall]; rfl)
  have hend : u = (s.at t).lateFault.endBoundary t.cyc := hout (by rw [stepRelease_formed ha hd hf, hall]; rfl)
  obtain ⟨hdev, hfault, hcauses, -⟩ := (s.at t).lateFault_keeps
  have hnodup : s.boundary.causes.Nodup → (s.at t).lateFault.boundary.causes.Nodup := fun h => by
    rw [hcauses]
    exact h
  refine ⟨fun hdig hfh hreq hlt => ?_, fun hdig hfh hreq hle => ?_, fun d hdig hn => ?_, fun hfh hn => ?_, fun b m _ hdig hb hfh hothers hm hreq => ?_⟩
  · rw [hend, State.lateFault_calm (s := s.at t) hfh, State.endBoundary_calm (s := s.at t) _ hdig hreq, if_neg (Nat.not_le.2 hlt)]
  · rw [State.lateFault_calm (s := s.at t) hfh, State.endBoundary_calm (s := s.at t) _ hdig hreq, if_pos hle] at hend
    obtain ⟨-, hrun, hbase, harrive, hsteps, hcores⟩ := (s.at t).releaseStep_next t.cyc hsel
    rw [hend]
    exact ⟨hrun.trans hd, hbase, harrive, hsteps, fun c hc hon => (hcores c hc).trans (if_pos hon),
      fun c hc hoff => (hcores c hc).trans (if_neg (by rw [show (s.at t).flag (Reg.coreCtrl c) F.coreCtrlEnable = false from hoff]; simp))⟩
  · have hsome : (s.at t).lateFault.otherDigest.isSome = true :=
      State.lateFault_otherDigest (s := s.at t) (by rw [show (s.at t).otherDigest = some d from hdig]; rfl)
    rw [State.endBoundary_hold _ _ (.inl hsome)] at hend
    obtain ⟨hhold, hboundary, hflags, -⟩ := (s.at t).lateFault.enterHold_next (s.at t).lateFault.otherDigest (hdev.trans hd) (hnodup hn)
    obtain ⟨hflag, hbit⟩ := hflags hsome
    rw [hend]
    exact ⟨hhold, hflag, hbit, hboundary⟩
  · rw [State.endBoundary_hold _ _ (.inr (State.lateFault_asks (s := s.at t) hall hfh))] at hend
    obtain ⟨hhold, hboundary, -, hflags⟩ := (s.at t).lateFault.enterHold_next (s.at t).lateFault.otherDigest (hdev.trans hd) (hnodup hn)
    obtain ⟨hflag, hbit⟩ := hflags (hfault.trans hfh)
    rw [hend]
    exact ⟨hhold, hflag, hbit, hboundary⟩
  · rw [State.lateFault_calm (s := s.at t) hfh, State.endBoundary_hold (s.at t) _ (.inr (List.any_eq_true.2 ⟨m, hm, hreq⟩)),
      show (s.at t).otherDigest = none from hdig] at hend
    obtain ⟨hhold, hboundary, -, -⟩ := (s.at t).enterHold_next none hd (show s.boundary.causes.Nodup by rw [hb]; simp)
    obtain ⟨hcause, hshards, hegress⟩ := (s.at t).enterHold_one hb hfh hothers
    rw [hend]
    exact ⟨hhold, hcause, hboundary, hshards, hegress⟩

/-- Settles O49: the evaluation by what Onyx's reading leaves, the release by its account and its cores, HOLD by the causes that were requested. -/
theorem evaluationReleaseAndHold : Obligations.EvaluationReleaseAndHold :=
  ⟨variantEvaluation_next, stepRelease_next, stepTimeout_next⟩
end Sys2Proof.Machine
end
section
/-! Disabled slot instructions (R99, R130, R132). -/
namespace Sys2Proof.Machine

/-- Settles O8: each of these instructions is a `whenOn`, some of them with a reserved code beside it, and NOP is the core's cycle alone. -/
theorem disabledInstructionsChangeNothing : Obligations.DisabledInstructionsChangeNothing := by
  intro t g s i h hi
  have off := fun f => whenOn_off f h
  have idle := onCore_looks h.1.1 h.1.2.1
  rcases hi with h | h | h | h | h | h | h | h | h | h | h | h | h
  · obtain ⟨d, a, b, rfl | rfl | rfl | rfl | rfl | rfl | rfl | rfl | rfl | rfl | rfl⟩ := h <;>
      simp only [exec, execAdd, execSub, execAnd, execOr, execXor, execShl, execShr, execSar, execMul, execMin, execMax, scalarOp, scalarTo, off]
  · obtain ⟨d, a, imm, rfl | rfl | rfl | rfl | rfl | rfl | rfl | rfl | rfl⟩ := h <;>
      simp only [exec, execAddi, execAndi, execOri, execXori, execShli, execShri, execSari, execSld, execSst, scalarImm, shiftImm, scalarTo, off]
  · obtain ⟨d, q, imm, wide, rfl | rfl | rfl⟩ := h <;> simp only [exec, execMovi, execInsl, execInsh, scalarTo, off]
  · obtain ⟨p, c, a, b, imm, rfl | rfl⟩ := h <;> simp only [exec, execCmp, execCmpi, predTo, off, idle, ite_self]
  · obtain ⟨p, q, r, o, rfl⟩ := h
    simp only [exec, execPlog, predTo, off]
  · obtain ⟨d, sel, rfl | rfl⟩ := h <;> simp only [exec, execSrd, execVsel, scalarTo, off]
  · obtain ⟨f, a, p, rfl | rfl | rfl⟩ := h <;> simp only [exec, execFset, execFclr, execFtest, predTo, off]
  · obtain ⟨a, b, rfl⟩ := h
    simp only [exec, execLatr, off]
  · obtain ⟨k, rfl⟩ := h
    exact idle
  · obtain ⟨d, a, b, k, rfl | rfl | rfl | rfl | rfl | rfl⟩ := h <;>
      simp only [exec, execVadd, execVsub, execVmul, execVfma, execVmin, execVmax, vectorOp, vectorTo, off]
  · obtain ⟨d, a, b, c, k, rfl | rfl | rfl | rfl | rfl⟩ := h <;>
      simp only [exec, execVcmp, execVselm, execVpack, execVunpk, execVbcl, vectorTo, off, idle, ite_self]
  · obtain ⟨d, a, rfl | rfl | rfl | rfl | rfl | rfl⟩ := h <;>
      simp only [exec, execVexp2, execVlog2, execVrcp, execVrsq, execVrsum, execVrmax, vectorUnary, vectorReduce, vectorTo, off]
  · obtain ⟨d, r, v, x, a, imm, rfl | rfl | rfl | rfl⟩ := h <;> simp only [exec, execVbcs, execVext, execVld, execVst, vectorTo, off]

end Sys2Proof.Machine
end
section
/-! Stretched periods (R125, R200): what a tower's cores count when they have come. -/
namespace Sys2Proof.Machine

/-- One core counts `n` stretched periods. -/
def State.countStretch (s : State) (c n : Nat) : State := (s.bump (Reg.coreStretch c) F.coreStretchCount n).pmcCore c 0x00A n
/-- How many of a tower's stretched periods have come by a cycle. -/
def State.stretches (s : State) (t cyc : Nat) : Nat := ((s.tower t).droops.filter (· ≤ cyc)).length

theorem coreStretch_notPmc (c d : Nat) : Reg.coreStretch c ∉ (List.range 8).map (Reg.corePmc d) := by
  simp only [List.mem_map, List.mem_range, not_exists, not_and]
  intro i hi
  unfold Reg.coreStretch Reg.corePmc
  omega
theorem coreStretch_inj {c d : Nat} (h : Reg.coreStretch c = Reg.coreStretch d) : c = d := by
  unfold Reg.coreStretch at h
  omega
theorem State.countStretch_cycles (s : State) (c d n : Nat) : Cycles d s (s.countStretch c n) :=
  (s.bumpStretch_cycles d _ _).trans (State.pmcCore_counts _ _ _ _).cycles
theorem State.countStretch_same (s : State) (c n : Nat) :
    (s.countStretch c n).fld (Reg.coreStretch c) F.coreStretchCount = satAdd F.coreStretchCount.max (s.fld (Reg.coreStretch c) F.coreStretchCount) n :=
  (State.fld_of_rd _ ((State.pmcCore_counts _ _ _ _).2 _ (coreStretch_notPmc _ _))).trans (s.fld_bump _ _ _ (by decide) (by decide))
theorem State.countStretch_other (s : State) {c d : Nat} (n : Nat) (h : d ≠ c) :
    (s.countStretch c n).fld (Reg.coreStretch d) F.coreStretchCount = s.fld (Reg.coreStretch d) F.coreStretchCount :=
  State.fld_of_rd _ (((State.pmcCore_counts _ _ _ _).2 _ (coreStretch_notPmc _ _)).trans
    (State.rd_bump_ne _ _ _ fun h2 => h (coreStretch_inj h2)))
/-- Of the cores that count in turn, each counts once. -/
theorem State.countStretches_fld (n d : Nat) : ∀ (l : List Nat) (s : State), l.Nodup →
    (l.foldl (fun s c => s.countStretch c n) s).fld (Reg.coreStretch d) F.coreStretchCount =
      if d ∈ l then satAdd F.coreStretchCount.max (s.fld (Reg.coreStretch d) F.coreStretchCount) n else s.fld (Reg.coreStretch d) F.coreStretchCount
  | [], _, _ => by simp
  | c :: l, s, h => by
    obtain ⟨hc, hl⟩ := List.nodup_cons.1 h
    rw [List.foldl_cons, State.countStretches_fld n d l _ hl]
    by_cases hd : d = c
    · subst hd
      rw [if_neg hc, if_pos (by simp), State.countStretch_same]
    · simp only [List.mem_cons, hd, false_or, s.countStretch_other n hd]
/-- The cores of a tower. -/
def towerCores (t : Nat) : List Nat := (List.range 256).map fun l => 256 * t + l
theorem mem_towerCores {t c : Nat} : c ∈ towerCores t ↔ c / 256 = t := by
  simp only [towerCores, List.mem_map, List.mem_range]
  constructor
  · rintro ⟨l, hl, rfl⟩
    omega
  · intro h
    exact ⟨c % 256, by omega, by omega⟩
theorem towerCores_nodup (t : Nat) : (towerCores t).Nodup :=
  List.nodup_range.map fun a b h => by simpa using h
/-- A tower's record without the stretched periods that have come by a cycle. -/
def State.droopsTaken (s : State) (t cyc : Nat) : State := s.setTower t { s.tower t with droops := (s.tower t).droops.filter (cyc < ·) }
/-- The stretched periods that have come leave the tower's record and count in each of its cores. -/
theorem State.settleDroop_eq (s : State) (t cyc : Nat) : s.settleDroop t cyc = if s.stretches t cyc = 0 then s
    else (towerCores t).foldl (fun u c => u.countStretch c (s.stretches t cyc)) (s.droopsTaken t cyc) := by
  unfold towerCores
  rw [List.foldl_map]
  rfl
theorem State.fld_le_max (s : State) (a : Nat) (f : Fld) : s.fld a f ≤ f.max :=
  Nat.le_sub_one_of_lt (Nat.mod_lt _ (Nat.two_pow_pos _))
theorem satAdd_zero {limit a : Nat} (h : a ≤ limit) : satAdd limit a 0 = a := Nat.min_eq_right h
/-- Every core of the tower counts the stretched periods that have come, and no other core does. -/
theorem State.settleDroop_fld (s : State) (t cyc c : Nat) : (s.settleDroop t cyc).fld (Reg.coreStretch c) F.coreStretchCount =
    if c / 256 = t then satAdd F.coreStretchCount.max (s.fld (Reg.coreStretch c) F.coreStretchCount) (s.stretches t cyc)
    else s.fld (Reg.coreStretch c) F.coreStretchCount := by
  rw [State.settleDroop_eq]
  split
  · next h => simp only [h, satAdd_zero (s.fld_le_max _ _), ite_self]
  · rw [State.countStretches_fld _ _ _ _ (towerCores_nodup t)]
    simp only [mem_towerCores]
    rfl

end Sys2Proof.Machine
end
section
/-! Reading a scalar register whose number no instruction can name (R99, R128). -/
namespace Sys2Proof.Machine

/-- Core 0 with a write to s1 on its way for cycle 1, in a tower whose period of cycle 0 is stretched. -/
def stretchedState : State :=
  (State.reset.setCore 0 { landing := [⟨1, 3, .setS 1 0⟩] }).setTower 0 { droops := [0] }
/-- The address that a number past the registers gives. -/
theorem State.sreg_beyond (s : State) : s.sreg 0 7685 = s.rd (Reg.coreStretch 1) := rfl
theorem stretchedState_counts : (stretchedState.toCycle 0 0).fld (Reg.coreStretch 1) F.coreStretchCount = 1 := by
  unfold State.toCycle
  rw [State.settleDroop_fld]
  decide +kernel

/-- Refutes O9: before the due cycle the statement asks the whole function `sreg 0` to stay, numbers of no register included. Number
7685 gives the address of CORE_STRETCH of core 1, in which bringing core 0 to cycle 0 counts the stretched period of the tower (R125). -/
theorem not_resultsLandInTheirCycle : ¬ Obligations.ResultsLandInTheirCycle := by
  intro h
  obtain ⟨hbefore, -⟩ := h stretchedState 0 0 1 3 (.setS 1 0) (by decide) (by decide) (by decide)
  obtain ⟨hsreg, -⟩ := hbefore (by decide)
  have hcount := stretchedState_counts
  unfold State.fld at hcount
  rw [← State.sreg_beyond, hsreg] at hcount
  exact absurd hcount (by decide)

end Sys2Proof.Machine
end
section
/-! SLD and SST (R98, R134, R138, R192). -/
namespace Sys2Proof.Machine

theorem State.bytes_eq_map (s : State) (a n : Nat) : s.bytes a n = (List.range n).map fun i => s.byte (a + i) := by
  induction n generalizing a with
  | zero => rfl
  | succ n ih =>
    rw [State.bytes, ih, List.range_succ_eq_map, List.map_cons, List.map_map]
    exact congrArg₂ List.cons rfl (List.map_congr_left fun i _ => congrArg s.byte (show a + 1 + i = a + (i + 1) by omega))
/-- A read of the own vault gives its bytes, and 0 past the vault's end (R134). -/
theorem State.ownRead_bytes {s : State} {c : Nat} (h : s.wbDrained c) (code off n : Nat) :
    (s.ownRead c code off n).1 = (List.range n).map fun i => if off + i < 0xA00000 then s.byte (windowOf c + off + i) else 0 := by
  by_cases hoff : off < vaultSize
  · obtain ⟨b, p, u, hread, heq⟩ := s.ownRead_inside c code n hoff
    obtain ⟨_, _, _, _, -, -, hvault⟩ := State.vaultRead_drained h code off (min n (vaultSize - off))
    obtain ⟨rfl, -⟩ : b = s.bytes (windowOf c + off) (min n (vaultSize - off)) ∧ _ := Prod.mk.injEq .. ▸ hread.symm.trans hvault
    rw [heq, State.bytes_eq_map]
    refine List.ext_getElem (by simp [padTo]) fun i h1 h2 => ?_
    simp only [List.length_map, List.length_range] at h2
    simp only [padTo, List.getElem_append, List.getElem_take, List.length_take, List.length_map, List.length_range, List.getElem_map,
      List.getElem_range, List.getElem_replicate]
    unfold vaultSize at hoff ⊢
    split
    · exact (if_pos (by omega)).symm
    · exact (if_neg (by omega)).symm
  · rw [State.ownRead_outside _ _ _ _ hoff]
    refine (List.eq_replicate_iff.2 ⟨by simp, ?_⟩).symm
    simp only [List.mem_map, forall_exists_index, and_imp]
    rintro b i - rfl
    exact if_neg (by unfold vaultSize at hoff; omega)
/-- A scalar load reads at its port and sends what it has read. -/
theorem State.sldRead_sends (s : State) (c r off cyc : Nat) :
    Sends (s.ownRead c 12 off 8).2.2 (s.sldRead c r off cyc) c (cyc + 7) 3 (.setS r (BitVec.ofNat 64 (natOf (s.ownRead c 12 off 8).1))) :=
  State.send_sends _ _ _ _ _
theorem State.sldAccess_waits {s : State} {c off : Nat} (hf : s.frozen c = true) (hoff : off < 0xA00000) (r cyc : Nat) :
    s.sldAccess c r off cyc = s.modCore c fun k => { k with waiting := k.waiting ++ [.sld r off] } :=
  if_pos (by rw [hf]; exact decide_eq_true hoff)
theorem State.sldAccess_reads {s : State} {c off : Nat} (h : s.frozen c = false ∨ 0xA00000 ≤ off) (r cyc : Nat) :
    s.sldAccess c r off cyc = s.sldRead c r off cyc := by
  refine if_neg fun hwait => ?_
  obtain ⟨hf, hoff⟩ := Bool.and_eq_true_iff.1 hwait
  rcases h with h | h
  · rw [h] at hf; cases hf
  · exact absurd (of_decide_eq_true hoff) (Nat.not_lt.2 h)
theorem exec_sld {t : At} {g : Gate} {s : State} (d a : BitVec 5) (imm : BitVec 12) (h : Enabled t g s) :
    exec (.sld t g d a imm) s = .next (((s.toCore t g.core).sldAccess g.core d.toNat (ownAt ((s.toCore t g.core).sreg g.core a.toNat) (8 * imm.toInt))
      t.cyc).ran g.core) :=
  whenOn_next (fun s => s.sldAccess g.core d.toNat (ownAt (s.sreg g.core a.toNat) (8 * imm.toInt)) t.cyc) h
theorem sst_gives {t : At} {g : Gate} {s : State} (d a : BitVec 5) (imm : BitVec 12) (h : Enabled t g s) :
    Gives t g s (.sst t g d a imm) 4 ((s.toCore t g.core).portPri g.core 12) (fun s => .vault (ownAt (s.sreg g.core a.toNat) (8 * imm.toInt))
      (ownPart (ownAt (s.sreg g.core a.toNat) (8 * imm.toInt)) (bytesOf (s.sreg g.core d.toNat).toNat 8)) []) :=
  ⟨_, whenOn_next (fun s => s.send g.core (t.cyc + 4) (s.portPri g.core 12) (.vault (ownAt (s.sreg g.core a.toNat) (8 * imm.toInt))
    (ownPart (ownAt (s.sreg g.core a.toNat) (8 * imm.toInt)) (bytesOf (s.sreg g.core d.toNat).toNat 8)) [])) h,
    (State.send_sends _ _ _ _ _).count (State.ran_counts _ _)⟩
theorem sld_next (t : At) (g : Gate) (d a : BitVec 5) (imm : BitVec 12) (s : State) (h : Enabled t g s) {s1 : State} {off : Nat}
    (h1 : s1 = s.toCore t g.core) (hoff : off = ownAt (s1.sreg g.core a.toNat) (8 * imm.toInt)) :
    ∃ u, exec (.sld t g d a imm) s = .next u ∧ SameBytes s1 u ∧
      (s1.frozen g.core = false ∨ 0xA00000 ≤ off → Sends (s1.ownRead g.core 12 off 8).2.2 u g.core (t.cyc + 7) 3
        (.setS d.toNat (BitVec.ofNat 64 (natOf (s1.ownRead g.core 12 off 8).1)))) ∧
      (s1.frozen g.core = true → off < 0xA00000 →
        OwnCore s1 u g.core [] ∧ u.core g.core = { s1.core g.core with waiting := (s1.core g.core).waiting ++ [.sld d.toNat off] }) := by
  have hdrained : s1.wbDrained g.core := by rw [h1]; exact s.toCore_drained t g.core
  have hran := State.ran_counts (s1.sldAccess g.core d.toNat off t.cyc) g.core
  refine ⟨_, by rw [exec_sld d a imm h, ← h1, ← hoff], ?_, fun hopen => ?_, fun hf hin => ?_⟩
  · refine SameBytes.of_mem (hran.mem.trans ?_)
    unfold State.sldAccess
    split
    · rfl
    · exact ((State.sldRead_sends _ _ _ _ _).keeps.mem).trans (State.ownRead_portReads hdrained 12 off 8).mem
  · rw [State.sldAccess_reads hopen] at hran ⊢
    exact (State.sldRead_sends _ _ _ _ _).count hran
  · rw [State.sldAccess_waits hf hin] at hran ⊢
    exact ⟨((OwnCore.refl s1 g.core []).modCore _).count hran, by rw [hran.core]; exact State.core_setCore _ _ _⟩

/-- Settles O11: what the port read is `ownRead_bytes`; a frozen port keeps the access, any other reads and sends. -/
theorem scalarVaultAccess : Obligations.ScalarVaultAccess := by
  intro t g d a imm s h
  obtain ⟨u, hexec, hmem, hreads, hwaits⟩ := sld_next t g d a imm s h rfl rfl
  refine ⟨_, _, rfl, rfl, ⟨u, _, hexec, hmem, rfl, fun hopen => ?_, hwaits⟩, ?_⟩
  · rw [← State.ownRead_bytes (s.toCore_drained t g.core) 12]
    exact hreads hopen
  · have hsst := sst_gives d a imm h
    simp only [ownPart_eq_take] at hsst
    exact hsst

end Sys2Proof.Machine
end
section
/-! WAITT, WAITSE, FWAIT, FENCE and the release of a time wait (R124, R143, R144, R146, R147, R285, R488). -/
namespace Sys2Proof.Machine

/-- A core that waits changes its own record alone. -/
theorem State.waits_own (s : State) (c cyc : Nat) (w : Wait) : OwnCore s (s.waits c cyc w) c [] := (OwnCore.refl s c []).modCore _
theorem State.waits_wait (s : State) (c cyc : Nat) (w : Wait) : ((s.waits c cyc w).core c).wait = w :=
  congrArg Core.wait (State.core_setCore s c { s.core c with wait := w, waitFrom := cyc })
/-- A control instruction that holds the next bundle. -/
theorem always_waits {t : At} {c : Nat} {s : State} (f : State → State) (w : Wait) (h : Issuing t c s)
    (hf : f (s.toCore t c) = (s.toCore t c).waits c t.cyc w) :
    ∃ u, always t c s f = .next u ∧ OwnCore (s.toCore t c) u c [] ∧ (u.core c).wait = w := by
  refine ⟨_, always_next f h, ?_, ?_⟩
  · rw [hf]
    exact (State.waits_own _ _ _ _).count (State.ran_counts _ _)
  · rw [(State.ran_counts _ _).core, hf, State.waits_wait]
/-- A control instruction that goes on at once and changes nothing but what it counts. -/
theorem always_goesOn {t : At} {c : Nat} {s : State} (f : State → State) (h : Issuing t c s) (hf : f (s.toCore t c) = s.toCore t c) :
    ∃ u, always t c s f = .next u ∧ Counts (s.toCore t c) u c :=
  ⟨_, always_next f h, by rw [hf]; exact State.ran_counts _ _⟩

/-! WAITT and its release. -/

theorem coreLate_notPmc (c d : Nat) : Reg.coreLate c ∉ (List.range 8).map (Reg.corePmc d) := by
  simp only [List.mem_map, List.mem_range, not_exists, not_and]
  intro i hi
  unfold Reg.coreLate Reg.corePmc
  omega
theorem State.countLate_own (s : State) (c late : Nat) : OwnCore s (s.countLate c late) c [Reg.coreLate c] :=
  (((OwnCore.refl s c [Reg.coreLate c]).bump _ _ (List.mem_singleton.2 rfl)).raise _ _ (List.mem_singleton.2 rfl)).count (State.pmcCore_counts _ _ _ _)
theorem State.countLate_core (s : State) (c late d : Nat) : (s.countLate c late).core d = s.core d := (State.pmcCore_counts _ _ _ _).core d
theorem State.fld_raise (s : State) (a : Nat) (f : Fld) (n : Nat) (h : f.hi < 64) (hl : f.lo ≤ f.hi) :
    (s.raise a f n).fld a f = max (s.fld a f) (min f.max n) := by
  unfold State.raise
  rw [State.fld_putF _ _ _ _ h hl]
  have hpos : 0 < 2 ^ f.width := Nat.two_pow_pos _
  have hle := s.fld_le_max a f
  unfold Fld.max at hle ⊢
  exact Nat.mod_eq_of_lt (by omega)
theorem State.countLate_flds (s : State) (c late : Nat) :
    (s.countLate c late).fld (Reg.coreLate c) F.coreLateLateCount = min (2 ^ 32 - 1) (s.fld (Reg.coreLate c) F.coreLateLateCount + 1) ∧
      (s.countLate c late).fld (Reg.coreLate c) F.coreLateLateMax = max (s.fld (Reg.coreLate c) F.coreLateLateMax) (min (2 ^ 32 - 1) late) := by
  have hkeep := (State.pmcCore_counts ((s.bump (Reg.coreLate c) F.coreLateLateCount 1).raise (Reg.coreLate c) F.coreLateLateMax late) c 0x00B 1).2 _
    (coreLate_notPmc c c)
  constructor
  · refine (State.fld_of_rd _ hkeep).trans ((State.fld_putF_apart _ _ _ (by decide) (.inl (by decide))).trans ?_)
    exact s.fld_bump _ _ _ (by decide) (by decide)
  · refine (State.fld_of_rd _ hkeep).trans ((State.fld_raise _ _ _ _ (by decide) (by decide)).trans ?_)
    rw [show (s.bump (Reg.coreLate c) F.coreLateLateCount 1).fld (Reg.coreLate c) F.coreLateLateMax = s.fld (Reg.coreLate c) F.coreLateLateMax from
      State.fld_putF_apart _ _ _ (by decide) (.inr (by decide))]
    rfl
/-- WAITT counts where it is late and waits elsewhere. -/
theorem waitt_next (t : At) (c : Nat) (a : BitVec 5) (imm : BitVec 17) (s s1 : State) (target now : Word) (h : Issuing t c s) (h1 : s1 = s.toCore t c)
    (htarget : target = s1.sreg c a.toNat + BitVec.ofNat 64 imm.toNat) (hnow : now = s1.copyTc (c / 256)) :
    ∃ u, exec (.waitt t c a imm) s = .next u ∧
      ((s1.tower (c / 256)).copyValid = true ∧ target.toNat ≤ now.toNat →
        OwnCore s1 u c [Reg.coreLate c] ∧ (u.core c).wait = (s1.core c).wait ∧
        u.fld (Reg.coreLate c) F.coreLateLateCount = min (2 ^ 32 - 1) (s1.fld (Reg.coreLate c) F.coreLateLateCount + 1) ∧
        u.fld (Reg.coreLate c) F.coreLateLateMax =
          max (s1.fld (Reg.coreLate c) F.coreLateLateMax) (min (2 ^ 32 - 1) (now.toNat - target.toNat))) ∧
      (¬ ((s1.tower (c / 256)).copyValid = true ∧ target.toNat ≤ now.toNat) →
        OwnCore s1 u c [] ∧ (u.core c).wait = .time target false) := by
  have himm : s1.sreg c a.toNat + imm.setWidth 64 = target := by rw [htarget, BitVec.ofNat_toNat]
  obtain ⟨f, hexec, hf⟩ : ∃ f, exec (.waitt t c a imm) s = always t c s f ∧ f s1 =
      if (s1.tower (c / 256)).copyValid && decide (target ≤ now) then s1.countLate c (now.toNat - target.toNat)
      else s1.waits c t.cyc (.time target false) := by
    show ∃ f, execWaitt t c a imm s = always t c s f ∧ _
    exact ⟨_, rfl, by rw [← himm, hnow]; rfl⟩
  by_cases hlate : (s1.tower (c / 256)).copyValid = true ∧ target.toNat ≤ now.toNat
  · rw [if_pos (by simpa [BitVec.le_def] using hlate)] at hf
    have hran := State.ran_counts (s1.countLate c (now.toNat - target.toNat)) c
    obtain ⟨hcount, hmax⟩ := s1.countLate_flds c (now.toNat - target.toNat)
    refine ⟨_, by rw [hexec, always_next f h, ← h1, hf], fun _ => ⟨(s1.countLate_own _ _).count hran, ?_, ?_, ?_⟩, fun hn => absurd hlate hn⟩
    · rw [hran.core, State.countLate_core]
    · exact (State.fld_of_rd _ (hran.2 _ (coreLate_notPmc c c))).trans hcount
    · exact (State.fld_of_rd _ (hran.2 _ (coreLate_notPmc c c))).trans hmax
  · rw [if_neg (by simpa [BitVec.le_def] using hlate)] at hf
    subst h1
    obtain ⟨u, hu, hwaits⟩ := always_waits f _ h hf
    exact ⟨u, hexec.trans hu, fun hl => absurd hl hlate, fun _ => hwaits⟩

/-- The next bundle may issue: the core's own record and its counters alone change. -/
theorem State.markStage_own (s : State) (c i cyc : Nat) (which : Sample → Bool) : OwnCore s (s.markStage c i cyc which) c [] ∧
    ((s.markStage c i cyc which).core c).wait = (s.core c).wait ∧ ((s.markStage c i cyc which).core c).ready = (s.core c).ready := by
  unfold State.markStage
  dsimp only
  split
  · exact ⟨.refl s c [], rfl, rfl⟩
  · exact ⟨(OwnCore.refl s c []).modCore _, by rw [State.modCore, State.core_setCore], by rw [State.modCore, State.core_setCore]⟩
theorem State.release_own (s : State) (c cyc : Nat) : OwnCore s (s.release c cyc) c [] ∧ ((s.release c cyc).core c).wait = .none ∧
    ((s.release c cyc).core c).ready = max (s.core c).ready cyc := by
  obtain ⟨v, hcounts, hv⟩ : ∃ v, Counts s v c ∧ s.release c cyc =
      (v.modCore c fun k => { k with wait := .none, ready := max k.ready cyc }).markStage c 0 cyc
        fun m => m.waits && decide (m.stages.head? = some none) := by
    refine ⟨_, ?_, rfl⟩
    split
    · exact .refl s c
    · exact .refl s c
    · exact .refl s c
    · exact s.pmcCore_counts _ _ _
    · exact s.pmcCore_counts _ _ _
  obtain ⟨hown, hwait, hready⟩ := (v.modCore c fun k => { k with wait := .none, ready := max k.ready cyc }).markStage_own c 0 cyc
    fun m => m.waits && decide (m.stages.head? = some none)
  rw [hv]
  refine ⟨((hcounts.own []).modCore _).trans hown, hwait.trans ?_, hready.trans ?_⟩
  · rw [State.modCore, State.core_setCore]
  · rw [State.modCore, State.core_setCore, hcounts.core]
theorem waittRelease_next (t : At) (c : Nat) (s s1 : State) (target : Word) (entry : Bool) (hc : c < 3072) (ha : Awake t s) (h1 : s1 = s.toCore t c)
    (hrun : s1.dev = .run) (hwait : (s1.core c).wait = .time target entry) :
    ∃ u, exec (.waittRelease t c) s = .next u ∧ OwnCore s1 u c [] ∧
      ((s1.tower (c / 256)).copyValid = true ∧ target.toNat ≤ (s1.copyTc (c / 256)).toNat →
        (u.core c).wait = .none ∧ (u.core c).ready = max (s1.core c).ready t.cyc) ∧
      (¬ ((s1.tower (c / 256)).copyValid = true ∧ target.toNat ≤ (s1.copyTc (c / 256)).toNat) → u = s1) := by
  obtain ⟨u, hu, hu1⟩ : ∃ u, exec (.waittRelease t c) s = .next u ∧ u =
      if s1.running && (s1.tower (c / 256)).copyValid && decide (target ≤ s1.copyTc (c / 256)) then s1.release c t.cyc else s1 := by
    show ∃ u, execWaittRelease t c s = .next u ∧ _
    refine ⟨_, onCore_next _ hc ha, ?_⟩
    rw [← h1, hwait]
    rfl
  have hrunning : s1.running = true := decide_eq_true hrun
  rw [hrunning, Bool.true_and] at hu1
  obtain ⟨hown, hnone, hready⟩ := s1.release_own c t.cyc
  by_cases hreached : (s1.tower (c / 256)).copyValid = true ∧ target.toNat ≤ (s1.copyTc (c / 256)).toNat
  · rw [if_pos (by simpa [BitVec.le_def] using hreached)] at hu1
    subst hu1
    exact ⟨_, hu, hown, fun _ => ⟨hnone, hready⟩, fun hn => absurd hreached hn⟩
  · rw [if_neg (by simpa [BitVec.le_def] using hreached)] at hu1
    subst hu1
    exact ⟨_, hu, .refl _ c [], fun hr => absurd hr hreached, fun _ => rfl⟩

/-! WAITSE, FWAIT and FENCE. -/

/-- What WAITSE waits for: of the descriptors issued before it, each engine of its mask has few enough left. -/
theorem State.enginesClear_iff (s : State) (c : Nat) (mask : BitVec 4) (n : Nat) (issued : List Nat) : s.enginesClear c mask.toNat n issued = true ↔
    ∀ e, e < 4 → mask.getLsbD e = true → ((s.engine c e).queue.filter fun x => decide (x.seq < issued.getD e 0)).length ≤ n := by
  unfold State.enginesClear
  simp only [List.all_eq_true, List.mem_range, Bool.or_eq_true, Bool.not_eq_true', decide_eq_true_eq, bit_eq_testBit, BitVec.testBit_toNat]
  exact forall₂_congr fun e _ => by cases mask.getLsbD e <;> simp
theorem waitse_next (t : At) (c : Nat) (mask : BitVec 4) (n : BitVec 2) (s s1 : State) (h : Issuing t c s) (h1 : s1 = s.toCore t c) :
    ∃ u, exec (.waitse t c mask n) s = .next u ∧
      (s1.enginesClear c mask.toNat n.toNat (s1.issuedBy c) = true → Counts s1 u c) ∧
      (¬ s1.enginesClear c mask.toNat n.toNat (s1.issuedBy c) = true →
        OwnCore s1 u c [] ∧ (u.core c).wait = .engines mask.toNat n.toNat (s1.issuedBy c)) := by
  obtain ⟨f, hexec, hf⟩ : ∃ f, exec (.waitse t c mask n) s = always t c s f ∧ f s1 = if s1.enginesClear c mask.toNat n.toNat (s1.issuedBy c) then s1
      else s1.waits c t.cyc (.engines mask.toNat n.toNat (s1.issuedBy c)) := by
    show ∃ f, execWaitse t c mask n s = always t c s f ∧ _
    exact ⟨_, rfl, rfl⟩
  subst h1
  split at hf
  · next hclear =>
    obtain ⟨u, hu, hcounts⟩ := always_goesOn f h hf
    exact ⟨u, hexec.trans hu, fun _ => hcounts, fun hn => absurd hclear hn⟩
  · next hbusy =>
    obtain ⟨u, hu, hwaits⟩ := always_waits f _ h hf
    exact ⟨u, hexec.trans hu, fun hy => absurd hy hbusy, fun _ => hwaits⟩
theorem fence_next (t : At) (c : Nat) (s s1 : State) (h : Issuing t c s) (h1 : s1 = s.toCore t c) :
    ∃ u, exec (.fence t c) s = .next u ∧ (s1.fenceClear c (s1.issuedBy c) = true → Counts s1 u c) ∧
      (s1.fenceClear c (s1.issuedBy c) = false → OwnCore s1 u c [] ∧ (u.core c).wait = .fence (s1.issuedBy c)) := by
  obtain ⟨f, hexec, hf⟩ : ∃ f, exec (.fence t c) s = always t c s f ∧ f s1 = if s1.fenceClear c (s1.issuedBy c) then s1
      else s1.waits c t.cyc (.fence (s1.issuedBy c)) := by
    show ∃ f, execFence t c s = always t c s f ∧ _
    exact ⟨_, rfl, rfl⟩
  subst h1
  split at hf
  · next hclear =>
    obtain ⟨u, hu, hcounts⟩ := always_goesOn f h hf
    exact ⟨u, hexec.trans hu, fun _ => hcounts, fun hn => absurd (hn.symm.trans hclear) (by decide)⟩
  · next hbusy =>
    obtain ⟨u, hu, hwaits⟩ := always_waits f _ h hf
    exact ⟨u, hexec.trans hu, fun hy => absurd hy hbusy, fun _ => hwaits⟩

theorem twrFlags_notPmc {t c w d : Nat} (hd : d < 3072) : Reg.twrFlags t c w ∉ (List.range 8).map (Reg.corePmc d) := by
  simp only [List.mem_map, List.mem_range, not_exists, not_and]
  intro i hi
  unfold Reg.twrFlags Reg.corePmc
  omega
theorem State.flagBit_of_rd {s u : State} {c f : Nat} (h : u.rd (Reg.twrFlags (towerOf c) (localOf c) (f / 64)) = s.rd (Reg.twrFlags (towerOf c) (localOf c) (f / 64))) :
    u.flagBit c f = s.flagBit c f := by
  unfold State.flagBit
  rw [h]
theorem State.flagBit_eq_flag (s : State) (c f : Nat) :
    s.flagBit c f = s.flag (Reg.twrFlags (towerOf c) (localOf c) (f / 64)) ⟨f % 64, f % 64⟩ := by
  unfold State.flagBit State.flag Fld.bit
  rw [bit_eq_testBit, BitVec.testBit_toNat]
theorem State.flagBit_setFlag (s : State) (c f : Nat) (b : Bool) : (s.setFlag c f b).flagBit c f = b := by
  rw [State.flagBit_eq_flag]
  exact s.flag_putB _ _ b (Nat.mod_lt _ (by decide)) rfl
theorem State.core_setFlag (s : State) (c f : Nat) (b : Bool) (d : Nat) : (s.setFlag c f b).core d = s.core d := by
  unfold State.core State.setFlag
  rw [State.putB_cores]
theorem State.rd_modCore (s : State) (c : Nat) (f : Core → Core) (a : Nat) : (s.modCore c f).rd a = s.rd a := rfl
/-- Clearing a flag changes that flag's register and the core's record, in which the clear is noted. -/
theorem State.clearFlag_own (s : State) (c f cyc : Nat) : OwnCore s (s.clearFlag c f cyc) c [Reg.twrFlags (c / 256) (c % 256) (f / 64)] ∧
    ((s.clearFlag c f cyc).core c).wait = (s.core c).wait ∧ (s.clearFlag c f cyc).flagBit c f = false := by
  have hmem : Reg.twrFlags (towerOf c) (localOf c) (f / 64) ∈ [Reg.twrFlags (c / 256) (c % 256) (f / 64)] := by
    unfold towerOf localOf
    exact List.mem_singleton_self _
  unfold State.clearFlag
  refine ⟨((OwnCore.refl s c _).wr _ hmem).modCore _, ?_, (State.flagBit_of_rd (State.rd_modCore _ _ _ _)).trans (s.flagBit_setFlag c f false)⟩
  rw [State.modCore, State.core_setCore, State.core_setFlag]
theorem fwait_next (t : At) (c : Nat) (f : BitVec 8) (clr : Bool) (s s1 : State) (h : Issuing t c s) (h1 : s1 = s.toCore t c) :
    ∃ u, exec (.fwait t c f clr) s = .next u ∧
      (s1.flagBit c f.toNat = false → OwnCore s1 u c [] ∧ (u.core c).wait = .flag f.toNat clr) ∧
      (s1.flagBit c f.toNat = true → (u.core c).wait = (s1.core c).wait ∧ u.flagBit c f.toNat = !clr ∧
        OwnCore s1 u c [Reg.twrFlags (c / 256) (c % 256) (f.toNat / 64)]) := by
  obtain ⟨g, hexec, hg⟩ : ∃ g, exec (.fwait t c f clr) s = always t c s g ∧ g s1 = if s1.flagBit c f.toNat then
      (if clr then s1.clearFlag c f.toNat (t.cyc + 1) else s1) else s1.waits c t.cyc (.flag f.toNat clr) := by
    show ∃ g, execFwait t c f clr s = always t c s g ∧ _
    exact ⟨_, rfl, rfl⟩
  by_cases hflag : s1.flagBit c f.toNat = true
  · rw [if_pos hflag] at hg
    obtain ⟨hown, hwait, hbit⟩ : OwnCore s1 (g s1) c [Reg.twrFlags (c / 256) (c % 256) (f.toNat / 64)] ∧ ((g s1).core c).wait = (s1.core c).wait ∧
        (g s1).flagBit c f.toNat = !clr := by
      rw [hg]
      cases clr with
      | false => exact ⟨.refl _ _ _, rfl, hflag⟩
      | true => exact s1.clearFlag_own c f.toNat (t.cyc + 1)
    have hran := State.ran_counts (g s1) c
    exact ⟨_, by rw [hexec, always_next g h, ← h1], fun hn => absurd (hn.symm.trans hflag) (by decide),
      fun _ => ⟨by rw [hran.core]; exact hwait, (State.flagBit_of_rd (hran.2 _ (twrFlags_notPmc h.1))).trans hbit, hown.count hran⟩⟩
  · rw [if_neg hflag] at hg
    subst h1
    obtain ⟨u, hu, hwaits⟩ := always_waits g _ h hg
    exact ⟨u, hexec.trans hu, fun _ => hwaits, fun hy => absurd hy hflag⟩

/-- Settles O14: each of these instructions is a choice between going on, with what it counts or clears, and a wait in the core's record. -/
theorem waits : Obligations.Waits := by
  refine ⟨⟨waitt_next, waittRelease_next⟩, fun t c mask n f clr s s1 h h1 => ⟨?_, fwait_next t c f clr s s1 h h1, ?_⟩⟩
  · obtain ⟨u, hu, hclear, hbusy⟩ := waitse_next t c mask n s s1 h h1
    refine ⟨u, _, rfl, hu, fun few hfew => ?_⟩
    have hiff := s1.enginesClear_iff c mask n.toNat (s1.issuedBy c)
    rw [hfew]
    exact ⟨fun hy => hclear (hiff.2 hy), fun hn => hbusy fun hy => hn (hiff.1 hy)⟩
  · obtain ⟨u, hu, hclear, hbusy⟩ := fence_next t c s s1 h h1
    exact ⟨u, _, rfl, hu, hclear, hbusy⟩

end Sys2Proof.Machine
end
section
/-! The issue of a matrix-array instruction (R97, R103 to R108, R126, R132, R153, R154, R176, R203). -/
namespace Sys2Proof.Machine

/-! A core's fault. -/

theorem State.coreFault_flag (s : State) (c : Nat) (f : Fld) (h : f.hi < 64) (hl : f.lo = f.hi) : (s.coreFault c f).flag (Reg.coreFault c) f = true := by
  have hraise := s.flag_raiseBit (Reg.coreFault c) f h hl
  have hne : Reg.coreFault c ≠ Reg.onxLogStatus := by
    unfold Reg.coreFault Reg.onxLogStatus
    omega
  unfold State.coreFault
  split
  · exact hraise
  · exact (State.flag_of_rd f ((State.log_logs _ _ _ _).rd hne)).trans hraise
theorem State.coreFault_mem (s : State) (c : Nat) (f : Fld) : (s.coreFault c f).mem = s.mem := (s.coreFault_portReads c f).mem
theorem State.core_of_cores {s u : State} (h : u.cores = s.cores) (d : Nat) : u.core d = s.core d := by
  unfold State.core
  rw [h]
theorem State.coreFault_core (s : State) (c : Nat) (f : Fld) (d : Nat) : (s.coreFault c f).core d = s.core d := by
  refine State.core_of_cores ?_ d
  unfold State.coreFault
  split
  · exact s.raiseBit_cores _ _
  · rw [(State.log_logs _ _ _ _).1]
    exact s.raiseBit_cores (Reg.coreFault c) f

/-! An instruction whose delay ends. -/

/-- An instruction that issues is no longer delayed; memory and the array stay as they are until it starts. -/
theorem State.countGoverned_ends (s : State) (c cyc : Nat) : (s.countGoverned c cyc).mem = s.mem ∧ ((s.countGoverned c cyc).core c).governed = none := by
  cases hg : (s.core c).governed with
  | none =>
    have heq : s.countGoverned c cyc = s := by
      unfold State.countGoverned
      rw [hg]
    rw [heq]
    exact ⟨rfl, hg⟩
  | some d =>
    have hcounts := ((s.bump (Reg.coreGov c) F.coreGovCount (cyc - d.due)).bump (Reg.twrGov (towerOf c) (colOf c)) F.twrGovEvents 1).pmcCore_counts c 0x009
      (cyc - d.due)
    have hbumps := ((Spares.refl (fun _ => False) s).bump (a := Reg.coreGov c) F.coreGovCount (cyc - d.due) id).bump
      (a := Reg.twrGov (towerOf c) (colOf c)) F.twrGovEvents 1 id
    unfold State.countGoverned State.modCore
    rw [hg]
    exact ⟨hcounts.mem.trans hbumps.mem, by rw [State.core_setCore]⟩

/-! The matrix slot's instruction. -/

/-- What an enabled matrix-array instruction may find. -/
theorem matrixArray_next {t : At} {g : Gate} {s s1 : State} (i : Instr) (largest report : Nat) (op : State → ArrayOp) {o : ArrayOp} (h : Enabled t g s)
    (h1 : s.toCore t g.core = s1) (ho : o = { op s1 with cyc := t.cyc, enabled := true }) :
    ∃ u, matrixArray t g i largest report op s = .next u ∧ SameBytes s1 u ∧
      (largest < 16 * o.blocks → u.flag (Reg.coreFault g.core) F.coreFaultMatrixRange = true ∧ (u.core g.core).array = (s1.core g.core).array) ∧
      (16 * o.blocks ≤ largest → t.cyc < (s1.core g.core).arrayFree → (u.core g.core).array = (s1.core g.core).array ∧
        u.fld (Reg.coreStall g.core) F.coreStallCount = min (2 ^ 48 - 1) (s1.fld (Reg.coreStall g.core) F.coreStallCount + 1)) ∧
      (16 * o.blocks ≤ largest → (s1.core g.core).arrayFree ≤ t.cyc → s1.governorLets g.core o.occ (s1.dueCycle g.core t.cyc) = false →
        (s1.core g.core).bundle ≠ some t.cyc →
        (u.core g.core).wait = .governor ∧ (u.core g.core).array = (s1.core g.core).array ∧
        (u.core g.core).governed = some { due := s1.dueCycle g.core t.cyc, instr := some i }) ∧
      (16 * o.blocks ≤ largest → (s1.core g.core).arrayFree ≤ t.cyc →
        s1.governorLets g.core o.occ (s1.dueCycle g.core t.cyc) = true ∨ (s1.core g.core).bundle = some t.cyc →
        (u.core g.core).governed = none ∧ (u.core g.core).arrayFree = t.cyc + o.occ ∧ ∃ gen, (u.core g.core).array = some { o with gen := gen }) := by
  obtain ⟨u, hu, hcases⟩ : ∃ u, matrixArray t g i largest report op s = .next u ∧ u =
      if largest < 16 * o.blocks then s1.coreFault g.core F.coreFaultMatrixRange
      else if t.cyc < (s1.core g.core).arrayFree then s1.stall g.core 1
      else if decide ((s1.core g.core).bundle = some t.cyc) || s1.governorLets g.core o.occ (s1.dueCycle g.core t.cyc) then
        ((s1.countGoverned g.core t.cyc).startArray g.core o (o.occ + report)).ran g.core
      else (s1.waits g.core t.cyc .governor).modCore g.core fun k => { k with governed := some { due := s1.dueCycle g.core t.cyc, instr := some i } } := by
    have hon : s1.on g = true := h1 ▸ h.2
    unfold matrixArray
    rw [onSlot_next _ h.1, h1]
    refine ⟨_, rfl, ?_⟩
    rw [hon, ho]
    rfl
  refine ⟨u, hu, ?_⟩
  by_cases hk : largest < 16 * o.blocks
  · rw [if_pos hk] at hcases
    rw [hcases]
    exact ⟨.of_mem (State.coreFault_mem _ _ _), fun _ => ⟨State.coreFault_flag _ _ _ (by decide) (by decide), by rw [State.coreFault_core]⟩,
      fun hn => absurd hk (Nat.not_lt.2 hn), fun hn => absurd hk (Nat.not_lt.2 hn), fun hn => absurd hk (Nat.not_lt.2 hn)⟩
  rw [if_neg hk] at hcases
  by_cases hbusy : t.cyc < (s1.core g.core).arrayFree
  · obtain ⟨hmem, -, hcore, hstall⟩ := s1.stall_frame g.core 1
    rw [if_pos hbusy] at hcases
    rw [hcases]
    exact ⟨.of_mem hmem, fun hy => absurd hy hk, fun _ _ => ⟨by rw [hcore], hstall⟩, fun _ hn => absurd hbusy (Nat.not_lt.2 hn),
      fun _ hn => absurd hbusy (Nat.not_lt.2 hn)⟩
  rw [if_neg hbusy] at hcases
  by_cases hlets : s1.governorLets g.core o.occ (s1.dueCycle g.core t.cyc) = true ∨ (s1.core g.core).bundle = some t.cyc
  · have hcond : (decide ((s1.core g.core).bundle = some t.cyc) || s1.governorLets g.core o.occ (s1.dueCycle g.core t.cyc)) = true := by
      simpa [or_comm] using hlets
    rw [if_pos hcond] at hcases
    obtain ⟨hmem, hgov⟩ := s1.countGoverned_ends g.core t.cyc
    obtain ⟨hamem, -, l, n, gen, hacore⟩ := (s1.countGoverned g.core t.cyc).startArray_frame g.core o (o.occ + report)
    have hran := ((s1.countGoverned g.core t.cyc).startArray g.core o (o.occ + report)).ran_counts g.core
    rw [← hcases] at hran
    have hcore := (hran.core g.core).trans hacore
    have hcyc : o.cyc = t.cyc := by rw [ho]
    refine ⟨.of_mem (hran.mem.trans (hamem.trans hmem)), fun hy => absurd hy hk, fun _ hy => absurd hy hbusy, fun _ _ hno hbundle => ?_,
      fun _ _ _ => ⟨by rw [hcore]; exact hgov, by rw [hcore, ← hcyc]; rfl, gen, by rw [hcore]; rfl⟩⟩
    rcases hlets with hl | hl
    · rw [hl] at hno
      exact absurd hno (by decide)
    · exact absurd hl hbundle
  · have hcond : ¬ (decide ((s1.core g.core).bundle = some t.cyc) || s1.governorLets g.core o.occ (s1.dueCycle g.core t.cyc)) = true := by
      simpa [or_comm] using hlets
    rw [if_neg hcond] at hcases
    have hcore : u.core g.core = { s1.core g.core with wait := .governor, waitFrom := t.cyc,
                                                         governed := some { due := s1.dueCycle g.core t.cyc, instr := some i } } := by
      rw [hcases, State.waits, State.modCore, State.modCore, State.core_setCore, State.core_setCore]
    exact ⟨by rw [hcases]; exact .of_mem rfl, fun hy => absurd hy hk, fun _ hy => absurd hy hbusy,
      fun _ _ _ _ => ⟨by rw [hcore], by rw [hcore], by rw [hcore]⟩, fun _ _ hy => absurd hy hlets⟩

/-- The pairings, with their rows per cycle and largest K (R104, R153). -/
theorem pairing_of_mem {k rows largest : Nat} {fa fb : Elem} (h : (k, fa, fb, rows, largest) ∈ [(0, Elem.f4, Elem.f4, 4, 1024), (1, .f3, .f3, 4, 1024),
      (2, .t2, .f4, 8, 1024), (3, .t2, .f8a, 4, 512), (4, .t2, .f8b, 4, 512), (5, .f8a, .f8a, 2, 512), (6, .f8a, .f8b, 2, 512), (7, .f8b, .f8a, 2, 512),
      (8, .f8b, .f8b, 2, 512), (9, .b16, .b16, 1, 256)]) : pairing k = some (fa, fb) ∧ arrayRate fa fb = (rows, largest) := by
  simp only [List.mem_cons, List.not_mem_nil, Prod.mk.injEq, or_false] at h
  rcases h with h | h | h | h | h | h | h | h | h | h <;> obtain ⟨rfl, rfl, rfl, rfl, rfl⟩ := h <;> exact ⟨rfl, rfl⟩
/-- The pairings of a checksum instruction (R154). -/
theorem checkPairing_of_mem {k : Nat} {fa fb : Elem} (h : (k, fa, fb) ∈ [(0, Elem.f4, Elem.f4), (1, .f3, .f3), (2, .t2, .f4), (3, .t2, .f8a), (4, .t2, .f8b)]) :
    k < 5 ∧ pairing k = some (fa, fb) := by
  simp only [List.mem_cons, List.not_mem_nil, Prod.mk.injEq, or_false] at h
  rcases h with h | h | h | h | h <;> obtain ⟨rfl, rfl, rfl⟩ := h <;> exact ⟨by decide, rfl⟩
theorem pairing_reserved {k : Nat} (h : 10 ≤ k) : pairing k = none := by
  obtain ⟨n, rfl⟩ := Nat.exists_eq_add_of_le' h
  rfl
/-- An MMA's operation in the array. -/
def mmaOp (fa fb : Elem) (rows : Nat) (acc init ah hi bh : Bool) (kb : BitVec 6) : ArrayOp :=
  { fa := fa, fb := fb, acc := b2n acc, init := init, aHalf := 2 + b2n ah, aOff := aOffset hi, bHalf := 4 + b2n bh, blocks := blocksOf kb, rows := rows }
theorem exec_mma {t : At} {g : Gate} {pair : BitVec 4} {fa fb : Elem} {rows largest : Nat} (acc init ah hi bh : Bool) (kb : BitVec 6) (s : State)
    (hp : pairing pair.toNat = some (fa, fb)) (hr : arrayRate fa fb = (rows, largest)) : exec (.mma t g pair acc init ah hi bh kb) s =
      matrixArray t g (.mma t g pair acc init ah hi bh kb) largest 10 (fun _ => mmaOp fa fb rows acc init ah hi bh kb) s := by
  show execMma t g pair acc init ah hi bh kb s = _
  unfold execMma
  rw [hp]
  dsimp only
  rw [hr]
  rfl
/-- A checksum instruction's operation in the array, with the bounds that register a holds. -/
def checkOp (fa fb : Elem) (acc init ah bh : Bool) (kb : BitVec 6) (pd : BitVec 3) (w : Nat) : ArrayOp :=
  { fa := fa, fb := fb, acc := b2n acc, init := init, aHalf := 2 + b2n ah, bHalf := 4 + b2n bh, blocks := blocksOf kb, rows := 2,
    check := some (pd.toNat, w % 2 ^ 32, w / 2 ^ 32), cols := List.replicate 64 {} }
theorem checkOp_occ (fa fb : Elem) (acc init ah bh : Bool) (kb : BitVec 6) (pd : BitVec 3) (w cyc : Nat) :
    ArrayOp.occ { checkOp fa fb acc init ah bh kb pd w with cyc := cyc, enabled := true } = blocksOf kb * 32 := by
  show blocksOf kb * (64 / 2) = _
  norm_num
theorem exec_mmac {t : At} {g : Gate} {pair : BitVec 4} {fa fb : Elem} (acc init ah bh : Bool) (kb : BitVec 6) (pd : BitVec 3) (a : BitVec 5) (s : State)
    (hlow : pair.toNat < 5) (hp : pairing pair.toNat = some (fa, fb)) : exec (.mmac t g pair acc init ah bh kb pd a) s =
      matrixArray t g (.mmac t g pair acc init ah bh kb pd a) 512 14 (fun s => checkOp fa fb acc init ah bh kb pd (s.sreg g.core a.toNat).toNat) s := by
  show execMmac t g pair acc init ah bh kb pd a s = _
  unfold execMmac
  rw [if_pos hlow, hp]
  rfl

/-- Settles O18: both instructions are `matrixArray` with the formats and the rate of their pairing; a reserved pairing is a core's cycle alone. -/
theorem matrixIssue : Obligations.MatrixIssue := by
  intro t g pair acc init ah hi bh kb pd a s s1 blocks due h h1 hblocks hdue
  have hidle := onCore_looks h.1.1 h.1.2.1
  replace hblocks : blocks = blocksOf kb := hblocks
  replace hdue : due = s1.dueCycle g.core t.cyc := hdue
  refine ⟨fun fa fb rows largest hmem => ?_, fun hres => ?_, fun hres => ?_, fun fa fb hmem => ?_⟩
  · obtain ⟨hp, hr⟩ := pairing_of_mem hmem
    rw [exec_mma acc init ah hi bh kb s hp hr, hblocks, hdue]
    exact matrixArray_next _ largest 10 _ h h1.symm rfl
  · show execMma t g pair acc init ah hi bh kb s = _
    unfold execMma
    rw [pairing_reserved hres, h1]
    exact hidle
  · show execMmac t g pair acc init ah bh kb pd a s = _
    unfold execMmac
    rw [if_neg (Nat.not_lt.2 hres), h1]
    exact hidle
  · obtain ⟨hlow, hp⟩ := checkPairing_of_mem hmem
    rw [exec_mmac acc init ah bh kb pd a s hlow hp, hblocks, hdue]
    obtain ⟨u, hu, hsame, hrange, -, -, hissues⟩ := matrixArray_next (.mmac t g pair acc init ah bh kb pd a) 512 14
      (fun s => checkOp fa fb acc init ah bh kb pd (s.sreg g.core a.toNat).toNat) h h1.symm rfl
    refine ⟨u, hu, hsame, fun hk => (hrange hk).1, fun hk hfree hlets => ?_⟩
    obtain ⟨-, htaken, harray⟩ := hissues hk hfree (by rw [checkOp_occ]; exact hlets)
    exact ⟨by rw [htaken, checkOp_occ], harray⟩

end Sys2Proof.Machine
end
section
/-! One cycle of the vault port with one requester (R190 to R195). -/
namespace Sys2Proof.Machine

/-! The winner. -/

theorem findSome?_eq_of_forall {α β : Type} {f : α → Option β} {b : β} : ∀ {l : List α}, (∀ x ∈ l, f x = none ∨ f x = some b) → (∃ x ∈ l, f x = some b) →
    l.findSome? f = some b
  | x :: l, hall, hex => by
    rcases hall x (by simp) with h | h
    · rw [List.findSome?_cons_of_isNone (by simp [h])]
      refine findSome?_eq_of_forall (fun y hy => hall y (List.mem_cons_of_mem _ hy)) ?_
      obtain ⟨y, hy, hyb⟩ := hex
      rcases List.mem_cons.1 hy with rfl | hy
      · rw [h] at hyb
        cases hyb
      · exact ⟨y, hy, hyb⟩
    · rw [List.findSome?_cons_of_isSome (by simp [h]), h]
/-- One requester of a kind, at an input of the map in force, wins. -/
theorem State.vaultWinner_single {s : State} {c : Nat} {q : PortReq} (h : ∃ i, i < 13 ∧ s.vaultCode c i = q.code) :
    s.vaultWinner c q.write [q] = some q := by
  obtain ⟨i, hi, hcode⟩ := h
  refine findSome?_eq_of_forall (fun j _ => ?_) ⟨i, by simp [hi], by simp [hcode]⟩
  by_cases hj : q.code = s.vaultCode c j
  · exact .inr (by simp [hj])
  · exact .inl (by simp [hj])
theorem State.vaultWinner_nil (s : State) (c : Nat) (w : Bool) : s.vaultWinner c w [] = none := by
  unfold State.vaultWinner
  rw [List.findSome?_eq_none_iff]
  exact fun _ _ => rfl
theorem State.vaultWinner_other {s : State} {c : Nat} {q : PortReq} {w : Bool} (h : q.write ≠ w) : s.vaultWinner c w [q] = none := by
  unfold State.vaultWinner
  rw [List.findSome?_eq_none_iff]
  exact fun j _ => by simp [h]

/-! The cycle's three outcomes. -/

/-- A requester at an idle port: the arbiter is not held, neither of its ports is busy, and no write-back waits. -/
structure State.PortIdle (s : State) (c cyc : Nat) : Prop where
  drained : (s.core c).wbq = []
  thawed : (s.arb (.vault c)).thawAt ≤ cyc
  read : (s.arb (.vault c)).busyRead ≤ cyc
  write : (s.arb (.vault c)).busyWrite ≤ cyc
section
variable {s : State} {c cyc : Nat} {q : PortReq}
theorem State.vaultWaits_none (s : State) (c : Nat) : s.vaultWaits c false false = s := rfl
theorem State.vaultCycle_write (h : s.PortIdle c cyc) (hcode : 0 < q.code) (hin : ∃ i, i < 13 ∧ s.vaultCode c i = q.code) (hok : clientOk c q = true)
    (hw : q.write = true) (withdraws : Bool) : s.vaultCycle c cyc [q] withdraws = s.vaultGrantWrite c cyc q := by
  have hwin := State.vaultWinner_single hin
  rw [hw] at hwin
  unfold State.vaultCycle
  simp [hok, hcode.ne', h.drained, Nat.not_lt.2 h.thawed, Nat.not_lt.2 h.read, Nat.not_lt.2 h.write, hwin, hw, State.vaultWinner_nil, b2n, State.vaultWaits_none]
theorem State.vaultCycle_read (h : s.PortIdle c cyc) (hcode : 0 < q.code) (hin : ∃ i, i < 13 ∧ s.vaultCode c i = q.code) (hok : clientOk c q = true)
    (hw : q.write = false) (hf : s.follows c q.code (lineSet q) cyc = false) (withdraws : Bool) :
    s.vaultCycle c cyc [q] withdraws = if withdraws then
      (((s.bump (Reg.twrVarbCtrl (towerOf c) (localOf c)) F.twrVarbCtrlDeadCycles 1).pmcCore c 0x01B 1).setArb (.vault c) { s.arb (.vault c) with busyRead := cyc + 1 })
      else s.vaultGrantRead c cyc q := by
  have hwin := State.vaultWinner_single hin
  rw [hw] at hwin
  have hnone : s.vaultWinner c true [q] = none := State.vaultWinner_other (by simp [hw])
  unfold State.vaultCycle
  simp [hok, hcode.ne', h.drained, Nat.not_lt.2 h.thawed, Nat.not_lt.2 h.read, Nat.not_lt.2 h.write, hwin, hnone, hw, hf, b2n, State.vaultWaits_none]
theorem State.vaultCycle_follows (h : s.PortIdle c cyc) (hcode : 0 < q.code) (hok : clientOk c q = true) (hw : q.write = false)
    (hf : s.follows c q.code (lineSet q) cyc = true) (withdraws : Bool) :
    s.vaultCycle c cyc [q] withdraws = (if (q.code, lineSet q) ∈ (s.arb (.vault c)).served then s else s.pmcCore c 0x01C 1).vaultQuiet c := by
  have hnone : s.vaultWinner c true [q] = none := State.vaultWinner_other (by simp [hw])
  unfold State.vaultCycle
  simp [hok, hcode.ne', h.drained, Nat.not_lt.2 h.thawed, Nat.not_lt.2 h.read, Nat.not_lt.2 h.write, h.read, h.write, hnone, hw, hf, State.vaultWinner_nil, b2n,
    State.vaultWaits_none]
end

/-! What the outcomes change. -/

@[simp] theorem State.arb_setArb (s : State) (a : Arbiter) (x : Arb) : (s.setArb a x).arb a = x := Sparse.get_set_same _ _ _ _
theorem State.rd_of_regs {s u : State} (h : u.regs = s.regs) (a : Nat) : u.rd a = s.rd a := by
  unfold State.rd
  rw [h]
theorem State.arb_of_arbs {s u : State} (h : u.arbs = s.arbs) (a : Arbiter) : u.arb a = s.arb a := by
  unfold State.arb
  rw [h]
theorem Counts.arb {s u : State} {c : Nat} (h : Counts s u c) (a : Arbiter) : u.arb a = s.arb a := State.arb_of_arbs (by rw [h.1]) a
/-- A write of bytes into a vault, whatever waits for its port. -/
theorem State.byte_vaultWrite (s : State) (c off : Nat) (d : List Byte) (po : List Nat) (x : Nat) : (s.vaultWrite c off d po).byte x =
    if windowOf c + off ≤ x ∧ x < windowOf c + off + d.length then d.getD (x - (windowOf c + off)) 0 else s.byte x := by
  have hmem : (s.vaultWrite c off d po).mem = ((s.drainWb c s.clk).setBytes (windowOf c + off) d).mem := by
    unfold State.vaultWrite
    dsimp only
    split <;> simp
  have hbyte : (s.vaultWrite c off d po).byte x = ((s.drainWb c s.clk).setBytes (windowOf c + off) d).byte x := by
    unfold State.byte
    rw [hmem]
  rw [hbyte, State.byte_setBytes, SameBytes.of_mem (s.drainWb_mem c s.clk) x]
/-- Of the merge entries, a write of lines leaves those that hold none of them (R195). -/
theorem State.unmerge_apart (s : State) (c : Nat) (ls : List Nat) : ∀ e ∈ ((s.unmerge c ls).arb (.vault c)).merge, ∀ l ∈ e.1, l ∉ ls := by
  unfold State.unmerge
  dsimp only
  split
  · rw [State.arb_setArb]
    intro e he l hl hls
    have hkept := (List.mem_filter.1 he).2
    simp only [Bool.not_eq_true', List.any_eq_false, List.contains_iff_mem] at hkept
    exact hkept l hl hls
  · next hnone =>
    intro e he l hl hls
    exact hnone (List.any_eq_true.2 ⟨e, he, List.any_eq_true.2 ⟨l, hl, List.contains_iff_mem.2 hls⟩⟩)
theorem State.vaultGrantWrite_next (s : State) (c cyc : Nat) (q : PortReq) :
    (∀ a, (s.vaultGrantWrite c cyc q).byte a = if windowOf c + q.addr ≤ a ∧ a < windowOf c + q.addr + (q.data.take (64 * (lineSet q).length)).length
      then (q.data.take (64 * (lineSet q).length)).getD (a - (windowOf c + q.addr)) 0 else s.byte a) ∧
    ((s.vaultGrantWrite c cyc q).arb (.vault c)).busyWrite = cyc + 1 ∧
    ∀ e ∈ ((s.vaultGrantWrite c cyc q).arb (.vault c)).merge, ∀ l ∈ e.1, l ∉ lineSet q := by
  unfold State.vaultGrantWrite
  dsimp only
  generalize hp : (if q.poison then (List.range (((q.data.take (64 * (lineSet q).length)).length + 7) / 8)).map fun i => (windowOf c + q.addr) / 8 * 8 + 8 * i else []) = po
  have hbytes := s.byte_vaultWrite c q.addr (q.data.take (64 * (lineSet q).length)) po
  generalize s.vaultWrite c q.addr (q.data.take (64 * (lineSet q).length)) po = w at hbytes
  have hmerge := w.unmerge_apart c (lineSet q)
  have hmem := w.unmerge_mem c (lineSet q)
  generalize w.unmerge c (lineSet q) = v at hmerge hmem
  have hcounts := (v.setArb (.vault c) { v.arb (.vault c) with busyWrite := cyc + 1 }).pmcCore_counts c 0x019 1
  refine ⟨fun a => ?_, ?_, ?_⟩
  · rw [← hbytes a]
    exact SameBytes.of_mem (hcounts.mem.trans hmem) a
  · rw [hcounts.arb, State.arb_setArb]
  · rw [hcounts.arb, State.arb_setArb]
    exact hmerge
theorem State.coreFault_arbs (s : State) (c : Nat) (f : Fld) : (s.coreFault c f).arbs = s.arbs := by
  unfold State.coreFault
  split
  · exact s.raiseBit_arbs (Reg.coreFault c) f
  · rw [(State.log_logs _ _ _ _).1]
    exact s.raiseBit_arbs (Reg.coreFault c) f
theorem State.queueWb_arbs (s : State) (c a : Nat) : (s.queueWb c a).arbs = s.arbs := by
  unfold State.queueWb
  dsimp only
  split <;> rfl
theorem State.readWord_arbs (s : State) (c a : Nat) : (s.readWord c a).2.arbs = s.arbs := by
  unfold State.readWord
  split
  · rfl
  · exact State.queueWb_arbs _ _ _
  · exact State.coreFault_arbs _ _ _
  · rfl
  · rfl
/-- Reading words of a vault leaves the arbiters alone. -/
theorem State.readWords_arbs (c : Nat) (merged : List Nat) : ∀ (n : Nat) (s : State) (a : Nat), (s.readWords c a merged n).2.arbs = s.arbs
  | 0, _, _ => rfl
  | n + 1, s, a => by
    unfold State.readWords
    dsimp only
    rw [State.readWords_arbs c merged n]
    split
    · rfl
    · exact s.readWord_arbs c a
/-- The lines of a grant are read word by word. -/
def State.readLines (s : State) (c : Nat) (ls : List Nat) : State := ls.foldl (fun s l => (s.readWords c (windowOf c + 64 * l) [] 8).2) s
theorem State.readLines_cons (s : State) (c l : Nat) (ls : List Nat) :
    s.readLines c (l :: ls) = (s.readWords c (windowOf c + 64 * l) [] 8).2.readLines c ls := rfl
theorem State.readLines_frame (c : Nat) : ∀ (ls : List Nat) (s : State), (s.readLines c ls).mem = s.mem ∧ (s.readLines c ls).arbs = s.arbs
  | [], _ => ⟨rfl, rfl⟩
  | l :: ls, s => by
    have hreads := State.readWords_portReads c [] 8 s (windowOf c + 64 * l)
    have hkeeps := State.readWords_arbs c [] 8 s (windowOf c + 64 * l)
    rw [State.readLines_cons]
    generalize (s.readWords c (windowOf c + 64 * l) [] 8).2 = v at hreads hkeeps
    obtain ⟨hmem, harbs⟩ := State.readLines_frame c ls v
    exact ⟨hmem.trans hreads.mem, harbs.trans hkeeps⟩
theorem State.vaultGrantRead_next (s : State) (c cyc : Nat) (q : PortReq) :
    (s.vaultGrantRead c cyc q).mem = s.mem ∧ ((s.vaultGrantRead c cyc q).arb (.vault c)).busyRead = cyc + 1 ∧
      ((q.code, lineSet q) ∉ (s.arb (.vault c)).served →
        ((s.vaultGrantRead c cyc q).arb (.vault c)).merge = ((lineSet q, cyc) :: (s.arb (.vault c)).merge).take 32) := by
  unfold State.vaultGrantRead
  dsimp only
  split
  · next hserved => exact ⟨rfl, by rw [State.arb_setArb], fun hn => absurd hserved hn⟩
  · obtain ⟨hmem, harbs⟩ := State.readLines_frame c (lineSet q) s
    unfold State.readLines at hmem harbs
    generalize (lineSet q).foldl (fun s l => (s.readWords c (windowOf c + 64 * l) [] 8).2) s = v at hmem harbs
    have hcounts := (v.setArb (.vault c) { v.arb (.vault c) with busyRead := cyc + 1, merge := ((lineSet q, cyc) :: (v.arb (.vault c)).merge).take 32 }).pmcCore_counts c 0x018 1
    refine ⟨hcounts.mem.trans hmem, by rw [hcounts.arb, State.arb_setArb], fun _ => ?_⟩
    rw [hcounts.arb, State.arb_setArb, State.arb_of_arbs harbs]

/-! A cycle without a grant. -/

theorem varbCtrl_ne_map (t l : Nat) : Reg.twrVarbCtrl t l ≠ Reg.twrVarbMap t l := by
      unfold Reg.twrVarbCtrl Reg.twrVarbMap
      omega
/-- A map in force leaves the arbiter's state and whether the port is frozen. -/
theorem State.mapInForce_next (s : State) (c : Nat) (m : Word) (v : State)
   (h : v = (s.wr (Reg.twrVarbMap (towerOf c) (localOf c)) m).putB (Reg.twrVarbCtrl (towerOf c) (localOf c)) F.twrVarbCtrlMapPending false) :
    v.mem = s.mem ∧ v.arbs = s.arbs ∧ v.frozen c = s.frozen c := by
  subst h
  have hrd := s.rd_wr_ne m (varbCtrl_ne_map (towerOf c) (localOf c))
  have hmem := s.wr_mem (Reg.twrVarbMap (towerOf c) (localOf c)) m
  have harbs := s.wr_arbs (Reg.twrVarbMap (towerOf c) (localOf c)) m
  generalize s.wr (Reg.twrVarbMap (towerOf c) (localOf c)) m = w at hrd hmem harbs
  refine ⟨(w.putB_mem _ _ _).trans hmem, (w.putB_arbs _ _ _).trans harbs, ?_⟩
  unfold State.frozen
  rw [← State.flag_of_rd _ hrd]
  exact w.flag_putF_apart _ _ (by decide) (.inl (by decide))
theorem State.vaultMapApply_next (s : State) (c : Nat) : (s.vaultMapApply c).mem = s.mem ∧
    ((s.vaultMapApply c).arb (.vault c)).merge = (s.arb (.vault c)).merge ∧ ((s.vaultMapApply c).arb (.vault c)).busyRead = (s.arb (.vault c)).busyRead ∧
    (s.vaultMapApply c).frozen c = s.frozen c := by
  unfold State.vaultMapApply
  dsimp only
  split
  · exact ⟨rfl, rfl, rfl, rfl⟩
  · next m _ =>
    have hrd := State.rd_of_regs (s.setArb_regs (.vault c) { s.arb (.vault c) with pendingMap := none }) (Reg.twrVarbCtrl (towerOf c) (localOf c))
    have hmem := s.setArb_mem (.vault c) { s.arb (.vault c) with pendingMap := none }
    have harb := s.arb_setArb (.vault c) { s.arb (.vault c) with pendingMap := none }
    generalize s.setArb (.vault c) { s.arb (.vault c) with pendingMap := none } = w at hrd hmem harb
    generalize hv : (w.wr (Reg.twrVarbMap (towerOf c) (localOf c)) m).putB (Reg.twrVarbCtrl (towerOf c) (localOf c)) F.twrVarbCtrlMapPending false = v
    obtain ⟨hvmem, hvarbs, hvfrozen⟩ := w.mapInForce_next c m v hv.symm
    rw [State.arb_of_arbs hvarbs, harb]
    exact ⟨hvmem.trans hmem, rfl, rfl, hvfrozen.trans (State.flag_of_rd _ hrd)⟩
/-- Without a grant the pending map takes effect, and under freeze the port is drained. -/
theorem State.vaultQuiet_next (s : State) (c : Nat) : (s.vaultQuiet c).mem = s.mem ∧
    ((s.vaultQuiet c).arb (.vault c)).merge = (s.arb (.vault c)).merge ∧ ((s.vaultQuiet c).arb (.vault c)).busyRead = (s.arb (.vault c)).busyRead ∧
    (s.frozen c = true → (s.vaultQuiet c).flag (Reg.twrVarbCtrl (towerOf c) (localOf c)) F.twrVarbCtrlDrained = true) := by
  obtain ⟨hmem, hmerge, hbusy, hfrozen⟩ := s.vaultMapApply_next c
  unfold State.vaultQuiet
  dsimp only
  split
  · generalize s.vaultMapApply c = v at hmem hmerge hbusy
    have harb := State.arb_of_arbs (v.putB_arbs (Reg.twrVarbCtrl (towerOf c) (localOf c)) F.twrVarbCtrlDrained true) (.vault c)
    exact ⟨(v.putB_mem _ _ _).trans hmem, by rw [harb]; exact hmerge, by rw [harb]; exact hbusy, fun _ => v.flag_putB _ _ _ (by decide) (by decide)⟩
  · next hn => exact ⟨hmem, hmerge, hbusy, fun hf => absurd (hfrozen.trans hf) hn⟩

/-! The commands. -/

theorem varbCtrl_notPmc {c t l : Nat} (hc : c < 3072) : Reg.twrVarbCtrl t l ∉ (List.range 8).map (Reg.corePmc c) := by
  simp only [List.mem_map, List.mem_range, not_exists, not_and]
  intro i hi
  unfold Reg.twrVarbCtrl Reg.corePmc
  omega
theorem varbCtrl_ne_wait (t l : Nat) : Reg.twrVarbCtrl t l ≠ Reg.twrVarbWait t l := by
  unfold Reg.twrVarbCtrl Reg.twrVarbWait
  omega
/-- What counting the requesters that wait leaves: memory, the arbiters and the port's control register. -/
structure PortKept (c : Nat) (s u : State) : Prop where
  mem : u.mem = s.mem
  arbs : u.arbs = s.arbs
  rd : u.rd (Reg.twrVarbCtrl (towerOf c) (localOf c)) = s.rd (Reg.twrVarbCtrl (towerOf c) (localOf c))
theorem PortKept.refl (c : Nat) (s : State) : PortKept c s s := ⟨rfl, rfl, rfl⟩
theorem PortKept.trans {c : Nat} {s u w : State} (h : PortKept c s u) (h' : PortKept c u w) : PortKept c s w :=
  ⟨h'.mem.trans h.mem, h'.arbs.trans h.arbs, h'.rd.trans h.rd⟩
theorem State.bump_portKept (s : State) {c a : Nat} (f : Fld) (n : Nat) (ha : Reg.twrVarbCtrl (towerOf c) (localOf c) ≠ a) : PortKept c s (s.bump a f n) :=
  ⟨s.bump_mem _ _ _, s.bump_arbs _ _ _, s.rd_bump_ne _ _ ha⟩
theorem State.pmcCore_portKept (s : State) {c : Nat} (i n : Nat) (hc : c < 3072) : PortKept c s (s.pmcCore c i n) := by
  have hcounts := s.pmcCore_counts c i n
  generalize s.pmcCore c i n = u at hcounts
  exact ⟨hcounts.mem, by rw [hcounts.1], hcounts.2 _ (varbCtrl_notPmc hc)⟩
/-- Counting the requesters that wait changes neither memory nor the arbiters nor the port's control register. -/
theorem State.countWait_portKept (s : State) {c : Nat} (f : Fld) (hc : c < 3072) :
    PortKept c s ((s.bump (Reg.twrVarbWait (towerOf c) (localOf c)) f 1).pmcCore c 0x01A 1) :=
  (s.bump_portKept f 1 (varbCtrl_ne_wait _ _)).trans (State.pmcCore_portKept _ _ _ hc)
theorem State.vaultWaits_portKept (s : State) {c : Nat} (hc : c < 3072) (reads writes : Bool) : PortKept c s (s.vaultWaits c reads writes) := by
  unfold State.vaultWaits
  dsimp only
  have hreads : PortKept c s (if reads then (s.bump (Reg.twrVarbWait (towerOf c) (localOf c)) F.twrVarbWaitReadWait 1).pmcCore c 0x01A 1 else s) := by
    split
    · exact s.countWait_portKept _ hc
    · exact .refl c s
  generalize (if reads then (s.bump (Reg.twrVarbWait (towerOf c) (localOf c)) F.twrVarbWaitReadWait 1).pmcCore c 0x01A 1 else s) = v at hreads
  split
  · exact hreads.trans (v.countWait_portKept _ hc)
  · exact hreads
/-- VAULT_PORT_GRANT of one requester with no upset: under freeze the port drains, elsewhere it has its cycle. -/
theorem exec_vaultPortGrant_one {t : At} {c : Nat} {s : State} (q : PortReq) (withdraws : Bool) (hc : c < 3072) (ha : Awake t s) :
    exec (.vaultPortGrant t c [q] withdraws []) s = .next (if (s.toCore t c).frozen c then
      ((s.toCore t c).vaultWaits c ([q].any fun q => clientOk c q && !q.write) ([q].any fun q => clientOk c q && q.write)).vaultQuiet c
      else (s.toCore t c).vaultCycle c t.cyc [q] withdraws) := by
  show execVaultPortGrant t c [q] withdraws [] s = _
  exact onCore_next _ hc ha
theorem vaultPortGrant_next (t : At) (c : Nat) (q : PortReq) (withdraws : Bool) (s s1 : State) (ls : List Nat) (hc : c < 3072) (ha : Awake t s)
    (h1 : s1 = s.toCore t c) (hcode : 0 < q.code) (hin : ∃ i, i < 13 ∧ s1.vaultCode c i = q.code) (hok : clientOk c q = true)
    (hls : ls = lineSet q) (hidle : s1.PortIdle c t.cyc) :
    ∃ u, exec (.vaultPortGrant t c [q] withdraws []) s = .next u ∧
      (s1.frozen c = true → SameBytes s1 u ∧ u.flag (Reg.twrVarbCtrl (c / 256) (c % 256)) F.twrVarbCtrlDrained = true ∧
        (u.arb (.vault c)).merge = (s1.arb (.vault c)).merge) ∧
      (s1.frozen c = false → q.write = true →
        (∀ a, u.byte a = if windowOf c + q.addr ≤ a ∧ a < windowOf c + q.addr + (q.data.take (64 * ls.length)).length
          then (q.data.take (64 * ls.length)).getD (a - (windowOf c + q.addr)) 0 else s1.byte a) ∧
        (u.arb (.vault c)).busyWrite = t.cyc + 1 ∧ ∀ e ∈ (u.arb (.vault c)).merge, ∀ l ∈ e.1, l ∉ ls) ∧
      (s1.frozen c = false → q.write = false → s1.follows c q.code ls t.cyc = false →
        SameBytes s1 u ∧ (u.arb (.vault c)).busyRead = t.cyc + 1 ∧
        (withdraws = false → (q.code, ls) ∉ (s1.arb (.vault c)).served →
          (u.arb (.vault c)).merge = ((ls, t.cyc) :: (s1.arb (.vault c)).merge).take 32) ∧
        (withdraws = true → (u.arb (.vault c)).merge = (s1.arb (.vault c)).merge ∧
          u.fld (Reg.twrVarbCtrl (c / 256) (c % 256)) F.twrVarbCtrlDeadCycles =
            min (2 ^ 16 - 1) (s1.fld (Reg.twrVarbCtrl (c / 256) (c % 256)) F.twrVarbCtrlDeadCycles + 1))) ∧
      (s1.frozen c = false → q.write = false → s1.follows c q.code ls t.cyc = true → SameBytes s1 u ∧ (u.arb (.vault c)).busyRead = (s1.arb (.vault c)).busyRead) := by
  refine ⟨_, exec_vaultPortGrant_one q withdraws hc ha, ?_⟩
  rw [← h1, hls]
  refine ⟨fun hf => ?_, fun hf hw => ?_, fun hf hw hfollows => ?_, fun hf hw hfollows => ?_⟩
  · rw [if_pos hf]
    have hkept := s1.vaultWaits_portKept hc ([q].any fun q => clientOk c q && !q.write) ([q].any fun q => clientOk c q && q.write)
    generalize s1.vaultWaits c ([q].any fun q => clientOk c q && !q.write) ([q].any fun q => clientOk c q && q.write) = v at hkept
    obtain ⟨hmem, hmerge, -, hdrained⟩ := v.vaultQuiet_next c
    exact ⟨.of_mem (hmem.trans hkept.mem), hdrained ((State.flag_of_rd _ hkept.rd).trans hf), by rw [hmerge, State.arb_of_arbs hkept.arbs]⟩
  · rw [hf, if_neg (by decide), State.vaultCycle_write hidle hcode hin hok hw]
    exact s1.vaultGrantWrite_next c t.cyc q
  · rw [hf, if_neg (by decide), State.vaultCycle_read hidle hcode hin hok hw hfollows]
    cases withdraws with
    | false =>
      obtain ⟨hmem, hbusy, hmerge⟩ := s1.vaultGrantRead_next c t.cyc q
      exact ⟨.of_mem hmem, hbusy, fun _ => hmerge, fun hy => absurd hy (by decide)⟩
    | true =>
      rw [if_pos rfl]
      have hdead := s1.fld_bump (Reg.twrVarbCtrl (towerOf c) (localOf c)) F.twrVarbCtrlDeadCycles 1 (by decide) (by decide)
      have hbmem := s1.bump_mem (Reg.twrVarbCtrl (towerOf c) (localOf c)) F.twrVarbCtrlDeadCycles 1
      generalize s1.bump (Reg.twrVarbCtrl (towerOf c) (localOf c)) F.twrVarbCtrlDeadCycles 1 = v at hdead hbmem
      have hcounts := v.pmcCore_counts c 0x01B 1
      refine ⟨.of_mem ((State.setArb_mem _ _ _).trans (hcounts.mem.trans hbmem)), by rw [State.arb_setArb], fun hy => absurd hy (by decide), fun _ =>
        ⟨by rw [State.arb_setArb], ?_⟩⟩
      refine (State.fld_of_rd _ (State.rd_of_regs (State.setArb_regs _ _ _) _)).trans ?_
      exact (State.fld_of_rd _ (hcounts.2 _ (varbCtrl_notPmc hc))).trans hdead
  · rw [hf, if_neg (by decide), State.vaultCycle_follows hidle hcode hok hw hfollows]
    obtain ⟨v, hv, hvmem, hvarb⟩ : ∃ v, (if (q.code, lineSet q) ∈ (s1.arb (.vault c)).served then s1 else s1.pmcCore c 0x01C 1) = v ∧ v.mem = s1.mem ∧
        v.arb (.vault c) = s1.arb (.vault c) := by
      refine ⟨_, rfl, ?_⟩
      split
      · exact ⟨rfl, rfl⟩
      · exact ⟨(s1.pmcCore_counts c 0x01C 1).mem, (s1.pmcCore_counts c 0x01C 1).arb _⟩
    rw [hv]
    obtain ⟨hmem, -, hbusy, -⟩ := v.vaultQuiet_next c
    exact ⟨.of_mem (hmem.trans hvmem), by rw [hbusy, hvarb]⟩
theorem mergedRead_next (t : At) (c : Nat) (q : PortReq) (s : State) (hc : c < 3072) (ha : Awake t s) :
    ∃ u, exec (.mergedRead t c q) s = .next u ∧ Counts (s.toCore t c) u c := by
  obtain ⟨f, hexec, hf⟩ : ∃ f, exec (.mergedRead t c q) s = onCore t c s f ∧ Counts (s.toCore t c) (f (s.toCore t c)) c := by
    show ∃ f, execMergedRead t c q s = onCore t c s f ∧ _
    refine ⟨_, rfl, ?_⟩
    split
    · exact State.pmcCore_counts _ _ _ _
    · exact .refl _ c
  exact ⟨_, hexec.trans (onCore_next f hc ha), hf⟩

/-! Droops. -/

/-- The droops of one cycle stretch one period of a tower (R200). -/
def State.noteDroop (s : State) (tower p : Nat) : State :=
  if p ∈ (s.tower tower).droops then s else s.setTower tower { s.tower tower with droops := p :: (s.tower tower).droops }
theorem State.noteDroop_next (s : State) (tower p : Nat) : s.noteDroop tower p = { s with towers := (s.noteDroop tower p).towers } ∧
    (∀ v, v ≠ tower → (s.noteDroop tower p).tower v = s.tower v) ∧ ∀ x, x ∈ ((s.noteDroop tower p).tower tower).droops ↔ x = p ∨ x ∈ (s.tower tower).droops := by
  unfold State.noteDroop
  split
  · next h => exact ⟨rfl, fun _ _ => rfl, fun x => ⟨.inr, fun hx => hx.elim (fun he => he ▸ h) id⟩⟩
  · exact ⟨rfl, fun v hv => Sparse.get_set_ne _ _ _ hv, fun x => by rw [State.tower_setTower]; exact List.mem_cons⟩
theorem exec_droopDetect {t : At} {tower : Nat} {s : State} (ht : tower < 12) (ha : Awake t s) :
    exec (.droopDetect t tower) s = .next (((s.at t).settleDroop tower t.cyc).noteDroop tower (t.cyc + 2)) := by
  show execDroopDetect t tower s = _
  unfold execDroopDetect onTower State.ifAwake
  rw [if_pos (show tower < Config.towers from ht), if_neg (by rw [ha]; decide)]
  rfl
theorem State.countStretches_towers (n : Nat) : ∀ (l : List Nat) (s : State), (l.foldl (fun s c => s.countStretch c n) s).towers = s.towers
  | [], _ => rfl
  | _ :: l, s => (State.countStretches_towers n l _).trans ((State.pmcCore_counts _ _ _ _).towers.trans (s.bump_towers _ _ _))
theorem State.settleDroop_towers (s : State) (t cyc : Nat) :
    (∀ v, v ≠ t → (s.settleDroop t cyc).tower v = s.tower v) ∧
      ∀ p, p ∈ ((s.settleDroop t cyc).tower t).droops ↔ p ∈ (s.tower t).droops ∧ cyc < p := by
  rw [State.settleDroop_eq]
  split
  · next hnone =>
    refine ⟨fun _ _ => rfl, fun p => ⟨fun hp => ⟨hp, ?_⟩, And.left⟩⟩
    have hno := List.filter_eq_nil_iff.1 (List.length_eq_zero_iff.1 hnone) p hp
    simpa using hno
  · refine ⟨fun v hv => ?_, fun p => ?_⟩
    · rw [State.tower_of_towers (State.countStretches_towers _ _ _)]
      exact Sparse.get_set_ne _ _ _ hv
    · rw [State.tower_of_towers (State.countStretches_towers _ _ _), State.droopsTaken, State.tower_setTower]
      simp
theorem droopDetect_next (t : At) (tower : Nat) (s : State) (ht : tower < 12) (ha : Awake t s) :
    ∃ u, exec (.droopDetect t tower) s = .next u ∧ u = { s.at t with regs := u.regs, fresh := u.fresh, towers := u.towers } ∧
      (∀ v, v ≠ tower → u.tower v = s.tower v) ∧
      (∀ p, p ∈ (u.tower tower).droops ↔ p = t.cyc + 2 ∨ (p ∈ (s.tower tower).droops ∧ t.cyc < p)) ∧
      (∀ c, c / 256 = tower → u.fld (Reg.coreStretch c) F.coreStretchCount =
        min (2 ^ 48 - 1) (s.fld (Reg.coreStretch c) F.coreStretchCount + ((s.tower tower).droops.filter fun p => decide (p ≤ t.cyc)).length)) ∧
      (∀ c r, c / 256 = tower → r < 32 → u.rd (Reg.coreS c r) = s.rd (Reg.coreS c r)) := by
  refine ⟨_, exec_droopDetect ht ha, ?_⟩
  obtain ⟨regs, fresh, towers, honly⟩ := (s.at t).settleDroop_only tower t.cyc
  obtain ⟨hothers, hdroops⟩ := (s.at t).settleDroop_towers tower t.cyc
  have hfld := (s.at t).settleDroop_fld tower t.cyc
  have hrd := (s.at t).settleDroop_cycles 0 tower t.cyc
  generalize (s.at t).settleDroop tower t.cyc = v at honly hothers hdroops hfld hrd
  obtain ⟨hnote, hkeep, hmem⟩ := v.noteDroop_next tower (t.cyc + 2)
  have hregs : ∀ a, (v.noteDroop tower (t.cyc + 2)).rd a = v.rd a := fun a => State.rd_of_regs (by rw [hnote]) a
  refine ⟨by rw [hnote, honly], fun w hw => (hkeep w hw).trans (hothers w hw), fun p => (hmem p).trans (or_congr_right (hdroops p)), fun c hc => ?_,
    fun c r _ hr => (hregs _).trans (hrd.rd _ (sReg_notCycle c r hr))⟩
  rw [State.fld_of_rd _ (hregs _), hfld c, if_pos hc]
  rfl

/-- Settles O28: a droop settles the tower's periods and notes one; the port's cycle with one requester is a grant, a withdrawal or a merged read. -/
theorem towerCyclesAndVaultPort : Obligations.TowerCyclesAndVaultPort :=
  ⟨droopDetect_next, fun t c q withdraws s s1 ls hc ha h1 hcode hin hok hwb hls hthaw hread hwrite =>
    vaultPortGrant_next t c q withdraws s s1 ls hc ha h1 hcode hin hok hls ⟨hwb, hthaw, hread, hwrite⟩, mergedRead_next⟩

end Sys2Proof.Machine
end
section
/-! A transfer whose last remote piece starts a run that reads another core's vault (R127, R167). -/
namespace Sys2Proof.Machine

/-- A copy of two rows into a buffer half of core 257: the first lies in the tower below its own, the second in the vault of core 256. -/
def straddlingCopy : Desc := { act := .scopy 2 0 0 (windowOf 255 + 0x900000) 2 64 64 0x800000 }
/-- The load of the copy's first row. -/
def straddlingLoad : Piece := { src := windowOf 255 + 0x900000, len := 64, dstHalf := 2, remote := true }
/-- The copy has its load to send, after which the run of its second row starts; a byte is on its way into the row that this run reads. -/
def runBehindState : State :=
  (({ State.reset with dev := .run } : State).setCore 256 { landing := [⟨0, 3, .vault 0x100000 [1] []⟩] }).setEngine 257 0
    { queue := [straddlingCopy], stage := .local_ 0, waiting := [straddlingLoad], plan := [.near [⟨windowOf 256 + 0x100000, 64, 64, 2, 64⟩]] }
theorem runBehind_awake : Awake ⟨0, 0⟩ runBehindState := by decide +kernel
theorem runBehind_before : ((runBehindState.toCore ⟨0, 0⟩ 257).reap 257).byte (windowOf 256 + 0x100000) = 0 := by decide +kernel
/-- The run reads the vault of core 256, and what is due there lands before it is read. -/
theorem runBehind_after : (match exec (.tagAcquire ⟨0, 0⟩ 257 0 0) runBehindState with
    | .next u => u.byte (windowOf 256 + 0x100000)
    | _ => 0) = 1 := by decide +kernel

/-- Refutes O26: a piece that stores nothing may be the last of its run, so that its sending starts the run behind it (R167). Where this one reads the
vault of another core, that core's writes which are due land (R127), and bytes of the vault change. -/
theorem not_tagsAndCompletions : ¬ Obligations.TagsAndCompletions := by
  intro h
  obtain ⟨hacquire, -⟩ := h
  obtain ⟨u, hexec, hbytes, -⟩ := hacquire ⟨0, 0⟩ 257 0 0 runBehindState _ straddlingCopy [] straddlingLoad [] 0 32 (by decide) runBehind_awake rfl
    (by decide +kernel) (by decide +kernel) (by decide +kernel) (by decide) (by decide) (by rintro _ _ _ _ _ _ ⟨⟩)
  have hafter := runBehind_after
  rw [hexec] at hafter
  have hsame := hbytes (.inl rfl) (windowOf 256 + 0x100000)
  rw [runBehind_before] at hsame
  exact absurd (hsame.symm.trans hafter) (by decide)

end Sys2Proof.Machine
end
section
/-! What landing in a core changes (R127): its own stores and registers, and what a fault notes; memory and its marks stay in canonical form. -/
namespace Sys2Proof.Machine

/-! Changes that keep the canonical form (R116, R117, R352). -/

/-- A change that keeps memory and its marks in canonical form. -/
def Canon (s u : State) : Prop := s.canonical → u.canonical

section
variable {s u v : State}
theorem Canon.refl (s : State) : Canon s s := id
theorem Canon.trans (h : Canon s u) (k : Canon u v) : Canon s v := k ∘ h
/-- What leaves memory and marks as they are keeps their form. -/
theorem Canon.of_same (hmem : u.mem = s.mem) (hmarks : u.marks = s.marks) : Canon s u := fun h => by
  unfold State.canonical
  rw [hmem, hmarks]
  exact h
end
theorem State.setByte_canon (s : State) (a : Nat) (b : Byte) : Canon s (s.setByte a b) := fun ⟨hmem, hmarks⟩ => ⟨s.setByte_memWf a b hmem, hmarks⟩
theorem State.setMark_canon (s : State) (a : Nat) (m : Mark) : Canon s (s.setMark a m) := fun ⟨hmem, hmarks⟩ => ⟨hmem, Sparse.wf_set _ _ _ _ hmarks⟩
theorem State.setBytes_canon (a : Nat) (l : List Byte) (s : State) : Canon s (s.setBytes a l) := by
  induction l generalizing s a with
  | nil => exact .refl s
  | cons b r ih => exact (s.setByte_canon a b).trans (ih _ _)
theorem State.setMarks_canon (m : Mark) (l : List Nat) (s : State) : Canon s (s.setMarks m l) := by
  induction l generalizing s with
  | nil => exact .refl s
  | cons a r ih => exact (s.setMark_canon a m).trans (ih _)

/-! Landing. -/

/-- What landing may change. -/
structure Lands (s u : State) : Prop where
  only : u = { s with regs := u.regs, fresh := u.fresh, mem := u.mem, marks := u.marks, cores := u.cores, towers := u.towers, arbs := u.arbs,
                      onyx := u.onyx, out := u.out, freeCtr := u.freeCtr, clk := u.clk, boundary := u.boundary }
  canon : Canon s u

section
variable {s u v : State}
theorem Lands.refl (s : State) : Lands s s := ⟨rfl, .refl s⟩
theorem Lands.trans (h : Lands s u) (k : Lands u v) : Lands s v := by
  refine ⟨?_, h.canon.trans k.canon⟩
  have honly := k.only
  rw [h.only] at honly
  exact honly
theorem Lands.engines (h : Lands s u) : u.engines = s.engines := by rw [h.only]
theorem Lands.setCore (h : Lands s u) (c : Nat) (k : Core) : Lands s (u.setCore c k) := h.trans ⟨rfl, .of_same rfl rfl⟩
theorem Lands.modCore (h : Lands s u) (c : Nat) (f : Core → Core) : Lands s (u.modCore c f) := h.setCore c _
theorem Lands.wr (h : Lands s u) (a : Nat) (w : Word) : Lands s (u.wr a w) := h.trans ⟨rfl, .of_same rfl rfl⟩
theorem Lands.raiseBit (h : Lands s u) (a : Nat) (f : Fld) : Lands s (u.raiseBit a f) := h.trans ⟨rfl, .of_same rfl rfl⟩
theorem Lands.setArb (h : Lands s u) (a : Arbiter) (x : Arb) : Lands s (u.setArb a x) := h.trans ⟨rfl, .of_same rfl rfl⟩
theorem Lands.atClk (h : Lands s u) (n : Nat) : Lands s { u with clk := n } := h.trans ⟨rfl, .of_same rfl rfl⟩
theorem Lands.noteFaulted (h : Lands s u) : Lands s { u with boundary := { u.boundary with faulted := true } } := h.trans ⟨rfl, .of_same rfl rfl⟩
theorem Lands.setBytes (h : Lands s u) (a : Nat) (l : List Byte) : Lands s (u.setBytes a l) := by
  refine h.trans ⟨?_, u.setBytes_canon a l⟩
  rw [State.setBytes_only]
theorem Lands.setMarks (h : Lands s u) (m : Mark) (l : List Nat) : Lands s (u.setMarks m l) := by
  refine h.trans ⟨?_, u.setMarks_canon m l⟩
  rw [State.setMarks_only]
theorem Lands.setRow (h : Lands s u) (a : Nat) (l : List Nat) : Lands s (u.setRow a l) := by
  obtain ⟨regs, hrow⟩ := State.setRow_only l u a
  rw [hrow]
  exact h.trans ⟨rfl, .of_same rfl rfl⟩
theorem Lands.setAccRow (h : Lands s u) (c a m : Nat) (l : List Nat) : Lands s (u.setAccRow c a m l) := h.setRow _ l
theorem Lands.unmerge (h : Lands s u) (c : Nat) (l : List Nat) : Lands s (u.unmerge c l) := by
  unfold State.unmerge
  dsimp only
  split
  · exact h.setArb _ _
  · exact h
theorem Lands.send (h : Lands s u) (c due pri : Nat) (e : Eff) : Lands s (u.send c due pri e) := by
  unfold State.send
  dsimp only
  split
  · exact h.trans ⟨rfl, .of_same rfl rfl⟩
  · exact h.setCore _ _
theorem Counts.lands {c : Nat} (h : Counts s u c) : Lands s u := ⟨by rw [h.1], .of_same h.mem (by rw [h.1])⟩
theorem Logs.lands (h : Logs s u) : Lands s u := ⟨by rw [h.1], .of_same (by rw [h.1]) (by rw [h.1])⟩
theorem Spares.lands {R : Nat → Prop} (h : Spares R s u) : Lands s u := ⟨by rw [h.only], .of_same (by rw [h.only]) (by rw [h.only])⟩
theorem PortReads.lands {c : Nat} (h : PortReads c s u) : Lands s u := ⟨by rw [h.only], .of_same (by rw [h.only]) (by rw [h.only])⟩
end
theorem State.pmcCore_lands (s : State) (c i n : Nat) : Lands s (s.pmcCore c i n) := (s.pmcCore_counts c i n).lands
theorem State.drainWb_lands (s : State) (c cyc : Nat) : Lands s (s.drainWb c cyc) := by
  unfold State.drainWb
  dsimp only
  split
  · exact .refl s
  · split
    · exact (Lands.refl s).setCore _ _
    · exact (((((Lands.refl s).setCore _ _).setMarks _ _).unmerge _ _).trans (State.pmcCore_lands _ _ _ _)).trans (State.pmcCore_lands _ _ _ _)
theorem State.vaultWrite_lands (s : State) (c off : Nat) (d : List Byte) (po : List Nat) : Lands s (s.vaultWrite c off d po) := by
  have h : ∀ a m ws ls, Lands s (((((s.drainWb c s.clk).setBytes a d).setMarks .good ws).setMarks .poison m).unmerge c ls) := fun _ _ _ _ =>
    ((((s.drainWb_lands c s.clk).setBytes _ _).setMarks _ _).setMarks _ _).unmerge _ _
  unfold State.vaultWrite
  dsimp only
  split
  · exact h _ _ _ _
  · exact (h _ _ _ _).setCore _ _
theorem State.bufferWrite_lands (s : State) (c half off : Nat) (d : List Byte) (po : List Nat) : Lands s (s.bufferWrite c half off d po) :=
  (((Lands.refl s).setBytes _ _).setMarks _ _).setMarks _ _
theorem State.clearAcc_lands (s : State) (c a : Nat) : Lands s (s.clearAcc c a) := by
  unfold State.clearAcc
  generalize List.range 64 = l
  suffices h : ∀ u, Lands s u → Lands s (l.foldl (fun s m => s.setAccRow c a m (List.replicate 64 0)) u) from h s (.refl s)
  induction l with
  | nil => exact fun _ h => h
  | cons m l ih =>
    intro u h
    rw [List.foldl_cons]
    exact ih _ (h.setAccRow c a m _)
theorem State.noteFaults_lands (s : State) (c n : Nat) : Lands s (s.noteFaults c n) := by
  have hraised := (Lands.refl s).raiseBit (Reg.coreInclStatus c) F.coreInclStatusArithFaultSticky
  unfold State.noteFaults
  dsimp only
  generalize s.raiseBit (Reg.coreInclStatus c) F.coreInclStatusArithFaultSticky = v at hraised
  replace hraised := hraised.noteFaulted
  split
  · exact .refl s
  · split
    · exact hraised
    · exact (hraised.modCore _ _).trans (State.log_logs _ _ _ _).lands
theorem State.setLive_lands (s : State) (c : Nat) (i : Incl) : Lands s (s.setLive c i) :=
  ((Lands.refl s).wr _ _).trans (s.setLive_spares c i).lands
theorem State.report_lands (s : State) (c gen : Nat) (i : Incl) : Lands s (s.report c gen i) := by
  unfold State.report
  dsimp only
  split
  · exact ((Lands.refl s).modCore _ _).trans (State.noteFaults_lands _ _ _)
  · exact (s.setLive_lands c _).trans (State.noteFaults_lands _ _ _)
theorem State.formRecord_lands (s : State) (c tid due : Nat) (on : Bool) : Lands s (s.formRecord c tid due on) := by
  cases on
  · exact (Lands.refl s).modCore c fun k => { k with recordDue := none }
  · rw [State.formRecord_on]
    exact (s.setLive_lands c _).setCore _ _
theorem State.setS_lands (s : State) (c r : Nat) (v : Word) : Lands s (s.setS c r v) := by
  unfold State.setS
  split
  · exact .refl s
  · exact (Lands.refl s).wr _ _
theorem State.setP_lands (s : State) (c p : Nat) (v : Bool) : Lands s (s.setP c p v) := by
  unfold State.setP
  split
  · exact .refl s
  · exact (Lands.refl s).wr _ _
theorem State.apply_lands (s : State) (c : Nat) (e : Eff) : Lands s (s.apply c e) := by
  cases e with
  | setS r v => exact s.setS_lands c r v
  | setP p v => exact s.setP_lands c p v
  | setV v l => exact (Lands.refl s).setRow _ _
  | vault off d po => exact s.vaultWrite_lands c off d po
  | buffer half off d po => exact s.bufferWrite_lands c half off d po
  | accRow a m l => exact (Lands.refl s).setRow _ _
  | accClear a => exact s.clearAcc_lands c a
  | fold a m row => exact (Lands.refl s).setRow _ _
  | report gen i => exact s.report_lands c gen i
  | check pd gen cols al be => exact (s.setP_lands c pd _).trans (State.report_lands _ _ _ _)
  | form tid due on => exact s.formRecord_lands c tid due on
theorem State.land_lands (s : State) (c : Nat) (x : Landing) : Lands s (s.land c x) := by
  have hclk := (Lands.refl s).atClk x.due
  unfold State.land
  dsimp only
  split
  · split
    · exact hclk
    · split
      · exact hclk.modCore _ _
      · exact hclk.trans (State.apply_lands _ _ _)
  · exact hclk.trans (State.apply_lands _ _ _)
theorem State.arrayRows_lands (c b : Nat) (l : List Nat) (s : State) (o : ArrayOp) : Lands s (s.arrayRows c o b l).1 := by
  induction l generalizing s o with
  | nil => exact .refl s
  | cons m r ih =>
    unfold State.arrayRows
    dsimp only
    exact ((Lands.refl s).send _ _ _ _).trans (ih _ _)
theorem State.arrayEnd_lands (s : State) (c : Nat) (o : ArrayOp) : Lands s (s.arrayEnd c o) := by
  unfold State.arrayEnd
  split
  · exact .refl s
  · split
    · exact (Lands.refl s).send _ _ _ _
    · exact ((Lands.refl s).send _ _ _ _).send _ _ _ _
theorem State.arrayCycle_lands (s : State) (c : Nat) (o : ArrayOp) : Lands s (s.arrayCycle c o) := by
  obtain ⟨p, hp⟩ : ∃ p, (if o.enabled then s.arrayRows c o (o.next / (64 / o.rows)) ((List.range o.rows).map fun i => o.rows * (o.next % (64 / o.rows)) + i)
      else (s, o)) = p := ⟨_, rfl⟩
  have hrows : Lands s p.1 := by
    rw [← hp]
    split
    · exact State.arrayRows_lands _ _ _ _ _
    · exact .refl s
  unfold State.arrayCycle
  dsimp only
  rw [hp]
  split
  · exact hrows.modCore _ _
  · exact (hrows.modCore _ _).trans (State.arrayEnd_lands _ _ _)
theorem State.landSteps_lands (c upto n : Nat) (s : State) : Lands s (s.landSteps c upto n) := by
  induction n generalizing s with
  | zero => exact .refl s
  | succ n ih =>
    have hland : ∀ r x, Lands s (((s.setCore c { s.core c with landing := r }).land c x).landSteps c upto n) := fun r x =>
      (((Lands.refl s).setCore _ _).trans (State.land_lands _ _ _)).trans (ih _)
    have harray : ∀ o, Lands s ((s.arrayCycle c o).landSteps c upto n) := fun o => (s.arrayCycle_lands c o).trans (ih _)
    unfold State.landSteps
    dsimp only
    split
    · exact .refl s
    · split
      · exact hland _ _
      · exact .refl s
    · split
      · exact harray _
      · exact .refl s
    · split
      · split
        · exact hland _ _
        · exact .refl s
      · split
        · exact harray _
        · exact .refl s
theorem State.landCore_lands (s : State) (c upto n : Nat) : Lands s (s.landCore c upto n) := (State.landSteps_lands c upto n s).atClk _
theorem State.countCycles_lands (s : State) (c cyc : Nat) : Lands s (s.countCycles c cyc) := by
  unfold State.countCycles
  dsimp only
  split
  · exact ((Lands.refl s).setCore _ _).trans (State.pmcCore_lands _ _ _ _)
  · exact .refl s
theorem State.settleDroop_lands (s : State) (t cyc : Nat) : Lands s (s.settleDroop t cyc) := by
  obtain ⟨regs, fresh, towers, h⟩ := s.settleDroop_only t cyc
  rw [h]
  exact ⟨rfl, .of_same rfl rfl⟩
theorem State.toCycle_lands (s : State) (c cyc : Nat) : Lands s (s.toCycle c cyc) :=
  (((s.landCore_lands c cyc _).trans (State.drainWb_lands _ _ _)).trans (State.countCycles_lands _ _ _)).trans (State.settleDroop_lands _ _ _)

/-! Reading a vault. -/

/-- A vault read: the write-back queue drains, the port reads, then the stored codes of the words are read. As in `vaultRead_drained`, the number of
words stays opaque. -/
theorem State.vaultRead_parts (s : State) (c code off n : Nat) :
    ∃ k merged s1 p s2, (s.drainWb c s.clk).portRead c code off n = (merged, s1) ∧ s1.readWords c ((windowOf c + off) / 8 * 8) merged k = (p, s2) ∧
      s.vaultRead c code off n = (s.bytes (windowOf c + off) n, p, s2) := by
  obtain ⟨k, hk⟩ : ∃ k, (windowOf c + off + n + 7) / 8 - (windowOf c + off) / 8 * 8 / 8 = k := ⟨_, rfl⟩
  obtain ⟨⟨merged, s1⟩, hport⟩ : ∃ r, (s.drainWb c s.clk).portRead c code off n = r := ⟨_, rfl⟩
  obtain ⟨⟨p, s2⟩, hwords⟩ : ∃ r, s1.readWords c ((windowOf c + off) / 8 * 8) merged k = r := ⟨_, rfl⟩
  refine ⟨k, merged, s1, p, s2, hport, hwords, ?_⟩
  generalize hf : @State.vaultRead = f
  delta State.vaultRead at hf
  subst hf
  beta_reduce
  extract_lets a w
  have hk' : (a + n + 7) / 8 - w / 8 = k := hk
  have hwords' : s1.readWords c w merged k = (p, s2) := hwords
  rewrite [hport, hk']
  dsimp only
  rewrite [hwords']
  rfl
theorem State.vaultRead_lands (s : State) (c code off n : Nat) : Lands s (s.vaultRead c code off n).2.2 := by
  obtain ⟨k, merged, s1, p, s2, hport, hwords, heq⟩ := s.vaultRead_parts c code off n
  have hportReads := ((s.drainWb c s.clk).portRead_portReads c code off n).lands
  have hcodes := (State.readWords_portReads c merged k s1 ((windowOf c + off) / 8 * 8)).lands
  rw [hport] at hportReads
  rw [hwords] at hcodes
  rw [heq]
  exact ((s.drainWb_lands c s.clk).trans hportReads).trans hcodes
theorem State.ownRead_lands (s : State) (c code off n : Nat) : Lands s (s.ownRead c code off n).2.2 := by
  by_cases hoff : off < vaultSize
  · obtain ⟨b, p, u, hread, heq⟩ := s.ownRead_inside c code n hoff
    have hvault := s.vaultRead_lands c code off (min n (vaultSize - off))
    rw [hread] at hvault
    rw [heq]
    exact hvault
  · rw [State.ownRead_outside _ _ _ _ hoff]
    exact .refl s
/-- Before an engine reads a vault, what is due in it lands. -/
theorem State.landOther_lands (s : State) (c d cyc : Nat) : Lands s (if d = c then s else s.landCore d cyc (s.core d).work) := by
  split
  · exact .refl s
  · exact s.landCore_lands d cyc _
/-! An engine's read of bytes gives none of a vault, those of a fenced core, or a read of the vault. -/

theorem State.fetch_nowhere {s : State} {a : Nat} (c e n cyc : Nat) (hplace : ∀ d off, placeOf a ≠ .vault d off) :
    s.fetch c e a n cyc = (List.replicate n 0, [], false, s) := by
  unfold State.fetch
  split
  · next d off h => exact absurd h (hplace d off)
  · rfl
theorem State.fetch_fenced {s : State} {a d off : Nat} (c e n cyc : Nat) (hplace : placeOf a = .vault d off) (hf : s.coreFenced d = true) :
    s.fetch c e a n cyc = ((s.freeBytes n).1, List.range n, true, (s.freeBytes n).2) := by
  unfold State.fetch
  rewrite [hplace]
  exact if_pos hf
/-- What a read of a vault gives an engine. It stands apart from `fetch_vault` so that the kernel has no read to evaluate. -/
theorem fetched_of_read {s v : State} {d code off n : Nat} {b : List Byte} {p : List Nat} (a : Nat) (h : s.vaultRead d code off n = (b, p, v)) :
    (match s.vaultRead d code off n with | (b, p, s) => (b, badBytes a n p, false, s)) = (b, badBytes a n p, false, v) := by
  rw [h]
theorem State.fetch_vault {s : State} {a d off c n cyc : Nat} (e : Nat) (hplace : placeOf a = .vault d off) (hf : s.coreFenced d = false) {b : List Byte}
    {p : List Nat} {u v : State} (hland : (if d = c then s else s.landCore d cyc (s.core d).work) = u)
    (hread : u.vaultRead d (engineCode c e d) off n = (b, p, v)) : s.fetch c e a n cyc = (b, badBytes a n p, false, v) := by
  unfold State.fetch
  rewrite [hplace]
  refine (if_neg (by rw [hf]; decide)).trans ?_
  rewrite [hland]
  exact fetched_of_read a hread
theorem State.fetch_lands (s : State) (c e a n cyc : Nat) : Lands s (s.fetch c e a n cyc).2.2.2 := by
  by_cases hplace : ∃ d off, placeOf a = .vault d off
  · obtain ⟨d, off, hplace⟩ := hplace
    cases hf : s.coreFenced d with
    | true =>
      rw [State.fetch_fenced c e n cyc hplace hf]
      exact ⟨rfl, .of_same rfl rfl⟩
    | false =>
      obtain ⟨u, hland⟩ : ∃ u, (if d = c then s else s.landCore d cyc (s.core d).work) = u := ⟨_, rfl⟩
      obtain ⟨⟨b, p, v⟩, hread⟩ : ∃ r, u.vaultRead d (engineCode c e d) off n = r := ⟨_, rfl⟩
      have hlands := u.vaultRead_lands d (engineCode c e d) off n
      have hlanded := s.landOther_lands c d cyc
      rw [hread] at hlands
      rw [hland] at hlanded
      rw [State.fetch_vault e hplace hf hland hread]
      exact hlanded.trans hlands
  · rw [State.fetch_nowhere c e n cyc fun d off h => hplace ⟨d, off, h⟩]
    exact .refl s
theorem State.readRow_lands (s : State) (c e : Nat) (r : Row) (cyc : Nat) : Lands s (s.readRow c e r cyc).2.2 := s.fetch_lands c e _ _ cyc
theorem State.readRows_lands (c e cyc : Nat) (l : List Row) (s : State) : Lands s (s.readRows c e cyc l).2.2 := by
  induction l generalizing s with
  | nil => exact .refl s
  | cons r l ih => exact (s.readRow_lands c e r cyc).trans (ih _)
theorem State.coreFault_lands (s : State) (c : Nat) (f : Fld) : Lands s (s.coreFault c f) := (s.coreFault_portReads c f).lands

end Sys2Proof.Machine
end
section
/-! The start of an engine's head descriptor (R119, R167 to R172). -/
namespace Sys2Proof.Machine

/-! Worms enter the mesh and change nothing else (R183). -/

theorem State.wormsOut_only {α : Type} (c : Nat) (f : α → Worm) : ∀ (l : List α) (s : State), ∃ m, l.foldl (fun s x => s.wormOut c (f x)) s = { s with mesh := m }
  | [], s => ⟨s.mesh, rfl⟩
  | x :: l, s => by
    obtain ⟨m, h⟩ := State.wormsOut_only c f l (s.wormOut c (f x))
    exact ⟨m, by rw [List.foldl_cons, h]; rfl⟩
theorem State.askWorms_only (s : State) (c e seq a len : Nat) : ∃ m, s.askWorms c e seq a len = { s with mesh := m } := by
  unfold State.askWorms
  split
  · exact ⟨s.mesh, rfl⟩
  · exact State.wormsOut_only c _ _ s
theorem State.putWorms_only (s : State) (c e seq a : Nat) (data : List Byte) (bad : List Nat) : ∃ m, s.putWorms c e seq a data bad = { s with mesh := m } := by
  unfold State.putWorms
  split
  · exact ⟨s.mesh, rfl⟩
  · exact State.wormsOut_only c _ _ s
/-- The worms of the pieces that a run has read. -/
def State.runWorms (s : State) (c e : Nat) (d : Desc) (ps : List Piece) : State :=
  ps.foldl (fun s p =>
    let s := s.askWorms c e d.seq p.src p.len
    if p.dstHalf = 0 then s.putWorms c e d.seq (s.pkg * 2 ^ 45 + p.dst) p.data p.poisoned else s) s
theorem State.runWorms_only (c e : Nat) (d : Desc) : ∀ (ps : List Piece) (s : State), ∃ m, s.runWorms c e d ps = { s with mesh := m }
  | [], s => ⟨s.mesh, rfl⟩
  | p :: ps, s => by
    obtain ⟨m, hask⟩ := s.askWorms_only c e d.seq p.src p.len
    obtain ⟨n, hput⟩ : ∃ n, (if p.dstHalf = 0 then (s.askWorms c e d.seq p.src p.len).putWorms c e d.seq ((s.askWorms c e d.seq p.src p.len).pkg * 2 ^ 45 + p.dst)
        p.data p.poisoned else s.askWorms c e d.seq p.src p.len) = { s with mesh := n } := by
      split
      · obtain ⟨n, h⟩ := (s.askWorms c e d.seq p.src p.len).putWorms_only c e d.seq ((s.askWorms c e d.seq p.src p.len).pkg * 2 ^ 45 + p.dst) p.data p.poisoned
        exact ⟨n, by rw [h, hask]⟩
      · exact ⟨m, hask⟩
    obtain ⟨k, hrest⟩ := State.runWorms_only c e d ps { s with mesh := n }
    exact ⟨k, (congrArg (fun v => State.runWorms v c e d ps) hput).trans hrest⟩

/-! Runs start in turn. -/

/-- The run of a descriptor inside the tower: what it has read, and the engine's new record. -/
def State.nearRun (s : State) (c e : Nat) (d : Desc) (cyc : Nat) (rows : List Row) : State :=
  let r := if d.enabled then s.readRows c e cyc rows else ([], [], s)
  let g := r.2.2.engine c e
  (r.2.2.setEngine c e { g with
    stage := .local_ (max g.due (runEnd cyc (s.runCycles c d.act rows) (r.2.2.rowPaths c (rows.headD {})) + r.2.2.compatCycles c rows)),
    pieces := g.pieces ++ r.1, statuses := g.statuses ++ r.2.1 }).runWorms c e d r.1
theorem State.startRuns_near (s : State) (c e : Nat) (d : Desc) (cyc : Nat) (rows : List Row) (rest : List Run) :
    s.startRuns c e d cyc (.near rows :: rest) = (s.nearRun c e d cyc rows).startRuns c e d (cyc + s.runCycles c d.act rows) rest := by
  unfold State.nearRun
  obtain ⟨⟨ps, sts, v⟩, hr⟩ : ∃ r, (if d.enabled then s.readRows c e cyc rows else ([], [], s)) = r := ⟨_, rfl⟩
  rw [State.startRuns]
  dsimp only
  rw [hr]
  rfl
theorem State.startRuns_far (s : State) (c e : Nat) (d : Desc) (cyc : Nat) (ps : List Piece) (rest : List Run) :
    s.startRuns c e d cyc (.far ps :: rest) = s.setEngine c e { s.engine c e with
      stage := .local_ (max (s.engine c e).due (s.clk + 1)), waiting := ps.map fun p => { p with due := s.now + ceilDiv (5 * (cyc - s.clk)) 9 + p.due },
      from_ := cyc, plan := rest } := rfl
theorem State.startRuns_nil (s : State) (c e : Nat) (d : Desc) (cyc : Nat) :
    s.startRuns c e d cyc [] = s.setEngine c e { s.engine c e with plan := [] } := rfl
end Sys2Proof.Machine
end
section
/-! What an engine's head descriptor does as it starts (R119, R167 to R172). -/
namespace Sys2Proof.Machine

/-! Landing elsewhere keeps a core's engines and the identity of the device. -/

theorem State.engine_of_engines {s u : State} (h : u.engines = s.engines) (c e : Nat) : u.engine c e = s.engine c e := by
  unfold State.engine
  rw [h]
theorem Lands.engine {s u : State} (h : Lands s u) (c e : Nat) : u.engine c e = s.engine c e := State.engine_of_engines h.engines c e
theorem Lands.start {s u : State} (h : Lands s u) : u.start = s.start := by rw [h.only]
theorem State.path_of_start {s u : State} (h : u.start = s.start) (c a : Nat) : u.path c a = s.path c a := by
  unfold State.path State.pkg
  rw [h]
theorem State.rowPaths_of_start {s u : State} (h : u.start = s.start) (c : Nat) (r : Row) : u.rowPaths c r = s.rowPaths c r := by
  unfold State.rowPaths
  rw [State.path_of_start h, State.path_of_start h]
theorem State.compatCycles_off {s : State} (h : s.start.compat = false) (c : Nat) (rows : List Row) : s.compatCycles c rows = 0 := by
  unfold State.compatCycles
  rw [h]
  rfl

/-! A run inside the tower. -/

/-- What a run reads. -/
def State.runReads (s : State) (c e : Nat) (d : Desc) (cyc : Nat) (rows : List Row) : List Piece × List Status × State :=
  if d.enabled then s.readRows c e cyc rows else ([], [], s)
theorem State.runReads_lands (s : State) (c e : Nat) (d : Desc) (cyc : Nat) (rows : List Row) : Lands s (s.runReads c e d cyc rows).2.2 := by
  unfold State.runReads
  split
  · exact State.readRows_lands c e cyc rows s
  · exact .refl s
theorem State.nearRun_engine (s : State) (c e : Nat) (d : Desc) (cyc : Nat) (rows : List Row) : (s.nearRun c e d cyc rows).engine c e =
    { s.engine c e with
      stage := .local_ (max (s.engine c e).due (runEnd cyc (s.runCycles c d.act rows) (s.rowPaths c (rows.headD {})) + (s.runReads c e d cyc rows).2.2.compatCycles c rows)),
      pieces := (s.engine c e).pieces ++ (s.runReads c e d cyc rows).1, statuses := (s.engine c e).statuses ++ (s.runReads c e d cyc rows).2.1 } := by
  have hlands := s.runReads_lands c e d cyc rows
  have hnear : s.nearRun c e d cyc rows = ((s.runReads c e d cyc rows).2.2.setEngine c e { (s.runReads c e d cyc rows).2.2.engine c e with
      stage := .local_ (max ((s.runReads c e d cyc rows).2.2.engine c e).due (runEnd cyc (s.runCycles c d.act rows)
        ((s.runReads c e d cyc rows).2.2.rowPaths c (rows.headD {})) + (s.runReads c e d cyc rows).2.2.compatCycles c rows)),
      pieces := ((s.runReads c e d cyc rows).2.2.engine c e).pieces ++ (s.runReads c e d cyc rows).1,
      statuses := ((s.runReads c e d cyc rows).2.2.engine c e).statuses ++ (s.runReads c e d cyc rows).2.1 }).runWorms c e d (s.runReads c e d cyc rows).1 := rfl
  rw [hnear]
  generalize s.runReads c e d cyc rows = r at hlands
  obtain ⟨m, hworms⟩ := State.runWorms_only c e d r.1 (r.2.2.setEngine c e { r.2.2.engine c e with
    stage := .local_ (max (r.2.2.engine c e).due (runEnd cyc (s.runCycles c d.act rows) (r.2.2.rowPaths c (rows.headD {})) + r.2.2.compatCycles c rows)),
    pieces := (r.2.2.engine c e).pieces ++ r.1, statuses := (r.2.2.engine c e).statuses ++ r.2.1 })
  rw [hworms]
  refine (State.engine_setEngine _ _ _ _).trans ?_
  rw [hlands.engine, State.rowPaths_of_start hlands.start]
theorem State.nearRun_mem (s : State) (c e : Nat) (d : Desc) (cyc : Nat) (rows : List Row) : (s.nearRun c e d cyc rows).mem = (s.runReads c e d cyc rows).2.2.mem := by
  obtain ⟨v, hv⟩ : ∃ v : State, s.nearRun c e d cyc rows = v.runWorms c e d (s.runReads c e d cyc rows).1 ∧ v.mem = (s.runReads c e d cyc rows).2.2.mem := ⟨_, rfl, rfl⟩
  obtain ⟨m, hworms⟩ := State.runWorms_only c e d (s.runReads c e d cyc rows).1 v
  rw [hv.1, hworms]
  exact hv.2

/-! Runs in turn. -/

theorem State.startRuns_queue (c e : Nat) (d : Desc) : ∀ (l : List Run) (s : State) (cyc : Nat),
    ((s.startRuns c e d cyc l).engine c e).queue = (s.engine c e).queue
  | [], s, cyc => by rw [State.startRuns_nil, State.engine_setEngine]
  | .far ps :: rest, s, cyc => by rw [State.startRuns_far, State.engine_setEngine]
  | .near rows :: rest, s, cyc => by rw [State.startRuns_near, State.startRuns_queue c e d rest, State.nearRun_engine]
/-- The runs of a descriptor that is not enabled read nothing. -/
theorem State.startRuns_mem (c e : Nat) {d : Desc} (hoff : d.enabled = false) : ∀ (l : List Run) (s : State) (cyc : Nat), (s.startRuns c e d cyc l).mem = s.mem
  | [], s, cyc => rfl
  | .far ps :: rest, s, cyc => rfl
  | .near rows :: rest, s, cyc => by
    rw [State.startRuns_near, State.startRuns_mem c e hoff rest, State.nearRun_mem, State.runReads, hoff]
    rfl
theorem State.startOne_engine (s : State) (c e cyc : Nat) (d : Desc) (p : Piece) : ∃ lat, (s.startOne c e cyc d p).engine c e =
    { s.engine c e with stage := .local_ (max (s.engine c e).due (s.clk + 1)), waiting := [{ p with remote := true, index := 0, due := lat }], from_ := cyc, plan := [] } :=
  ⟨_, State.engine_setEngine _ _ _ _⟩
theorem State.startOne_mem (s : State) (c e cyc : Nat) (d : Desc) (p : Piece) : (s.startOne c e cyc d p).mem = s.mem := rfl

/-! Refusal. -/

theorem State.refuse_next (s : State) (c e cyc : Nat) (rows : List Row) :
    (s.refuse c e cyc rows).engine c e = { s.engine c e with stage := .refused (cyc + 1), statuses := [.denied] } ∧ (s.refuse c e cyc rows).mem = s.mem := by
  unfold State.refuse
  dsimp only
  split
  · next d _ =>
    have hmem := s.coreFault_mem d F.coreFaultAccessDenied
    have hengine := (s.coreFault_lands d F.coreFaultAccessDenied).engine c e
    generalize s.coreFault d F.coreFaultAccessDenied = v at hmem hengine
    exact ⟨by rw [State.engine_setEngine, hengine], hmem⟩
  · exact ⟨State.engine_setEngine _ _ _ _, rfl⟩
theorem State.startNothing_engine (s : State) (c e cyc : Nat) : (s.startNothing c e cyc).engine c e = { s.engine c e with stage := .refused (cyc + 1) } :=
  State.engine_setEngine _ _ _ _

/-! A copy. -/

section
variable {s : State} {d : Desc}
theorem State.startCopy_nothing (c e cyc : Nat) (hrows : d.act.rows = []) (hshape : d.act.shapeOk = true) : s.startCopy c e cyc d = s.startNothing c e cyc :=
  if_pos ⟨hrows, hshape⟩
theorem State.startCopy_refused (c e cyc : Nat) (h : d.act.shapeOk = false ∨ ∃ r ∈ d.act.rows, s.rowOk c r = false) :
    s.startCopy c e cyc d = if d.enabled then s.refuse c e cyc d.act.rows else s.startNothing c e cyc := by
  unfold State.startCopy
  dsimp only
  have hsome : ¬ (d.act.rows = [] ∧ d.act.shapeOk = true) := by
    rintro ⟨hrows, hshape⟩
    rcases h with h | ⟨r, hr, -⟩
    · exact Bool.false_ne_true (h.symm.trans hshape)
    · rw [hrows] at hr
      exact List.not_mem_nil hr
  rw [if_neg hsome, if_pos]
  rcases h with h | ⟨r, hr, hbad⟩
  · rw [h]
    rfl
  · rw [List.any_eq_true.2 ⟨r, hr, by rw [hbad]; rfl⟩, Bool.or_true]
theorem State.startCopy_runs (c e cyc : Nat) (hrows : d.act.rows ≠ []) (hshape : d.act.shapeOk = true) (hok : ∀ r ∈ d.act.rows, s.rowOk c r = true) :
    s.startCopy c e cyc d = s.startRuns c e d cyc (s.planRuns c d.act d.act.rows) := by
  unfold State.startCopy
  dsimp only
  have hnone : (d.act.rows.any fun r => !s.rowOk c r) = false := by
    rw [List.any_eq_false]
    intro r hr
    rw [hok r hr]
    decide
  rw [if_neg fun h => hrows h.1, hshape, hnone]
  rfl
/-- A copy whose rows are all permitted runs, one of no rows does nothing, any other is refused. -/
theorem State.startCopy_cases (s : State) (c e cyc : Nat) (d : Desc) :
    s.startCopy c e cyc d = s.startNothing c e cyc ∨ d.enabled = true ∧ s.startCopy c e cyc d = s.refuse c e cyc d.act.rows ∨
      d.act.rows ≠ [] ∧ s.startCopy c e cyc d = s.startRuns c e d cyc (s.planRuns c d.act d.act.rows) := by
  by_cases hbad : d.act.shapeOk = false ∨ ∃ r ∈ d.act.rows, s.rowOk c r = false
  · rw [State.startCopy_refused c e cyc hbad]
    cases d.enabled
    · exact .inl rfl
    · exact .inr (.inl ⟨rfl, rfl⟩)
  · obtain ⟨hshape, hok⟩ := not_or.1 hbad
    simp only [Bool.not_eq_false, not_exists, not_and] at hshape hok
    by_cases hrows : d.act.rows = []
    · exact .inl (State.startCopy_nothing c e cyc hrows hshape)
    · exact .inr (.inr ⟨hrows, State.startCopy_runs c e cyc hrows hshape hok⟩)
end
theorem State.startCopy_queue (s : State) (c e cyc : Nat) (d : Desc) : ((s.startCopy c e cyc d).engine c e).queue = (s.engine c e).queue := by
  obtain h | ⟨-, h⟩ | ⟨-, h⟩ := s.startCopy_cases c e cyc d <;> rw [h]
  · rw [State.startNothing_engine]
  · rw [(s.refuse_next c e cyc _).1]
  · exact State.startRuns_queue c e d _ s cyc
theorem State.startCopy_mem {d : Desc} (s : State) (c e cyc : Nat) (h : d.act.rows = [] ∨ d.enabled = false) : (s.startCopy c e cyc d).mem = s.mem := by
  obtain hcopy | ⟨-, hcopy⟩ | ⟨hrows, hcopy⟩ := s.startCopy_cases c e cyc d <;> rw [hcopy]
  · rfl
  · exact (s.refuse_next c e cyc _).2
  · exact State.startRuns_mem c e (h.resolve_left hrows) _ s cyc
end Sys2Proof.Machine
end
section
/-! Transfers of the own vault (R120, R135, R167, R171, R172). -/
namespace Sys2Proof.Machine

/-! Places of the own vault. -/

theorem vault_of_placeOf {a c off : Nat} (h : placeOf a = .vault c off) : a = windowOf c + off ∧ off < 0xA00000 ∧ c < 3072 := by
  unfold placeOf at h
  unfold windowOf
  split at h
  · dsimp only at h
    split at h <;> cases h
  · split at h
    · dsimp only at h
      split at h
      · cases h
        omega
      · split at h
        · cases h
        · split at h
          · cases h
          · split at h <;> cases h
    · split at h <;> cases h
theorem State.leaves_own {s : State} {c a : Nat} (h : s.path c a = .own) : s.leaves c a = false := by
  unfold State.leaves
  rw [h]
  rfl
theorem State.own_place {s : State} {c a n : Nat} (h : s.path c a = .own) (hend : s.endOk c a n = true) :
    ∃ off, placeOf (localAddr a) = .vault c off ∧ localAddr a = windowOf c + off ∧ off + n ≤ 0xA00000 := by
  unfold State.endOk at hend
  rw [State.leaves_own h, Bool.false_or] at hend
  split at hend
  · next d off hplace =>
    unfold State.path pathTo at h
    rw [hplace] at h
    split at h
    · dsimp only at h
      split at h
      · next hd =>
        subst hd
        exact ⟨off, hplace, (vault_of_placeOf hplace).1, of_decide_eq_true hend⟩
      · split at h
        · cases h
        · split at h
          · cases h
          · split at h
            · split at h <;> cases h
            · cases h
    · cases h
  · cases hend
theorem State.rowPaths_own {s : State} {c : Nat} {r : Row} (hsrc : s.path c r.src = .own) (hdst : s.path c r.dst = .own) : s.rowPaths c r = (.own, .own) := by
  unfold State.rowPaths
  rw [hsrc, hdst, ite_self]
  decide
theorem runEnd_own (cyc n : Nat) : runEnd cyc n (.own, .own) = cyc + n + 7 := by
  unfold runEnd
  rw [if_neg (by decide)]
  rfl
theorem rowsCycles_own (r : Row) (h : r.half = 0) :
    rowsCycles (.own, .own) [r] = max (windows 512 (localAddr r.src) r.len) (windows 256 (localAddr r.dst) r.len) := by
  simp [rowsCycles, h, Path.width]
/-- A core that is not fenced reads its own vault's bytes as they stand. -/
theorem State.fetch_own {s : State} {c off : Nat} {a : Nat} (e n cyc : Nat) (hdrained : s.wbDrained c) (hplace : placeOf a = .vault c off)
    (hf : s.coreFenced c = false) : ∃ p v, s.fetch c e a n cyc = (s.bytes a n, badBytes a n p, false, v) ∧ PortReads c s v := by
  obtain ⟨rfl, -⟩ := vault_of_placeOf hplace
  have hreads := State.vaultRead_portReads hdrained (engineCode c e c) off n
  obtain ⟨_, _, p, v, -, -, hread⟩ := State.vaultRead_drained hdrained (engineCode c e c) off n
  rw [hread] at hreads
  exact ⟨p, v, State.fetch_vault e hplace hf (if_pos rfl) hread, hreads⟩

/-! A copy of one row within the own vault. -/

section
variable {s : State} {c e cyc : Nat} {d : Desc} {r : Row}
theorem State.runReads_own (hdrained : s.wbDrained c) (hon : d.enabled = true) (hsrc : s.path c r.src = .own) (hend : s.endOk c r.src r.len = true)
    (hf : s.coreFenced c = false) (hhalf : r.half = 0) (hkeep : r.keep = r.len) :
    (s.runReads c e d cyc [r]).1.map (fun p => (p.dst, p.data)) = [(localAddr r.dst, s.bytes (localAddr r.src) r.len)] ∧
      PortReads c s (s.runReads c e d cyc [r]).2.2 := by
  obtain ⟨off, hplace, -, -⟩ := State.own_place hsrc hend
  obtain ⟨p, v, hfetch, hreads⟩ := State.fetch_own e r.len cyc hdrained hplace hf
  have htake : (s.bytes (localAddr r.src) r.len).take r.keep = s.bytes (localAddr r.src) r.len :=
    List.take_of_length_le (by rw [State.bytes_length, hkeep])
  unfold State.runReads
  rw [if_pos hon]
  unfold State.readRows State.readRow
  rw [hfetch]
  refine ⟨?_, hreads⟩
  simp [State.readRows, hhalf, htake]
theorem State.planRuns_own (hsrc : s.path c r.src = .own) (hdst : s.path c r.dst = .own) : s.planRuns c d.act [r] = [.near [r]] := by
  have haway : s.away c r = false := by
    unfold State.away
    rw [State.leaves_own hsrc, State.leaves_own hdst, Bool.and_false]
    rfl
  have hgroup : s.groupRows c [r] = [([r], s.rowPaths c r)] := rfl
  unfold State.planRuns
  rw [hgroup]
  unfold State.planRuns.go State.planRuns.go
  rw [List.headD_cons, haway]
  rfl
theorem State.startCopy_own {pl dst src ds len ss : Nat} (hdrained : s.wbDrained c) (hon : d.enabled = true) (hact : d.act = .scopy 0 pl dst src 1 ds len ss)
    (hshape : d.act.shapeOk = true) (hok : ∀ r ∈ d.act.rows, s.rowOk c r = true) (hsrc : s.path c src = .own) (hdst : s.path c dst = .own)
    (hf : s.coreFenced c = false) (hcompat : s.start.compat = false) (hstage : (s.engine c e).stage = .queued) (hpieces : (s.engine c e).pieces = []) :
    ((s.startCopy c e cyc d).engine c e).stage = .local_ (cyc + max (windows 512 (localAddr src) len) (windows 256 (localAddr dst) len) + 7) ∧
      ((s.startCopy c e cyc d).engine c e).pieces.map (fun p => (p.dst, p.data)) = [(localAddr dst, s.bytes (localAddr src) len)] ∧
      (s.startCopy c e cyc d).mem = s.mem := by
  have hrows : d.act.rows = [⟨src, dst, len, 0, len⟩] := by rw [hact]; simp [Act.rows]
  have hrow := hok ⟨src, dst, len, 0, len⟩ (by rw [hrows]; exact List.mem_singleton_self _)
  have hend : s.endOk c src len = true := by
    unfold State.rowOk at hrow
    exact (Bool.and_eq_true_iff.1 hrow).1
  have hpaths : s.rowPaths c ⟨src, dst, len, 0, len⟩ = (.own, .own) := State.rowPaths_own hsrc hdst
  have hcycles : s.runCycles c d.act [⟨src, dst, len, 0, len⟩] = max (windows 512 (localAddr src) len) (windows 256 (localAddr dst) len) := by
    unfold State.runCycles
    rw [List.headD_cons, hpaths, hact]
    exact rowsCycles_own _ rfl
  obtain ⟨hread, hreads⟩ := State.runReads_own (e := e) (cyc := cyc) (r := ⟨src, dst, len, 0, len⟩) hdrained hon hsrc hend hf rfl rfl
  have hstart : ((s.runReads c e d cyc [⟨src, dst, len, 0, len⟩]).2.2).start.compat = false := by rw [hreads.only]; exact hcompat
  rw [State.startCopy_runs c e cyc (by rw [hrows]; exact List.cons_ne_nil _ _) hshape hok, hrows, State.planRuns_own hsrc hdst, State.startRuns_near,
    State.startRuns_nil, State.engine_setEngine, State.nearRun_engine, hcycles, List.headD_cons, hpaths, runEnd_own, State.compatCycles_off hstart, hpieces,
    List.nil_append]
  refine ⟨?_, hread, (State.nearRun_mem _ _ _ _ _ _).trans hreads.mem⟩
  unfold Engine.due
  rw [hstage, Nat.zero_max]
end

/-! A record of 64 bytes for the own vault. -/

theorem localAddr_mod (a : Nat) : localAddr a = a % 2 ^ 45 := by
  unfold localAddr bits
  simp
theorem windows_aligned {w k a len : Nat} (hw : w = k * 64) (hlen : len = 64) (ha : a % 64 = 0) : windows w a len = 1 := by
  subst hw hlen
  unfold windows
  rw [if_neg (by decide)]
  have h1 : (a + 64 - 1) / (k * 64) = a / 64 / k := by
    rw [Nat.mul_comm k 64, ← Nat.div_div_eq_div_mul]
    congr 1
    omega
  have h2 : a / (k * 64) = a / 64 / k := by rw [Nat.mul_comm k 64, ← Nat.div_div_eq_div_mul]
  rw [h1, h2]
  omega
section
variable {s : State} {c : Nat}
theorem placeOf_window (hc : c < 3072) : placeOf (windowOf c) = .vault c 0 := by
  unfold windowOf
  exact placeOf_windowOf hc
theorem pathTo_vault {a off : Nat} (h : placeOf a = .vault c off) : pathTo c a = .own := by
  unfold pathTo
  rw [h]
  exact if_pos rfl
theorem State.path_window (hc : c < 3072) (hpkg : s.pkg < 64) : s.path c (windowOf c + s.pkg * 2 ^ 45) = .own ∧ localAddr (windowOf c + s.pkg * 2 ^ 45) = windowOf c := by
  have hlt : windowOf c < 2 ^ 45 := by unfold windowOf; omega
  have hlocal : localAddr (windowOf c + s.pkg * 2 ^ 45) = windowOf c := by
    rw [localAddr_mod]
    omega
  have hpkgOf : pkgOf (windowOf c + s.pkg * 2 ^ 45) = s.pkg := by
    unfold pkgOf bits
    omega
  refine ⟨?_, hlocal⟩
  unfold State.path
  rw [if_pos hpkgOf, hlocal, pathTo_vault (placeOf_window hc)]
theorem State.pkg_lt_of_path {a : Nat} (h : s.path c a = .own) : s.pkg < 64 := by
  unfold State.path at h
  split at h
  · next hp =>
    rw [← hp]
    exact Nat.mod_lt _ (by decide)
  · cases h
theorem State.startRecord_own {e cyc extra addr : Nat} {d : Desc} {data : List Byte} {bad : List Nat} (hc : c < 3072) (hshape : d.act.shapeOk = true)
    (hend : s.endOk c addr 64 = true) (hpath : s.path c addr = .own) (halign : addr % 64 = 0) (hon : d.enabled = true) (hcompat : s.start.compat = false) :
    ((s.startRecord c e cyc extra addr d data bad).engine c e).stage = .local_ (cyc + 8 + extra) ∧
      ((s.startRecord c e cyc extra addr d data bad).engine c e).pieces.map (fun p => (p.dst, p.data)) = [(localAddr addr, data)] := by
  obtain ⟨hwindow, hlocal⟩ := State.path_window (s := s) hc (State.pkg_lt_of_path hpath)
  have hcycles : rowsCycles (.own, .own) [⟨windowOf c + s.pkg * 2 ^ 45, addr, 64, 0, 64⟩] = 1 := by
    have hsrc : windowOf c % 64 = 0 := by unfold windowOf; omega
    have hdst : localAddr addr % 64 = 0 := by
      rw [localAddr_mod]
      omega
    rw [rowsCycles_own _ rfl, hlocal, windows_aligned (k := 8) (by decide) rfl hsrc, windows_aligned (k := 4) (by decide) rfl hdst]
    rfl
  unfold State.startRecord
  dsimp only
  rw [hshape, hend, if_neg (by decide)]
  generalize hw : s.setEngine c e { s.engine c e with statuses := if bad = [] then [] else [.poison] } = w
  have hstart : w.start = s.start := by rw [← hw]; rfl
  have hleaves : w.leaves c addr = false := State.leaves_own ((State.path_of_start hstart c addr).trans hpath)
  rw [hleaves, if_neg (by decide), State.engine_setEngine, State.rowPaths_of_start hstart, State.rowPaths_own hwindow hpath,
    State.compatCycles_off (by rw [hstart]; exact hcompat), hcycles, runEnd_own, if_pos hon]
  exact ⟨rfl, rfl⟩
end
end Sys2Proof.Machine
end
section
/-! DESCRIPTOR_START and SFLAG_RELEASE (R119, R168, R170, R199). -/
namespace Sys2Proof.Machine

/-- A descriptor at the head of an engine that may start in a cycle. -/
structure State.Head (s : State) (c e cyc : Nat) (d : Desc) (rest : List Desc) : Prop where
  queue : (s.engine c e).queue = d :: rest
  stage : (s.engine c e).stage = .queued
  pieces : (s.engine c e).pieces = []
  statuses : (s.engine c e).statuses = []
  issued : d.issueCyc ≤ cyc
  ready : s.startWaits c d.act = false

/-! The start by the descriptor's form. -/

section
variable {s : State} {c e cyc : Nat} {d : Desc} {rest : List Desc}
theorem State.Head.may (h : s.Head c e cyc d rest) : ¬ (decide (cyc < d.issueCyc) || s.startWaits c d.act) = true := by
  rw [h.ready, Bool.or_false, decide_eq_true_eq]
  exact Nat.not_lt.2 h.issued
theorem State.startHead_scopy (h : s.Head c e cyc d rest) {dk pl dst src rows ds len ss : Nat} (hact : d.act = .scopy dk pl dst src rows ds len ss) :
    s.startHead c e cyc = s.startCopy c e cyc d := by
  unfold State.startHead
  extract_lets g
  rw [show g.stage = .queued from h.stage, show g.queue = d :: rest from h.queue]
  refine (if_neg h.may).trans ?_
  rw [hact]
theorem State.startHead_stile (h : s.Head c e cyc d rest) {half off fmt data scale pitch blocks pl : Nat}
    (hact : d.act = .stile half off fmt data scale pitch blocks pl) : s.startHead c e cyc = s.startCopy c e cyc d := by
  unfold State.startHead
  extract_lets g
  rw [show g.stage = .queued from h.stage, show g.queue = d :: rest from h.queue]
  refine (if_neg h.may).trans ?_
  rw [hact]
theorem State.startHead_sflag (h : s.Head c e cyc d rest) {pkg core f : Nat} (hact : d.act = .sflag pkg core f) :
    s.startHead c e cyc = s.setEngine c e { s.engine c e with stage := .remote 0 } := by
  unfold State.startHead
  extract_lets g
  rw [show g.stage = .queued from h.stage, show g.queue = d :: rest from h.queue]
  refine (if_neg h.may).trans ?_
  rw [hact]
theorem State.startHead_sinv (h : s.Head c e cyc d rest) {addr : Nat} (hact : d.act = .sinv addr) :
    s.startHead c e cyc = s.startOne c e cyc d { src := addr, dst := addr } := by
  unfold State.startHead
  extract_lets g
  rw [show g.stage = .queued from h.stage, show g.queue = d :: rest from h.queue]
  refine (if_neg h.may).trans ?_
  rw [hact]
theorem State.startHead_satom_away (h : s.Head c e cyc d rest) {op addr sd : Nat} {w : Bool} {x y : Word} (hact : d.act = .satom op w addr sd x y)
    (haway : s.leaves c addr = true) : s.startHead c e cyc = s.startOne c e cyc d { src := addr, dst := windowOf c + sd, len := 8 } := by
  unfold State.startHead
  extract_lets g
  rw [show g.stage = .queued from h.stage, show g.queue = d :: rest from h.queue]
  refine (if_neg h.may).trans ?_
  rw [hact]
  exact if_pos haway
theorem State.startHead_satom_here (h : s.Head c e cyc d rest) {op addr sd : Nat} {w : Bool} {x y : Word} (hact : d.act = .satom op w addr sd x y)
    (hhere : s.leaves c addr = false) : s.startHead c e cyc = s.setEngine c e { s.engine c e with
      stage := .local_ (cyc + (s.path c addr).latency + s.compatCycles c [⟨addr, 0, 8, 6, 8⟩] +
        if s.path c addr = .viaL0 then ceilDiv (9 * 48) 5 else ceilDiv (9 * 16) 5) } := by
  unfold State.startHead
  extract_lets g
  rw [show g.stage = .queued from h.stage, show g.queue = d :: rest from h.queue]
  refine (if_neg h.may).trans ?_
  rw [hact]
  exact if_neg (by rw [hhere]; decide)
theorem State.startHead_recst (h : s.Head c e cyc d rest) {addr due : Nat} (hact : d.act = .recst addr due) :
    s.startHead c e cyc = if cyc < due then s
      else s.startRecord c e cyc 0 addr d (((s.core c).records.find? fun x => x.1 = due).elim [] (·.2)) [] := by
  unfold State.startHead
  extract_lets g
  rw [show g.stage = .queued from h.stage, show g.queue = d :: rest from h.queue]
  refine (if_neg h.may).trans ?_
  rw [hact]
theorem State.startHead_recmg (h : s.Head c e cyc d rest) {dst a b : Nat} (hact : d.act = .recmg dst a b) {x y : List Byte} {p q : List Nat} {u v : State}
    (hx : (if d.enabled then s.ownRead c (7 + e) a 64 else ([], [], s)) = (x, p, u)) (hy : (if d.enabled then u.ownRead c (7 + e) b 64 else ([], [], u)) = (y, q, v)) :
    s.startHead c e cyc = v.startRecord c e cyc 2 dst d (mergeRecords x y) (if p = [] ∧ q = [] then [] else List.range 64) := by
  unfold State.startHead
  extract_lets g
  rw [show g.stage = .queued from h.stage, show g.queue = d :: rest from h.queue]
  refine (if_neg h.may).trans ?_
  rw [hact]
  generalize @State.ownRead = read at hx hy ⊢
  dsimp only
  rw [hx]
  dsimp only
  rw [hy]
/-- A multicast that may not start as it stands (R383; assumption 121). -/
def State.castRefused (s : State) (c : Nat) (a : Act) (src len pkgs towers : Nat) : Bool :=
  !a.shapeOk || !s.endOk c src len || s.leaves c src || (decide (towers ≠ 0) && decide (pkgs ≠ 2 ^ s.pkg))
theorem State.startHead_smcast_refused (h : s.Head c e cyc d rest) {src len dst record pkgs towers : Nat} (hact : d.act = .smcast src len dst record pkgs towers)
    (hbad : s.castRefused c (.smcast src len dst record pkgs towers) src len pkgs towers = true) :
    s.startHead c e cyc = if d.enabled then s.refuse c e cyc [⟨src, 0, len, 6, len⟩] else s.startNothing c e cyc := by
  unfold State.startHead
  extract_lets g
  rw [show g.stage = .queued from h.stage, show g.queue = d :: rest from h.queue]
  refine (if_neg h.may).trans ?_
  rw [hact]
  exact if_pos hbad
theorem State.startHead_smcast (h : s.Head c e cyc d rest) {src len dst record pkgs towers : Nat} (hact : d.act = .smcast src len dst record pkgs towers)
    (hok : ¬ s.castRefused c (.smcast src len dst record pkgs towers) src len pkgs towers = true) {b : List Byte} {bad : List Nat} {fenced : Bool} {v : State}
    (hread : (if d.enabled then s.fetch c e (localAddr src) len cyc else ([], [], false, s)) = (b, bad, fenced, v)) :
    s.startHead c e cyc = (v.setEngine c e { v.engine c e with statuses := if fenced then [.pathFenced] else if bad = [] then [] else [.poison] }).startOne
      c e cyc d { src := windowOf c + record, dst := dst, len := len, store := true, data := b, poisoned := bad } := by
  unfold State.startHead
  extract_lets g
  rw [show g.stage = .queued from h.stage, show g.queue = d :: rest from h.queue]
  refine (if_neg h.may).trans ?_
  rw [hact]
  refine (if_neg hok).trans ?_
  generalize @State.fetch = fetch at hread ⊢
  rw [hread]
end

/-! What a start leaves. -/

section
variable (s : State) (c e cyc extra addr : Nat) {d : Desc} (data : List Byte) (bad : List Nat)
/-- The start of a record's store is refused, or is a remote operation, or delivers to the tower (R171, R172). -/
theorem State.startRecord_next : ((s.startRecord c e cyc extra addr d data bad).engine c e).queue = (s.engine c e).queue ∧
    (s.startRecord c e cyc extra addr d data bad).mem = s.mem := by
  unfold State.startRecord
  dsimp only
  split
  · split
    · obtain ⟨hengine, hmem⟩ := s.refuse_next c e cyc [⟨windowOf c + s.pkg * 2 ^ 45, addr, 64, 0, 64⟩]
      exact ⟨by rw [hengine], hmem⟩
    · exact ⟨by rw [State.startNothing_engine], rfl⟩
  · generalize hw : s.setEngine c e { s.engine c e with statuses := if bad = [] then [] else [.poison] } = w
    have hqueue : (w.engine c e).queue = (s.engine c e).queue := by rw [← hw, State.engine_setEngine]
    have hmem : w.mem = s.mem := by rw [← hw]; rfl
    split
    · exact ⟨by rw [State.startRuns_queue, hqueue], hmem⟩
    · exact ⟨by rw [State.engine_setEngine, hqueue], hmem⟩
end
section
variable {s : State} {c e cyc : Nat} {d : Desc} {rest : List Desc}
theorem State.readsIf_portReads {on : Bool} (hdrained : s.wbDrained c) (code a : Nat) :
    PortReads c s (if on then s.ownRead c code a 64 else ([], [], s)).2.2 := by
  split
  · exact State.ownRead_portReads hdrained code a 64
  · exact .refl c s
theorem State.startHead_queue (h : s.Head c e cyc d rest) : ((s.startHead c e cyc).engine c e).queue = d :: rest := by
  cases hact : d.act with
  | scopy dk pl dst src rows ds len ss => rw [State.startHead_scopy h hact, State.startCopy_queue, h.queue]
  | stile half off fmt data scale pitch blocks pl => rw [State.startHead_stile h hact, State.startCopy_queue, h.queue]
  | sflag pkg core f => rw [State.startHead_sflag h hact, State.engine_setEngine, h.queue]
  | satom op w addr sd x y =>
    cases hl : s.leaves c addr with
    | true =>
      obtain ⟨lat, hone⟩ := s.startOne_engine c e cyc d { src := addr, dst := windowOf c + sd, len := 8 }
      rw [State.startHead_satom_away h hact hl, hone, h.queue]
    | false => rw [State.startHead_satom_here h hact hl, State.engine_setEngine, h.queue]
  | sinv addr =>
    obtain ⟨lat, hone⟩ := s.startOne_engine c e cyc d { src := addr, dst := addr }
    rw [State.startHead_sinv h hact, hone, h.queue]
  | smcast src len dst record pkgs towers =>
    by_cases hbad : s.castRefused c (.smcast src len dst record pkgs towers) src len pkgs towers = true
    · rw [State.startHead_smcast_refused h hact hbad]
      split
      · rw [(s.refuse_next c e cyc _).1, h.queue]
      · rw [State.startNothing_engine, h.queue]
    · obtain ⟨⟨b, bad, fenced, v⟩, hread⟩ : ∃ r, (if d.enabled then s.fetch c e (localAddr src) len cyc else ([], [], false, s)) = r := ⟨_, rfl⟩
      have hlands : Lands s (if d.enabled then s.fetch c e (localAddr src) len cyc else ([], [], false, s)).2.2.2 := by
        split
        · exact s.fetch_lands c e _ len cyc
        · exact .refl s
      rw [hread] at hlands
      rw [State.startHead_smcast h hact hbad hread]
      obtain ⟨lat, hone⟩ := (v.setEngine c e { v.engine c e with statuses := if fenced then [.pathFenced] else if bad = [] then [] else [.poison] }).startOne_engine
        c e cyc d { src := windowOf c + record, dst := dst, len := len, store := true, data := b, poisoned := bad }
      rw [hone, State.engine_setEngine, hlands.engine, h.queue]
  | recst addr due =>
    rw [State.startHead_recst h hact]
    split
    · exact h.queue
    · rw [(s.startRecord_next c e cyc 0 addr _ []).1, h.queue]
  | recmg dst a b =>
    obtain ⟨⟨x, p, u⟩, hx⟩ : ∃ r, (if d.enabled then s.ownRead c (7 + e) a 64 else ([], [], s)) = r := ⟨_, rfl⟩
    obtain ⟨⟨y, q, v⟩, hy⟩ : ∃ r, (if d.enabled then u.ownRead c (7 + e) b 64 else ([], [], u)) = r := ⟨_, rfl⟩
    have hu : Lands s (if d.enabled then s.ownRead c (7 + e) a 64 else ([], [], s)).2.2 := by
      split
      · exact s.ownRead_lands c _ a 64
      · exact .refl s
    have hv : Lands u (if d.enabled then u.ownRead c (7 + e) b 64 else ([], [], u)).2.2 := by
      split
      · exact u.ownRead_lands c _ b 64
      · exact .refl u
    rw [hx] at hu
    rw [hy] at hv
    rw [State.startHead_recmg h hact hx hy, (v.startRecord_next c e cyc 2 dst _ _).1, (hu.trans hv).engine, h.queue]
/-- A descriptor of no rows or one that is not enabled moves no byte as it starts, unless it is a multicast. -/
theorem State.startHead_mem (h : s.Head c e cyc d rest) (hdrained : s.wbDrained c) (hstill : d.act.rows = [] ∨ d.enabled = false)
    (hcast : ∀ a b x y p q, d.act ≠ .smcast a b x y p q) : (s.startHead c e cyc).mem = s.mem := by
  cases hact : d.act with
  | scopy dk pl dst src rows ds len ss =>
    rw [State.startHead_scopy h hact]
    exact s.startCopy_mem c e cyc hstill
  | stile half off fmt data scale pitch blocks pl =>
    rw [State.startHead_stile h hact]
    exact s.startCopy_mem c e cyc hstill
  | sflag pkg core f => rw [State.startHead_sflag h hact]; rfl
  | satom op w addr sd x y =>
    cases hl : s.leaves c addr with
    | true => rw [State.startHead_satom_away h hact hl]; rfl
    | false => rw [State.startHead_satom_here h hact hl]; rfl
  | sinv addr => rw [State.startHead_sinv h hact]; rfl
  | smcast src len dst record pkgs towers => exact absurd hact (hcast _ _ _ _ _ _)
  | recst addr due =>
    rw [State.startHead_recst h hact]
    split
    · rfl
    · exact (s.startRecord_next c e cyc 0 addr _ []).2
  | recmg dst a b =>
    obtain ⟨⟨x, p, u⟩, hx⟩ : ∃ r, (if d.enabled then s.ownRead c (7 + e) a 64 else ([], [], s)) = r := ⟨_, rfl⟩
    obtain ⟨⟨y, q, v⟩, hy⟩ : ∃ r, (if d.enabled then u.ownRead c (7 + e) b 64 else ([], [], u)) = r := ⟨_, rfl⟩
    have hu := State.readsIf_portReads (on := d.enabled) hdrained (7 + e) a
    rw [hx] at hu
    have hv := State.readsIf_portReads (on := d.enabled) (hu.drained hdrained) (7 + e) b
    rw [hy] at hv
    rw [State.startHead_recmg h hact hx hy]
    exact (v.startRecord_next c e cyc 2 dst _ _).2.trans (hu.trans hv).mem
end
end Sys2Proof.Machine
end
section
/-! DESCRIPTOR_START and SFLAG_RELEASE settle their obligation. -/
namespace Sys2Proof.Machine

theorem OwnCore.engine {s u : State} {c : Nat} {but : List Nat} (h : OwnCore s u c but) (d e : Nat) : u.engine d e = s.engine d e :=
  State.engine_of_engines (by rw [h.1]) d e
/-- DESCRIPTOR_START of a free engine: its head starts, and a sample of the descriptor is marked. -/
theorem exec_descriptorStart {t : At} {c : Nat} (e : BitVec 2) {s : State} (hc : c < 3072) (ha : Awake t s)
    (hfree : ((s.toCore t c).engine c e.toNat).freeAt ≤ t.cyc) :
    ∃ u, exec (.descriptorStart t c e) s = .next u ∧ OwnCore ((s.toCore t c).startHead c e.toNat t.cyc) u c [] := by
  refine ⟨_, onCore_next _ hc ha, ?_⟩
  dsimp only
  rw [if_pos hfree]
  split
  · exact (State.markStage_own _ _ _ _ _).1
  · exact .refl _ _ _
section
variable {s : State} {c e cyc : Nat} {d : Desc} {rest : List Desc}
theorem State.startHead_sinv_engine (h : s.Head c e cyc d rest) (hclk : s.clk = cyc) {addr : Nat} (hact : d.act = .sinv addr) :
    ((s.startHead c e cyc).engine c e).stage = .local_ (cyc + 1) ∧
      ∃ lat, ((s.startHead c e cyc).engine c e).waiting = [{ src := addr, dst := addr, remote := true, due := lat }] := by
  obtain ⟨lat, hone⟩ := s.startOne_engine c e cyc d { src := addr, dst := addr }
  rw [State.startHead_sinv h hact, hone]
  refine ⟨?_, lat, rfl⟩
  unfold Engine.due
  rw [h.stage, hclk, Nat.zero_max]
theorem State.startHead_refused (h : s.Head c e cyc d rest)
    (hcopy : (∃ dk pl dst src rows ds bytes ss, d.act = .scopy dk pl dst src rows ds bytes ss) ∨
      ∃ half off fmt data scale pitch blocks pl, d.act = .stile half off fmt data scale pitch blocks pl)
    (hon : d.enabled = true) (hbad : d.act.shapeOk = false ∨ ∃ r ∈ d.act.rows, s.rowOk c r = false) :
    ((s.startHead c e cyc).engine c e).stage = .refused (cyc + 1) ∧ ((s.startHead c e cyc).engine c e).statuses = [.denied] ∧ (s.startHead c e cyc).mem = s.mem := by
  obtain ⟨hengine, hmem⟩ := s.refuse_next c e cyc d.act.rows
  have hstart : s.startHead c e cyc = s.refuse c e cyc d.act.rows := by
    have hrefused := State.startCopy_refused c e cyc hbad
    rw [if_pos hon] at hrefused
    rcases hcopy with ⟨_, _, _, _, _, _, _, _, hact⟩ | ⟨_, _, _, _, _, _, _, _, hact⟩
    · exact (State.startHead_scopy h hact).trans hrefused
    · exact (State.startHead_stile h hact).trans hrefused
  rw [hstart, hengine]
  exact ⟨rfl, rfl, hmem⟩
theorem State.startHead_record (h : s.Head c e cyc d rest) (hc : c < 3072) {addr due : Nat} {data : List Byte} (hact : d.act = .recst addr due)
    (hon : d.enabled = true) (hdue : due ≤ cyc) (hfound : (s.core c).records.find? (fun x => x.1 = due) = some (due, data)) (halign : addr % 64 = 0)
    (hpath : s.path c addr = .own) (hend : s.endOk c addr 64 = true) (hcompat : s.start.compat = false) :
    ((s.startHead c e cyc).engine c e).stage = .local_ (cyc + 8) ∧ ((s.startHead c e cyc).engine c e).pieces.map (fun p => (p.dst, p.data)) = [(localAddr addr, data)] := by
  have hshape : d.act.shapeOk = true := by
    rw [hact]
    exact decide_eq_true halign
  rw [State.startHead_recst h hact, if_neg (Nat.not_lt.2 hdue), hfound]
  exact State.startRecord_own hc hshape hend hpath halign hon hcompat
theorem State.startHead_merge (h : s.Head c e cyc d rest) (hc : c < 3072) (hdrained : s.wbDrained c) {dst a b : Nat} (hact : d.act = .recmg dst a b)
    (hon : d.enabled = true) (halign : dst % 64 = 0) (hpath : s.path c dst = .own) (hend : s.endOk c dst 64 = true) (hcompat : s.start.compat = false) :
    ((s.startHead c e cyc).engine c e).stage = .local_ (cyc + 10) ∧ ((s.startHead c e cyc).engine c e).pieces.map (fun p => (p.dst, p.data)) =
      [(localAddr dst, mergeRecords (s.ownRead c (7 + e) a 64).1 (s.ownRead c (7 + e) b 64).1)] := by
  obtain ⟨⟨x, p, u⟩, hx⟩ : ∃ r, s.ownRead c (7 + e) a 64 = r := ⟨_, rfl⟩
  obtain ⟨⟨y, q, v⟩, hy⟩ : ∃ r, u.ownRead c (7 + e) b 64 = r := ⟨_, rfl⟩
  have hu := State.ownRead_portReads hdrained (7 + e) a 64
  rw [hx] at hu
  have hv := State.ownRead_portReads (hu.drained hdrained) (7 + e) b 64
  rw [hy] at hv
  have hstart : v.start = s.start := (hu.trans hv).lands.start
  have hsecond : (s.ownRead c (7 + e) b 64).1 = y := by
    have hbytes := State.ownRead_bytes (hu.drained hdrained) (7 + e) b 64
    rw [hy] at hbytes
    have hbyte : ∀ i, u.byte i = s.byte i := SameBytes.of_mem hu.mem
    simp only [hbyte] at hbytes
    exact (State.ownRead_bytes hdrained (7 + e) b 64).trans hbytes.symm
  have hshape : d.act.shapeOk = true := by
    rw [hact]
    exact decide_eq_true halign
  have hendv : v.endOk c dst 64 = true := by
    unfold State.endOk State.leaves at hend ⊢
    rw [State.path_of_start hstart]
    exact hend
  rw [State.startHead_recmg h hact ((if_pos hon).trans hx) ((if_pos hon).trans hy), hsecond, hx]
  exact State.startRecord_own hc hshape hendv ((State.path_of_start hstart c dst).trans hpath) halign hon (by rw [hstart]; exact hcompat)
theorem State.startHead_atomic (h : s.Head c e cyc d rest) {op addr sd : Nat} {w : Bool} {x y : Word} (hact : d.act = .satom op w addr sd x y)
    (hpath : s.path c addr = .own) (hcompat : s.start.compat = false) : ((s.startHead c e cyc).engine c e).stage = .local_ (cyc + 36) := by
  rw [State.startHead_satom_here h hact (State.leaves_own hpath), State.engine_setEngine, hpath, State.compatCycles_off hcompat]
  rfl
end
theorem descriptorStart_next (t : At) (c : Nat) (e : BitVec 2) (s s1 : State) (d : Desc) (rest : List Desc) (hc : c < 3072) (ha : Awake t s)
    (h1 : s1 = s.toCore t c) (hfree : (s1.engine c e.toNat).freeAt ≤ t.cyc)
    (hengine : s1.engine c e.toNat = { s1.engine c e.toNat with queue := d :: rest, stage := .queued, pieces := [], statuses := [] })
    (hissued : d.issueCyc ≤ t.cyc) (hready : s1.startWaits c d.act = false) :
    ∃ u, exec (.descriptorStart t c e) s = .next u ∧ OwnCore (s1.startHead c e.toNat t.cyc) u c [] ∧ s1.Head c e.toNat t.cyc d rest := by
  subst h1
  obtain ⟨u, hexec, hown⟩ := exec_descriptorStart e hc ha hfree
  refine ⟨u, hexec, hown, ?_, ?_, ?_, ?_, hissued, hready⟩ <;> rw [hengine]

/-! SFLAG_RELEASE. -/

/-- An SFLAG sets its flag inside the tower 16 cycles on (R199). -/
def State.setFlagInside (s : State) (c e target f cyc : Nat) (on : Bool) : State :=
  (if on then s.flagEnter target c f (cyc + 16) else s).setEngine c e { s.engine c e with stage := .local_ (cyc + 16) }
theorem State.setFlagInside_next (s : State) (c e target f cyc : Nat) (on : Bool) :
    (s.setFlagInside c e target f cyc on).mem = s.mem ∧ (s.setFlagInside c e target f cyc on).regs = s.regs ∧
      ((s.setFlagInside c e target f cyc on).core target).flagsIn = (s.core target).flagsIn ++ (if on then [{ at_ := cyc + 16, src := c, flag := f }] else []) ∧
      ((s.setFlagInside c e target f cyc on).engine c e).stage = .local_ (cyc + 16) := by
  unfold State.setFlagInside
  refine ⟨?_, ?_, ?_, by rw [State.engine_setEngine]⟩
  · cases on <;> rfl
  · cases on <;> rfl
  · refine (congrArg Core.flagsIn (State.core_of_cores (State.setEngine_cores _ _ _ _) _)).trans ?_
    cases on with
    | true => exact congrArg Core.flagsIn (State.core_setCore _ _ _)
    | false => exact (List.append_nil _).symm
section
variable {t : At} {c pkg target f : Nat} {e : BitVec 2} {s s1 : State} {d : Desc} {rest : List Desc}
theorem exec_sflagRelease (hc : c < 3072) (ha : Awake t s) (h1 : s1 = s.toCore t c) (hstage : (s1.engine c e.toNat).stage = .remote 0)
    (hqueue : (s1.engine c e.toNat).queue = d :: rest) (hact : d.act = .sflag pkg target f) :
    exec (.sflagRelease t c e) s = .next (if !s1.storesDone c d.issueCyc then s1
      else if pkg = s1.pkg ∧ towerOf target = towerOf c then s1.setFlagInside c e.toNat target f t.cyc d.enabled
      else s1.startOne c e.toNat t.cyc d { src := pkg * 2 ^ 20 + target * 2 ^ 8 + f }) := by
  subst h1
  show execSflagRelease t c e s = _
  unfold execSflagRelease State.setFlagInside
  refine (onCore_next _ hc ha).trans ?_
  simp only [hstage, hqueue, hact]
theorem sflagRelease_next (hc : c < 3072) (ha : Awake t s) (h1 : s1 = s.toCore t c) (hstage : (s1.engine c e.toNat).stage = .remote 0)
    (hqueue : (s1.engine c e.toNat).queue = d :: rest) (hact : d.act = .sflag pkg target f) :
    ∃ u, exec (.sflagRelease t c e) s = .next u ∧ SameBytes s1 u ∧ SameRegs s1 u [] ∧
      (s1.storesDone c d.issueCyc = false → u = s1) ∧
      (s1.storesDone c d.issueCyc = true → pkg = s1.pkg → target / 256 = c / 256 →
        (u.core target).flagsIn = (s1.core target).flagsIn ++ (if d.enabled then [{ at_ := t.cyc + 16, src := c, flag := f }] else []) ∧
        (u.engine c e.toNat).stage = .local_ (t.cyc + 16)) ∧
      (s1.storesDone c d.issueCyc = true → pkg ≠ s1.pkg ∨ target / 256 ≠ c / 256 →
        ∃ lat, (u.engine c e.toNat).waiting = [{ remote := true, src := pkg * 2 ^ 20 + target * 2 ^ 8 + f, due := lat }]) := by
  refine ⟨_, exec_sflagRelease hc ha h1 hstage hqueue hact, ?_⟩
  obtain ⟨hmem, hregs, hflags, hlocal⟩ := s1.setFlagInside_next c e.toNat target f t.cyc d.enabled
  cases hdone : s1.storesDone c d.issueCyc with
  | false => exact ⟨fun _ => rfl, fun _ _ => rfl, fun _ => rfl, fun h => absurd h (by decide), fun h => absurd h (by decide)⟩
  | true =>
    rw [if_neg (by decide)]
    by_cases hinside : pkg = s1.pkg ∧ towerOf target = towerOf c
    · rw [if_pos hinside]
      exact ⟨.of_mem hmem, fun a _ => State.rd_of_regs hregs a, fun h => absurd h (by decide), fun _ _ _ => ⟨hflags, hlocal⟩,
        fun _ hout => absurd hinside (fun h => hout.elim (fun hp => hp h.1) fun ht => ht h.2)⟩
    · rw [if_neg hinside]
      obtain ⟨lat, hone⟩ := s1.startOne_engine c e.toNat t.cyc d { src := pkg * 2 ^ 20 + target * 2 ^ 8 + f }
      exact ⟨fun _ => rfl, fun _ _ => rfl, fun h => absurd h (by decide), fun _ hp ht => absurd ⟨hp, ht⟩ hinside, fun _ _ => ⟨lat, by rw [hone]⟩⟩
end

/-- Settles O25: the start of a free engine's head by the form of its descriptor, and SFLAG_RELEASE. -/
theorem descriptorStart : Obligations.DescriptorStart := by
  refine ⟨fun t c e s s1 d rest hc ha h1 hfree hengine hissued _ hready => ?_, fun t c pkg target f e s s1 d rest hc ha h1 hstage hqueue hact =>
    sflagRelease_next hc ha h1 hstage hqueue hact⟩
  obtain ⟨u, hexec, hown, hhead⟩ := descriptorStart_next t c e s s1 d rest hc ha h1 hfree hengine hissued hready
  have hdrained : s1.wbDrained c := h1 ▸ s.toCore_drained t c
  have hclk : s1.clk = t.cyc := h1 ▸ (s.toCore_moment t c).2
  have hmem : u.mem = (s1.startHead c e.toNat t.cyc).mem := by rw [hown.1]
  refine ⟨u, hexec, ?_⟩
  rw [hown.engine]
  refine ⟨State.startHead_queue hhead, fun hstill hcast => .of_mem (hmem.trans (State.startHead_mem hhead hdrained hstill hcast)), fun pkg core f hact => ?_,
    fun addr hact => State.startHead_sinv_engine hhead hclk hact, fun hcopy hon hbad => ?_, fun pl dst src ds len ss hact hon hshape hok hsrc hdst hf hcompat => ?_,
    fun addr due data hact hon hdue hfound halign hpath hend hcompat => State.startHead_record hhead hc hact hon hdue hfound halign hpath hend hcompat,
    fun addr due hact hdue => ?_,
    fun dst a b hact hon halign hpath hend hcompat => State.startHead_merge hhead hc hdrained hact hon halign hpath hend hcompat,
    fun op w addr sd x y hact hpath hcompat => State.startHead_atomic hhead hact hpath hcompat⟩
  · rw [State.startHead_sflag hhead hact, State.engine_setEngine]
  · obtain ⟨hstage, hstatuses, hrefused⟩ := State.startHead_refused hhead hcopy hon hbad
    exact ⟨hstage, hstatuses, .of_mem (hmem.trans hrefused)⟩
  · obtain ⟨hstage, hpieces, hcopied⟩ := State.startCopy_own (cyc := t.cyc) hdrained hon hact hshape hok hsrc hdst hf hcompat hhead.stage hhead.pieces
    rw [State.startHead_scopy hhead hact]
    rw [State.startHead_scopy hhead hact] at hmem
    exact ⟨hstage, hpieces, .of_mem (hmem.trans hcopied)⟩
  · rw [State.startHead_recst hhead hact, if_pos hdue, hhead.stage]

end Sys2Proof.Machine
end
section
/-! A loop that closes at a bundle (R141), seen through the number of a scalar register that no instruction can name (R99, R128). -/
namespace Sys2Proof.Machine

/-- A running device whose core 0 is enabled, at a bundle of four reserved encodings at index 0, which ends a loop of level 0 with two passes to go. -/
def loopingState : State :=
  ((({ State.reset with dev := .run, pins := { resetN := true } } : State).putB (Reg.coreCtrl 0) F.coreCtrlEnable true).setBytes (windowOf 0 + 0xC00000)
    (List.replicate 16 255)).putF (Reg.coreLoopCount 0 0) F.coreLoopCountCount 2

theorem looping_issues : Issuing ⟨0, 0⟩ 0 loopingState := by decide +kernel
theorem looping_before : (loopingState.toCore ⟨0, 0⟩ 0).rd (Reg.coreLoopCount 0 0) = 2 := by decide +kernel
theorem looping_after : (match exec (.bundleFetch ⟨0, 0⟩ 0 .good) loopingState with
    | .next u => u.rd (Reg.coreLoopCount 0 0)
    | _ => 0) = 1 := by decide +kernel
theorem looping_npc : ((loopingState.toCore ⟨0, 0⟩ 0).core 0).npc = 0 := by decide +kernel
theorem looping_bundle : (loopingState.toCore ⟨0, 0⟩ 0).num (windowOf 0 + 0xC00000 + 16 * 0) 16 = 2 ^ 128 - 1 := by decide +kernel
theorem looping_good : (loopingState.toCore ⟨0, 0⟩ 0).mark (windowOf 0 + 0xC00000 + 16 * 0) = .good := by decide +kernel
/-- Four slots of ones are reserved encodings. -/
theorem ones_reserved : decodeControl ⟨0, 0⟩ 0 (2 ^ 32 - 1) = none ∧ decodeMatrix ⟨0, 0⟩ 0 (2 ^ 32 - 1) = none ∧ decodeVector ⟨0, 0⟩ 0 (2 ^ 32 - 1) = none ∧
    decodeStream ⟨0, 0⟩ 0 (2 ^ 32 - 1) = none := by decide +kernel
theorem looping_stalls : (loopingState.toCore ⟨0, 0⟩ 0).stalls 0 0 none none = false := by decide +kernel
/-- Around slots that do nothing, an issue writes no register but the core's performance counters. -/
theorem State.emptyIssue_rd (s : State) (c : Nat) {a : Nat} (ha : a ∉ (List.range 8).map (Reg.corePmc c)) :
    ((((((s.runSlot none).tagWait c).runSlot none).runSlot none).runSlot none).pmcCore c 0x001 1 |>.modCore c fun k => { k with bundle := none }).rd a = s.rd a := by
  have htag : (s.tagWait c).rd a = s.rd a := by
    unfold State.tagWait
    dsimp only
    split
    · rfl
    · split
      · split <;> rfl
      · rfl
  exact ((State.rd_modCore _ _ _ _).trans ((State.pmcCore_counts _ c 0x001 1).2 a ha)).trans htag

/-- Refutes O27: the bundle whose slots act must have kept the whole function `sreg c`, numbers of no register included. The address that number 66 gives
is that of the count of loop level 0, which the end of a bundle that closes the loop lowers (R141). -/
theorem not_fetchAndSampling : ¬ Obligations.FetchAndSampling := by
  intro h
  obtain ⟨hcontrol, hmatrix, hvector, hstream⟩ := ones_reserved
  obtain ⟨-, hissue, -⟩ := h.1 ⟨0, 0⟩ 0 .good loopingState _ 0 (2 ^ 128 - 1) none none looping_issues rfl looping_npc.symm looping_bundle.symm
    hmatrix.symm hstream.symm
  obtain ⟨-, -, hacts⟩ := hissue (by decide) (by rw [looping_good]; decide)
  obtain ⟨s2, -, -, -, -, -, hsreg, -, -, hexec⟩ := hacts looping_stalls (fun n hn => by cases hn)
  have hslots : (2 ^ 128 - 1) / 2 ^ 96 % 2 ^ 32 = 2 ^ 32 - 1 ∧ (2 ^ 128 - 1) / 2 ^ 32 % 2 ^ 32 = 2 ^ 32 - 1 := by decide
  rw [hslots.1, hslots.2, hcontrol, hvector] at hexec
  have hafter := looping_after
  rw [hexec] at hafter
  have hkept : s2.rd (Reg.coreLoopCount 0 0) = 2 := (hsreg 66).trans looping_before
  have hcount := (s2.emptyIssue_rd 0 (a := Reg.coreLoopCount 0 0) (by decide)).symm.trans hafter
  exact absurd (hkept.symm.trans hcount) (by decide)
end Sys2Proof.Machine
end
section
/-! The rack join (R290, R349, R411 to R413). -/
namespace Sys2Proof.Machine

/-! A start that ends in HALTED. -/

/-- The registers that the end of a start in HALTED may write. -/
def haltRegs : List Nat := [Reg.onxImgStatus, Reg.onxLogStatus, Reg.onxState, Reg.flrClk 0, Reg.flrClk 1, Reg.flrClk 2, Reg.flrClk 3]

/-- What the join keeps: memory, the start's record and the registers that a halt does not write, but the agreed carat. -/
structure Joins (s u : State) : Prop where
  mem : u.mem = s.mem
  start : u.start = s.start
  dev : u.dev = s.dev ∨ u.dev = .halted
  rd : SameRegs s u (Reg.onxJoinCarat :: haltRegs)

section
variable {s u v : State}
theorem Joins.refl (s : State) : Joins s s := ⟨rfl, rfl, .inl rfl, fun _ _ => rfl⟩
theorem Joins.trans (h : Joins s u) (k : Joins u v) : Joins s v :=
  ⟨k.mem.trans h.mem, k.start.trans h.start, k.dev.elim (fun e => e ▸ h.dev) .inr, fun a ha => (k.rd a ha).trans (h.rd a ha)⟩
theorem Joins.wr (h : Joins s u) {a : Nat} (w : Word) (ha : a ∈ Reg.onxJoinCarat :: haltRegs) : Joins s (u.wr a w) :=
  h.trans ⟨rfl, rfl, .inl rfl, fun _ hb => State.rd_wr_ne _ _ fun e => hb (e ▸ ha)⟩
theorem Logs.joins (h : Logs s u) : Joins s u :=
  ⟨h.mem, by rw [h.1], .inl h.dev, fun a ha => h.rd fun e => ha (e ▸ by decide)⟩
end
theorem State.halt_joins (s : State) (cause : Nat) (h : cause < 256) : Joins s (s.halt cause) := by
  obtain ⟨hdev, hmem, -, hrd⟩ := s.halt_next cause h
  refine ⟨hmem, ?_, .inr hdev, fun a ha => ?_⟩
  · unfold State.halt
    rw [(State.enter_enters _ _).1]
    rfl
  · refine hrd a (fun e => ha (e ▸ by decide)) fun n hn e => ha ?_
    have hclk : ∀ n < 4, Reg.flrClk n ∈ Reg.onxJoinCarat :: haltRegs := by decide
    exact e ▸ hclk n hn
theorem State.startHalt_next (s : State) {cause haltCause : Nat} (h : cause < 256) (hh : haltCause < 256) : Joins s (s.startHalt cause haltCause) ∧
    (s.startHalt cause haltCause).dev = .halted ∧ (s.startHalt cause haltCause).fld Reg.onxState F.onxStateHaltCause = haltCause ∧
      (s.startHalt cause haltCause).fld Reg.onxImgStatus F.onxImgStatusStartCause = cause := by
  have hput := (Joins.refl s).wr (a := Reg.onxImgStatus) (F.onxImgStatusStartCause.put (s.rd Reg.onxImgStatus) cause) (by decide)
  have hcause : (s.putF Reg.onxImgStatus F.onxImgStatusStartCause cause).fld Reg.onxImgStatus F.onxImgStatusStartCause = cause :=
    (State.fld_putF _ _ _ _ (by decide) (by decide)).trans (Nat.mod_eq_of_lt h)
  have hlog := (s.putF Reg.onxImgStatus F.onxImgStatusStartCause cause).logStart_logs cause
  unfold State.startHalt
  have hlogged : ((s.putF Reg.onxImgStatus F.onxImgStatusStartCause cause).logStart cause).fld Reg.onxImgStatus F.onxImgStatusStartCause = cause :=
    (State.fld_of_rd _ (hlog.rd (by decide))).trans hcause
  have hjoins := (hput : Joins s (s.putF Reg.onxImgStatus F.onxImgStatusStartCause cause)).trans hlog.joins
  generalize (s.putF Reg.onxImgStatus F.onxImgStatusStartCause cause).logStart cause = v at hlogged hjoins
  obtain ⟨hdev, -, hhalt, hrd⟩ := v.halt_next haltCause hh
  exact ⟨hjoins.trans (v.halt_joins haltCause hh), hdev, hhalt, (State.fld_of_rd _ (hrd _ (by decide) (by decide))).trans hlogged⟩
theorem State.joinFail_next (s : State) {cause : Nat} (member : Nat) (h : cause < 256) : Joins s (s.joinFail cause member) ∧
    (s.joinFail cause member).dev = .halted ∧ (s.joinFail cause member).fld Reg.onxState F.onxStateHaltCause = 5 ∧
      (s.joinFail cause member).fld Reg.onxImgStatus F.onxImgStatusStartCause = cause := by
  have hlog := s.log_logs 0x0803 (srcUnit 12 0) [cause, member]
  unfold State.joinFail
  generalize s.log 0x0803 (srcUnit 12 0) [cause, member] = v at hlog
  obtain ⟨hjoins, hrest⟩ := v.startHalt_next h (haltCause := 5) (by decide)
  exact ⟨hlog.joins.trans hjoins, hrest⟩

/-! The agreed carat (R413). -/

theorem State.armCores_only (s : State) (cyc base : Nat) : ∃ cores, s.armCores cyc base = { s with cores := cores } := by
  have hfold : ∀ (l : List Nat) (s : State), ∃ cores, l.foldl (fun s c =>
      s.setCore c { s.core c with npc := s.fld (Reg.coreCtrl c) F.coreCtrlStartPc, wait := .time (BitVec.ofNat 64 base) true, waitFrom := cyc }) s =
        { s with cores := cores } := by
    intro l
    induction l with
    | nil => exact fun s => ⟨s.cores, rfl⟩
    | cons c l ih =>
      intro s
      obtain ⟨cores, h⟩ := ih (s.setCore c
        { s.core c with npc := s.fld (Reg.coreCtrl c) F.coreCtrlStartPc, wait := .time (BitVec.ofNat 64 base) true, waitFrom := cyc })
      exact ⟨cores, by rw [List.foldl_cons, h]; rfl⟩
  exact hfold _ s
theorem State.armCores_joins (s : State) (cyc base : Nat) : Joins s (s.armCores cyc base) := by
  obtain ⟨cores, h⟩ := s.armCores_only cyc base
  rw [h]
  exact ⟨rfl, rfl, .inl rfl, fun _ _ => rfl⟩
theorem State.tryJoin_joins (s : State) (cyc : Nat) : Joins s (s.tryJoin cyc) := by
  have hput : Joins s (s.putF Reg.onxJoinCarat F.onxJoinCaratCarat s.largestProposal) := (Joins.refl s).wr _ (by decide)
  unfold State.tryJoin
  dsimp only
  split
  · exact .refl s
  · generalize s.putF Reg.onxJoinCarat F.onxJoinCaratCarat s.largestProposal = v at hput
    split
    · exact hput.trans (v.joinFail_next v.pkg (cause := 11) (by decide)).1
    · exact hput.trans (v.armCores_joins _ _)

/-! JOIN_MESSAGE and JOIN_TIMEOUT. -/

theorem others_lt {s : State} {p : Nat} (h : p ∈ s.others) : p < 64 := List.mem_range.1 (List.mem_filter.1 h).1
theorem State.joinHeard_of_rd {s u : State} (h : u.rd Reg.onxJoinHeard = s.rd Reg.onxJoinHeard) (p : Nat) : u.joinHeard p = s.joinHeard p := by
  unfold State.joinHeard
  rw [h]
theorem bit_or_pow (w : Word) {p : Nat} (h : p < 64) : bit (w ||| BitVec.ofNat 64 (2 ^ p)).toNat p = true := by
  have htest : (w ||| BitVec.ofNat 64 (2 ^ p)).toNat.testBit p = true := by
    rw [BitVec.toNat_or, Nat.testBit_or, BitVec.toNat_ofNat, Nat.mod_eq_of_lt (Nat.pow_lt_pow_right (by decide) h), Nat.testBit_two_pow_self, Bool.or_true]
  unfold bit
  rw [Nat.testBit_eq_decide_div_mod_eq] at htest
  exact htest
/-- A member's message is held: its incarnation, that it was heard, its proposal (R412, R413, R417). -/
def State.holdJoin (s : State) (proposal inc pkg : Nat) : State :=
  let u := (s.putF (Reg.fabPeerInc pkg) F.fabPeerIncIncarnation inc).wr Reg.onxJoinHeard
    ((s.putF (Reg.fabPeerInc pkg) F.fabPeerIncIncarnation inc).rd Reg.onxJoinHeard ||| BitVec.ofNat 64 (2 ^ pkg))
  { u with start := { u.start with proposals := assocSet u.start.proposals pkg proposal } }
theorem State.holdJoin_next (s : State) (proposal : Nat) {inc pkg : Nat} (hp : pkg < 64) (hi : inc < 2 ^ 32) :
    (s.holdJoin proposal inc pkg).mem = s.mem ∧ (s.holdJoin proposal inc pkg).joinHeard pkg = true ∧
      (s.holdJoin proposal inc pkg).fld (Reg.fabPeerInc pkg) F.fabPeerIncIncarnation = inc ∧ assoc (s.holdJoin proposal inc pkg).start.proposals pkg = proposal := by
  have hne : Reg.fabPeerInc pkg ≠ Reg.onxJoinHeard := by
    unfold Reg.fabPeerInc Reg.onxJoinHeard
    omega
  refine ⟨rfl, ?_, ?_, assoc_assocSet _ _ _⟩
  · unfold State.joinHeard
    rw [show (s.holdJoin proposal inc pkg).rd Reg.onxJoinHeard = _ from State.rd_wr _ _ _]
    exact bit_or_pow _ hp
  · refine (State.fld_of_rd _ (State.rd_wr_ne _ _ hne)).trans ?_
    exact (State.fld_putF _ _ _ _ (by decide) (by decide)).trans (Nat.mod_eq_of_lt hi)
theorem peerInc_kept {p : Nat} : Reg.fabPeerInc p ∉ Reg.onxJoinCarat :: haltRegs := by
  have hlow : ∀ a ∈ Reg.onxJoinCarat :: haltRegs, a < 0x7200100 := by decide
  intro h
  have := hlow _ h
  unfold Reg.fabPeerInc at this
  omega
theorem joinMessage_next (t : At) (digest : List Byte) (proposal : Nat) (inc : BitVec 32) (pkg : Nat) (s s1 : State) (hp : pkg < 64) (h1 : s1 = s.at t) :
    ∃ u, exec (.joinMessage t digest proposal inc pkg) s = .next u ∧ SameBytes s u ∧
      (s.dev = .run ∨ s.dev = .hold → u = s1.log 0x0804 (srcUnit 12 0) [pkg, devNum s.dev]) ∧
      (s.dev ≠ .run → s.dev ≠ .hold → s.dev ≠ .join ∨ pkg ∉ s.others → u = s1) ∧
      (s.dev = .join → pkg ∈ s.others → digest ≠ padTo 48 (hDigest s.booted.header) → u.dev = .halted ∧ u.fld Reg.onxImgStatus F.onxImgStatusStartCause = 10) ∧
      (s.dev = .join → pkg ∈ s.others → digest = padTo 48 (hDigest s.booted.header) → s.joinCarat = 0 →
        u.joinHeard pkg = true ∧ u.fld (Reg.fabPeerInc pkg) F.fabPeerIncIncarnation = inc.toNat ∧ assoc u.start.proposals pkg = proposal) := by
  have hexec : exec (.joinMessage t digest proposal inc pkg) s = .next (if s.dev = .run ∨ s.dev = .hold then s1.log 0x0804 (srcUnit 12 0) [pkg, devNum s.dev]
      else if decide (s.dev = .join) && s.others.contains pkg then s1.takeJoin t.cyc digest proposal inc.toNat pkg else s1) := by
    subst h1
    exact if_pos hp
  have hmem1 : s1.mem = s.mem := by rw [h1]; rfl
  refine ⟨_, hexec, ?_⟩
  by_cases hlogged : s.dev = .run ∨ s.dev = .hold
  · rw [if_pos hlogged]
    refine ⟨.of_mem ((State.log_logs _ _ _ _).mem.trans hmem1), fun _ => rfl, fun hr hh => absurd hlogged (not_or.2 ⟨hr, hh⟩), fun hj => ?_, fun hj => ?_⟩ <;>
      exact absurd hlogged (by rw [hj]; decide)
  · rw [if_neg hlogged]
    by_cases hmember : s.dev = .join ∧ pkg ∈ s.others
    · rw [if_pos (by rw [hmember.1, List.contains_iff_mem.2 hmember.2]; rfl)]
      have hother : ¬ (s.dev ≠ .join ∨ pkg ∉ s.others) := fun h => h.elim (fun h => h hmember.1) fun h => h hmember.2
      have hdigest : s1.booted.header = s.booted.header := by rw [h1]; rfl
      have hcarat : s1.joinCarat = s.joinCarat := by rw [h1]; rfl
      unfold State.takeJoin
      rw [hdigest, hcarat]
      by_cases hd : digest = padTo 48 (hDigest s.booted.header)
      · rw [if_neg (not_not_intro hd)]
        by_cases hc : s.joinCarat = 0
        · rw [if_neg (not_not_intro hc)]
          obtain ⟨hmem, hheard, hinc, hproposal⟩ := s1.holdJoin_next proposal hp inc.isLt
          have hjoins := (s1.holdJoin proposal inc.toNat pkg).tryJoin_joins t.cyc
          refine ⟨.of_mem (hjoins.mem.trans (hmem.trans hmem1)), fun h => absurd h hlogged, fun _ _ h => absurd h hother, fun _ _ h => absurd hd h, fun _ _ _ _ => ⟨?_, ?_, ?_⟩⟩
          · exact (State.joinHeard_of_rd (hjoins.rd _ (by decide)) pkg).trans hheard
          · exact (State.fld_of_rd _ (hjoins.rd _ peerInc_kept)).trans hinc
          · exact (congrArg (fun x => assoc (Start.proposals x) pkg) hjoins.start).trans hproposal
        · rw [if_pos hc]
          refine ⟨?_, fun h => absurd h hlogged, fun _ _ h => absurd h hother, fun _ _ h => absurd hd h, fun _ _ _ h => absurd h hc⟩
          split
          · exact .of_mem ((s1.joinFail_next pkg (by decide)).1.mem.trans hmem1)
          · exact .of_mem hmem1
      · rw [if_pos hd]
        obtain ⟨hjoins, hdev, -, hcause⟩ := s1.joinFail_next pkg (cause := 10) (by decide)
        exact ⟨.of_mem (hjoins.mem.trans hmem1), fun h => absurd h hlogged, fun _ _ h => absurd h hother, fun _ _ _ => ⟨hdev, hcause⟩, fun _ _ h => absurd h hd⟩
    · have hfalse : (decide (s.dev = .join) && s.others.contains pkg) = false := by
        rw [Bool.eq_false_iff]
        intro h
        obtain ⟨hj, ho⟩ := Bool.and_eq_true_iff.1 h
        exact hmember ⟨of_decide_eq_true hj, List.contains_iff_mem.1 ho⟩
      rw [hfalse, if_neg (by decide)]
      exact ⟨.of_mem hmem1, fun h => absurd h hlogged, fun _ _ _ => rfl, fun hj ho => absurd ⟨hj, ho⟩ hmember, fun hj ho => absurd ⟨hj, ho⟩ hmember⟩
theorem joinTimeout_next (t : At) (s s1 : State) (h1 : s1 = s.at t) : ∃ u, exec (.joinTimeout t) s = .next u ∧
      (s.dev ≠ .join ∨ s.joinCarat ≠ 0 ∨ s1.now < s.start.beganJoin + 1000000 * hJoinTimeout s.booted.header → u = s1) ∧
      (s.dev = .join → s.joinCarat = 0 → s.start.beganJoin + 1000000 * hJoinTimeout s.booted.header ≤ s1.now →
        SameBytes s u ∧ u.dev = .halted ∧ u.fld Reg.onxState F.onxStateHaltCause = 5 ∧ u.fld Reg.onxImgStatus F.onxImgStatusStartCause = 9) := by
  have hexec : exec (.joinTimeout t) s = .next (if s.dev = .join ∧ s.joinCarat = 0 ∧ s.start.beganJoin + 1000000 * hJoinTimeout s.booted.header ≤ s1.now then
      s1.joinFail 9 ((s1.others.find? fun p => !s1.joinHeard p).getD s1.pkg) else s1) := by
    subst h1
    rfl
  have hmem1 : s1.mem = s.mem := by rw [h1]; rfl
  refine ⟨_, hexec, fun hno => ?_, fun hj hc ht => ?_⟩
  · refine if_neg fun ⟨hj, hc, ht⟩ => ?_
    rcases hno with h | h | h
    · exact h hj
    · exact h hc
    · exact absurd ht (Nat.not_le.2 h)
  · rw [if_pos ⟨hj, hc, ht⟩]
    obtain ⟨hjoins, hend⟩ := s1.joinFail_next ((s1.others.find? fun p => !s1.joinHeard p).getD s1.pkg) (cause := 9) (by decide)
    exact ⟨.of_mem (hjoins.mem.trans hmem1), hend⟩
end Sys2Proof.Machine
end
section
/-! Entry to JOIN, join messages, beacons, fibre training and entry to RUN (R29, R290, R299, R411 to R413). -/
namespace Sys2Proof.Machine

/-! The phase of a start. -/

theorem State.rd_phaseTo_ne (s : State) (p : Nat) {a : Nat} (h : a ≠ Reg.onxImgStatus) : (s.phaseTo p).rd a = s.rd a := State.rd_wr_ne _ _ h
theorem State.phaseTo_booted (s : State) (p : Nat) : (s.phaseTo p).booted = s.booted :=
  congrArg s.bank (s.flag_putF_apart Reg.onxImgStatus _ (by decide) (.inl (by decide)))
theorem State.booted_of {s u : State} (hstore : u.store = s.store) (hrd : u.rd Reg.onxImgStatus = s.rd Reg.onxImgStatus) : u.booted = s.booted := by
  unfold State.booted State.bank
  rw [State.flag_of_rd _ hrd, hstore]
theorem State.enter_booted (s : State) {d : DevState} (hd : d ≠ .hold) : (s.enter d).booted = s.booted :=
  State.booted_of (by rw [(s.enter_enters d).1]) (State.enter_rd s hd (by decide))

/-! JOIN_ENTRY. -/

/-- JOIN as it begins, with its proposal (R412). -/
def State.joinBegun (s : State) : State :=
  let u := (s.enter .join).phaseTo 10
  let v := { u with start := { u.start with beganJoin := u.now, proposal := ceilDiv u.tcNat 1024 + hJoinLead u.booted.header, proposals := [], joinMsgs := 0 } }
  v.putF (Reg.fabPeerInc v.pkg) F.fabPeerIncIncarnation v.inc
theorem State.joinBegun_next (s : State) : s.joinBegun.mem = s.mem ∧ s.joinBegun.dev = .join ∧ s.joinBegun.start.beganJoin = s.now ∧
    s.joinBegun.start.proposal = ceilDiv s.tcNat 1024 + hJoinLead s.booted.header ∧ s.joinBegun.fld (Reg.fabPeerInc s.pkg) F.fabPeerIncIncarnation = s.inc := by
  obtain ⟨hkept, -⟩ := s.enter_enters .join
  have hdev := s.enter_dev .join
  have hbooted := s.enter_booted (d := .join) (by decide)
  have hinc : (s.enter .join).inc = s.inc := State.fld_of_rd _ (State.enter_rd s (by decide) (by decide))
  unfold State.joinBegun
  generalize s.enter .join = u at hkept hdev hbooted hinc
  have hinc' : (u.phaseTo 10).inc = s.inc := (State.fld_of_rd _ (u.rd_phaseTo_ne 10 (by decide))).trans hinc
  have hbooted' := (u.phaseTo_booted 10).trans hbooted
  have hpkg : u.pkg = s.pkg := by rw [hkept]; rfl
  have htc : u.tcNat = s.tcNat := by rw [hkept]; rfl
  have hnow : u.now = s.now := by rw [hkept]
  refine ⟨?_, hdev, hnow, ?_, ?_⟩
  · show u.mem = s.mem
    rw [hkept]
  · show ceilDiv u.tcNat 1024 + hJoinLead (u.phaseTo 10).booted.header = _
    rw [htc, hbooted']
  · rw [← hpkg]
    refine (State.fld_putF _ _ _ _ (by decide) (by decide)).trans ((Nat.mod_eq_of_lt ?_).trans hinc')
    exact lt_of_le_of_lt (State.fld_le_max _ Reg.fabIncarnation F.fabIncarnationIncarnation) (by decide)
theorem State.enterJoin_eq (s : State) (cyc : Nat) : s.enterJoin cyc = s.joinBegun.tryJoin cyc := rfl
/-- What the change of a seam ratio keeps. -/
def RatioKept (s u : State) : Prop := u.mem = s.mem ∧ u.dev = s.dev
theorem State.startRatio_kept (s : State) (n : Nat) : RatioKept s (s.startRatio n) := by
  unfold State.startRatio
  split
  · exact ⟨rfl, rfl⟩
  · exact ⟨State.putB_mem .., State.putB_dev ..⟩
theorem State.ratioWrite_kept (s : State) (n : Nat) (v : Word) : RatioKept s (s.ratioWrite n v) := by
  unfold State.ratioWrite
  dsimp only
  split
  · have hlog := s.log_logs 0x0301 (srcUnit 12 0) [Reg.flrClk n, 8, devNum s.dev]
    exact ⟨hlog.mem, hlog.dev⟩
  · generalize hw : ({ s with ratios := assocSet s.ratios n (F.flrClkRatioW.get v + 4 * F.flrClkRatioE.get v + 1) } : State) = w
    have hmem : w.mem = s.mem := by rw [← hw]
    have hdev : w.dev = s.dev := by rw [← hw]
    have hput : RatioKept s (w.putB (Reg.flrClk n) F.flrClkRatioPending true) := ⟨(State.putB_mem ..).trans hmem, (State.putB_dev ..).trans hdev⟩
    generalize w.putB (Reg.flrClk n) F.flrClkRatioPending true = x at hput
    split
    · exact hput
    · obtain ⟨hmem', hdev'⟩ := x.startRatio_kept n
      exact ⟨hmem'.trans hput.1, hdev'.trans hput.2⟩
theorem State.setOneToOne_kept (s : State) (n : Nat) : RatioKept s (s.setOneToOne n) := by
  unfold State.setOneToOne
  split
  · exact ⟨rfl, rfl⟩
  · exact s.ratioWrite_kept n 0
theorem State.setOneToOnes_kept : ∀ (l : List Nat) (s : State), RatioKept s (l.foldl State.setOneToOne s)
  | [], _ => ⟨rfl, rfl⟩
  | n :: l, s => by
    obtain ⟨hmem, hdev⟩ := s.setOneToOne_kept n
    obtain ⟨hmem', hdev'⟩ := State.setOneToOnes_kept l (s.setOneToOne n)
    exact ⟨hmem'.trans hmem, hdev'.trans hdev⟩
theorem joinEntry_next (t : At) (s s1 : State) (h1 : s1 = s.at t) : ∃ u, exec (.joinEntry t) s = .next u ∧ (s.dev ≠ .load → u = s1) ∧
      (s.dev = .load → (∀ n, n < 4 → s.oneToOne n = true) → SameBytes s u ∧ (u.dev = .join ∨ u.dev = .halted) ∧ u.start.beganJoin = s1.now ∧
        u.start.proposal = ceilDiv s1.tcNat 1024 + hJoinLead s.booted.header ∧ u.fld (Reg.fabPeerInc s.pkg) F.fabPeerIncIncarnation = s.inc) ∧
      (∀ n, s.dev = .load → n < 4 → s.oneToOne n = false → u.dev = .load ∧ SameBytes s u) := by
  have hexec : exec (.joinEntry t) s = .next (if s.dev = .load then
      (if (List.range 4).all s.oneToOne then s1.enterJoin t.cyc else (List.range 4).foldl State.setOneToOne s1) else s1) := by
    subst h1
    rfl
  have hmem1 : s1.mem = s.mem := by rw [h1]; rfl
  refine ⟨_, hexec, fun hd => if_neg hd, fun hd hall => ?_, fun n hd hn hclocked => ?_⟩
  · rw [if_pos hd, if_pos (List.all_eq_true.2 fun n hn => hall n (List.mem_range.1 hn)), State.enterJoin_eq]
    obtain ⟨hmem, hdev, hbegan, hproposal, hinc⟩ := s1.joinBegun_next
    have hjoins := s1.joinBegun.tryJoin_joins t.cyc
    have hpkg : s1.pkg = s.pkg := by rw [h1]; rfl
    have hinc1 : s1.inc = s.inc := by rw [h1]; rfl
    have hbooted : s1.booted = s.booted := by rw [h1]; rfl
    refine ⟨.of_mem (hjoins.mem.trans (hmem.trans hmem1)), hjoins.dev.imp_left fun h => h.trans hdev, ?_, ?_, ?_⟩
    · rw [hjoins.start, hbegan]
    · rw [hjoins.start, hproposal, hbooted]
    · rw [← hpkg, ← hinc1]
      exact (State.fld_of_rd _ (hjoins.rd _ peerInc_kept)).trans hinc
  · have hnot : ¬ (List.range 4).all s.oneToOne = true := fun h =>
      Bool.false_ne_true (hclocked.symm.trans (List.all_eq_true.1 h n (List.mem_range.2 hn)))
    have hd1 : s1.dev = .load := by rw [h1]; exact hd
    rw [if_pos hd, if_neg hnot]
    obtain ⟨hmem, hdev⟩ := State.setOneToOnes_kept (List.range 4) s1
    exact ⟨hdev.trans hd1, .of_mem (hmem.trans hmem1)⟩

/-! JOIN_MESSAGE_SEND. -/

theorem mem_packetInto (rank : Packet → Nat) (p x : Packet) : ∀ l : List Packet, x ∈ packetInto rank p l ↔ x = p ∨ x ∈ l
  | [] => by simp [packetInto]
  | q :: l => by
    unfold packetInto
    split
    · simp
    · rw [List.mem_cons, mem_packetInto rank p x l, List.mem_cons, or_left_comm]
/-- What sending join messages changes: E0's management queue, into which they go, and the count of those without a route. -/
structure JoinSends (s u : State) : Prop where
  only : u = { s with regs := u.regs, txq := u.txq }
  rd : SameRegs s u [Reg.fabRtStat]
  queue : ∀ x ∈ s.queue 0 14, x ∈ u.queue 0 14

theorem JoinSends.refl (s : State) : JoinSends s s := ⟨rfl, fun _ _ => rfl, fun _ => id⟩
theorem JoinSends.trans {s u v : State} (h : JoinSends s u) (k : JoinSends u v) : JoinSends s v := by
  refine ⟨?_, fun a ha => (k.rd a ha).trans (h.rd a ha), fun x hx => k.queue x (h.queue x hx)⟩
  have honly := k.only
  rw [h.only] at honly
  exact honly
/-- The join message to a package (R412). -/
def State.joinTo (s : State) (p : Nat) : Packet :=
  { cls := 0xD, op := Config.joinOp.toNat, dstPkg := p, dstEp := 0, originPkg := s.pkg, incarnation := s.inc, data := s.joinFlit }
theorem JoinSends.joinTo {s u : State} (h : JoinSends s u) (p : Nat) : u.joinTo p = s.joinTo p := by
  have hpkg : u.pkg = s.pkg := by rw [h.only]; rfl
  have hinc : u.inc = s.inc := State.fld_of_rd _ (h.rd _ (by decide))
  have hbooted : u.booted = s.booted := State.booted_of (by rw [h.only]) (h.rd _ (by decide))
  have hstart : u.start = s.start := by rw [h.only]
  unfold State.joinTo State.joinFlit
  rw [hpkg, hinc, hbooted, hstart]
theorem JoinSends.routed {s u : State} (h : JoinSends s u) {p : Packet} (hp : p.dstPkg < 64) : u.routed 0 p = s.routed 0 p := by
  have hpkg : u.pkg = s.pkg := by rw [h.only]; rfl
  have hctrl : u.rd Reg.fabRtCtrl = s.rd Reg.fabRtCtrl := h.rd _ (by decide)
  have hentry : u.routeEntry 0 p.dstPkg = s.routeEntry 0 p.dstPkg := by
    unfold State.routeEntry
    rw [State.fld_of_rd _ hctrl, h.rd]
    intro he
    rw [List.mem_singleton] at he
    unfold Reg.fabRt Reg.fabRtStat at he
    omega
  unfold State.routed
  rw [hentry, hpkg, State.fld_of_rd F.fabRtCtrlCurEpoch hctrl]
theorem State.sendAt_joins (s : State) (p : Packet) : JoinSends s (s.sendAt 0 14 p) ∧ { p with hopSrc := 0, reached := s.now } ∈ (s.sendAt 0 14 p).queue 0 14 := by
  have hqueue : (s.sendAt 0 14 p).queue 0 14 = packetInto (packetRank 0 14) { p with hopSrc := 0, reached := s.now } (s.queue 0 14) := Sparse.get_set_same _ _ _ _
  exact ⟨⟨rfl, fun _ _ => rfl, fun x hx => by rw [hqueue, mem_packetInto]; exact .inr hx⟩, by rw [hqueue, mem_packetInto]; exact .inl rfl⟩
theorem State.sendJoin_joins (s : State) (p : Nat) : JoinSends s (s.sendJoin p) ∧
    ∀ m, s.routed 0 (s.joinTo p) = some m → { m with hopSrc := 0, reached := s.now } ∈ (s.sendJoin p).queue 0 14 := by
  unfold State.sendJoin
  dsimp only
  split
  · next q hq =>
    obtain ⟨hjoins, hmem⟩ := s.sendAt_joins q
    refine ⟨hjoins, fun m hm => ?_⟩
    obtain rfl : q = m := Option.some.inj (hq.symm.trans hm)
    exact hmem
  · next hnone =>
    exact ⟨⟨rfl, fun a ha => State.rd_wr_ne _ _ (by simpa using ha), fun _ => id⟩, fun m hm => by cases hnone.symm.trans hm⟩
theorem State.sendJoins_joins : ∀ (l : List Nat) (s : State), (∀ p ∈ l, p < 64) → JoinSends s (l.foldl State.sendJoin s) ∧
    ∀ p ∈ l, ∀ m, s.routed 0 (s.joinTo p) = some m → { m with hopSrc := 0, reached := s.now } ∈ (l.foldl State.sendJoin s).queue 0 14
  | [], s, _ => ⟨.refl s, fun _ h => absurd h (by simp)⟩
  | p :: l, s, hl => by
    obtain ⟨hfirst, hsent⟩ := s.sendJoin_joins p
    obtain ⟨hrest, hothers⟩ := State.sendJoins_joins l (s.sendJoin p) fun q hq => hl q (List.mem_cons_of_mem _ hq)
    have hnow : (s.sendJoin p).now = s.now := by rw [hfirst.only]
    refine ⟨hfirst.trans hrest, fun q hq m hm => ?_⟩
    rw [List.foldl_cons]
    rcases List.mem_cons.1 hq with rfl | hq
    · exact hrest.queue _ (hsent m hm)
    · rw [← hnow]
      refine hothers q hq m ?_
      rw [hfirst.joinTo, hfirst.routed (hl q (List.mem_cons_of_mem _ hq)), hm]
theorem joinMessageSend_next (t : At) (s s1 : State) (h1 : s1 = s.at t) : ∃ u, exec (.joinMessageSend t) s = .next u ∧
      (s.dev ≠ .join ∨ s1.now < s.start.beganJoin + 65536 * s.start.joinMsgs → u = s1) ∧
      (s.dev = .join → s.start.beganJoin + 65536 * s.start.joinMsgs ≤ s1.now → SameBytes s u ∧ u.start.joinMsgs = s.start.joinMsgs + 1 ∧
        ∀ p ∈ s.others, ∀ m, s.routed 0 { cls := 0xD, op := Config.joinOp.toNat, dstPkg := p, dstEp := 0, originPkg := s.start.pkg, incarnation := s.inc, data := s.joinFlit } = some m →
          { m with hopSrc := 0, reached := s1.now } ∈ u.queue 0 14) := by
  obtain ⟨v, hv⟩ : ∃ v, s1.others.foldl State.sendJoin s1 = v := ⟨_, rfl⟩
  have hexec : exec (.joinMessageSend t) s = .next (if s.dev = .join ∧ s.start.beganJoin + 65536 * s.start.joinMsgs ≤ s1.now then
      { v with start := { v.start with joinMsgs := v.start.joinMsgs + 1 } } else s1) := by
    subst hv h1
    rfl
  obtain ⟨hjoins, hsent⟩ := State.sendJoins_joins s1.others s1 fun _ => others_lt
  rw [hv] at hjoins hsent
  have hmem : v.mem = s.mem := by rw [hjoins.only, h1]; rfl
  have hstart : v.start = s.start := by rw [hjoins.only, h1]; rfl
  refine ⟨_, hexec, fun hno => if_neg fun ⟨hj, ht⟩ => hno.elim (fun h => h hj) fun h => absurd ht (Nat.not_le.2 h), fun hj ht => ?_⟩
  rw [if_pos ⟨hj, ht⟩, hstart]
  refine ⟨.of_mem hmem, rfl, fun p hp m hm => ?_⟩
  subst h1
  exact hsent p hp m hm
end Sys2Proof.Machine
end
section
/-! Beacons, fibre training and entry to RUN (R29, R102, R240, R299, R411, R413). -/
namespace Sys2Proof.Machine

/-! TRAINING_BEACON. -/

/-- The status register of a fibre. -/
def fibReg (x : Nat) : Nat := Reg.fibStatus (x / 8) (x % 8)
theorem fibReg_inj {x y : Nat} (hx : x < 32) (hy : y < 32) (h : fibReg x = fibReg y) : x = y := by
  unfold fibReg Reg.fibStatus at h
  omega
theorem State.fibreState_of_rd {s u : State} {x : Nat} (h : u.rd (fibReg x) = s.rd (fibReg x)) : u.fibreState x = s.fibreState x := State.fld_of_rd _ h
/-- The frame of a fibre in training. -/
def trainingEmit (pkg x : Nat) : Emit := .training (.fibreOut x) (identFlit 2 (16 + x / 8) fun k => 2 * k + 1) pkg x
theorem State.emit_rd (w : State) (e : Emit) (a : Nat) : (w.emit e).rd a = w.rd a := rfl
theorem State.emit_putF_only (s : State) (a : Nat) (f : Fld) (v : Nat) (e : Emit) :
    (s.putF a f v).emit e = { s with regs := ((s.putF a f v).emit e).regs, out := e :: s.out } := rfl
theorem State.trainFrame_eq (s : State) (x : Nat) : s.trainFrame x = (s.putF (fibReg x) F.fibStatusState 1).emit (trainingEmit s.pkg x) := by
  rw [State.trainFrame, fibReg, trainingEmit]
theorem State.trainFrame_rd (s : State) (x : Nat) {a : Nat} (h : a ≠ fibReg x) : (s.trainFrame x).rd a = s.rd a := by
  rw [s.trainFrame_eq, State.emit_rd, State.rd_putF_ne _ _ _ h]
theorem State.trainFrame_state (s : State) (x : Nat) : (s.trainFrame x).fibreState x = 1 := by
  rw [State.fibreState, ← fibReg, s.trainFrame_eq, State.fld_of_rd _ (State.emit_rd _ _ _), State.fld_putF _ _ _ _ (by decide) (by decide)]
  decide
theorem State.trainFrame_only (s : State) (x : Nat) : s.trainFrame x = { s with regs := (s.trainFrame x).regs, out := trainingEmit s.pkg x :: s.out } := by
  rw [s.trainFrame_eq]
  exact s.emit_putF_only _ _ _ _
theorem State.pkg_of_start {s u : State} (h : u.start = s.start) : u.pkg = s.pkg := by rw [State.pkg, State.pkg, h]
theorem State.emit_putF_start (s : State) (a : Nat) (f : Fld) (v : Nat) (e : Emit) : ((s.putF a f v).emit e).start = s.start := rfl
theorem State.trainFrame_pkg (s : State) (x : Nat) : (s.trainFrame x).pkg = s.pkg := by
  rw [State.trainFrame]
  exact State.pkg_of_start (s.emit_putF_start _ _ _ _)
theorem State.trainFrames_next : ∀ (l : List Nat) (s : State), (∀ x ∈ l, x < 32) →
    l.foldl State.trainFrame s = { s with regs := (l.foldl State.trainFrame s).regs, out := (l.map (trainingEmit s.pkg)).reverse ++ s.out } ∧
      (∀ a, (∀ x ∈ l, a ≠ fibReg x) → (l.foldl State.trainFrame s).rd a = s.rd a) ∧
      ∀ x ∈ l, (l.foldl State.trainFrame s).fibreState x = 1
  | [], s, _ => ⟨rfl, fun _ _ => rfl, fun _ h => absurd h (by simp)⟩
  | x :: l, s, hl => by
    obtain ⟨honly, hrd, hstate⟩ := State.trainFrames_next l (s.trainFrame x) fun y hy => hl y (List.mem_cons_of_mem _ hy)
    rw [List.foldl_cons]
    refine ⟨?_, fun a ha => ?_, fun y hy => ?_⟩
    · have hpkg := s.trainFrame_pkg x
      have hone := s.trainFrame_only x
      generalize s.trainFrame x = v at honly hpkg hone
      rw [hpkg] at honly
      generalize l.foldl State.trainFrame v = u at honly
      rw [List.map_cons, List.reverse_cons, List.append_assoc]
      rw [hone] at honly
      exact honly
    · rw [hrd a fun y hy => ha y (List.mem_cons_of_mem _ hy)]
      exact s.trainFrame_rd x (ha x (by simp))
    · by_cases hin : y ∈ l
      · exact hstate y hin
      · obtain rfl : y = x := (List.mem_cons.1 hy).resolve_right hin
        have hapart : ∀ z ∈ l, fibReg y ≠ fibReg z := fun z hz h =>
          hin (fibReg_inj (hl y (by simp)) (hl z (List.mem_cons_of_mem _ hz)) h ▸ hz)
        exact (State.fibreState_of_rd (hrd _ hapart)).trans (s.trainFrame_state y)
theorem trainingBeacon_next (t : At) (s s1 : State) (h1 : s1 = s.at t) : ∃ u, exec (.trainingBeacon t) s = .next u ∧
      (s.start.laserDone = false ∨ s1.tcNat / 1024 % 32 ≠ s.start.pkg → u = s1) ∧
      (s.start.laserDone = true → s1.tcNat / 1024 % 32 = s.start.pkg →
        u = { s1 with regs := u.regs, out := u.out } ∧ SameRegs s u ((List.range 32).map fun x => Reg.fibStatus (x / 8) (x % 8)) ∧
        u.out = ((s1.untrained.filter s1.fibreStarts).map fun x =>
          Emit.training (.fibreOut x) (identFlit 2 (16 + x / 8) fun k => 2 * k + 1) s.start.pkg x).reverse ++ s.out ∧
        ∀ x, x < 32 → u.fibreState x = if x ∈ s1.untrained ∧ s1.fibreStarts x = true then 1 else s.fibreState x) := by
  have hexec : exec (.trainingBeacon t) s = .next (if s.start.laserDone && decide (s1.tcNat / 1024 % 32 = s.start.pkg) then
      (s1.untrained.filter s1.fibreStarts).foldl State.trainFrame s1 else s1) := by
    subst h1
    rfl
  have hlt : ∀ x ∈ s1.untrained.filter s1.fibreStarts, x < 32 := fun x hx => List.mem_range.1 (List.mem_filter.1 (List.mem_filter.1 hx).1).1
  obtain ⟨honly, hrd, hstate⟩ := State.trainFrames_next (s1.untrained.filter s1.fibreStarts) s1 hlt
  have hrd1 : ∀ a, s1.rd a = s.rd a := fun a => by rw [h1]; rfl
  have hout : s1.out = s.out := by rw [h1]; rfl
  have hpkg : s1.pkg = s.start.pkg := by rw [h1]; rfl
  refine ⟨_, hexec, fun hno => if_neg ?_, fun hlaser hcarat => ?_⟩
  · rw [Bool.and_eq_true, decide_eq_true_eq]
    rintro ⟨hlaser, hcarat⟩
    rcases hno with h | h
    · exact Bool.false_ne_true (h.symm.trans hlaser)
    · exact h hcarat
  · rw [if_pos (by rw [hlaser, decide_eq_true hcarat]; rfl)]
    refine ⟨by rw [honly], fun a ha => ?_, ?_, fun x hx => ?_⟩
    · refine (hrd a fun x hx he => ha ?_).trans (hrd1 a)
      exact List.mem_map.2 ⟨x, List.mem_range.2 (hlt x hx), he.symm⟩
    · rw [honly, ← hpkg, ← hout]
      rfl
    · split
      · next h => exact hstate x (List.mem_filter.2 h)
      · next h =>
        refine State.fibreState_of_rd ((hrd _ fun y hy he => h ?_).trans (hrd1 _))
        rw [fibReg_inj hx (hlt y hy) he]
        exact List.mem_filter.1 hy

/-! FIBRE_TRAINING. -/

/-- What fencing a fibre keeps: memory, and every register but those of a start's end, of a hold's request and of the fibre itself. -/
structure FibreKept (x : Nat) (s u : State) : Prop where
  mem : u.mem = s.mem
  rd : ∀ a, 0x5000000 ≤ a → a ≠ fibReg x → u.rd a = s.rd a

theorem State.startFail_mem (s : State) (cause : Nat) : (s.startFail cause).mem = s.mem := by rw [(s.startFail_boots cause).1]
theorem State.startFail_high (s : State) (cause : Nat) {a : Nat} (h : 0x5000000 ≤ a) : (s.startFail cause).rd a = s.rd a := by
  have hlow : ∀ b ∈ [Reg.onxLogStatus, Reg.onxState, Reg.onxHoldCause, Reg.onxImgStatus, Reg.flrClk 0, Reg.flrClk 1, Reg.flrClk 2, Reg.flrClk 3], b < 0x5000000 := by
    decide
  have hne : ∀ b ∈ [Reg.onxLogStatus, Reg.onxState, Reg.onxHoldCause, Reg.onxImgStatus, Reg.flrClk 0, Reg.flrClk 1, Reg.flrClk 2, Reg.flrClk 3], a ≠ b :=
    fun b hb e => absurd (hlow b hb) (Nat.not_lt.2 (e ▸ h))
  have hclk : ∀ n < 4, Reg.flrClk n ∈ [Reg.onxLogStatus, Reg.onxState, Reg.onxHoldCause, Reg.onxImgStatus, Reg.flrClk 0, Reg.flrClk 1, Reg.flrClk 2, Reg.flrClk 3] := by
    decide
  rw [State.startFail_rd s cause (hne _ (by decide)) (hne _ (by decide)) fun n hn => hne _ (hclk n hn), State.rd_wr_ne _ _ (hne _ (by decide)),
    State.rd_putF_ne _ _ _ (hne _ (by decide))]
theorem State.outside_next (s : State) (kind value cause : Nat) (permitted : Bool) :
    (s.outside kind value cause permitted).mem = s.mem ∧ ∀ a, 0x5000000 ≤ a → (s.outside kind value cause permitted).rd a = s.rd a := by
  unfold State.outside
  split
  · dsimp only
    split
    · exact ⟨rfl, fun _ _ => rfl⟩
    · exact ⟨State.startFail_mem _ _, fun a ha => State.startFail_high _ _ ha⟩
  · exact ⟨rfl, fun _ _ => rfl⟩
theorem State.holdCause_next (s : State) (b : Nat) : (s.holdCause b).mem = s.mem ∧ ∀ a, 0x5000000 ≤ a → (s.holdCause b).rd a = s.rd a := by
  unfold State.holdCause
  split
  · refine ⟨State.putF_mem .., fun a ha => State.rd_putF_ne _ _ _ fun e => absurd ha ?_⟩
    rw [e]
    decide
  · exact ⟨rfl, fun _ _ => rfl⟩
theorem State.fenceFibre_next (s : State) {x code : Nat} (hc : code < 16) : FibreKept x s (s.fenceFibre x code) ∧ (s.fenceFibre x code).fibreState x = code ∧
    ∀ f : Fld, f.hi < 64 → F.fibStatusState.hi < f.lo → (s.fenceFibre x code).fld (fibReg x) f = s.fld (fibReg x) f := by
  have hhigh : 0x5000000 ≤ fibReg x := by unfold fibReg Reg.fibStatus; omega
  have hlog := (s.putF (fibReg x) F.fibStatusState code).log_logs 0x0501 (srcUnit (32 + x / 8) x) [x, 0, code]
  have hkept : ∀ a, a ≠ fibReg x → (s.putF (fibReg x) F.fibStatusState code).rd a = s.rd a := fun a ha => State.rd_putF_ne _ _ _ ha
  have hstate : (s.putF (fibReg x) F.fibStatusState code).fld (fibReg x) F.fibStatusState = code :=
    (s.fld_putF _ _ _ (by decide) (by decide)).trans (Nat.mod_eq_of_lt hc)
  have hfields : ∀ f : Fld, f.hi < 64 → F.fibStatusState.hi < f.lo → (s.putF (fibReg x) F.fibStatusState code).fld (fibReg x) f = s.fld (fibReg x) f :=
    fun f h64 hf => s.fld_putF_apart _ _ h64 (.inr hf)
  have hmem : (s.putF (fibReg x) F.fibStatusState code).mem = s.mem := State.putF_mem ..
  rw [State.fenceFibre, ← fibReg]
  generalize s.putF (fibReg x) F.fibStatusState code = w at hlog hkept hstate hfields hmem
  generalize w.log 0x0501 (srcUnit (32 + x / 8) x) [x, 0, code] = v at hlog
  generalize v.flag Reg.onxLightPolicy F.onxLightPolicyFibrePolicy = ok
  obtain ⟨houtMem, houtRd⟩ := v.outside_next 5 x 8 ok
  generalize v.outside 5 x 8 ok = y at houtMem houtRd
  obtain ⟨hholdMem, hholdRd⟩ := y.holdCause_next 6
  obtain ⟨z, hz, hzmem, hzrd⟩ : ∃ z, (if ok then y else y.holdCause 6) = z ∧ z.mem = y.mem ∧ ∀ a, 0x5000000 ≤ a → z.rd a = y.rd a := by
    refine ⟨_, rfl, ?_⟩
    split
    · exact ⟨rfl, fun _ _ => rfl⟩
    · exact ⟨hholdMem, hholdRd⟩
  have hlogRd : ∀ a, 0x5000000 ≤ a → v.rd a = w.rd a := fun a ha => hlog.rd fun e => absurd ha (by rw [e]; decide)
  have hrd : ∀ a, 0x5000000 ≤ a → z.rd a = w.rd a := fun a ha => (hzrd a ha).trans ((houtRd a ha).trans (hlogRd a ha))
  rw [hz]
  exact ⟨⟨hzmem.trans (houtMem.trans (hlog.mem.trans hmem)), fun a ha hne => (hrd a ha).trans (hkept a hne)⟩,
    (State.fld_of_rd _ (hrd _ hhigh)).trans hstate, fun f h64 hf => (State.fld_of_rd f (hrd _ hhigh)).trans (hfields f h64 hf)⟩
/-- What a fibre's training notes of the far end and the delay (R29, R244). -/
def State.noteFar (s : State) (x delay farPkg farFibre : Nat) : State :=
  ((s.putF (fibReg x) F.fibStatusMeasuredDelay (min 0xFFFF delay)).putF (fibReg x) F.fibStatusFarPackageSeen farPkg).putF (fibReg x) F.fibStatusFarFibreSeen farFibre
theorem State.noteFar_next (s : State) (x delay : Nat) {farPkg farFibre : Nat} (hp : farPkg < 64) (hf : farFibre < 32) :
    FibreKept x s (s.noteFar x delay farPkg farFibre) ∧ (s.noteFar x delay farPkg farFibre).fld (fibReg x) F.fibStatusMeasuredDelay = min 0xFFFF delay ∧
      (s.noteFar x delay farPkg farFibre).fld (fibReg x) F.fibStatusFarPackageSeen = farPkg ∧ (s.noteFar x delay farPkg farFibre).fld (fibReg x) F.fibStatusFarFibreSeen = farFibre := by
  unfold State.noteFar
  refine ⟨⟨by rw [State.putF_mem, State.putF_mem, State.putF_mem], fun a _ ha => ?_⟩, ?_, ?_, ?_⟩
  · rw [State.rd_putF_ne _ _ _ ha, State.rd_putF_ne _ _ _ ha, State.rd_putF_ne _ _ _ ha]
  · rw [State.fld_putF_apart _ _ _ (by decide) (.inr (by decide)), State.fld_putF_apart _ _ _ (by decide) (.inr (by decide)),
      State.fld_putF _ _ _ _ (by decide) (by decide)]
    exact Nat.mod_eq_of_lt (lt_of_le_of_lt (Nat.min_le_left _ _) (by decide))
  · rw [State.fld_putF_apart _ _ _ (by decide) (.inl (by decide)), State.fld_putF _ _ _ _ (by decide) (by decide)]
    exact Nat.mod_eq_of_lt hp
  · rw [State.fld_putF _ _ _ _ (by decide) (by decide)]
    exact Nat.mod_eq_of_lt hf
theorem State.farOk_of_rd {s u : State} {x : Nat} (h : u.rd (Reg.fibCtrl (x / 8) (x % 8)) = s.rd (Reg.fibCtrl (x / 8) (x % 8))) (farPkg farFibre : Nat) :
    u.farOk x farPkg farFibre = s.farOk x farPkg farFibre := by
  unfold State.farOk
  dsimp only
  rw [State.fld_of_rd _ h, State.fld_of_rd _ h]
theorem fibCtrl_apart (x : Nat) : 0x5000000 ≤ Reg.fibCtrl (x / 8) (x % 8) ∧ Reg.fibCtrl (x / 8) (x % 8) ≠ fibReg x := by
  unfold Reg.fibCtrl fibReg Reg.fibStatus
  omega
theorem State.trainFibre_eq (s : State) (x delay farPkg farFibre : Nat) : s.trainFibre x delay farPkg farFibre =
    if !(s.noteFar x delay farPkg farFibre).farOk x farPkg farFibre then (s.noteFar x delay farPkg farFibre).fenceFibre x 3
    else if (s.noteFar x delay farPkg farFibre).fld (Reg.fibCtrl (x / 8) (x % 8)) F.fibCtrlDelayTarget < delay then (s.noteFar x delay farPkg farFibre).fenceFibre x 5
    else (s.noteFar x delay farPkg farFibre).putF (fibReg x) F.fibStatusState 2 := by
  rw [State.trainFibre, State.noteFar, fibReg]
/-- What a fibre's training ends with: its status says what was noted, and its state the outcome. -/
structure Trained (s u : State) (x delay farPkg farFibre : Nat) : Prop where
  mem : u.mem = s.mem
  measured : u.fld (fibReg x) F.fibStatusMeasuredDelay = min 0xFFFF delay
  package : u.fld (fibReg x) F.fibStatusFarPackageSeen = farPkg
  fibre : u.fld (fibReg x) F.fibStatusFarFibreSeen = farFibre
  state : u.fibreState x = if s.farOk x farPkg farFibre = false then 3 else if s.fld (Reg.fibCtrl (x / 8) (x % 8)) F.fibCtrlDelayTarget < delay then 5 else 2
theorem State.trainFibre_next (s : State) (x delay : Nat) {farPkg farFibre : Nat} (hp : farPkg < 64) (hf : farFibre < 32) :
    Trained s (s.trainFibre x delay farPkg farFibre) x delay farPkg farFibre := by
  obtain ⟨hkept, hdelay, hpkg, hfibre⟩ := s.noteFar_next x delay hp hf
  obtain ⟨hhigh, hne⟩ := fibCtrl_apart x
  rw [s.trainFibre_eq x delay farPkg farFibre]
  generalize s.noteFar x delay farPkg farFibre = w at hkept hdelay hpkg hfibre
  have hctrl := hkept.rd _ hhigh hne
  rw [State.farOk_of_rd hctrl, State.fld_of_rd F.fibCtrlDelayTarget hctrl]
  have hfence : ∀ code < 16, (w.fenceFibre x code).mem = s.mem ∧ (w.fenceFibre x code).fld (fibReg x) F.fibStatusMeasuredDelay = min 0xFFFF delay ∧
      (w.fenceFibre x code).fld (fibReg x) F.fibStatusFarPackageSeen = farPkg ∧ (w.fenceFibre x code).fld (fibReg x) F.fibStatusFarFibreSeen = farFibre ∧
      (w.fenceFibre x code).fibreState x = code := fun code hc => by
    obtain ⟨hk, hstate, hfld⟩ := w.fenceFibre_next (x := x) hc
    exact ⟨hk.mem.trans hkept.mem, (hfld _ (by decide) (by decide)).trans hdelay, (hfld _ (by decide) (by decide)).trans hpkg,
      (hfld _ (by decide) (by decide)).trans hfibre, hstate⟩
  by_cases hfar : s.farOk x farPkg farFibre = false
  · obtain ⟨hm, hd, hk, hi, hs⟩ := hfence 3 (by decide)
    rw [if_pos (by rw [hfar]; rfl)]
    exact ⟨hm, hd, hk, hi, hs.trans (if_pos hfar).symm⟩
  · rw [if_neg (by simpa using hfar)]
    by_cases hlate : s.fld (Reg.fibCtrl (x / 8) (x % 8)) F.fibCtrlDelayTarget < delay
    · obtain ⟨hm, hd, hk, hi, hs⟩ := hfence 5 (by decide)
      rw [if_pos hlate]
      exact ⟨hm, hd, hk, hi, hs.trans ((if_neg hfar).trans (if_pos hlate)).symm⟩
    · rw [if_neg hlate]
      have hfld : ∀ f : Fld, f.hi < 64 → F.fibStatusState.hi < f.lo → (w.putF (fibReg x) F.fibStatusState 2).fld (fibReg x) f = w.fld (fibReg x) f :=
        fun f h64 hlo => w.fld_putF_apart _ _ h64 (.inr hlo)
      have hstate : (w.putF (fibReg x) F.fibStatusState 2).fibreState x = 2 := (w.fld_putF (fibReg x) _ 2 (by decide) (by decide)).trans (by decide)
      exact ⟨(State.putF_mem ..).trans hkept.mem, (hfld _ (by decide) (by decide)).trans hdelay, (hfld _ (by decide) (by decide)).trans hpkg,
        (hfld _ (by decide) (by decide)).trans hfibre, hstate.trans ((if_neg hfar).trans (if_neg hlate)).symm⟩
theorem fibreTraining_next (t : At) (x delay farPkg farFibre : Nat) (s s1 : State) (hx : x < Config.fibres) (h1 : s1 = s.at t) (hp : farPkg < 64) (hf : farFibre < 32) :
    ∃ u, exec (.fibreTraining t x delay farPkg farFibre) s = .next u ∧ SameBytes s u ∧
      (s.fibreStarts x = false ∨ s.start.laserDone = false ∨ s.internalDone = false ∨ x ∉ s.untrained → u = s1) ∧
      (s.fibreStarts x = true → s.start.laserDone = true → s.internalDone = true → x ∈ s.untrained →
        u.fld (Reg.fibStatus (x / 8) (x % 8)) F.fibStatusMeasuredDelay = min 0xFFFF delay ∧
        u.fld (Reg.fibStatus (x / 8) (x % 8)) F.fibStatusFarPackageSeen = farPkg ∧ u.fld (Reg.fibStatus (x / 8) (x % 8)) F.fibStatusFarFibreSeen = farFibre ∧
        u.fibreState x = if s.farOk x farPkg farFibre = false then 3 else if s.fld (Reg.fibCtrl (x / 8) (x % 8)) F.fibCtrlDelayTarget < delay then 5 else 2) := by
  have hexec : exec (.fibreTraining t x delay farPkg farFibre) s = .next (if s.fibreStarts x && s.start.laserDone && s.internalDone && s.untrained.contains x then
      (if s1.dev = .bringup then s1.phaseTo 8 else s1).trainFibre x delay farPkg farFibre else s1) := by
    subst h1
    exact if_pos hx
  have hmem1 : s1.mem = s.mem := by rw [h1]; rfl
  have hrd1 : s1.rd (Reg.fibCtrl (x / 8) (x % 8)) = s.rd (Reg.fibCtrl (x / 8) (x % 8)) := by rw [h1]; exact State.rd_of_regs rfl _
  obtain ⟨v, hv, hmem, hctrl⟩ : ∃ v, (if s1.dev = .bringup then s1.phaseTo 8 else s1) = v ∧ v.mem = s1.mem ∧
      v.rd (Reg.fibCtrl (x / 8) (x % 8)) = s1.rd (Reg.fibCtrl (x / 8) (x % 8)) := by
    refine ⟨_, rfl, ?_⟩
    split
    · refine ⟨State.putF_mem .., s1.rd_phaseTo_ne 8 fun e => absurd (fibCtrl_apart x).1 ?_⟩
      rw [e]
      decide
    · exact ⟨rfl, rfl⟩
  rw [hv] at hexec
  have htrained := v.trainFibre_next x delay hp hf
  refine ⟨_, hexec, ?_, fun hno => if_neg ?_, fun hstarts hlaser hinternal hin => ?_⟩
  · split
    · exact .of_mem (htrained.mem.trans (hmem.trans hmem1))
    · exact .of_mem hmem1
  · rw [Bool.and_eq_true, Bool.and_eq_true, Bool.and_eq_true, List.contains_iff_mem]
    rintro ⟨⟨⟨hstarts, hlaser⟩, hinternal⟩, hin⟩
    rcases hno with h | h | h | h
    · exact Bool.false_ne_true (h.symm.trans hstarts)
    · exact Bool.false_ne_true (h.symm.trans hlaser)
    · exact Bool.false_ne_true (h.symm.trans hinternal)
    · exact h hin
  · have hgo : (s.fibreStarts x && s.start.laserDone && s.internalDone && s.untrained.contains x) = true := by
      rw [Bool.and_eq_true, Bool.and_eq_true, Bool.and_eq_true, List.contains_iff_mem]
      exact ⟨⟨⟨hstarts, hlaser⟩, hinternal⟩, hin⟩
    rw [if_pos hgo]
    have hstate := htrained.state
    rw [State.farOk_of_rd (hctrl.trans hrd1), State.fld_of_rd F.fibCtrlDelayTarget (hctrl.trans hrd1)] at hstate
    exact ⟨htrained.measured, htrained.package, htrained.fibre, hstate⟩
end Sys2Proof.Machine
end
section
/-! Entry to RUN (R102, R299, R413). -/
namespace Sys2Proof.Machine

/-- A relation that holds of no change and of two in a row holds of a fold whose every step meets it. -/
theorem foldl_relates {α : Type} {R : State → State → Prop} (hrefl : ∀ s, R s s) (htrans : ∀ {s u v}, R s u → R u v → R s v) {f : State → α → State} :
    ∀ (l : List α) (s : State), (∀ x ∈ l, ∀ v, R v (f v x)) → R s (l.foldl f s)
  | [], s, _ => hrefl s
  | x :: l, s, hf => htrans (hf x (by simp) s) (foldl_relates hrefl htrans l (f s x) fun y hy => hf y (List.mem_cons_of_mem _ hy))

/-! What E0 does at a step's release. -/

/-- What a step's release changes of the host port: shards, egress instances, what is sent and the count of skipped instances. -/
structure HostSteps (s u : State) : Prop where
  only : u = { s with regs := u.regs, shards := u.shards, egress := u.egress, out := u.out }
  rd : SameRegs s u [Reg.hstCounts]

section
variable {s u v : State}
theorem HostSteps.refl (s : State) : HostSteps s s := ⟨rfl, fun _ _ => rfl⟩
theorem HostSteps.trans (h : HostSteps s u) (k : HostSteps u v) : HostSteps s v := by
  refine ⟨?_, fun a ha => (k.rd a ha).trans (h.rd a ha)⟩
  have honly := k.only
  rw [h.only] at honly
  exact honly
end
theorem State.toServer_steps (s : State) (v type number offset stream : Nat) (payload : List Byte) : HostSteps s (s.toServer v type number offset stream payload) := by
  unfold State.toServer
  split
  · exact ⟨rfl, fun a _ => s.emit_rd _ a⟩
  · exact .refl s
theorem State.requestShard_steps (s : State) (l : List Shard) (x : Shard) : HostSteps s ({ s with shards := l }.requestShard x) :=
  HostSteps.trans (u := { s with shards := l }) ⟨rfl, fun _ _ => State.rd_of_regs rfl _⟩ (State.toServer_steps _ _ _ _ _ _ _)
theorem State.newShard_steps (s : State) (rel stream shard : Nat) : HostSteps s (s.newShard rel stream shard) := by
  unfold State.newShard
  split
  · exact .refl s
  · exact s.requestShard_steps _ _
theorem State.startEgress_steps (s : State) (n e : Nat) : HostSteps s (s.startEgress n e) := by
  unfold State.startEgress
  split
  · split
    · exact ⟨rfl, fun _ ha => State.rd_bump_ne _ _ _ fun h => ha (List.mem_singleton.2 h)⟩
    · exact ⟨rfl, fun _ _ => State.rd_of_regs rfl _⟩
  · exact .refl s
theorem State.hostStep_steps (s : State) (n rel : Nat) (first : Bool) : HostSteps s (s.hostStep n rel first) := by
  unfold State.hostStep
  refine .trans (foldl_relates .refl .trans _ _ fun i _ v => ?_) (foldl_relates .refl .trans _ _ fun e _ v => v.startEgress_steps n e)
  split
  · dsimp only
    split
    · exact foldl_relates .refl .trans _ _ fun j _ w => w.newShard_steps rel i (n + j)
    · exact v.newShard_steps rel i _
  · exact .refl v

/-! The accumulators (R102). -/

theorem get_filter {α : Type} (d : Nat → α) (p : Nat → Bool) (k : Nat) : ∀ l : List (Nat × α),
    Sparse.get d (l.filter fun x => p x.1) k = if p k = true then Sparse.get d l k else d k
  | [] => by simp [Sparse.get]
  | (j, v) :: l => by
    have ih := get_filter d p k l
    by_cases hj : j = k
    · subst hj
      by_cases hp : p j = true
      · simp [Sparse.get, hp]
      · simp [hp, ih]
    · by_cases hp : p j = true
      · simp [Sparse.get, hp, hj, ih]
      · simp [Sparse.get, hp, hj, ih]
theorem State.zeroAccs_rd (s : State) (a : Nat) : s.zeroAccs.rd a = if isAccReg a = true then resetWord a else s.rd a := by
  have h := get_filter resetWord (fun x => !isAccReg x) a s.regs
  unfold State.rd State.zeroAccs
  rw [h]
  by_cases ha : isAccReg a = true <;> simp [ha]
/-- An index list spells an offset only where the offset lies under the strides: it is below the first stride's range and ends at the last stride. -/
theorem spell_nil {off : Nat} (h : (spell [] off).isSome = true) : off = 0 := by
  by_contra hne
  simp [spell, hne] at h
theorem spell_cons {stride count : Nat} {dims : List (Nat × Nat)} {off : Nat} (h : (spell ((stride, count) :: dims) off).isSome = true) :
    off / stride < count ∧ (spell dims (off % stride)).isSome = true := by
  unfold spell at h
  split at h
  · next hlt => exact ⟨hlt, by simpa using h⟩
  · cases h
theorem RegRow.find_plain {base a : Nat} {dims : List (Nat × Nat)} {fields : List FieldRow} (h : ((RegRow.mk base dims false fields).find a).isSome = true) :
    base ≤ a ∧ (spell dims (a - base)).isSome = true := by
  unfold RegRow.find at h
  split at h
  · cases h
  · next hle => exact ⟨Nat.not_lt.1 hle, h⟩
/-- The registers with a reset value lie below every core's accumulator window, above it, or at its end of the core's page. -/
theorem find_resetRow {a : Nat} {e : RegRow × Word} (he : e ∈ resetRows) (h : (e.1.find a).isSome = true) :
    a < 0x100000000 ∨ 0x180000000 ≤ a ∨ a % 0x10000 < 0x8000 := by
  unfold resetRows at he
  simp only [List.mem_cons, List.not_mem_nil, or_false] at he
  have hcore : ∀ {base : Nat}, (base = 0x100000880 ∨ base = 0x100001100) → base ≤ a ∧ (spell [(0x10000, 3072)] (a - base)).isSome = true → a % 0x10000 < 0x8000 := by
    rintro base hbase ⟨hle, hs⟩
    have hzero := spell_nil (spell_cons hs).2
    omega
  rcases he with rfl | rfl | rfl | rfl | rfl | rfl | rfl | rfl | rfl | rfl | rfl | rfl | rfl
  · exact .inr (.inr (hcore (.inl rfl) (RegRow.find_plain h)))
  · exact .inr (.inr (hcore (.inr rfl) (RegRow.find_plain h)))
  · exact .inr (.inl (le_trans (by decide) (RegRow.find_plain h).1))
  all_goals
    obtain ⟨hle, hs⟩ := RegRow.find_plain h
    left
  · have := spell_nil hs; omega
  · have := spell_nil hs; omega
  · have := spell_nil hs; omega
  · have := spell_nil hs; omega
  · have := spell_nil hs; omega
  · have := (spell_cons hs).1; omega
  · have := (spell_cons hs).1; omega
  · have := spell_nil hs; omega
  · have := spell_nil hs; omega
  · have := spell_nil hs; omega
theorem resetWord_acc {a : Nat} (h : isAccReg a = true) : resetWord a = 0 := by
  unfold isAccReg at h
  obtain ⟨hlo, hhi, hwindow, hend⟩ := of_decide_eq_true h
  unfold Reg.coreAcc at hlo hwindow hend
  have hnone : resetRows.find? (fun e => (e.1.find a).isSome) = none := by
    rw [List.find?_eq_none]
    intro e he h
    have := find_resetRow he h
    omega
  unfold resetWord
  rw [if_neg (by omega), hnone]
theorem coreCtrl_window {c : Nat} (hc : c < 3072) : isAccReg (Reg.coreCtrl c) = false ∧ 0x100000000 ≤ Reg.coreCtrl c := by
  refine ⟨decide_eq_false fun ⟨_, _, hwindow, _⟩ => ?_, ?_⟩
  · unfold Reg.coreCtrl Reg.coreAcc at hwindow
    omega
  · unfold Reg.coreCtrl
    omega

/-! RUN_ENTRY. -/

/-- The towers that are awaited depend on the towers, the cores and the cores' control registers. -/
theorem State.awaited_of {s u : State} (htowers : u.towers = s.towers) (hcores : u.cores = s.cores)
    (hrd : ∀ c, c < 3072 → u.rd (Reg.coreCtrl c) = s.rd (Reg.coreCtrl c)) : u.awaited = s.awaited := by
  have htower : ∀ t, u.tower t = s.tower t := fun t => by rw [State.tower, State.tower, htowers]
  have hcore : ∀ c, u.core c = s.core c := fun c => State.core_of_cores hcores c
  have hjob : ∀ t, t < 12 → u.jobCores t = s.jobCores t := fun t ht => by
    unfold State.jobCores
    refine List.filter_congr fun c hc => ?_
    obtain ⟨l, hl, rfl⟩ := List.mem_map.1 hc
    have hlt : 256 * t + l < 3072 := by
      have := List.mem_range.1 hl
      omega
    unfold State.coreFenced
    rw [State.flag_of_rd _ (hrd _ hlt), State.flag_of_rd _ (hrd _ hlt)]
  unfold State.awaited
  refine List.filter_congr fun t ht => ?_
  rw [htower, hjob t (List.mem_range.1 ht)]
  simp only [hcore]
/-- RUN is entered: the accumulators are zero, and the first step's base is the agreed carat. -/
def State.runBegun (s : State) : State := ((s.zeroAccs.enter .run).phaseTo 11).wr Reg.onxSchedBase (BitVec.ofNat 64 (1024 * s.joinCarat))
theorem State.enterRun_eq (s : State) : s.enterRun = if ({ s.runBegun with boundary := {} }.hostStep s.runBegun.stepNow (1024 * s.joinCarat) true).awaited.isEmpty then
      ({ s.runBegun with boundary := {} }.hostStep s.runBegun.stepNow (1024 * s.joinCarat) true).tryForm
    else { s.runBegun with boundary := {} }.hostStep s.runBegun.stepNow (1024 * s.joinCarat) true := rfl
theorem State.runBegun_next (s : State) : s.runBegun.mem = s.mem ∧ s.runBegun.dev = .run ∧ s.runBegun.towers = s.towers ∧ s.runBegun.cores = s.cores ∧
    s.runBegun.rd Reg.onxSchedBase = BitVec.ofNat 64 (1024 * s.joinCarat) ∧
    ∀ a, 0x100000000 ≤ a → s.runBegun.rd a = if isAccReg a = true then resetWord a else s.rd a := by
  have henter := s.zeroAccs.enter_enters .run
  have hdev := s.zeroAccs.enter_dev .run
  have hrd : ∀ a, 0x100000000 ≤ a → (s.zeroAccs.enter .run).rd a = if isAccReg a = true then resetWord a else s.rd a := fun a ha =>
    (State.enter_rd _ (by decide) fun h => absurd ha (by rw [h]; decide)).trans (s.zeroAccs_rd a)
  have hmem : (s.zeroAccs.enter .run).mem = s.mem := s.zeroAccs.enter_mem .run
  have htowers : (s.zeroAccs.enter .run).towers = s.towers := by rw [henter.1]; rfl
  have hcores : (s.zeroAccs.enter .run).cores = s.cores := by rw [henter.1]; rfl
  unfold State.runBegun
  generalize s.zeroAccs.enter .run = v at hdev hrd hmem htowers hcores
  generalize BitVec.ofNat 64 (1024 * s.joinCarat) = base
  have hphase : (v.phaseTo 11).mem = v.mem ∧ (v.phaseTo 11).dev = v.dev ∧ (v.phaseTo 11).towers = v.towers ∧ (v.phaseTo 11).cores = v.cores :=
    ⟨rfl, rfl, rfl, rfl⟩
  have hphaseRd : ∀ a, a ≠ Reg.onxImgStatus → (v.phaseTo 11).rd a = v.rd a := fun a ha => v.rd_phaseTo_ne 11 ha
  generalize v.phaseTo 11 = w at hphase hphaseRd
  obtain ⟨hpm, hpd, hpt, hpc⟩ := hphase
  refine ⟨hpm.trans hmem, hpd.trans hdev, hpt.trans htowers, hpc.trans hcores, State.rd_wr _ _ _, fun a ha => ?_⟩
  have hne : ∀ b, b < 0x100000000 → a ≠ b := fun b hb h => absurd ha (by rw [h]; exact Nat.not_le.2 hb)
  rw [State.rd_wr_ne _ _ (hne _ (by decide)), hphaseRd _ (hne _ (by decide)), hrd a ha]
theorem runEntry_next (t : At) (s s1 : State) (h1 : s1 = s.at t) :
    ∃ u, exec (.runEntry t) s = .next u ∧ (s.dev ≠ .join ∨ s.joinCarat = 0 ∨ s1.tcNat < 1024 * s.joinCarat → u = s1) ∧
      (s.dev = .join → s.joinCarat ≠ 0 → 1024 * s.joinCarat ≤ s1.tcNat → s1.awaited ≠ [] → SameBytes s u ∧ u.dev = .run ∧
        u.rd Reg.onxSchedBase = BitVec.ofNat 64 (1024 * s.joinCarat) ∧ u.boundary = {} ∧ ∀ a, isAccReg a = true → u.rd a = 0) := by
  have hexec : exec (.runEntry t) s = .next (if s.dev = .join ∧ s.joinCarat ≠ 0 ∧ 1024 * s.joinCarat ≤ s1.tcNat then s1.enterRun else s1) := by
    subst h1
    rfl
  have hmem1 : s1.mem = s.mem := by rw [h1]; rfl
  have hcarat : s1.joinCarat = s.joinCarat := by rw [h1]; rfl
  refine ⟨_, hexec, fun hno => if_neg ?_, fun hj hc ht hawaited => ?_⟩
  · rintro ⟨hj, hc, ht⟩
    rcases hno with h | h | h
    · exact h hj
    · exact hc h
    · exact absurd ht (Nat.not_le.2 h)
  · rw [if_pos ⟨hj, hc, ht⟩, s1.enterRun_eq]
    obtain ⟨hmem, hdev, htowers, hcores, hbase, hrd⟩ := s1.runBegun_next
    rw [hcarat] at hbase ⊢
    generalize s1.runBegun = v at hmem hdev htowers hcores hbase hrd
    have hsteps := ({ v with boundary := {} } : State).hostStep_steps v.stepNow (1024 * s.joinCarat) true
    have hclear : ({ v with boundary := {} } : State).mem = v.mem ∧ ({ v with boundary := {} } : State).dev = v.dev ∧
        ({ v with boundary := {} } : State).towers = v.towers ∧ ({ v with boundary := {} } : State).cores = v.cores ∧
        ({ v with boundary := {} } : State).boundary = {} ∧ ∀ a, ({ v with boundary := {} } : State).rd a = v.rd a :=
      ⟨rfl, rfl, rfl, rfl, rfl, fun _ => State.rd_of_regs rfl _⟩
    generalize ({ v with boundary := {} } : State) = w at hsteps hclear
    obtain ⟨hwmem, hwdev, hwtowers, hwcores, hwboundary, hwrd⟩ := hclear
    generalize w.hostStep v.stepNow (1024 * s.joinCarat) true = u at hsteps
    have hurd : ∀ a, a ≠ Reg.hstCounts → u.rd a = v.rd a := fun a ha => (hsteps.rd a (by rwa [List.mem_singleton])).trans (hwrd a)
    have hkept : u.awaited = s1.awaited := by
      refine State.awaited_of ?_ ?_ fun c hlt => ?_
      · rw [hsteps.only]
        exact hwtowers.trans htowers
      · rw [hsteps.only]
        exact hwcores.trans hcores
      · obtain ⟨hacc, hhigh⟩ := coreCtrl_window hlt
        rw [hurd _ fun h => absurd hhigh (by rw [h]; decide), hrd _ hhigh, if_neg (by rw [hacc]; decide)]
    rw [if_neg (by rw [hkept, List.isEmpty_iff]; exact hawaited)]
    refine ⟨.of_mem ?_, ?_, (hurd _ (by decide)).trans hbase, ?_, fun a ha => ?_⟩
    · rw [hsteps.only]
      exact hwmem.trans (hmem.trans hmem1)
    · rw [hsteps.only]
      exact hwdev.trans hdev
    · rw [hsteps.only]
      exact hwboundary
    · have hhigh : 0x100000000 ≤ a := le_trans (by decide) (of_decide_eq_true ha).1
      rw [hurd _ fun h => absurd hhigh (by rw [h]; decide), hrd a hhigh, if_pos ha, resetWord_acc ha]
end Sys2Proof.Machine
end
section
/-! What configuration writes leave as they are while nothing waits at a frozen vault or channel (R9, R194, R284, R396). -/
namespace Sys2Proof.Machine

/-- What writes of configuration leave as they are: the device's state, memory, the accesses that wait at vaults and channels, and housekeeping's round. -/
structure Steady (s u : State) : Prop where
  dev : u.dev = s.dev
  mem : u.mem = s.mem
  round : u.onyx.round = s.onyx.round
  nextCh : u.onyx.nextCh = s.onyx.nextCh
  cores : ∀ c, (u.core c).waiting = (s.core c).waiting
  arbs : ∀ a, (u.arb a).waiting = (s.arb a).waiting

section
variable {s u v : State}
theorem Steady.refl (s : State) : Steady s s := ⟨rfl, rfl, rfl, rfl, fun _ => rfl, fun _ => rfl⟩
theorem Steady.trans (h : Steady s u) (k : Steady u v) : Steady s v :=
  ⟨k.dev.trans h.dev, k.mem.trans h.mem, k.round.trans h.round, k.nextCh.trans h.nextCh, fun c => (k.cores c).trans (h.cores c), fun a => (k.arbs a).trans (h.arbs a)⟩
/-- A change that names none of these fields. -/
theorem Steady.of_fields (hdev : u.dev = s.dev) (hmem : u.mem = s.mem) (honyx : u.onyx = s.onyx) (hcores : u.cores = s.cores) (harbs : u.arbs = s.arbs) : Steady s u :=
  ⟨hdev, hmem, by rw [honyx], by rw [honyx], fun c => by rw [State.core_of_cores hcores], fun a => by rw [State.arb_of_arbs harbs]⟩
theorem Steady.wr (h : Steady s u) (a : Nat) (w : Word) : Steady s (u.wr a w) := h.trans (.of_fields rfl rfl rfl rfl rfl)
theorem Steady.putF (h : Steady s u) (a : Nat) (f : Fld) (n : Nat) : Steady s (u.putF a f n) := h.wr _ _
theorem Steady.putB (h : Steady s u) (a : Nat) (f : Fld) (b : Bool) : Steady s (u.putB a f b) := h.wr _ _
theorem Steady.bump (h : Steady s u) (a : Nat) (f : Fld) (n : Nat) : Steady s (u.bump a f n) := h.wr _ _
theorem Steady.raiseBit (h : Steady s u) (a : Nat) (f : Fld) : Steady s (u.raiseBit a f) := by
  refine (h.putB a f true).trans ?_
  unfold State.raiseBit
  generalize u.putB a f true = w
  exact .of_fields rfl rfl rfl rfl rfl
theorem Steady.emit (h : Steady s u) (e : Emit) : Steady s (u.emit e) := h.trans (.of_fields rfl rfl rfl rfl rfl)
theorem Steady.setLattice (h : Steady s u) (n : Nat) (x : Lattice) : Steady s (u.setLattice n x) := h.trans (.of_fields rfl rfl rfl rfl rfl)
theorem Steady.ratios (h : Steady s u) (l : List (Nat × Nat)) : Steady s { u with ratios := l } := h.trans (.of_fields rfl rfl rfl rfl rfl)
theorem Steady.onyx (h : Steady s u) {o : Onyx} (hround : o.round = u.onyx.round := by rfl) (hnext : o.nextCh = u.onyx.nextCh := by rfl) : Steady s { u with onyx := o } :=
  h.trans ⟨rfl, rfl, hround, hnext, fun c => congrArg Core.waiting (State.core_of_cores rfl c),
    fun a => congrArg Arb.waiting (State.arb_of_arbs rfl a)⟩
theorem Steady.setArb (h : Steady s u) {a : Arbiter} {x : Arb} (hx : x.waiting = (u.arb a).waiting := by rfl) : Steady s (u.setArb a x) := by
  refine h.trans ⟨rfl, rfl, rfl, rfl, fun c => congrArg Core.waiting (State.core_of_cores rfl c), fun b => ?_⟩
  by_cases hb : arbNum b = arbNum a
  · have hnew : (u.setArb a x).arb b = x := by
      unfold State.arb
      rw [hb]
      exact Sparse.get_set_same _ _ _ _
    have hold : u.arb b = u.arb a := by rw [State.arb, State.arb, hb]
    rw [hnew, hold, hx]
  · have hnew : (u.setArb a x).arb b = u.arb b := Sparse.get_set_ne _ _ _ hb
    rw [hnew]
end

/-! The log. -/

theorem State.writeLog_steady (s : State) (r : LogRec) : Steady s (s.writeLog r) := by
  have h := ((Steady.refl s).putF Reg.onxLogStatus F.onxLogStatusNextSequence (s.fld Reg.onxLogStatus F.onxLogStatusNextSequence + 1)).putF
    Reg.onxLogStatus F.onxLogStatusWriteIndex (s.fld Reg.onxLogStatus F.onxLogStatusWriteIndex + 1)
  unfold State.writeLog
  dsimp only
  split
  · exact (h.onyx).bump _ _ _
  · split
    · split
      · exact ((h.onyx).onyx).emit _
      · exact (h.onyx).onyx
    · exact h.onyx
theorem State.flushMerge_steady (s : State) (code source : Nat) : Steady s (s.flushMerge code source) := by
  unfold State.flushMerge
  split
  · exact .refl s
  · dsimp only
    split
    · exact .refl s
    · split
      · exact (Steady.refl s).onyx
      · exact ((Steady.refl s).onyx).trans (State.writeLog_steady _ _)
theorem State.log_steady (s : State) (code source : Nat) (args : List Nat) : Steady s (s.log code source args) := by
  have h := (s.flushMerge_steady code source).trans ((s.flushMerge code source).flushMerge_steady code source)
  unfold State.log State.logAt
  dsimp only
  split
  · split
    · exact h.trans (State.writeLog_steady _ _)
    · exact h.onyx
  · exact (h.trans (State.writeLog_steady _ _)).onyx

/-! The registers' own write rules. -/

theorem State.fieldWrite_steady (s : State) (a : Nat) (v : Word) (hold : Bool) (f : FieldRow) : Steady s (s.fieldWrite a v hold f) := by
  unfold State.fieldWrite
  split
  · exact .refl s
  · exact (Steady.refl s).putF _ _ _
  · split
    · exact (Steady.refl s).putF _ _ _
    · exact .refl s
  · exact (Steady.refl s).wr _ _
theorem State.plainWrite_steady (s : State) (a : Nat) (v : Word) (hold : Bool) : Steady s (s.plainWrite a v hold) := by
  unfold State.plainWrite
  have h : Steady s ((fieldsAt a).foldl (fun s f => s.fieldWrite a v hold f) s) := foldl_relates .refl .trans _ _ fun f _ w => w.fieldWrite_steady a v hold f
  dsimp only
  split
  · exact h.trans (State.log_steady _ _ _ _)
  · exact h
theorem State.routeRefused_steady (s : State) (a : Nat) (v : Word) : Steady s (s.routeRefused a v) := s.log_steady _ _ _
theorem State.flipWrite_steady (s : State) (v : Word) : Steady s (s.flipWrite v) := by
  unfold State.flipWrite
  dsimp only
  split
  · exact s.routeRefused_steady _ _
  · exact (((Steady.refl s).putF _ _ _).putF _ _ _).putB _ _ _
theorem State.routeWrite_steady (s : State) (r b d : Nat) (v : Word) : Steady s (s.routeWrite r b d v) := by
  unfold State.routeWrite
  split
  · exact s.routeRefused_steady _ _
  · exact (Steady.refl s).wr _ _
theorem State.thermClamp_steady (s : State) : Steady s s.thermClamp := (((Steady.refl s).putF _ _ _).putF _ _ _).putF _ _ _
theorem State.pmcAt_steady (sel cnt : Nat → Nat) (event n : Nat) : ∀ (left : Nat) (b : Bool) (s : State), Steady s (s.pmcAt sel cnt event n left b)
  | 0, _, s => .refl s
  | left + 1, _, s => by
    have h := State.pmcAt_steady sel cnt event n left false s
    unfold State.pmcAt
    dsimp only
    generalize s.pmcAt sel cnt event n left false = w at h
    split
    · exact h
    · split
      · exact h.putF _ _ _
      · split
        · split
          · exact ((h.putF _ _ _).raiseBit _ _).putF _ _ _
          · exact (((h.putF _ _ _).raiseBit _ _).putF _ _ _).raiseBit _ _
        · exact (h.putF _ _ _).raiseBit _ _
theorem State.countTag_steady (s : State) (r : Nat) (o : RemOp) : Steady s (s.countTag r o) := by
  unfold State.countTag
  dsimp only
  generalize (if o.enabled then s.now else min s.now o.doneAt) = till
  split
  · exact .refl s
  · unfold State.pmcRing
    split
    · exact State.pmcAt_steady _ _ _ _ _ _ s
    · exact .refl s
theorem State.setOp_steady (s : State) (r tag : Nat) (o : RemOp) : Steady s (s.setOp r tag o) := .of_fields rfl rfl rfl rfl rfl
theorem State.countTags_steady (s : State) : Steady s s.countTags :=
  foldl_relates .refl .trans _ _ fun x _ w => (w.countTag_steady (x.1 / 8192) x.2).trans (State.setOp_steady _ _ _ _)
theorem State.pmcMode_steady (s : State) : Steady s s.pmcMode := by
  unfold State.pmcMode
  exact s.countTags_steady.onyx
theorem State.startRatio_steady (s : State) (n : Nat) : Steady s (s.startRatio n) := by
  unfold State.startRatio
  split
  · exact .refl s
  · exact ((Steady.refl s).ratios _).putB _ _ _
theorem State.ratioWrite_steady (s : State) (n : Nat) (v : Word) : Steady s (s.ratioWrite n v) := by
  unfold State.ratioWrite
  dsimp only
  split
  · exact s.log_steady _ _ _
  · have h : Steady s ({ s with ratios := assocSet s.ratios n (F.flrClkRatioW.get v + 4 * F.flrClkRatioE.get v + 1) }.putB (Reg.flrClk n) F.flrClkRatioPending true) :=
      ((Steady.refl s).ratios _).putB _ _ _
    generalize { s with ratios := assocSet s.ratios n (F.flrClkRatioW.get v + 4 * F.flrClkRatioE.get v + 1) }.putB (Reg.flrClk n) F.flrClkRatioPending true = w at h
    split
    · exact h
    · exact h.trans (w.startRatio_steady n)
theorem State.deskWrite_steady (s : State) (n tw g d word taps : Nat) (v : Word) : Steady s (s.deskWrite n tw g d word taps v) := .of_fields rfl rfl rfl rfl rfl
theorem State.noteLoaded_steady (s : State) (n : Nat) (phase setting : Option Nat) : Steady s (s.noteLoaded n phase setting) := (Steady.refl s).setLattice _ _
/-- Outside HOLD a unit's request is refused (R432). -/
theorem State.unitRequest_steady (s : State) (cyc unit v : Nat) (hd : s.dev ≠ .hold) : Steady s (s.unitRequest cyc unit v) := by
  unfold State.unitRequest
  rw [if_pos hd]
  exact s.log_steady _ _ _

/-! Arbiters. -/

theorem State.mapApply_steady (s : State) (a : Arbiter) : Steady s (s.mapApply a) := by
  unfold State.mapApply
  dsimp only
  split
  · exact .refl s
  · exact (((Steady.refl s).setArb).wr _ _).putB _ _ _
theorem State.arbQuiet_steady (s : State) (a : Arbiter) : Steady s (s.arbQuiet a) := by
  have h := s.mapApply_steady a
  unfold State.arbQuiet
  dsimp only
  split
  · exact h.putB _ _ _
  · exact h
theorem State.freeze_steady (s : State) (a : Arbiter) (cyc : Nat) : Steady s (s.freeze a cyc) := by
  have h := (Steady.refl s).putB (arbCtrl a) F.fabTxArbCtrlFreeze true
  unfold State.freeze
  dsimp only
  split
  · exact h
  · exact h.trans (State.arbQuiet_steady _ _)
theorem State.mapWrite_steady (s : State) (a : Arbiter) (v : Word) : Steady s (s.mapWrite a v) := by
  unfold State.mapWrite
  split
  · exact ((Steady.refl s).setArb).putB _ _ _
  · exact s.log_steady _ _ _
/-- The arbiter is not one at which accesses wait. -/
def State.unwaited (s : State) : Arbiter → Prop
  | .vault c => (s.core c).waiting = []
  | .channel k c => (s.arb (.channel k c)).waiting = []
  | .tx _ => True
/-- A thaw serves what waits, here nothing (R194). -/
theorem State.thaw_steady (s : State) (a : Arbiter) (cyc : Nat) (hw : s.unwaited a) : Steady s (s.thaw a cyc) := by
  have h := ((Steady.refl s).putB (arbCtrl a) F.fabTxArbCtrlFreeze false).putB (arbCtrl a) F.fabTxArbCtrlDrained false
  unfold State.thaw
  generalize (s.putB (arbCtrl a) F.fabTxArbCtrlFreeze false).putB (arbCtrl a) F.fabTxArbCtrlDrained false = v at h
  dsimp only
  split
  · exact h
  · have hset : Steady s (v.setArb a { v.arb a with thawAt := cyc + 1 }) := h.setArb
    generalize v.setArb a { v.arb a with thawAt := cyc + 1 } = w at hset
    cases a with
    | vault c =>
      have hnone : (w.core c).waiting = [] := (hset.cores c).trans hw
      dsimp only
      rw [hnone]
      exact hset
    | channel k c =>
      have hnone : (w.arb (.channel k c)).waiting = [] := (hset.arbs _).trans hw
      dsimp only
      rw [hnone]
      exact hset
    | tx r => exact hset
theorem State.arbCtrlWrite_steady (s : State) (cyc a : Nat) (arb : Arbiter) (v : Word) (hold : Bool) (hw : s.unwaited arb) : Steady s (s.arbCtrlWrite cyc a arb v hold) := by
  have h := (s.plainWrite_steady a v hold).putB a F.fabTxArbCtrlFreeze (s.flag a F.fabTxArbCtrlFreeze)
  unfold State.arbCtrlWrite
  dsimp only
  generalize (s.plainWrite a v hold).putB a F.fabTxArbCtrlFreeze (s.flag a F.fabTxArbCtrlFreeze) = w at h
  have hw' : w.unwaited arb := by
    cases arb with
    | vault c => exact (h.cores c).trans hw
    | channel k c => exact (h.arbs _).trans hw
    | tx r => trivial
  split
  · exact h
  · split
    · exact h.trans (w.freeze_steady arb cyc)
    · exact h.trans (w.thaw_steady arb cyc hw')

/-! Writes at special addresses. -/

/-- Nothing waits: the device is not in HOLD, and no access waits at a vault or a channel. -/
structure Calm (s : State) : Prop where
  dev : s.dev ≠ .hold
  cores : ∀ c, c < 3072 → (s.core c).waiting = []
  arbs : ∀ k c, (s.arb (.channel k c)).waiting = []

theorem Steady.calm {s u : State} (h : Steady s u) (hs : Calm s) : Calm u :=
  ⟨h.dev ▸ hs.dev, fun c hc => (h.cores c).trans (hs.cores c hc), fun k c => (h.arbs _).trans (hs.arbs k c)⟩
/-- The registers that freeze a vault's arbiter are those of the package's cores. -/
def RegRow.vaultArb (r : RegRow) : Bool := decide (r.base = Reg.twrVarbCtrl 0 0 → r.ring = false ∧ r.dims = [(0x100000, 12), (0x40, 256)])
theorem windowRows_vaultArb (a : Nat) : (windowRows a).all (fun l => l.all RegRow.vaultArb) = true := by
  unfold windowRows
  repeat' refine iteInduction (motive := fun o => Option.all (fun l => List.all l RegRow.vaultArb) o = true) (fun _ => ?_) fun _ => ?_
  all_goals decide +kernel
theorem findRow_find {a : Nat} : ∀ {l : List RegRow} {r : RegRow} {ix : List Nat}, findRow a l = some (r, ix) → r.find a = some ix
  | [], _, _, h => by cases h
  | x :: l, r, ix, h => by
    unfold findRow at h
    split at h
    · next hx =>
      cases h
      exact hx
    · exact findRow_find h
theorem vaultArb_bound {a i j : Nat} {rows : List RegRow} {r : RegRow} (hw : windowRows a = some rows) (hr : findRow a rows = some (r, [i, j]))
    (hb : r.base = Reg.twrVarbCtrl 0 0) : 256 * i + j < 3072 := by
  have hall := windowRows_vaultArb a
  rw [hw] at hall
  obtain ⟨hring, hdims⟩ := of_decide_eq_true (List.all_eq_true.1 hall r (findRow_mem hr)) hb
  have hfind := findRow_find hr
  unfold RegRow.find at hfind
  rw [hring, hdims] at hfind
  split at hfind
  · cases hfind
  · rw [if_neg (by decide)] at hfind
    unfold spell spell at hfind
    split at hfind
    · next hi =>
      split at hfind
      · next hj =>
        unfold spell at hfind
        split at hfind
        · obtain ⟨rfl, rfl⟩ : _ = i ∧ _ = j := by simpa using hfind
          omega
        · cases hfind
      · cases hfind
    · cases hfind
/-- What a write at a special address does, in a calm state. -/
theorem State.specialWrite_steady {s u : State} {cyc a base : Nat} {ix : List Nat} {v : Word} {hold : Bool} (hs : Calm s)
    (hbound : ∀ i j, ix = [i, j] → base = Reg.twrVarbCtrl 0 0 → 256 * i + j < 3072) (h : s.specialWrite cyc a base ix v hold = some u) : Steady s u := by
  have hplain := s.plainWrite_steady a v hold
  have hrefused := s.log_steady 0x0301 (srcUnit 12 0) [a, 8, devNum s.dev]
  have hnote : ∀ n p q, Steady s (if hold then (s.plainWrite a v hold).noteLoaded n p q else s.plainWrite a v hold) := fun n p q => by
    split
    · exact hplain.trans (State.noteLoaded_steady _ _ _ _)
    · exact hplain
  unfold State.specialWrite at h
  split at h
  · split at h
    · cases h; exact s.flipWrite_steady v
    · split at h
      · cases h; exact hplain.trans (State.thermClamp_steady _)
      · split at h
        · cases h; exact (s.countTags_steady.trans (State.plainWrite_steady _ _ _ _)).trans (State.pmcMode_steady _)
        · cases h
  · next i =>
    split at h
    · cases h; exact s.ratioWrite_steady i v
    · split at h
      · cases h; exact s.unitRequest_steady cyc i _ hs.dev
      · split at h
        · cases h; exact s.arbCtrlWrite_steady cyc a (.tx i) v hold trivial
        · split at h
          · cases h; exact s.mapWrite_steady _ v
          · split at h
            · cases h; exact hplain.putF _ _ _
            · cases h
  · next i j =>
    split at h
    · next hb => cases h; exact s.arbCtrlWrite_steady cyc a _ v hold (hs.cores _ (hbound i j rfl hb))
    · split at h
      · cases h; exact s.mapWrite_steady _ v
      · split at h
        · cases h; exact s.arbCtrlWrite_steady cyc a _ v hold (hs.arbs i j)
        · split at h
          · cases h; exact s.mapWrite_steady _ v
          · split at h
            · cases h; exact hnote i none (some j)
            · split at h
              · cases h
                split
                · exact .refl s
                · exact hrefused
              · cases h
  · next i j k =>
    split at h
    · cases h; exact s.routeWrite_steady i j k v
    · split at h
      · cases h; exact hnote i (some j) none
      · split at h
        · cases h; exact hnote i none (some j)
        · cases h
  · next n t g d =>
    split at h
    · cases h
      split
      · exact s.deskWrite_steady n t g d 33 4 v
      · exact hrefused
    · cases h
  · next n t g d q =>
    split at h
    · cases h
      split
      · exact s.deskWrite_steady n t g d q 8 v
      · exact hrefused
    · cases h
  · cases h
theorem State.cfgWrite_steady {s : State} (cyc a : Nat) (v : Word) (hold : Bool) (hs : Calm s) : Steady s (s.cfgWrite cyc a v hold) := by
  unfold State.cfgWrite
  split
  · exact s.log_steady _ _ _
  · next rows hw =>
    split
    · exact .refl s
    · next r ix hr =>
      split
      · next u hu =>
        refine State.specialWrite_steady hs (fun i j hix hb => ?_) hu
        subst hix
        exact vaultArb_bound hw hr hb
      · exact s.plainWrite_steady a v hold
/-- The records of a stage, in a calm state (R396). -/
theorem State.writeRecords_steady {s : State} (cyc stage : Nat) (hs : Calm s) : Steady s (s.writeRecords cyc stage) := by
  have hfold : Calm s → Steady s (s.writeRecords cyc stage) := foldl_relates (R := fun s u => Calm s → Steady s u) (fun s _ => .refl s)
    (fun h k hs => (h hs).trans (k ((h hs).calm hs))) _ _ fun r _ v hv => (State.cfgWrite_steady cyc r.addr r.value true hv).trans (.of_fields rfl rfl rfl rfl rfl)
  exact hfold hs
end Sys2Proof.Machine
end
section
/-! BRINGUP_ENTRY (R248, R279, R292, R401, R403, R408, R431, R432). -/
namespace Sys2Proof.Machine

/-! The fence map. -/

section
variable {s u : State}
theorem Steady.boundary (h : Steady s u) (b : Boundary) : Steady s { u with boundary := b } := h.trans (.of_fields rfl rfl rfl rfl rfl)
theorem Steady.setTower (h : Steady s u) (t : Nat) (x : Tower) : Steady s (u.setTower t x) := h.trans (.of_fields rfl rfl rfl rfl rfl)
theorem Steady.setGroup (h : Steady s u) (t g : Nat) (x : D2d) : Steady s (u.setGroup t g x) := h.trans (.of_fields rfl rfl rfl rfl rfl)
theorem Steady.setTime (h : Steady s u) (n : Nat) (x : TimeUnit) : Steady s (u.setTime n x) := h.trans (.of_fields rfl rfl rfl rfl rfl)
end
/-- A fold of register writes. -/
theorem foldl_steady {α : Type} {f : State → α → State} (l : List α) (s : State) (hf : ∀ x ∈ l, ∀ v, Steady v (f v x)) : Steady s (l.foldl f s) :=
  foldl_relates .refl .trans l s hf
theorem State.markRing_steady (s : State) (r : Nat) : Steady s (s.markRing r) := by
  unfold State.markRing
  exact (foldl_steady _ s fun n _ v => ((Steady.refl v).wr _ _).putB _ _ _).putF _ _ _
theorem State.retarget_steady (s : State) (now : Bool) : Steady s (s.retarget now) :=
  foldl_steady _ s fun _ _ v => foldl_steady _ v fun _ _ v => foldl_steady _ v fun _ _ v => foldl_steady _ v fun _ _ v => (Steady.refl v).wr _ _
theorem State.markTowerFenced_steady (s : State) (t : Nat) : Steady s (s.markTowerFenced t) := by
  unfold State.markTowerFenced
  exact ((foldl_steady _ s fun l _ v => (Steady.refl v).putB _ _ _).setTower _ _).putB _ _ _
theorem State.latQueue_steady (s : State) (n : Nat) (q : LatReq) : Steady s (s.latQueue n q) := by
  unfold State.latQueue
  dsimp only
  split
  · exact .refl s
  · split
    · split
      · exact (Steady.refl s).setLattice _ _
      · exact (((Steady.refl s).setLattice _ _).bump _ _ _).trans (State.log_steady _ _ _ _)
    · exact (Steady.refl s).setLattice _ _
theorem State.latStatus_steady (s : State) (n : Nat) : Steady s (s.latStatus n) := ((Steady.refl s).putF _ _ _).putB _ _ _
theorem State.fenceLat_steady (s : State) (e : Nat) : Steady s (s.fenceLat e) := by
  unfold State.fenceLat
  refine foldl_steady _ s fun n _ v => ?_
  dsimp only
  refine iteInduction (motive := Steady v) (fun _ => ?_) fun _ => ?_
  · exact (Steady.refl v).setLattice _ _
  · exact (((Steady.refl v).setLattice _ _).trans (State.latQueue_steady _ _ _)).trans (State.latStatus_steady _ _)
theorem State.fenceMapped_steady (s : State) (e : FenceEl) : Steady s (s.fenceMapped e) := by
  unfold State.fenceMapped
  dsimp only
  split
  · split
    · exact (Steady.refl s).putB _ _ _
    · exact .refl s
  · split
    · exact ((s.markTowerFenced_steady _).trans (State.markRing_steady _ _)).trans (State.fenceLat_steady _ _)
    · exact .refl s
  · split
    · exact (Steady.refl s).putF _ _ _
    · exact .refl s
  · split
    · exact (Steady.refl s).putF _ _ _
    · exact .refl s
  · exact .refl s
theorem State.applyFences_steady (s : State) : Steady s s.applyFences := by
  unfold State.applyFences
  refine Steady.trans ?_ (foldl_steady _ _ fun n _ v => (Steady.refl v).putB _ _ _)
  refine Steady.trans (Steady.trans ?_ (foldl_steady _ _ fun e _ v => v.fenceMapped_steady e)) (State.retarget_steady _ true)
  exact .of_fields rfl rfl rfl rfl rfl

/-! Units, time and groups. -/

theorem State.phaseTo_steady (s : State) (p : Nat) : Steady s (s.phaseTo p) := (Steady.refl s).putF _ _ _
theorem State.unitsOn_steady (s : State) : Steady s s.unitsOn := by
  refine foldl_steady _ s fun unit _ v => ?_
  split
  · exact .refl v
  · exact ((Steady.refl v).putF _ _ _).bump _ _ _
theorem State.timesBegin_steady (s : State) : Steady s s.timesBegin := foldl_steady _ s fun _ _ v => (Steady.refl v).setTime _ _
theorem State.groupsTrain_steady (s : State) : Steady s s.groupsTrain := by
  refine foldl_steady _ s fun x _ v => ?_
  split
  · exact ((Steady.refl v).setGroup _ _ _).putF _ _ _
  · exact .refl v

/-! Vaults. -/

/-- What zeroing the vaults leaves of a byte at a place. -/
def zeroedAt : Place → Byte → Byte
  | .vault _ _, _ => 0
  | _, b => b
theorem State.zeroVaults_byte (s : State) (a : Nat) : s.zeroVaults.byte a = zeroedAt (placeOf a) (s.byte a) := by
  have h : s.zeroVaults.byte a = if (!(match placeOf a with
      | .vault _ _ => true
      | _ => false)) = true then s.byte a else 0 := get_filter memDefault (fun a => !(match placeOf a with
      | .vault _ _ => true
      | _ => false)) a s.mem
  rw [h]
  generalize placeOf a = p
  cases p <;> rfl

theorem State.setMem_fields (s : State) (m : List (Nat × Byte)) (k : List (Nat × Mark)) :
    ({ s with mem := m, marks := k } : State).dev = s.dev ∧ ({ s with mem := m, marks := k } : State).onyx = s.onyx := ⟨rfl, rfl⟩
theorem State.zeroVaults_fields (s : State) : s.zeroVaults.dev = s.dev ∧ s.zeroVaults.onyx = s.onyx := by
  unfold State.zeroVaults
  exact s.setMem_fields _ _

/-! Parked rings. -/

/-- What a failed ring leaves as it is: memory and housekeeping's round; the device may enter HOLD. -/
structure Stays (s u : State) : Prop where
  mem : u.mem = s.mem
  round : u.onyx.round = s.onyx.round
  nextCh : u.onyx.nextCh = s.onyx.nextCh
  dev : u.dev = s.dev ∨ u.dev = .hold

section
variable {s u v : State}
theorem Steady.stays (h : Steady s u) : Stays s u := ⟨h.mem, h.round, h.nextCh, .inl h.dev⟩
theorem Stays.refl (s : State) : Stays s s := (Steady.refl s).stays
theorem Stays.trans (h : Stays s u) (k : Stays u v) : Stays s v :=
  ⟨k.mem.trans h.mem, k.round.trans h.round, k.nextCh.trans h.nextCh, k.dev.elim (fun e => e ▸ h.dev) .inr⟩
end
theorem State.enterHold_stays (s : State) : Stays s (s.enter .hold) := by
  obtain ⟨honly, -⟩ := s.enter_enters .hold
  exact ⟨by rw [honly], by rw [honly], by rw [honly], .inr (s.enter_dev _)⟩
theorem State.startFail_stays (s : State) (cause : Nat) : Stays s (s.startFail cause) := by
  unfold State.startFail
  exact ((((Steady.refl s).putF _ _ _).wr _ _).trans (State.log_steady _ _ _ _)).stays.trans (State.enterHold_stays _)
theorem State.holdCause_steady (s : State) (b : Nat) : Steady s (s.holdCause b) := by
  unfold State.holdCause
  split
  · exact ((Steady.refl s).boundary _).putF _ _ _
  · exact .refl s
theorem State.fenceRing_steady (s : State) (r : Nat) : Steady s (s.fenceRing r) := by
  unfold State.fenceRing
  split
  · exact .refl s
  · exact (s.markRing_steady r).trans (State.retarget_steady _ false)
theorem State.failWave_stays (s : State) (src k : Nat) : Stays s (s.failWave src k) := by
  unfold State.failWave
  dsimp only
  split
  · exact .refl s
  · have h := ((Steady.refl s).putF (Reg.rplTxStatus src) F.rplTxStatusWlFailed (s.fld (Reg.rplTxStatus src) F.rplTxStatusWlFailed + 2 ^ k)).trans (State.holdCause_steady _ 7)
    split
    · split
      · exact ((h.trans (State.log_steady _ _ _ _)).trans (State.fenceRing_steady _ _)).stays.trans (State.startFail_stays _ _)
      · exact ((h.trans (State.log_steady _ _ _ _)).trans (State.fenceRing_steady _ _)).stays
    · split
      · exact (h.putF _ _ _).stays.trans (State.startFail_stays _ _)
      · exact (h.putF _ _ _).stays
theorem State.park_stays (s : State) (g : RingId) : Stays s (s.park g) := by
  unfold State.park
  split
  · exact .refl s
  · have h := (((Steady.refl s).putF (ringAddr g) F.rplModState 5).bump Reg.onxLockCounts F.onxLockCountsParked 1).trans
      (State.log_steady _ 0x0502 (srcUnit (12 + (ringItem g).1) (ringItem g).2) [ringAddr g,
        ((s.putF (ringAddr g) F.rplModState 5).bump Reg.onxLockCounts F.onxLockCountsParked 1).heater g, 2])
    dsimp only
    split
    · exact h.stays.trans (State.failWave_stays _ _ _)
    · exact h.stays.trans (State.failWave_stays _ _ _)
    · exact h.stays
theorem State.parkEngines_stays (s : State) : Stays s s.parkEngines :=
  foldl_relates .refl .trans _ _ fun _ _ _ => foldl_relates .refl .trans _ _ fun g _ w => w.park_stays g

/-! BRINGUP begins. -/

theorem State.bringUp_eq (s : State) (cyc : Nat) : ∃ v w : State, v = ((s.writeRecords cyc 0).enter .bringup).phaseTo 2 ∧
    w = ((v.applyFences.unitsOn.timesBegin.phaseTo 3).groupsTrain).zeroVaults.parkEngines ∧
    s.bringUp cyc = { w with start := { w.start with calAt := w.onyx.round + if w.onyx.nextCh = 0 then 0 else 1 } } := ⟨_, _, rfl, rfl, rfl⟩
theorem State.bringUp_next {s : State} (cyc : Nat) (hs : Calm s) : ((s.bringUp cyc).dev = .bringup ∨ (s.bringUp cyc).dev = .hold) ∧
    (s.bringUp cyc).start.calAt = (s.onyx.round + if s.onyx.nextCh = 0 then 0 else 1) ∧ ∀ a, (s.bringUp cyc).byte a = zeroedAt (placeOf a) (s.byte a) := by
  obtain ⟨v, w, hv, hw, heq⟩ := s.bringUp_eq cyc
  have hrecords := State.writeRecords_steady cyc 0 hs
  generalize s.writeRecords cyc 0 = x at hrecords hv
  obtain ⟨honly, -⟩ := x.enter_enters .bringup
  have hphase := (x.enter .bringup).phaseTo_steady 2
  have hdev : (x.enter .bringup).dev = .bringup := x.enter_dev _
  have hround : (x.enter .bringup).onyx = x.onyx := by rw [honly]
  have hmem : (x.enter .bringup).mem = x.mem := x.enter_mem _
  generalize x.enter .bringup = y at hphase hdev hround hmem hv
  rw [← hv] at hphase
  have hrest := ((((v.applyFences_steady.trans (State.unitsOn_steady _)).trans (State.timesBegin_steady _)).trans (State.phaseTo_steady _ 3)).trans
    (State.groupsTrain_steady _))
  generalize (v.applyFences.unitsOn.timesBegin.phaseTo 3).groupsTrain = z at hrest hw
  have hz := hphase.trans hrest
  have hzero : ∀ a, z.zeroVaults.byte a = _ := z.zeroVaults_byte
  have hfields := z.zeroVaults_fields
  have hpark := z.zeroVaults.parkEngines_stays
  rw [← hw] at hpark
  generalize z.zeroVaults = q at hzero hfields hpark
  obtain ⟨hqdev, hqonyx⟩ := hfields
  have hwround : w.onyx.round = s.onyx.round := by rw [hpark.round, hqonyx, hz.round, hround, hrecords.round]
  have hwnext : w.onyx.nextCh = s.onyx.nextCh := by rw [hpark.nextCh, hqonyx, hz.nextCh, hround, hrecords.nextCh]
  rw [heq]
  refine ⟨?_, ?_, fun a => ?_⟩
  · have hbringup : q.dev = .bringup := hqdev.trans (hz.dev.trans hdev)
    exact hpark.dev.imp_left fun h => h.trans hbringup
  · rw [← hwround, ← hwnext]
  · have hbyte : ({ w with start := { w.start with calAt := w.onyx.round + if w.onyx.nextCh = 0 then 0 else 1 } } : State).byte a = q.byte a :=
      congrArg (fun m => Sparse.get memDefault m a) hpark.mem
    have hkept : z.byte a = s.byte a := congrArg (fun m => Sparse.get memDefault m a) (hz.mem.trans (hmem.trans hrecords.mem))
    rw [hbyte, hzero a, hkept]
theorem bringupEntry_next (t : At) (s s1 : State) (h1 : s1 = s.at t) : ∃ u, exec (.bringupEntry t) s = .next u ∧ (s1.mayBringUp = false → u = s1) ∧
      (s1.mayBringUp = true → (∀ c, c < 3072 → (s.core c).waiting = []) → (∀ k c, (s.arb (.channel k c)).waiting = []) →
        (u.dev = .bringup ∨ u.dev = .hold) ∧ u.start.calAt = (s.onyx.round + if s.onyx.nextCh = 0 then 0 else 1) ∧ ∀ a, u.byte a = zeroedAt (placeOf a) (s.byte a)) := by
  have hexec : exec (.bringupEntry t) s = .next (if s1.mayBringUp then s1.bringUp t.cyc else s1) := by
    subst h1
    rfl
  refine ⟨_, hexec, fun hno => if_neg (by rw [hno]; decide), fun hmay hcores harbs => ?_⟩
  rw [if_pos hmay]
  have hdev : s1.dev = .boot := by
    unfold State.mayBringUp at hmay
    simp only [Bool.and_eq_true, decide_eq_true_eq] at hmay
    exact hmay.1.1.1
  have hsame : s1.cores = s.cores ∧ s1.arbs = s.arbs ∧ s1.onyx = s.onyx ∧ ∀ a, s1.byte a = s.byte a := by
    subst h1
    exact ⟨rfl, rfl, rfl, fun _ => rfl⟩
  obtain ⟨hsc, hsa, hso, hsb⟩ := hsame
  have hcalm : Calm s1 := by
    refine ⟨by rw [hdev]; decide, fun c hc => ?_, fun k c => ?_⟩
    · rw [State.core_of_cores hsc]
      exact hcores c hc
    · rw [State.arb_of_arbs hsa]
      exact harbs k c
  obtain ⟨hend, hcal, hbytes⟩ := State.bringUp_next t.cyc hcalm
  rw [hso] at hcal
  refine ⟨hend, hcal, fun a => ?_⟩
  rw [hbytes a, hsb a]
end Sys2Proof.Machine
end
section
/-! LOAD_ENTRY and the phases of a start (R237, R262, R398 to R401, R408 to R410). -/
namespace Sys2Proof.Machine

/-! What LOAD writes leaves the device's state and what waits as they are. -/

/-- The device's state and the accesses that wait at vaults and channels are kept. -/
structure Idles (s u : State) : Prop where
  dev : u.dev = s.dev
  cores : ∀ c, (u.core c).waiting = (s.core c).waiting
  arbs : ∀ a, (u.arb a).waiting = (s.arb a).waiting

section
variable {s u v : State}
theorem Steady.idles (h : Steady s u) : Idles s u := ⟨h.dev, h.cores, h.arbs⟩
theorem Idles.refl (s : State) : Idles s s := (Steady.refl s).idles
theorem Idles.trans (h : Idles s u) (k : Idles u v) : Idles s v :=
  ⟨k.dev.trans h.dev, fun c => (k.cores c).trans (h.cores c), fun a => (k.arbs a).trans (h.arbs a)⟩
theorem Idles.of_fields (hdev : u.dev = s.dev) (hcores : u.cores = s.cores) (harbs : u.arbs = s.arbs) : Idles s u :=
  ⟨hdev, fun c => by rw [State.core_of_cores hcores], fun a => by rw [State.arb_of_arbs harbs]⟩
theorem Idles.calm (h : Idles s u) (hs : Calm s) : Calm u :=
  ⟨h.dev ▸ hs.dev, fun c hc => (h.cores c).trans (hs.cores c hc), fun k c => (h.arbs _).trans (hs.arbs k c)⟩
theorem Idles.setMem (h : Idles s u) (m : List (Nat × Byte)) (k : List (Nat × Mark)) : Idles s { u with mem := m, marks := k } := h.trans (.of_fields rfl rfl rfl)
theorem Idles.setBytes (h : Idles s u) (a : Nat) (l : List Byte) : Idles s (u.setBytes a l) := by
  rw [State.setBytes_only]
  exact h.trans (.of_fields rfl rfl rfl)
theorem Idles.setMarks (h : Idles s u) (m : Mark) (l : List Nat) : Idles s (u.setMarks m l) := by
  rw [State.setMarks_only]
  exact h.trans (.of_fields rfl rfl rfl)
theorem Idles.setArb (h : Idles s u) {a : Arbiter} {x : Arb} (hx : x.waiting = (u.arb a).waiting := by rfl) : Idles s (u.setArb a x) :=
  h.trans ((Steady.refl u).setArb hx).idles
theorem Idles.setCore (h : Idles s u) {c : Nat} {k : Core} (hk : k.waiting = (u.core c).waiting := by rfl) : Idles s (u.setCore c k) := by
  refine h.trans ⟨rfl, fun d => ?_, fun a => congrArg Arb.waiting (State.arb_of_arbs rfl a)⟩
  by_cases hd : d = c
  · rw [hd, State.core_setCore, hk]
  · rw [State.core_setCore_ne _ _ hd]
theorem Idles.wr (h : Idles s u) (a : Nat) (w : Word) : Idles s (u.wr a w) := h.trans (.of_fields rfl rfl rfl)
theorem Idles.putF (h : Idles s u) (a : Nat) (f : Fld) (n : Nat) : Idles s (u.putF a f n) := h.wr _ _
theorem Idles.putB (h : Idles s u) (a : Nat) (f : Fld) (b : Bool) : Idles s (u.putB a f b) := h.wr _ _
theorem Idles.unmerge (h : Idles s u) (c : Nat) (l : List Nat) : Idles s (u.unmerge c l) := by
  unfold State.unmerge
  dsimp only
  split
  · exact h.setArb
  · exact h
end
theorem State.pmcCore_steady (s : State) (c event n : Nat) : Steady s (s.pmcCore c event n) := by
  unfold State.pmcCore
  split
  · exact State.pmcAt_steady _ _ _ _ _ _ s
  · exact .refl s
theorem State.drainWb_idles (s : State) (c cyc : Nat) : Idles s (s.drainWb c cyc) := by
  unfold State.drainWb
  dsimp only
  split
  · exact .refl s
  · split
    · exact (Idles.refl s).setCore
    · exact (((((Idles.refl s).setCore).setMarks _ _).unmerge _ _).trans (State.pmcCore_steady _ _ _ _).idles).trans (State.pmcCore_steady _ _ _ _).idles
theorem State.vaultWrite_idles (s : State) (c off : Nat) (d : List Byte) (po : List Nat) : Idles s (s.vaultWrite c off d po) := by
  have h : ∀ a m ws ls, Idles s (((((s.drainWb c s.clk).setBytes a d).setMarks .good ws).setMarks .poison m).unmerge c ls) := fun _ _ _ _ =>
    ((((s.drainWb_idles c s.clk).setBytes _ _).setMarks _ _).setMarks _ _).unmerge _ _
  unfold State.vaultWrite
  dsimp only
  split
  · exact h _ _ _ _
  · exact (h _ _ _ _).setCore
theorem State.unmergeLines_idles (s : State) (k : Nat) (ls : List Nat) : Idles s (s.unmergeLines k ls) := by
  refine foldl_relates .refl .trans _ s fun l _ v => ?_
  dsimp only
  split
  · exact .refl v
  · exact (Idles.refl v).setArb
theorem State.writeAt_idles (s : State) (a : Nat) (d : List Byte) (po : List Nat) : Idles s (s.writeAt a d po) := by
  unfold State.writeAt
  split
  · exact s.vaultWrite_idles _ _ d po
  · exact (((s.unmergeLines_idles _ _).setBytes _ _).setMarks _ _).setMarks _ _
  · exact .refl s
theorem State.loadRoutes_idles (s : State) (l : List Byte) : Idles s (s.loadRoutes l) :=
  (foldl_steady _ s fun _ _ v => foldl_steady _ v fun _ _ v => (Steady.refl v).wr _ _).idles
theorem State.forceWrite_steady (s : State) (a : Nat) (v : Word) : Steady s (s.forceWrite a v) := by
  refine foldl_steady _ s fun f _ w => ?_
  split
  · exact (Steady.refl w).putF _ _ _
  · exact .refl w
theorem State.loadJobs_idles (s : State) (l : List Byte) : Idles s (s.loadJobs l) := by
  refine (foldl_steady _ s fun e _ v => ?_).idles
  dsimp only
  refine Steady.trans ?_ (foldl_steady _ _ fun w _ x => (x.forceWrite_steady _ _).trans (State.forceWrite_steady _ _ _))
  exact (((Steady.refl v).putB _ _ _).wr _ _).wr _ _
theorem State.loadProg_idles (s : State) (l : List Byte) (ps : List Prog) (step : Nat) (p : Prog) : Idles s (s.loadProg l ps step p) := by
  unfold State.loadProg
  dsimp only
  exact ((((((Idles.refl s).setBytes _ _).putB _ _ _).putF _ _ _).putF _ _ _).wr _ _).wr _ _
theorem State.loadProgs_idles (s : State) (l : List Byte) (step : Nat) : Idles s (s.loadProgs l step) := by
  unfold State.loadProgs State.clearImem
  refine Idles.trans (Idles.trans ?_ (Steady.idles (foldl_steady _ _ fun _ _ v => (Steady.refl v).wr _ _)))
    (foldl_relates .refl .trans _ _ fun p _ v => v.loadProg_idles l _ step p)
  exact (Idles.refl s).setMem _ _
theorem State.loadData_idles (s : State) (l : List Byte) : Idles s (s.loadData l) := foldl_relates .refl .trans _ s fun _ _ v => v.writeAt_idles _ _ _
theorem State.loadVariants_idles (s : State) : Idles s s.loadVariants := by
  unfold State.loadVariants
  dsimp only
  refine Idles.trans (u := { s with start := { s.start with vtable := if s.section_ 6 = [] then {} else vtableOf (s.section_ 6) } }) (.of_fields rfl rfl rfl) ?_
  generalize ({ s with start := { s.start with vtable := if s.section_ 6 = [] then {} else vtableOf (s.section_ 6) } } : State) = v
  split
  · exact (Steady.trans (foldl_steady _ _ fun _ _ w => (Steady.refl w).wr _ _) (foldl_steady _ _ fun _ _ w => (Steady.refl w).wr _ _)).idles
  · exact (Steady.trans (foldl_steady _ _ fun _ _ w => (Steady.refl w).putF _ _ _) (foldl_steady _ _ fun _ _ w => (Steady.refl w).putF _ _ _)).idles

/-! Phase 0. -/

/-- Phase 0 on one lane (R237). -/
def State.laneZero (s : State) (j : Nat) : State :=
  ((s.putF (laneReg j) F.lplLanePhase 0).putF (laneReg j) F.lplLaneSetting (s.phaseEntry (j / 8) 0 (j % 8)).2).putF (laneReg j) F.lplLaneState 0
/-- Phase 0 on one lane that is not fenced, which is then locked anew (R237). -/
def State.phaseZeroLane (s : State) (j : Nat) : State :=
  if s.fld (laneReg j) F.lplLaneState = 6 then s
  else (s.laneZero j).setLane j { (s.laneZero j).lane j with
    relocked := true,
    gone := if (s.laneZero j).fld (Reg.lplSetKind (j / 8) ((s.laneZero j).fld (laneReg j) F.lplLaneSetting)) F.lplSetKindKind = 0 then ((s.laneZero j).lattice (j / 8)).removed else [] }
theorem State.phaseZero_eq (s : State) : s.phaseZero = (List.range 32).foldl State.phaseZeroLane s := rfl
/-- A lane is fenced, or in phase 0. -/
def State.laneBegun (s : State) (j : Nat) : Prop :=
  s.fld (laneReg j) F.lplLaneState = 6 ∨ (s.fld (laneReg j) F.lplLaneState = 0 ∧ s.fld (laneReg j) F.lplLanePhase = 0)
theorem State.laneBegun_of_rd {s u : State} {j : Nat} (h : u.rd (laneReg j) = s.rd (laneReg j)) (hb : s.laneBegun j) : u.laneBegun j := by
  unfold State.laneBegun
  rw [State.fld_of_rd _ h, State.fld_of_rd _ h]
  exact hb
theorem State.setLane_steady (s : State) (j : Nat) (x : Lane) : Steady s (s.setLane j x) := .of_fields rfl rfl rfl rfl rfl
theorem State.setLane_rd (s : State) (j : Nat) (x : Lane) (a : Nat) : (s.setLane j x).rd a = s.rd a := State.rd_of_regs rfl a
theorem State.phaseZeroLane_next (s : State) (j : Nat) : Steady s (s.phaseZeroLane j) ∧ (∀ a, a ≠ laneReg j → (s.phaseZeroLane j).rd a = s.rd a) ∧ (s.phaseZeroLane j).laneBegun j := by
  unfold State.phaseZeroLane
  split
  · next h => exact ⟨.refl s, fun _ _ => rfl, .inl h⟩
  · have hsteady : Steady s (s.laneZero j) := (((Steady.refl s).putF _ _ _).putF _ _ _).putF _ _ _
    have hrd : ∀ a, a ≠ laneReg j → (s.laneZero j).rd a = s.rd a := fun a ha => by
      unfold State.laneZero
      rw [State.rd_putF_ne _ _ _ ha, State.rd_putF_ne _ _ _ ha, State.rd_putF_ne _ _ _ ha]
    have hbegun : (s.laneZero j).laneBegun j := by
      unfold State.laneZero State.laneBegun
      refine .inr ⟨(State.fld_putF _ _ _ _ (by decide) (by decide)).trans (by decide), ?_⟩
      rw [State.fld_putF_apart _ _ _ (by decide) (.inr (by decide)), State.fld_putF_apart _ _ _ (by decide) (.inr (by decide)),
        State.fld_putF _ _ _ _ (by decide) (by decide)]
      decide
    generalize s.laneZero j = v at hsteady hrd hbegun
    exact ⟨hsteady.trans (v.setLane_steady j _), fun a ha => (v.setLane_rd j _ a).trans (hrd a ha), State.laneBegun_of_rd (v.setLane_rd j _ _) hbegun⟩
theorem laneReg_inj {i j : Nat} (h : laneReg i = laneReg j) (hi : i < 32) (hj : j < 32) : i = j := by
  unfold laneReg Reg.lplLane at h
  omega
theorem State.phaseZeroLanes_next : ∀ (l : List Nat) (s : State), (∀ j ∈ l, j < 32) → Steady s (l.foldl State.phaseZeroLane s) ∧
    (∀ j, j < 32 → j ∉ l → (l.foldl State.phaseZeroLane s).rd (laneReg j) = s.rd (laneReg j)) ∧ ∀ j ∈ l, (l.foldl State.phaseZeroLane s).laneBegun j
  | [], s, _ => ⟨.refl s, fun _ _ _ => rfl, fun _ h => absurd h (by simp)⟩
  | i :: l, s, hl => by
    obtain ⟨hsteady, hrd, hbegun⟩ := s.phaseZeroLane_next i
    obtain ⟨hsteady', hrd', hbegun'⟩ := State.phaseZeroLanes_next l (s.phaseZeroLane i) fun j hj => hl j (List.mem_cons_of_mem _ hj)
    have hi := hl i (by simp)
    rw [List.foldl_cons]
    refine ⟨hsteady.trans hsteady', fun j hj hout => ?_, fun j hj => ?_⟩
    · rw [List.mem_cons, not_or] at hout
      exact (hrd' j hj hout.2).trans (hrd _ fun h => hout.1 (laneReg_inj h hj hi))
    · by_cases hin : j ∈ l
      · exact hbegun' j hin
      · obtain rfl : j = i := (List.mem_cons.1 hj).resolve_right hin
        exact State.laneBegun_of_rd (hrd' j hi hin) hbegun
theorem State.phaseZero_next (s : State) : Steady s s.phaseZero ∧ ∀ j, j < 32 → s.phaseZero.laneBegun j := by
  rw [s.phaseZero_eq]
  obtain ⟨hsteady, -, hbegun⟩ := State.phaseZeroLanes_next (List.range 32) s fun j => List.mem_range.1
  exact ⟨hsteady, fun j hj => hbegun j (List.mem_range.2 hj)⟩

/-! LOAD_ENTRY. -/

theorem State.loadImage_eq (s : State) (cyc : Nat) : ∃ v w : State, Idles s v ∧ w = ((v.writeRecords cyc 1).loadVariants).phaseZero ∧
    s.loadImage cyc = { w with start := { w.start with joinSet := hJoinSet s.booted.header } } :=
  ⟨_, _, (((s.loadRoutes_idles _).trans (State.loadJobs_idles _ _)).trans (State.loadProgs_idles _ _ _)).trans (State.loadData_idles _ _), rfl, rfl⟩
theorem State.loadImage_next {s : State} (cyc : Nat) (hs : Calm s) : (s.loadImage cyc).dev = s.dev ∧ (s.loadImage cyc).start.joinSet = hJoinSet s.booted.header ∧
    ∀ j, j < 32 → (s.loadImage cyc).laneBegun j := by
  obtain ⟨v, w, hv, hw, heq⟩ := s.loadImage_eq cyc
  have hx := (State.writeRecords_steady cyc 1 (hv.calm hs)).idles.trans (State.loadVariants_idles _)
  generalize ((v.writeRecords cyc 1).loadVariants) = x at hw hx
  obtain ⟨hsteady, hbegun⟩ := x.phaseZero_next
  rw [← hw] at hsteady hbegun
  rw [heq]
  exact ⟨hsteady.dev.trans (hx.dev.trans hv.dev), rfl, fun j hj => State.laneBegun_of_rd (State.rd_of_regs rfl _) (hbegun j hj)⟩
/-- Kept sets go to the store's calibration area alone (R262). -/
theorem State.writeKept_only (s : State) (tile : Nat) : ∃ l, s.writeKept tile = { s with store := { s.store with cal := l } } := by
  refine foldl_relates (R := fun s u => ∃ l, u = { s with store := { s.store with cal := l } }) (fun s => ⟨_, rfl⟩) ?_ _ s fun p _ v => ?_
  · rintro s u v ⟨l, rfl⟩ ⟨k, rfl⟩
    exact ⟨k, rfl⟩
  · split
    · exact ⟨_, rfl⟩
    · exact ⟨_, rfl⟩
theorem State.writeKepts_only (s : State) (l : List Nat) : ∃ k, l.foldl State.writeKept s = { s with store := { s.store with cal := k } } := by
  refine foldl_relates (R := fun s u => ∃ l, u = { s with store := { s.store with cal := l } }) (fun s => ⟨_, rfl⟩) ?_ _ s fun n _ v => v.writeKept_only n
  rintro s u v ⟨l, rfl⟩ ⟨k, rfl⟩
  exact ⟨k, rfl⟩
/-- LOAD has begun: kept sets are written, and phase 9 is reached. -/
def State.loadBegun (s : State) : State := (((List.range 4).foldl State.writeKept s).enter .load).phaseTo 9
theorem State.loadBegun_next (s : State) : s.loadBegun.mem = s.mem ∧ s.loadBegun.dev = .load ∧ s.loadBegun.booted = s.booted ∧
    s.loadBegun.cores = s.cores ∧ s.loadBegun.arbs = s.arbs := by
  obtain ⟨k, hkept⟩ := s.writeKepts_only (List.range 4)
  have hv : ((List.range 4).foldl State.writeKept s).mem = s.mem ∧ ((List.range 4).foldl State.writeKept s).booted = s.booted ∧
      ((List.range 4).foldl State.writeKept s).cores = s.cores ∧ ((List.range 4).foldl State.writeKept s).arbs = s.arbs := by
    rw [hkept]
    exact ⟨rfl, rfl, rfl, rfl⟩
  unfold State.loadBegun
  generalize (List.range 4).foldl State.writeKept s = v at hv
  obtain ⟨hmem, hbooted, hcores, harbs⟩ := hv
  have henter := (v.enter_enters .load).1
  have hdev := v.enter_dev .load
  have hw : (v.enter .load).mem = v.mem ∧ (v.enter .load).cores = v.cores ∧ (v.enter .load).arbs = v.arbs := by
    rw [henter]
    exact ⟨rfl, rfl, rfl⟩
  have hwbooted : (v.enter .load).booted = v.booted := v.enter_booted (by decide)
  generalize v.enter .load = w at hdev hw hwbooted
  obtain ⟨hwmem, hwcores, hwarbs⟩ := hw
  exact ⟨(State.putF_mem ..).trans (hwmem.trans hmem), hdev, (w.phaseTo_booted 9).trans (hwbooted.trans hbooted), hwcores.trans hcores, hwarbs.trans harbs⟩
theorem State.loadFails_of_booted {s u : State} (h : u.booted = s.booted) (bad : List Nat) : u.loadFails bad = s.loadFails bad := by
  unfold State.loadFails
  rw [h]
theorem loadEntry_next (t : At) (bad : List Nat) (s s1 : State) (h1 : s1 = s.at t) :
    ∃ u, exec (.loadEntry t bad) s = .next u ∧ (s1.mayLoad = false → u = s1) ∧
      (s1.mayLoad = true → s1.loadFails bad = true → SameBytes s u ∧ u.dev = .halted ∧ u.fld Reg.onxState F.onxStateHaltCause = 4 ∧
        u.fld Reg.onxImgStatus F.onxImgStatusStartCause = 12) ∧
      (s1.mayLoad = true → s1.loadFails bad = false → (∀ c, c < 3072 → (s.core c).waiting = []) → (∀ k c, (s.arb (.channel k c)).waiting = []) → u.dev = .load ∧ u.start.joinSet = hJoinSet s.booted.header ∧
        ∀ j, j < 32 → u.fld (laneReg j) F.lplLaneState = 6 ∨ (u.fld (laneReg j) F.lplLaneState = 0 ∧ u.fld (laneReg j) F.lplLanePhase = 0)) := by
  have hexec : exec (.loadEntry t bad) s = .next (if s1.mayLoad then
      (if s1.loadBegun.loadFails bad then s1.loadBegun.startHalt 12 4 else s1.loadBegun.loadImage t.cyc) else s1) := by
    subst h1
    rfl
  have hsame : s1.mem = s.mem ∧ s1.booted = s.booted ∧ s1.cores = s.cores ∧ s1.arbs = s.arbs := by
    subst h1
    exact ⟨rfl, rfl, rfl, rfl⟩
  obtain ⟨hmem1, hbooted1, hcores1, harbs1⟩ := hsame
  obtain ⟨hmem, hdev, hbooted, hcores, harbs⟩ := s1.loadBegun_next
  refine ⟨_, hexec, fun hno => if_neg (by rw [hno]; decide), fun hmay hfails => ?_, fun hmay hfails hnone hidle => ?_⟩
  · rw [if_pos hmay, if_pos ((State.loadFails_of_booted hbooted bad).trans hfails)]
    obtain ⟨hjoins, hhalted, hcause, hstart⟩ := s1.loadBegun.startHalt_next (cause := 12) (haltCause := 4) (by decide) (by decide)
    exact ⟨.of_mem (hjoins.mem.trans (hmem.trans hmem1)), hhalted, hcause, hstart⟩
  · rw [if_pos hmay, if_neg (by rw [State.loadFails_of_booted hbooted bad, hfails]; decide)]
    have hcalm : Calm s1.loadBegun := by
      refine ⟨by rw [hdev]; decide, fun c hc => ?_, fun k c => ?_⟩
      · rw [State.core_of_cores (hcores.trans hcores1)]
        exact hnone c hc
      · rw [State.arb_of_arbs (harbs.trans harbs1)]
        exact hidle k c
    obtain ⟨hend, hset, hlanes⟩ := State.loadImage_next t.cyc hcalm
    refine ⟨hend.trans hdev, ?_, hlanes⟩
    rw [hset, hbooted, hbooted1]
/-- Settles O60: each phase of a start by its own lemma; what a fold over records, fences, rings or lanes leaves as it is bears the induction. -/
theorem startPhases : Obligations.StartPhases := by
  unfold Obligations.StartPhases
  refine ⟨fun t s s1 h1 => ⟨?_, trainingBeacon_next t s s1 h1, joinMessageSend_next t s s1 h1, joinTimeout_next t s s1 h1, joinEntry_next t s s1 h1,
    runEntry_next t s s1 h1⟩, fun t x delay farPkg farFibre s s1 => fibreTraining_next t x delay farPkg farFibre s s1, fun t bad s s1 h1 => loadEntry_next t bad s s1 h1,
    fun t digest proposal inc pkg s s1 => joinMessage_next t digest proposal inc pkg s s1⟩
  obtain ⟨u, hexec, hno, hbegins⟩ := bringupEntry_next t s s1 h1
  refine ⟨u, hexec, hno, fun hmay hcores harbs => ?_⟩
  obtain ⟨hdev, hcal, hbytes⟩ := hbegins hmay hcores harbs
  refine ⟨hdev, hcal, fun a => ?_⟩
  rw [hbytes a]
  generalize placeOf a = p
  cases p <;> rfl
end Sys2Proof.Machine
end
section
/-! Memory and its marks stay in canonical form: the rules for updates, choices, folds and results (R116, R117,
R352). Only `setBytes`, `setMark` and the filters that drop bytes write memory or marks; the blocks below carry the form from them through every function of the model,
one lemma for each function, in the order of the model's files. -/
namespace Sys2Proof.Machine

/-- What is left of a map in canonical form after some keys are dropped is in canonical form. -/
theorem rising_filter {α : Type} (p : Nat × α → Bool) : ∀ (l : List (Nat × α)) {b : Nat}, Sparse.rising b l = true → Sparse.rising b (l.filter p) = true
  | [], _, h => h
  | (j, v) :: l, b, h => by
    obtain ⟨hb, hl⟩ := Bool.and_eq_true_iff.1 h
    have ih := rising_filter p l hl
    rw [List.filter_cons]
    split
    · exact Bool.and_eq_true_iff.2 ⟨hb, ih⟩
    · exact Sparse.rising_mono ih (Nat.le_succ_of_le (of_decide_eq_true hb))
theorem wf_filter {α : Type} [DecidableEq α] {d : Nat → α} {l : List (Nat × α)} (p : Nat × α → Bool) (h : Sparse.wf d l = true) : Sparse.wf d (l.filter p) = true := by
  obtain ⟨hrising, hproper⟩ := Bool.and_eq_true_iff.1 h
  refine Bool.and_eq_true_iff.2 ⟨rising_filter p l hrising, List.all_eq_true.2 fun x hx => ?_⟩
  exact List.all_eq_true.1 hproper x (List.mem_filter.1 hx).1
theorem canonical_filter {u : State} (h : u.canonical) (p : Nat × Byte → Bool) (q : Nat × Mark → Bool) :
    memWf (u.mem.filter p) = true ∧ Sparse.wf (fun _ => Mark.good) (u.marks.filter q) = true := ⟨wf_filter p h.1, wf_filter q h.2⟩
/-- A result whose next state, if it has one, keeps memory and marks in canonical form. -/
def NextCanon (s : State) (r : Result) : Prop := ∀ u, r = .next u → Canon s u

section
variable {s u v : State}
theorem Canon.ite {p : Prop} {inst : Decidable p} (h : Canon s u) (k : Canon s v) : Canon s (if p then u else v) := by
  split
  · exact h
  · exact k
theorem Canon.mk_fst {α : Type} {a : α} (h : Canon s v) : Canon s (v, a).1 := h
theorem Canon.mk_snd {α : Type} {a : α} (h : Canon s v) : Canon s (a, v).2 := h
theorem Canon.mk_thd {α β : Type} {a : α} {b : β} (h : Canon s v) : Canon s (a, b, v).2.2 := h
theorem Canon.mk_fth {α β γ : Type} {a : α} {b : β} {c : γ} (h : Canon s v) : Canon s (a, b, c, v).2.2.2 := h
theorem Canon.ite_fst {α : Type} {p : Prop} {inst : Decidable p} {x y : State × α} (h : Canon s x.1) (k : Canon s y.1) : Canon s (if p then x else y).1 := by
  split
  · exact h
  · exact k
theorem Canon.ite_snd {α : Type} {p : Prop} {inst : Decidable p} {x y : α × State} (h : Canon s x.2) (k : Canon s y.2) : Canon s (if p then x else y).2 := by
  split
  · exact h
  · exact k
theorem Canon.ite_thd {α β : Type} {p : Prop} {inst : Decidable p} {x y : α × β × State} (h : Canon s x.2.2) (k : Canon s y.2.2) : Canon s (if p then x else y).2.2 := by
  split
  · exact h
  · exact k
theorem Canon.ite_fth {α β γ : Type} {p : Prop} {inst : Decidable p} {x y : α × β × γ × State} (h : Canon s x.2.2.2) (k : Canon s y.2.2.2) :
    Canon s (if p then x else y).2.2.2 := by
  split
  · exact h
  · exact k
/-- A fold keeps the form where each of its steps does. -/
theorem Canon.foldl {α : Type} {f : State → α → State} {l : List α} (h : Canon s u) (hf : ∀ v x, Canon s v → Canon s (f v x)) : Canon s (l.foldl f u) := by
  induction l generalizing u with
  | nil => exact h
  | cons x l ih => exact ih (hf u x h)
theorem Canon.foldl_fst {α β : Type} {f : State × β → α → State × β} {l : List α} {p : State × β} (h : Canon s p.1) (hf : ∀ x a, Canon s x.1 → Canon s (f x a).1) :
    Canon s (l.foldl f p).1 := by
  induction l generalizing p with
  | nil => exact h
  | cons x l ih => exact ih (hf p x h)
theorem Canon.getD {o : Option State} (h : Canon s u) (ho : ∀ v, o = some v → Canon s v) : Canon s (o.getD u) := by
  cases o with
  | none => exact h
  | some v => exact ho v rfl
/-- A record update of fields other than memory and marks. -/
theorem Canon.update (h : Canon s u) {pending dev now clk fresh freeCtr fuses pins store start regs cores engines towers trees arbs txq txLinks rxLinks ingests rings
    lattices lanes frames d2d times ops atomSeq cache invs fetches lockEnd prevEpoch boundary onyx cal shards egress ratios mesh deskews adapts out} :
    Canon s ⟨pending, dev, now, clk, fresh, freeCtr, fuses, pins, store, start, regs, u.mem, u.marks, cores, engines, towers, trees, arbs, txq, txLinks, rxLinks, ingests,
      rings, lattices, lanes, frames, d2d, times, ops, atomSeq, cache, invs, fetches, lockEnd, prevEpoch, boundary, onyx, cal, shards, egress, ratios, mesh, deskews,
      adapts, out⟩ := h
theorem NextCanon.next (h : Canon s u) : NextCanon s (.next u) := fun v hv => by
  cases hv
  exact h
theorem NextCanon.fault {x : Fault} : NextCanon s (.fault x) := fun _ h => by cases h
theorem NextCanon.refused {x : Refusal} : NextCanon s (.refused x) := fun _ h => by cases h
theorem NextCanon.ite {p : Prop} {inst : Decidable p} {a b : Result} (h : NextCanon s a) (k : NextCanon s b) : NextCanon s (if p then a else b) := by
  split
  · exact h
  · exact k
end
end Sys2Proof.Machine
end

section
/-! The canonical form is kept (R116, R117, R352): registers, records, bytes and landings. -/
namespace Sys2Proof.Machine
variable {s u : State}
theorem Canon.wr (h : Canon s u) (a : Nat) (v₁ : Word) : Canon s (u.wr a v₁) := h.update
theorem Canon.putF (h : Canon s u) (a : Nat) (f : Fld) (v₁ : Nat) : Canon s (u.putF a f v₁) := h.wr _ _
theorem Canon.putB (h : Canon s u) (a : Nat) (f : Fld) (b : Bool) : Canon s (u.putB a f b) := h.putF _ _ _
theorem Canon.bump (h : Canon s u) (a : Nat) (f : Fld) (n : Nat) : Canon s (u.bump a f n) := h.putF _ _ _
theorem Canon.raiseBit (h : Canon s u) (a : Nat) (f : Fld) : Canon s (u.raiseBit a f) := (h.putB _ _ _).update
theorem Canon.raise (h : Canon s u) (a : Nat) (f : Fld) (n : Nat) : Canon s (u.raise a f n) := h.putF _ _ _
theorem Canon.setBytes (h : Canon s u) (a : Nat) (l : List Byte) : Canon s (u.setBytes a l) := h.trans (u.setBytes_canon a l)
theorem Canon.setMark (h : Canon s u) (a : Nat) (m : Mark) : Canon s (u.setMark a m) := h.trans (u.setMark_canon a m)
theorem Canon.setMarks (h : Canon s u) (m : Mark) (l : List Nat) : Canon s (u.setMarks m l) := h.trans (u.setMarks_canon m l)
theorem Canon.setCore (h : Canon s u) (c : Nat) (k : Core) : Canon s (u.setCore c k) := h.update
theorem Canon.modCore (h : Canon s u) (c : Nat) (f : Core → Core) : Canon s (u.modCore c f) := h.setCore _ _
theorem Canon.setEngine (h : Canon s u) (c e : Nat) (x : Engine) : Canon s (u.setEngine c e x) := h.update
theorem Canon.setTower (h : Canon s u) (t : Nat) (x : Tower) : Canon s (u.setTower t x) := h.update
theorem Canon.setTree (h : Canon s u) (t i : Nat) (x : Tree) : Canon s (u.setTree t i x) := h.update
theorem Canon.setArb (h : Canon s u) (a : Arbiter) (x : Arb) : Canon s (u.setArb a x) := h.update
theorem Canon.setQueue (h : Canon s u) (r i : Nat) (l : List Packet) : Canon s (u.setQueue r i l) := h.update
theorem Canon.setTx (h : Canon s u) (l : Link) (x : TxLink) : Canon s (u.setTx l x) := h.update
theorem Canon.setRx (h : Canon s u) (l : Link) (r : Nat) (x : RxLink) : Canon s (u.setRx l r x) := h.update
theorem Canon.setRing (h : Canon s u) (a : Nat) (x : Ring) : Canon s (u.setRing a x) := h.update
theorem Canon.setLattice (h : Canon s u) (n : Nat) (x : Lattice) : Canon s (u.setLattice n x) := h.update
theorem Canon.setLane (h : Canon s u) (j : Nat) (x : Lane) : Canon s (u.setLane j x) := h.update
theorem Canon.setFrames (h : Canon s u) (e j : Nat) (l : List Frame) : Canon s (u.setFrames e j l) := h.update
theorem Canon.setGroup (h : Canon s u) (t g : Nat) (x : D2d) : Canon s (u.setGroup t g x) := h.update
theorem Canon.setTime (h : Canon s u) (n : Nat) (x : TimeUnit) : Canon s (u.setTime n x) := h.update
theorem Canon.setOp (h : Canon s u) (r tag : Nat) (o : RemOp) : Canon s (u.setOp r tag o) := h.update
theorem Canon.dropOp (h : Canon s u) (r tag : Nat) : Canon s (u.dropOp r tag) := h.update
theorem Canon.setCal (h : Canon s u) (cls tile index : Nat) (v₁ : ℤ) : Canon s (u.setCal cls tile index v₁) := h.update
theorem Canon.setWorms (h : Canon s u) (c p : Nat) (l : List Worm) : Canon s (u.setWorms c p l) := h.update
theorem Canon.free (h : Canon s u) : Canon s u.free.2 := h.update
theorem Canon.emit (h : Canon s u) (e : Emit) : Canon s (u.emit e) := h.update
theorem Canon.at (h : Canon s u) (t : At) : Canon s (u.at t) := h.update
theorem Canon.ifAwake (h : Canon s u) {f : State → State} (hf : ∀ v, Canon s v → Canon s (f v)) : Canon s (u.ifAwake f) := by
  unfold State.ifAwake
  exact Canon.ite h (hf _ h)
theorem Canon.writeLog (h : Canon s u) (r : LogRec) : Canon s (u.writeLog r) := by
  unfold State.writeLog
  dsimp only
  refine Canon.ite ?_ ?_
  · exact ((h.putF _ _ _).putF _ _ _).update.bump _ _ _
  · exact Canon.ite (Canon.ite (((h.putF _ _ _).putF _ _ _).update.emit _) ((h.putF _ _ _).putF _ _ _).update) ((h.putF _ _ _).putF _ _ _).update
theorem Canon.flushMerge (h : Canon s u) (code source : Nat) : Canon s (u.flushMerge code source) := by
  unfold State.flushMerge
  dsimp only
  split
  · exact h
  · exact Canon.ite h (Canon.ite h.update (h.update.writeLog _))
theorem Canon.logAt (h : Canon s u) (code severity source : Nat) (args : List Nat) : Canon s (u.logAt code severity source args) := by
  unfold State.logAt
  dsimp only
  split
  · exact Canon.ite (((h.flushMerge _ _).flushMerge _ _).writeLog _) ((h.flushMerge _ _).flushMerge _ _).update
  · exact (((h.flushMerge _ _).flushMerge _ _).writeLog _).update
theorem Canon.log (h : Canon s u) (code source : Nat) (args : List Nat) : Canon s (u.log code source args) := h.logAt _ _ _ _
theorem Canon.startRatio (h : Canon s u) (n : Nat) : Canon s (u.startRatio n) := Canon.ite h (h.update.putB _ _ _)
theorem Canon.enter (h : Canon s u) (d : DevState) : Canon s (u.enter d) := by
  unfold State.enter
  dsimp only
  refine Canon.ite ?_ ?_
  · exact (Canon.ite (h.foldl fun _ _ hv => hv.startRatio _) h).update.putF _ _ _
  · exact ((Canon.ite (h.foldl fun _ _ hv => hv.startRatio _) h).update.putF _ _ _).emit _
theorem Canon.phaseTo (h : Canon s u) (p : Nat) : Canon s (u.phaseTo p) := h.raise _ _ _
theorem Canon.logStart (h : Canon s u) (cause : Nat) : Canon s (u.logStart cause) := h.log _ _ _
theorem Canon.startFail (h : Canon s u) (cause : Nat) : Canon s (u.startFail cause) := by
  unfold State.startFail
  dsimp only
  exact (((h.putF _ _ _).wr _ _).logStart _).enter _
theorem Canon.halt (h : Canon s u) (cause : Nat) : Canon s (u.halt cause) := (h.putF _ _ _).enter _
theorem Canon.holdCause (h : Canon s u) (b : Nat) : Canon s (u.holdCause b) := Canon.ite (h.update.putF _ _ _) h
theorem Canon.coreFault (h : Canon s u) (c : Nat) (f : Fld) : Canon s (u.coreFault c f) := Canon.ite (h.raiseBit _ _) ((h.raiseBit _ _).log _ _ _)
theorem Canon.retarget (h : Canon s u) (now : Bool) : Canon s (u.retarget now) :=
  h.foldl fun _ _ hv => hv.foldl fun _ _ hv2 => hv2.foldl fun _ _ hv3 => hv3.foldl fun _ _ hv4 => hv4.wr _ _
theorem Canon.markRing (h : Canon s u) (r : Nat) : Canon s (u.markRing r) := (h.foldl fun _ _ hv => (hv.wr _ _).putB _ _ _).putF _ _ _
theorem Canon.fenceRing (h : Canon s u) (r : Nat) : Canon s (u.fenceRing r) := Canon.ite h ((h.markRing _).retarget _)
theorem Canon.latStatus (h : Canon s u) (n : Nat) : Canon s (u.latStatus n) := (h.putF _ _ _).putB _ _ _
theorem Canon.latQueue (h : Canon s u) (n : Nat) (q : LatReq) : Canon s (u.latQueue n q) := by
  unfold State.latQueue
  dsimp only
  refine Canon.ite h ?_
  split
  · exact Canon.ite (h.setLattice _ _) (((h.setLattice _ _).bump _ _ _).log _ _ _)
  · exact h.setLattice _ _
theorem Canon.fenceLat (h : Canon s u) (e : Nat) : Canon s (u.fenceLat e) :=
  h.foldl fun _ _ hv => Canon.ite (hv.setLattice _ _) (((hv.setLattice _ _).latQueue _ _).latStatus _)
theorem Canon.markTowerFenced (h : Canon s u) (t : Nat) : Canon s (u.markTowerFenced t) := ((h.foldl fun _ _ hv => hv.putB _ _ _).setTower _ _).putB _ _ _
theorem Canon.fenceTower (h : Canon s u) (t : Nat) : Canon s (u.fenceTower t) := (((h.markTowerFenced _).fenceRing _).fenceLat _).holdCause _
theorem Canon.outside (h : Canon s u) (kind value cause : Nat) (permitted : Bool) : Canon s (u.outside kind value cause permitted) :=
  Canon.ite (Canon.ite h.update (h.update.startFail _)) h
theorem Canon.fenceLane (h : Canon s u) (j reason : Nat) : Canon s (u.fenceLane j reason) :=
  Canon.ite (((h.putF _ _ _).log _ _ _).outside _ _ _ _) ((((h.putF _ _ _).log _ _ _).outside _ _ _ _).holdCause _)
theorem Canon.fenceFibre (h : Canon s u) (x code : Nat) : Canon s (u.fenceFibre x code) :=
  Canon.ite (((h.putF _ _ _).log _ _ _).outside _ _ _ _) ((((h.putF _ _ _).log _ _ _).outside _ _ _ _).holdCause _)
theorem Canon.pmcAt (h : Canon s u) (sel cnt : Nat → Nat) (event n left : Nat) (b : Bool) : Canon s (u.pmcAt sel cnt event n left b) := by
  induction left generalizing b with
  | zero => exact h
  | succ left ih =>
    unfold State.pmcAt
    dsimp only
    refine Canon.ite (ih false) (Canon.ite ((ih false).putF _ _ _) (Canon.ite (Canon.ite ?_ ?_) ?_))
    · exact (((ih false).putF _ _ _).raiseBit _ _).putF _ _ _
    · exact ((((ih false).putF _ _ _).raiseBit _ _).putF _ _ _).raiseBit _ _
    · exact ((ih false).putF _ _ _).raiseBit _ _
theorem Canon.pmcCore (h : Canon s u) (c event n : Nat) : Canon s (u.pmcCore c event n) := Canon.ite (h.pmcAt _ _ _ _ _ _) h
theorem Canon.pmcRouter (h : Canon s u) (c event n : Nat) : Canon s (u.pmcRouter c event n) := Canon.ite (h.pmcAt _ _ _ _ _ _) h
theorem Canon.pmcRing (h : Canon s u) (r event n : Nat) : Canon s (u.pmcRing r event n) := Canon.ite (h.pmcAt _ _ _ _ _ _) h
theorem Canon.countTag (h : Canon s u) (r : Nat) (o : RemOp) : Canon s (u.countTag r o) := Canon.ite h (h.pmcRing _ _ _)
theorem Canon.countTags (h : Canon s u) : Canon s u.countTags := h.foldl fun _ _ hv => (hv.countTag _ _).setOp _ _ _
theorem Canon.freeOp (h : Canon s u) (r tag : Nat) : Canon s (u.freeOp r tag) := by
  unfold State.freeOp
  refine Canon.dropOp ?_ _ _
  split
  · exact h.countTag _ _
  · exact h
theorem Canon.unmerge (h : Canon s u) (c : Nat) (lines : List Nat) : Canon s (u.unmerge c lines) := Canon.ite (h.setArb _ _) h
theorem Canon.readWords (h : Canon s u) (c a : Nat) (merged : List Nat) (n : Nat) : Canon s (u.readWords c a merged n).2 :=
  h.trans (State.readWords_portReads c merged n u a).lands.canon
theorem Canon.drainWb (h : Canon s u) (c cyc : Nat) : Canon s (u.drainWb c cyc) :=
  Canon.ite h (Canon.ite (h.setCore _ _) (((((h.setCore _ _).setMarks _ _).unmerge _ _).pmcCore _ _ _).pmcCore _ _ _))
theorem Canon.vaultRead (h : Canon s u) (c code off n : Nat) : Canon s (u.vaultRead c code off n).2.2 := h.trans (u.vaultRead_lands c code off n).canon
theorem Canon.vaultWrite (h : Canon s u) (c off : Nat) (data : List Byte) (poisoned : List Nat) : Canon s (u.vaultWrite c off data poisoned) := by
  unfold State.vaultWrite
  dsimp only
  refine Canon.ite ?_ ?_
  · exact ((((h.drainWb _ _).setBytes _ _).setMarks _ _).setMarks _ _).unmerge _ _
  · exact (((((h.drainWb _ _).setBytes _ _).setMarks _ _).setMarks _ _).unmerge _ _).setCore _ _
theorem Canon.lineCorrected (h : Canon s u) (k a : Nat) : Canon s (u.lineCorrected k a) := Canon.ite ((h.bump _ _ _).setArb _ _) ((h.bump _ _ _).bump _ _ _)
theorem Canon.lineCode (h : Canon s u) (k a : Nat) : Canon s (u.lineCode k a).2 := by
  unfold State.lineCode
  split
  · exact h
  · exact h
  · exact h.lineCorrected _ _
  · exact h.lineCorrected _ _
  · exact (h.bump _ _ _).log _ _ _
theorem Canon.lineTaken (h : Canon s u) (may : Bool) (k a : Nat) : Canon s (u.lineTaken may k a).2 :=
  Canon.ite_snd (Canon.mk_snd (h.bump _ _ _)) (Canon.mk_snd ((h.lineCode _ _).setArb _ _))
theorem Canon.lineRead (h : Canon s u) (may : Bool) (k a n : Nat) : Canon s (u.lineRead may k a n).2 := by
  induction n generalizing u a with
  | zero => exact h
  | succ n ih => exact ih (h.lineTaken may k a) _
theorem Canon.readFor (h : Canon s u) (may : Bool) (a n : Nat) : Canon s (u.readFor may a n).2.2 := by
  unfold State.readFor
  dsimp only
  split
  · exact h.vaultRead _ _ _ _
  · exact h.lineRead _ _ _ _
  · exact h
theorem Canon.readAt (h : Canon s u) (a n : Nat) : Canon s (u.readAt a n).2.2 := h.readFor _ _ _
theorem Canon.onyxRead (h : Canon s u) (a n : Nat) : Canon s (u.onyxRead a n).2.2 := h.readFor _ _ _
theorem Canon.unmergeLines (h : Canon s u) (k : Nat) (ls : List Nat) : Canon s (u.unmergeLines k ls) := h.foldl fun _ _ hv => Canon.ite hv (hv.setArb _ _)
theorem Canon.writeAt (h : Canon s u) (a : Nat) (data : List Byte) (poisoned : List Nat) : Canon s (u.writeAt a data poisoned) := by
  unfold State.writeAt
  dsimp only
  split
  · exact h.vaultWrite _ _ _ _
  · exact (((h.unmergeLines _ _).setBytes _ _).setMarks _ _).setMarks _ _
  · exact h
end Sys2Proof.Machine
end
section
/-! The canonical form is kept (R116, R117, R352): operands of an instruction. -/
namespace Sys2Proof.Machine
variable {s u : State}
theorem Canon.ownRead (h : Canon s u) (c code off n : Nat) : Canon s (u.ownRead c code off n).2.2 := h.trans (u.ownRead_lands c code off n).canon
end Sys2Proof.Machine
end
section
/-! The canonical form is kept (R116, R117, R352): the cycle of a core. -/
namespace Sys2Proof.Machine
variable {s u : State}
theorem Canon.send (h : Canon s u) (c due pri : Nat) (e : Eff) : Canon s (u.send c due pri e) := Canon.ite (h.free.setCore _ _) (h.setCore _ _)
theorem Canon.sendReport (h : Canon s u) (c due : Nat) (i : Incl) : Canon s (u.sendReport c due i) := (h.modCore _ _).send _ _ _ _
theorem Canon.reportTime (h : Canon s u) (c due : Nat) : Canon s (u.reportTime c due) := h.modCore _ _
theorem Canon.landSteps (h : Canon s u) (c upto n : Nat) : Canon s (u.landSteps c upto n) := h.trans (State.landSteps_lands c upto n u).canon
theorem Canon.landCore (h : Canon s u) (c upto n : Nat) : Canon s (u.landCore c upto n) := (h.landSteps _ _ _).update
theorem Canon.countCycles (h : Canon s u) (c cyc : Nat) : Canon s (u.countCycles c cyc) := Canon.ite ((h.setCore _ _).pmcCore _ _ _) h
theorem Canon.settleDroop (h : Canon s u) (t cyc : Nat) : Canon s (u.settleDroop t cyc) :=
  Canon.ite h ((h.setTower _ _).foldl fun _ _ hv => (hv.bump _ _ _).pmcCore _ _ _)
theorem Canon.toCycle (h : Canon s u) (c cyc : Nat) : Canon s (u.toCycle c cyc) := (((h.landCore _ _ _).drainWb _ _).countCycles _ _).settleDroop _ _
theorem Canon.toCore (h : Canon s u) (t : At) (c : Nat) : Canon s (u.toCore t c) := (h.at _).toCycle _ _
theorem Canon.onCore_next (h : Canon s u) {t : At} {c : Nat} {f : State → State} (hf : ∀ v, Canon s v → Canon s (f v)) : NextCanon s (onCore t c u f) := by
  unfold onCore
  exact NextCanon.ite (.next (Canon.ite (h.at _) (hf _ (h.toCore _ _)))) .fault
theorem Canon.onSlot_next (h : Canon s u) {t : At} {g : Gate} {f : Bool → State → State} (hf : ∀ b v, Canon s v → Canon s (f b v)) : NextCanon s (onSlot t g u f) := by
  unfold onSlot
  exact h.onCore_next fun v hv => Canon.ite (hf _ v hv) hv
theorem Canon.ran (h : Canon s u) (c : Nat) : Canon s (u.ran c) := h.pmcCore _ _ _
theorem Canon.whenOn_next (h : Canon s u) {t : At} {g : Gate} {f : State → State} (hf : ∀ v, Canon s v → Canon s (f v)) : NextCanon s (whenOn t g u f) := by
  unfold whenOn
  exact h.onSlot_next fun _ v hv => Canon.ite ((hf v hv).ran _) hv
theorem Canon.always_next (h : Canon s u) {t : At} {c : Nat} {f : State → State} (hf : ∀ v, Canon s v → Canon s (f v)) : NextCanon s (always t c u f) := by
  unfold always
  exact h.onCore_next fun v hv => Canon.ite ((hf v hv).ran _) hv
theorem Canon.stall (h : Canon s u) (c n : Nat) : Canon s (u.stall c n) := ((h.bump _ _ _).pmcCore _ _ _).modCore _ _
theorem Canon.waits (h : Canon s u) (c cyc : Nat) (w : Wait) : Canon s (u.waits c cyc w) := h.modCore _ _
theorem Canon.markStage (h : Canon s u) (c i cyc : Nat) (which : Sample → Bool) : Canon s (u.markStage c i cyc which) := by
  unfold State.markStage
  dsimp only
  split
  · exact h
  · exact h.modCore _ _
theorem Canon.release (h : Canon s u) (c cyc : Nat) : Canon s (u.release c cyc) := by
  unfold State.release
  dsimp only
  refine Canon.markStage ?_ _ _ _ _
  refine Canon.modCore ?_ _ _
  split
  · exact h
  · exact h
  · exact h
  · exact h.pmcCore _ _ _
  · exact h.pmcCore _ _ _
end Sys2Proof.Machine
end
section
/-! The canonical form is kept (R116, R117, R352): what is sent on a link. -/
namespace Sys2Proof.Machine
variable {s u : State}
theorem Canon.transmit (h : Canon s u) (l : Link) (rx : List Nat) (fs : List (Nat × Nat)) : Canon s (u.transmit l rx fs) := by
  induction fs generalizing u with
  | nil => exact h
  | cons x fs ih => exact ih ((h.setTx _ _).emit _)
theorem Canon.sendAt (h : Canon s u) (r input : Nat) (p : Packet) : Canon s (u.sendAt r input p) := h.setQueue _ _ _
theorem Canon.drainFibre (h : Canon s u) (x n : Nat) : Canon s (u.drainFibre x n) := by
  induction n generalizing u with
  | zero => exact h
  | succ n ih =>
    unfold State.drainFibre
    split
    · exact h
    · exact Canon.ite (ih (((h.setQueue _ _ _).transmit _ _ _).pmcRing _ _ _)) h
theorem Canon.ontoFibre (h : Canon s u) (x hold : Nat) (p : Packet) : Canon s (u.ontoFibre x hold p) := (h.setQueue _ _ _).drainFibre _ _
theorem Canon.respond (h : Canon s u) (r : Nat) (p : Packet) : Canon s (u.respond r p) := by
  unfold State.respond
  split
  · exact h.sendAt _ _ _
  · exact h.bump _ _ _
theorem Canon.wake (h : Canon s u) (c cyc : Nat) : Canon s (u.wake c cyc) := by
  unfold State.wake
  split
  · exact Canon.ite (h.release _ _) h
  · exact Canon.ite (h.release _ _) h
  · exact h
end Sys2Proof.Machine
end
section
/-! The canonical form is kept (R116, R117, R352): remote operations of a core and their completion. -/
namespace Sys2Proof.Machine
variable {s u : State}
theorem Canon.queueFrame (h : Canon s u) (e j : Nat) (f : Frame) : Canon s (u.queueFrame e j f) := h.setFrames _ _ _
theorem Canon.fallback (h : Canon s u) (r e : Nat) (p : Packet) : Canon s (u.fallback r e p) := by
  unfold State.fallback
  dsimp only
  refine Canon.sendAt ?_ _ _ _
  refine Canon.pmcRing ?_ _ _ _
  refine Canon.bump ?_ _ _ _
  split
  · exact Canon.ite (h.setOp _ _ _) h
  · exact h
theorem Canon.sendLattice (h : Canon s u) (r kind i : Nat) (p : Packet) : Canon s (u.sendLattice r kind i p) := by
  unfold State.sendLattice
  dsimp only
  split
  · exact Canon.ite (h.fallback _ _ _) (h.queueFrame _ _ _)
  · exact h.sendAt _ _ _
theorem Canon.freeBytes (h : Canon s u) (n : Nat) : Canon s (u.freeBytes n).2 := h.free
theorem Canon.fetch (h : Canon s u) (c e a n cyc : Nat) : Canon s (u.fetch c e a n cyc).2.2.2 := h.trans (u.fetch_lands c e a n cyc).canon
theorem Canon.deliver (h : Canon s u) (c e : Nat) (p : Piece) (data : List Byte) (bad : List Nat) (cyc : Nat) : Canon s (u.deliver c e p data bad cyc) := by
  unfold State.deliver
  dsimp only
  split
  · split
    · exact Canon.ite h (Canon.ite (h.send _ _ _ _) (Canon.ite ((h.landCore _ _ _).modCore _ _) ((h.landCore _ _ _).vaultWrite _ _ _ _)))
    · exact h
  · exact h.send _ _ _ _
  · exact h.send _ _ _ _
theorem Canon.d2dPut (h : Canon s u) (tower g : Nat) (dir : Dir) (vc : Nat) (flits : List (List Byte)) : Canon s (u.d2dPut tower g dir vc flits) := h.setGroup _ _ _
theorem Canon.overGroup (h : Canon s u) (c : Nat) (dir : Dir) (vc : Nat) (p : Packet) : Canon s (u.overGroup c dir vc p) := h.d2dPut _ _ _ _ _
theorem Canon.wormOut (h : Canon s u) (c : Nat) (w : Worm) : Canon s (u.wormOut c w) := h.setWorms _ _ _
theorem Canon.carrierOut (h : Canon s u) (c : Nat) (p : Packet) : Canon s (u.carrierOut c p) := h.wormOut _ _
theorem Canon.carrierGone (h : Canon s u) (c tag : Nat) : Canon s (u.carrierGone c tag) := Canon.ite h.update h
theorem Canon.finishOp (h : Canon s u) (r tag : Nat) (o : RemOp) (st : Status) : Canon s (u.finishOp r tag o st) := by
  unfold State.finishOp
  dsimp only
  refine Canon.ite ?_ ?_
  · refine Canon.setOp ?_ _ _ _
    refine Canon.carrierGone ?_ _ _
    split
    · refine Canon.ite ?_ ?_
      · exact (Canon.ite ((Canon.ite (h.bump _ _ _) h).pmcCore _ _ _) (Canon.ite (h.bump _ _ _) h)).setEngine _ _ _
      · exact Canon.ite ((Canon.ite (h.bump _ _ _) h).pmcCore _ _ _) (Canon.ite (h.bump _ _ _) h)
    · exact Canon.ite ((Canon.ite (h.bump _ _ _) h).pmcCore _ _ _) (Canon.ite (h.bump _ _ _) h)
  · refine Canon.freeOp ?_ _ _
    refine Canon.carrierGone ?_ _ _
    split
    · refine Canon.ite ?_ ?_
      · exact (Canon.ite ((Canon.ite (h.bump _ _ _) h).pmcCore _ _ _) (Canon.ite (h.bump _ _ _) h)).setEngine _ _ _
      · exact Canon.ite ((Canon.ite (h.bump _ _ _) h).pmcCore _ _ _) (Canon.ite (h.bump _ _ _) h)
    · exact Canon.ite ((Canon.ite (h.bump _ _ _) h).pmcCore _ _ _) (Canon.ite (h.bump _ _ _) h)
theorem Canon.launch (h : Canon s u) (r tag input pl : Nat) (o : RemOp) : Canon s (u.launch r tag input pl o) := by
  unfold State.launch
  dsimp only
  refine Canon.ite (Canon.ite (h.setOp _ _ _) ((((h.setOp _ _ _).carrierOut _ _).overGroup _ _ _ _).emit _)) ?_
  split
  · exact (h.bump _ _ _).finishOp _ _ _ _
  · refine Canon.ite ((h.bump _ _ _).finishOp _ _ _ _) ?_
    refine Canon.ite (h.setOp _ _ _) ?_
    refine Canon.ite ?_ ?_
    · exact (((h.setOp _ _ _).carrierOut _ _).overGroup _ _ _ _).sendLattice _ _ _ _
    · exact (((h.setOp _ _ _).carrierOut _ _).overGroup _ _ _ _).sendAt _ _ _
theorem Canon.pumpFlags (h : Canon s u) (c cyc n : Nat) : Canon s (u.pumpFlags c cyc n) := by
  induction n generalizing u with
  | zero => exact h
  | succ n ih =>
    unfold State.pumpFlags
    split
    · exact ih (((h.free.modCore _ _).launch _ _ _ _ _).pmcCore _ _ _)
    · exact h
theorem Canon.afterOp (h : Canon s u) (c cyc : Nat) : Canon s (u.afterOp c cyc) := (h.pumpFlags _ _ _).wake _ _
end Sys2Proof.Machine
end
section
/-! The canonical form is kept (R116, R117, R352): barrier trees, flags and fences. -/
namespace Sys2Proof.Machine
variable {s u : State}
theorem Canon.gatherRack (h : Canon s u) (i tower stamp : Nat) : Canon s (u.gatherRack i tower stamp) := Canon.ite ((h.setTree _ _ _).sendAt _ _ _) (h.setTree _ _ _)
theorem Canon.treeDone (h : Canon s u) (t i cyc : Nat) : Canon s (u.treeDone t i cyc) := Canon.ite h (h.setTree _ _ _)
theorem Canon.treeStamp (h : Canon s u) (t i : Nat) : Canon s (u.treeStamp t i) :=
  Canon.ite (Canon.ite (h.setTree _ _ _) ((h.setTree _ _ _).sendAt _ _ _)) ((h.setTree _ _ _).sendAt _ _ _)
theorem Canon.treeArrive (h : Canon s u) (c i scope cyc : Nat) : Canon s (u.treeArrive c i scope cyc) :=
  (Canon.ite (((h.setTree _ _ _).modCore _ _).log _ _ _) ((h.setTree _ _ _).modCore _ _)).treeDone _ _ _
theorem Canon.barrier (h : Canon s u) (c mode scope i cyc : Nat) : Canon s (u.barrier c mode scope i cyc) := by
  unfold State.barrier
  dsimp only
  refine Canon.ite (h.log _ _ _) ?_
  refine Canon.ite ?_ ?_
  · exact Canon.ite (h.waits _ _ _) h
  · exact Canon.ite ((h.setTree _ _ _).waits _ _ _) (Canon.ite ((h.treeArrive _ _ _ _).waits _ _ _) (h.treeArrive _ _ _ _))
theorem Canon.arriveLater (h : Canon s u) (t i cyc : Nat) (l : List (Nat × Nat)) : Canon s (u.arriveLater t i cyc l) := by
  induction l generalizing u with
  | nil => exact h
  | cons x l ih => exact ih (Canon.ite ((h.treeArrive _ _ _ _).modCore _ _) ((h.treeArrive _ _ _ _).release _ _))
theorem Canon.treeRelease (h : Canon s u) (t i cyc : Nat) : Canon s (u.treeRelease t i cyc) :=
  ((h.setTree _ _ _).foldl fun _ _ hv2 => Canon.ite (hv2.release _ _) hv2).arriveLater _ _ _ _
theorem Canon.stepDone (h : Canon s u) (t cyc : Nat) : Canon s (u.stepDone t cyc) := Canon.ite h (h.setTower _ _)
theorem Canon.fenceCore (h : Canon s u) (c cyc : Nat) : Canon s (u.fenceCore c cyc) :=
  ((((h.putB _ _ _).modCore _ _).foldl fun _ _ hv2 => hv2.treeDone _ _ _).stepDone _ _).holdCause _
theorem Canon.setFlag (h : Canon s u) (c f : Nat) (b : Bool) : Canon s (u.setFlag c f b) := h.putB _ _ _
theorem Canon.flagEnter (h : Canon s u) (target src f cyc : Nat) : Canon s (u.flagEnter target src f cyc) := h.modCore _ _
theorem Canon.clearFlag (h : Canon s u) (c f cyc : Nat) : Canon s (u.clearFlag c f cyc) := (h.setFlag _ _ _).modCore _ _
theorem Canon.landFlag (h : Canon s u) (c cyc : Nat) : Canon s (u.landFlag c cyc) := by
  unfold State.landFlag
  dsimp only
  split
  · exact h
  · refine Canon.ite ?_ ?_
    · split
      · exact (h.setCore _ _).respond _ _
      · exact h.setCore _ _
    · split
      · refine Canon.ite ?_ ?_
        · refine Canon.ite ?_ ?_
          · refine Canon.release ?_ _ _
            split
            · exact (h.setCore _ _).respond _ _
            · exact h.setCore _ _
          · refine Canon.setFlag ?_ _ _ _
            refine Canon.release ?_ _ _
            split
            · exact (h.setCore _ _).respond _ _
            · exact h.setCore _ _
        · refine Canon.setFlag ?_ _ _ _
          split
          · exact (h.setCore _ _).respond _ _
          · exact h.setCore _ _
      · refine Canon.setFlag ?_ _ _ _
        split
        · exact (h.setCore _ _).respond _ _
        · exact h.setCore _ _
theorem Canon.fset (h : Canon s u) (c f : Nat) (w : Word) (cyc : Nat) : Canon s (u.fset c f w cyc) := Canon.ite (h.flagEnter _ _ _ _) ((h.modCore _ _).afterOp _ _)
end Sys2Proof.Machine
end
section
/-! The canonical form is kept (R116, R117, R352): the control slot. -/
namespace Sys2Proof.Machine
variable {s u : State}
theorem Canon.scalarTo_next (h : Canon s u) (t : At) (g : Gate) (d lat : Nat) (v₁ : State → Word) : NextCanon s (scalarTo t g d lat u v₁) :=
  h.whenOn_next fun _ hv => hv.send _ _ _ _
theorem Canon.scalarOp_next (h : Canon s u) (t : At) (g : Gate) (d a b : BitVec 5) (f : Word → Word → Word) : NextCanon s (scalarOp t g d a b u f) :=
  h.scalarTo_next _ _ _ _ _
theorem Canon.scalarImm_next (h : Canon s u) (t : At) (g : Gate) (d a : BitVec 5) (imm : Word) (f : Word → Word → Word) : NextCanon s (scalarImm t g d a imm u f) :=
  h.scalarTo_next _ _ _ _ _
theorem Canon.predTo_next (h : Canon s u) (t : At) (g : Gate) (p : BitVec 3) (v₁ : State → Bool) : NextCanon s (predTo t g p u v₁) :=
  h.whenOn_next fun _ hv => hv.send _ _ _ _
theorem Canon.execNop_next (h : Canon s u) (t : At) (g : Gate) (_slot : Slot) : NextCanon s (execNop t g _slot u) := h.onCore_next fun _ hv => hv
theorem Canon.execAdd_next (h : Canon s u) (t : At) (g : Gate) (d a b : BitVec 5) : NextCanon s (execAdd t g d a b u) := h.scalarOp_next _ _ _ _ _ _
theorem Canon.execSub_next (h : Canon s u) (t : At) (g : Gate) (d a b : BitVec 5) : NextCanon s (execSub t g d a b u) := h.scalarOp_next _ _ _ _ _ _
theorem Canon.execAnd_next (h : Canon s u) (t : At) (g : Gate) (d a b : BitVec 5) : NextCanon s (execAnd t g d a b u) := h.scalarOp_next _ _ _ _ _ _
theorem Canon.execOr_next (h : Canon s u) (t : At) (g : Gate) (d a b : BitVec 5) : NextCanon s (execOr t g d a b u) := h.scalarOp_next _ _ _ _ _ _
theorem Canon.execXor_next (h : Canon s u) (t : At) (g : Gate) (d a b : BitVec 5) : NextCanon s (execXor t g d a b u) := h.scalarOp_next _ _ _ _ _ _
theorem Canon.execShl_next (h : Canon s u) (t : At) (g : Gate) (d a b : BitVec 5) : NextCanon s (execShl t g d a b u) := h.scalarOp_next _ _ _ _ _ _
theorem Canon.execShr_next (h : Canon s u) (t : At) (g : Gate) (d a b : BitVec 5) : NextCanon s (execShr t g d a b u) := h.scalarOp_next _ _ _ _ _ _
theorem Canon.execSar_next (h : Canon s u) (t : At) (g : Gate) (d a b : BitVec 5) : NextCanon s (execSar t g d a b u) := h.scalarOp_next _ _ _ _ _ _
theorem Canon.execMul_next (h : Canon s u) (t : At) (g : Gate) (d a b : BitVec 5) : NextCanon s (execMul t g d a b u) := h.scalarTo_next _ _ _ _ _
theorem Canon.execMin_next (h : Canon s u) (t : At) (g : Gate) (d a b : BitVec 5) : NextCanon s (execMin t g d a b u) := h.scalarOp_next _ _ _ _ _ _
theorem Canon.execMax_next (h : Canon s u) (t : At) (g : Gate) (d a b : BitVec 5) : NextCanon s (execMax t g d a b u) := h.scalarOp_next _ _ _ _ _ _
theorem Canon.execAddi_next (h : Canon s u) (t : At) (g : Gate) (d a : BitVec 5) (imm : BitVec 12) : NextCanon s (execAddi t g d a imm u) :=
  h.scalarImm_next _ _ _ _ _ _
theorem Canon.execAndi_next (h : Canon s u) (t : At) (g : Gate) (d a : BitVec 5) (imm : BitVec 12) : NextCanon s (execAndi t g d a imm u) :=
  h.scalarImm_next _ _ _ _ _ _
theorem Canon.execOri_next (h : Canon s u) (t : At) (g : Gate) (d a : BitVec 5) (imm : BitVec 12) : NextCanon s (execOri t g d a imm u) :=
  h.scalarImm_next _ _ _ _ _ _
theorem Canon.execXori_next (h : Canon s u) (t : At) (g : Gate) (d a : BitVec 5) (imm : BitVec 12) : NextCanon s (execXori t g d a imm u) :=
  h.scalarImm_next _ _ _ _ _ _
theorem Canon.shiftImm_next (h : Canon s u) (t : At) (g : Gate) (d a : BitVec 5) (imm : BitVec 12) (f : Word → Nat → Word) : NextCanon s (shiftImm t g d a imm u f) :=
  h.scalarTo_next _ _ _ _ _
theorem Canon.execShli_next (h : Canon s u) (t : At) (g : Gate) (d a : BitVec 5) (imm : BitVec 12) : NextCanon s (execShli t g d a imm u) :=
  h.shiftImm_next _ _ _ _ _ _
theorem Canon.execShri_next (h : Canon s u) (t : At) (g : Gate) (d a : BitVec 5) (imm : BitVec 12) : NextCanon s (execShri t g d a imm u) :=
  h.shiftImm_next _ _ _ _ _ _
theorem Canon.execSari_next (h : Canon s u) (t : At) (g : Gate) (d a : BitVec 5) (imm : BitVec 12) : NextCanon s (execSari t g d a imm u) :=
  h.shiftImm_next _ _ _ _ _ _
theorem Canon.execMovi_next (h : Canon s u) (t : At) (g : Gate) (d : BitVec 5) (imm : BitVec 17) : NextCanon s (execMovi t g d imm u) := h.scalarTo_next _ _ _ _ _
theorem Canon.execInsl_next (h : Canon s u) (t : At) (g : Gate) (d : BitVec 5) (q : Bool) (imm : BitVec 16) : NextCanon s (execInsl t g d q imm u) :=
  h.scalarTo_next _ _ _ _ _
theorem Canon.execInsh_next (h : Canon s u) (t : At) (g : Gate) (d : BitVec 5) (q : Bool) (imm : BitVec 16) : NextCanon s (execInsh t g d q imm u) :=
  h.scalarTo_next _ _ _ _ _
theorem Canon.execCmp_next (h : Canon s u) (t : At) (g : Gate) (pd cond : BitVec 3) (a b : BitVec 5) : NextCanon s (execCmp t g pd cond a b u) :=
  NextCanon.ite (h.predTo_next _ _ _ _) (h.onCore_next fun _ hv => hv)
theorem Canon.execCmpi_next (h : Canon s u) (t : At) (g : Gate) (pd cond : BitVec 3) (a : BitVec 5) (imm : BitVec 11) : NextCanon s (execCmpi t g pd cond a imm u) :=
  NextCanon.ite (h.predTo_next _ _ _ _) (h.onCore_next fun _ hv => hv)
theorem Canon.execPlog_next (h : Canon s u) (t : At) (g : Gate) (pd pa pb : BitVec 3) (op : BitVec 2) : NextCanon s (execPlog t g pd pa pb op u) :=
  h.predTo_next _ _ _ _
theorem Canon.sldRead (h : Canon s u) (c r off cyc : Nat) : Canon s (u.sldRead c r off cyc) := (h.ownRead _ _ _ _).send _ _ _ _
theorem Canon.sldAccess (h : Canon s u) (c r off cyc : Nat) : Canon s (u.sldAccess c r off cyc) := Canon.ite (h.modCore _ _) (h.sldRead _ _ _ _)
theorem Canon.execSld_next (h : Canon s u) (t : At) (g : Gate) (d a : BitVec 5) (imm : BitVec 12) : NextCanon s (execSld t g d a imm u) :=
  h.whenOn_next fun _ hv => hv.sldAccess _ _ _ _
theorem Canon.execSst_next (h : Canon s u) (t : At) (g : Gate) (d a : BitVec 5) (imm : BitVec 12) : NextCanon s (execSst t g d a imm u) :=
  h.whenOn_next fun _ hv => hv.send _ _ _ _
theorem Canon.specialRead (h : Canon s u) (c sel cyc : Nat) : Canon s (u.specialRead c sel cyc) := Canon.ite (h.setEngine _ _ _) h
theorem Canon.execSrd_next (h : Canon s u) (t : At) (g : Gate) (d : BitVec 5) (sel : BitVec 8) : NextCanon s (execSrd t g d sel u) :=
  h.whenOn_next fun _ hv => (hv.send _ _ _ _).specialRead _ _ _
theorem Canon.execVsel_next (h : Canon s u) (t : At) (g : Gate) (d : BitVec 5) (sel : BitVec 8) : NextCanon s (execVsel t g d sel u) := h.scalarTo_next _ _ _ _ _
theorem Canon.execCapc_next (h : Canon s u) (t : At) (g : Gate) (a b : BitVec 5) : NextCanon s (execCapc t g a b u) :=
  h.onSlot_next fun _ _ hv => Canon.ite ((hv.sendReport _ _ _).ran _) (hv.reportTime _ _)
theorem Canon.closeLoops (h : Canon s u) (c target : Nat) : Canon s (u.closeLoops c target) := h.foldl fun _ _ hv => Canon.ite hv (hv.putF _ _ _)
theorem Canon.branch (h : Canon s u) (c target cyc : Nat) : Canon s (u.branch c target cyc) := ((h.closeLoops _ _).modCore _ _).pmcCore _ _ _
theorem Canon.execBr_next (h : Canon s u) (t : At) (core : Nat) (target : BitVec 14) : NextCanon s (execBr t core target u) :=
  h.always_next fun _ hv => hv.branch _ _ _
theorem Canon.execBnz_next (h : Canon s u) (t : At) (core : Nat) (a : BitVec 5) (target : BitVec 14) : NextCanon s (execBnz t core a target u) :=
  h.always_next fun _ hv => Canon.ite (hv.branch _ _ _) hv
theorem Canon.execBz_next (h : Canon s u) (t : At) (core : Nat) (a : BitVec 5) (target : BitVec 14) : NextCanon s (execBz t core a target u) :=
  h.always_next fun _ hv => Canon.ite (hv.branch _ _ _) hv
theorem Canon.execJr_next (h : Canon s u) (t : At) (core : Nat) (a : BitVec 5) : NextCanon s (execJr t core a u) := h.always_next fun _ hv => hv.branch _ _ _
theorem Canon.openLoop (h : Canon s u) (c j last count : Nat) : Canon s (u.openLoop c j last count) := ((h.putF _ _ _).putF _ _ _).putF _ _ _
theorem Canon.execLoop_next (h : Canon s u) (t : At) (core : Nat) (lv : BitVec 2) (last : BitVec 14) (a : BitVec 5) : NextCanon s (execLoop t core lv last a u) :=
  h.always_next fun _ hv => Canon.ite ((hv.putF _ _ _).branch _ _ _) (hv.openLoop _ _ _ _)
theorem Canon.execLoopi_next (h : Canon s u) (t : At) (core : Nat) (lv : BitVec 2) (last : BitVec 14) (imm : BitVec 6) : NextCanon s (execLoopi t core lv last imm u) :=
  h.always_next fun _ hv => hv.openLoop _ _ _ _
theorem Canon.countLate (h : Canon s u) (c late : Nat) : Canon s (u.countLate c late) := ((h.bump _ _ _).raise _ _ _).pmcCore _ _ _
theorem Canon.execWaitt_next (h : Canon s u) (t : At) (core : Nat) (a : BitVec 5) (imm : BitVec 17) : NextCanon s (execWaitt t core a imm u) :=
  h.always_next fun _ hv => Canon.ite (hv.countLate _ _) (hv.waits _ _ _)
theorem Canon.execWaittRelease_next (h : Canon s u) (t : At) (core : Nat) : NextCanon s (execWaittRelease t core u) := by
  unfold execWaittRelease
  refine h.onCore_next fun _ hv => ?_
  split
  · exact Canon.ite (hv.release _ _) hv
  · exact hv
theorem Canon.execWaitse_next (h : Canon s u) (t : At) (core : Nat) (mask : BitVec 4) (n : BitVec 2) : NextCanon s (execWaitse t core mask n u) :=
  h.always_next fun _ hv => Canon.ite hv (hv.waits _ _ _)
theorem Canon.execBar_next (h : Canon s u) (t : At) (core : Nat) (mode scope : BitVec 2) (id : BitVec 4) : NextCanon s (execBar t core mode scope id u) :=
  NextCanon.ite (h.onCore_next fun _ hv => hv) (h.always_next fun _ hv => hv.barrier _ _ _ _ _)
theorem Canon.onTower_next (h : Canon s u) {t : At} {tower : Nat} {f : State → State} (hf : ∀ v, Canon s v → Canon s (f v)) : NextCanon s (onTower t tower u f) := by
  unfold onTower
  exact NextCanon.ite (.next ((h.at _).ifAwake hf)) .fault
theorem Canon.execBarrierTreeRelease_next (h : Canon s u) (t : At) (tower : Nat) (id : BitVec 4) : NextCanon s (execBarrierTreeRelease t tower id u) := by
  unfold execBarrierTreeRelease
  refine h.onTower_next fun _ hv => ?_
  split
  · exact Canon.ite (Canon.ite (hv.treeRelease _ _ _) (hv.treeStamp _ _)) hv
  · exact hv
theorem Canon.execFset_next (h : Canon s u) (t : At) (g : Gate) (f : BitVec 8) (a : BitVec 5) : NextCanon s (execFset t g f a u) :=
  h.whenOn_next fun _ hv => hv.fset _ _ _ _
theorem Canon.execFlagLand_next (h : Canon s u) (t : At) (core : Nat) : NextCanon s (execFlagLand t core u) := h.onCore_next fun _ hv => hv.landFlag _ _
theorem Canon.execFclr_next (h : Canon s u) (t : At) (g : Gate) (f : BitVec 8) : NextCanon s (execFclr t g f u) := h.whenOn_next fun _ hv => hv.clearFlag _ _ _
theorem Canon.execFwait_next (h : Canon s u) (t : At) (core : Nat) (f : BitVec 8) (clr : Bool) : NextCanon s (execFwait t core f clr u) :=
  h.always_next fun _ hv => Canon.ite (Canon.ite (hv.clearFlag _ _ _) hv) (hv.waits _ _ _)
theorem Canon.execFtest_next (h : Canon s u) (t : At) (g : Gate) (f : BitVec 8) (pd : BitVec 3) : NextCanon s (execFtest t g f pd u) := h.predTo_next _ _ _ _
theorem Canon.execFence_next (h : Canon s u) (t : At) (core : Nat) : NextCanon s (execFence t core u) := h.always_next fun _ hv => Canon.ite hv (hv.waits _ _ _)
theorem Canon.execLatr_next (h : Canon s u) (t : At) (g : Gate) (a b : BitVec 5) : NextCanon s (execLatr t g a b u) := h.whenOn_next fun _ hv => hv.emit _
theorem Canon.execStep_next (h : Canon s u) (t : At) (core : Nat) (h₁ : Bool) : NextCanon s (execStep t core h₁ u) :=
  h.always_next fun _ hv => (Canon.ite (((hv.waits _ _ _).modCore _ _).holdCause _) ((hv.waits _ _ _).modCore _ _)).stepDone _ _
theorem Canon.execHalt_next (h : Canon s u) (t : At) (core : Nat) : NextCanon s (execHalt t core u) := h.always_next fun _ hv => (hv.modCore _ _).stepDone _ _
end Sys2Proof.Machine
end
section
/-! The canonical form is kept (R116, R117, R352): the matrix slot. -/
namespace Sys2Proof.Machine
variable {s u : State}
theorem Canon.debit (h : Canon s u) (c d : Nat) : Canon s (u.debit c d) := h.setTower _ _
theorem Canon.countGoverned (h : Canon s u) (c cyc : Nat) : Canon s (u.countGoverned c cyc) := by
  unfold State.countGoverned
  dsimp only
  split
  · exact h
  · exact (((h.bump _ _ _).bump _ _ _).pmcCore _ _ _).modCore _ _
theorem Canon.startArray (h : Canon s u) (c : Nat) (o : ArrayOp) (report : Nat) : Canon s (u.startArray c o report) :=
  (((Canon.ite ((h.debit _ _).send _ _ _ _) (h.debit _ _)).reportTime _ _).modCore _ _).pmcCore _ _ _
theorem Canon.matrixArray_next (h : Canon s u) (t : At) (g : Gate) (i : Instr) (largest report : Nat) (op : State → ArrayOp) : NextCanon s (matrixArray t g i largest report op u) := by
  unfold matrixArray
  dsimp only
  refine h.onSlot_next fun _ _ hv => ?_
  refine Canon.ite (Canon.ite (hv.coreFault _ _) hv) ?_
  refine Canon.ite ?_ ?_
  · exact hv.stall _ _
  · exact Canon.ite (Canon.ite (((hv.countGoverned _ _).startArray _ _ _).ran _) ((hv.countGoverned _ _).startArray _ _ _)) ((hv.waits _ _ _).modCore _ _)
theorem Canon.execMma_next (h : Canon s u) (t : At) (g : Gate) (pair : BitVec 4) (acc init ah atHi bh : Bool) (kb : BitVec 6) : NextCanon s (execMma t g pair acc init ah atHi bh kb u) := by
  unfold execMma
  dsimp only
  split
  · exact h.onCore_next fun _ hv => hv
  · exact h.matrixArray_next _ _ _ _ _ _
theorem Canon.execMmac_next (h : Canon s u) (t : At) (g : Gate) (pair : BitVec 4) (acc init ah bh : Bool) (kb : BitVec 6) (pd : BitVec 3) (a : BitVec 5) : NextCanon s (execMmac t g pair acc init ah bh kb pd a u) := by
  unfold execMmac
  dsimp only
  split
  · exact h.onCore_next fun _ hv => hv
  · exact h.matrixArray_next _ _ _ _ _ _
theorem Canon.execArrayFoldWrite_next (h : Canon s u) (t : At) (core : Nat) : NextCanon s (execArrayFoldWrite t core u) := h.onCore_next fun _ hv => hv
theorem Canon.execChecksumResult_next (h : Canon s u) (t : At) (core : Nat) : NextCanon s (execChecksumResult t core u) := h.onCore_next fun _ hv => hv
theorem Canon.execAccrd_next (h : Canon s u) (t : At) (g : Gate) (vd : BitVec 6) (acc r : Bool) (row : BitVec 6) (a : BitVec 5) : NextCanon s (execAccrd t g vd acc r row a u) :=
  h.onSlot_next fun _ _ hv => Canon.ite (((hv.reportTime _ _).send _ _ _ _).ran _) (hv.reportTime _ _)
theorem Canon.execAccwr_next (h : Canon s u) (t : At) (g : Gate) (va : BitVec 6) (acc r : Bool) (row : BitVec 6) (a : BitVec 5) : NextCanon s (execAccwr t g va acc r row a u) :=
  h.onSlot_next fun _ _ hv => Canon.ite (((hv.reportTime _ _).send _ _ _ _).ran _) (hv.reportTime _ _)
theorem Canon.execAccclr_next (h : Canon s u) (t : At) (g : Gate) (acc : Bool) : NextCanon s (execAccclr t g acc u) :=
  h.onSlot_next fun _ _ hv => Canon.ite (((hv.reportTime _ _).send _ _ _ _).ran _) (hv.reportTime _ _)
end Sys2Proof.Machine
end
section
/-! The canonical form is kept (R116, R117, R352): the vector slot. -/
namespace Sys2Proof.Machine
variable {s u : State}
theorem Canon.vectorTo_next (h : Canon s u) (t : At) (g : Gate) (vd : BitVec 6) (lat : Nat) (v₁ : State → List Nat) : NextCanon s (vectorTo t g vd lat u v₁) :=
  h.whenOn_next fun _ hv => (hv.send _ _ _ _).pmcCore _ _ _
theorem Canon.vectorOp_next (h : Canon s u) (t : At) (g : Gate) (vd va vb : BitVec 6) (half : Bool) (f : Fmt → Nat → Nat → Nat) : NextCanon s (vectorOp t g vd va vb half u f) :=
  h.vectorTo_next _ _ _ _ _
theorem Canon.execVadd_next (h : Canon s u) (t : At) (g : Gate) (vd va vb : BitVec 6) (half : Bool) : NextCanon s (execVadd t g vd va vb half u) :=
  h.vectorOp_next _ _ _ _ _ _ _
theorem Canon.execVsub_next (h : Canon s u) (t : At) (g : Gate) (vd va vb : BitVec 6) (half : Bool) : NextCanon s (execVsub t g vd va vb half u) :=
  h.vectorOp_next _ _ _ _ _ _ _
theorem Canon.execVmul_next (h : Canon s u) (t : At) (g : Gate) (vd va vb : BitVec 6) (half : Bool) : NextCanon s (execVmul t g vd va vb half u) :=
  h.vectorOp_next _ _ _ _ _ _ _
theorem Canon.execVfma_next (h : Canon s u) (t : At) (g : Gate) (vd va vb : BitVec 6) (half : Bool) : NextCanon s (execVfma t g vd va vb half u) :=
  h.vectorTo_next _ _ _ _ _
theorem Canon.execVmin_next (h : Canon s u) (t : At) (g : Gate) (vd va vb : BitVec 6) (half : Bool) : NextCanon s (execVmin t g vd va vb half u) :=
  h.vectorOp_next _ _ _ _ _ _ _
theorem Canon.execVmax_next (h : Canon s u) (t : At) (g : Gate) (vd va vb : BitVec 6) (half : Bool) : NextCanon s (execVmax t g vd va vb half u) :=
  h.vectorOp_next _ _ _ _ _ _ _
theorem Canon.execVcmp_next (h : Canon s u) (t : At) (g : Gate) (vd va vb : BitVec 6) (cond : BitVec 3) : NextCanon s (execVcmp t g vd va vb cond u) :=
  NextCanon.ite (h.vectorTo_next _ _ _ _ _) (h.onCore_next fun _ hv => hv)
theorem Canon.execVselm_next (h : Canon s u) (t : At) (g : Gate) (vd va vb : BitVec 6) : NextCanon s (execVselm t g vd va vb u) := h.vectorTo_next _ _ _ _ _
theorem Canon.vectorUnary_next (h : Canon s u) (t : At) (g : Gate) (vd va : BitVec 6) (f : Nat → Nat) : NextCanon s (vectorUnary t g vd va u f) :=
  h.vectorTo_next _ _ _ _ _
theorem Canon.execVexp2_next (h : Canon s u) (t : At) (g : Gate) (vd va : BitVec 6) : NextCanon s (execVexp2 t g vd va u) := h.vectorUnary_next _ _ _ _ _
theorem Canon.execVlog2_next (h : Canon s u) (t : At) (g : Gate) (vd va : BitVec 6) : NextCanon s (execVlog2 t g vd va u) := h.vectorUnary_next _ _ _ _ _
theorem Canon.execVrcp_next (h : Canon s u) (t : At) (g : Gate) (vd va : BitVec 6) : NextCanon s (execVrcp t g vd va u) := h.vectorUnary_next _ _ _ _ _
theorem Canon.execVrsq_next (h : Canon s u) (t : At) (g : Gate) (vd va : BitVec 6) : NextCanon s (execVrsq t g vd va u) := h.vectorUnary_next _ _ _ _ _
theorem Canon.vectorReduce_next (h : Canon s u) (t : At) (g : Gate) (vd va : BitVec 6) (f : Nat → Nat → Nat) : NextCanon s (vectorReduce t g vd va u f) :=
  h.vectorTo_next _ _ _ _ _
theorem Canon.execVrsum_next (h : Canon s u) (t : At) (g : Gate) (vd va : BitVec 6) : NextCanon s (execVrsum t g vd va u) := h.vectorReduce_next _ _ _ _ _
theorem Canon.execVrmax_next (h : Canon s u) (t : At) (g : Gate) (vd va : BitVec 6) : NextCanon s (execVrmax t g vd va u) := h.vectorReduce_next _ _ _ _ _
theorem Canon.execVbcl_next (h : Canon s u) (t : At) (g : Gate) (vd va x : BitVec 6) : NextCanon s (execVbcl t g vd va x u) := h.vectorTo_next _ _ _ _ _
theorem Canon.execVbcs_next (h : Canon s u) (t : At) (g : Gate) (vd : BitVec 6) (a : BitVec 5) : NextCanon s (execVbcs t g vd a u) := h.vectorTo_next _ _ _ _ _
theorem Canon.execVext_next (h : Canon s u) (t : At) (g : Gate) (d : BitVec 5) (va x : BitVec 6) : NextCanon s (execVext t g d va x u) :=
  h.whenOn_next fun _ hv => (hv.send _ _ _ _).pmcCore _ _ _
theorem Canon.execVpack_next (h : Canon s u) (t : At) (g : Gate) (vd va vb : BitVec 6) : NextCanon s (execVpack t g vd va vb u) := h.vectorTo_next _ _ _ _ _
theorem Canon.execVunpk_next (h : Canon s u) (t : At) (g : Gate) (vd va : BitVec 6) (hi : Bool) : NextCanon s (execVunpk t g vd va hi u) := h.vectorTo_next _ _ _ _ _
theorem Canon.vldRead (h : Canon s u) (c v₁ off cyc : Nat) : Canon s (u.vldRead c v₁ off cyc) := (h.ownRead _ _ _ _).send _ _ _ _
theorem Canon.execVld_next (h : Canon s u) (t : At) (g : Gate) (d : BitVec 6) (a : BitVec 5) (imm : BitVec 11) : NextCanon s (execVld t g d a imm u) :=
  h.whenOn_next fun _ hv => (Canon.ite (hv.modCore _ _) (hv.vldRead _ _ _ _)).pmcCore _ _ _
theorem Canon.execVst_next (h : Canon s u) (t : At) (g : Gate) (d : BitVec 6) (a : BitVec 5) (imm : BitVec 11) : NextCanon s (execVst t g d a imm u) :=
  h.whenOn_next fun _ hv => (hv.send _ _ _ _).pmcCore _ _ _
theorem Canon.vaultBlock (h : Canon s u) (c : Nat) (f : Elem) (off scale : Nat) : Canon s (u.vaultBlock c f off scale).2 := (h.ownRead _ _ _ _).ownRead _ _ _ _
theorem Canon.vaultBlocks (h : Canon s u) (c : Nat) (f : Elem) (off scale n : Nat) : Canon s (u.vaultBlocks c f off scale n).2 := by
  induction n generalizing u off scale with
  | zero => exact h
  | succ n ih =>
    have hblock := h.vaultBlock c f (off % 2 ^ 24) (scale % 2 ^ 24)
    unfold State.vaultBlocks
    generalize u.vaultBlock c f (off % 2 ^ 24) (scale % 2 ^ 24) = r at hblock
    exact ih hblock _ _
theorem Canon.advance (h : Canon s u) (c due r : Nat) (f : Fld) (n : Nat) : Canon s (u.advance c due r f n) := h.send _ _ _ _
theorem Canon.vdqRead (h : Canon s u) (c v₁ fmt tscale data scale cyc : Nat) : Canon s (u.vdqRead c v₁ fmt tscale data scale cyc) := by
  unfold State.vdqRead
  dsimp only
  split
  · exact ((h.vaultBlocks _ _ _ _ _).send _ _ _ _).sendReport _ _ _
  · exact h
theorem Canon.execVdq_next (h : Canon s u) (t : At) (g : Gate) (vd : BitVec 6) (k : BitVec 3) (p : Bool) : NextCanon s (execVdq t g vd k p u) := by
  unfold execVdq
  dsimp only
  refine h.onSlot_next fun _ _ hv => ?_
  refine Canon.ite hv ?_
  refine Canon.ite (hv.reportTime _ _) ?_
  split
  · refine Canon.ite ?_ ?_
    · refine Canon.ran ?_ _
      refine Canon.pmcCore ?_ _ _ _
      refine Canon.ite ?_ ?_
      · exact ((Canon.ite ((hv.modCore _ _).reportTime _ _) (hv.vdqRead _ _ _ _ _ _ _)).advance _ _ _ _ _).advance _ _ _ _ _
      · exact Canon.ite ((hv.modCore _ _).reportTime _ _) (hv.vdqRead _ _ _ _ _ _ _)
    · exact hv.reportTime _ _
  · exact hv.reportTime _ _
theorem Canon.residuals (h : Canon s u) (c off n : Nat) : Canon s (u.residuals c off n).2 := by
  induction n generalizing u off with
  | zero => exact h
  | succ n ih =>
    have hread := h.ownRead c 11 (off % 2 ^ 24) 32
    unfold State.residuals
    generalize u.ownRead c 11 (off % 2 ^ 24) 32 = r at hread
    exact ih hread _
theorem Canon.quantTo (h : Canon s u) (c due dst off : Nat) (scale : Bool) (b : List Byte) : Canon s (u.quantTo c due dst off scale b) :=
  Canon.ite (Canon.ite h (h.send _ _ _ _)) (Canon.ite h (h.send _ _ _ _))
theorem Canon.quantRun (h : Canon s u) (c cyc : Nat) (q : Quant) : Canon s (u.quantRun c cyc q) := by
  unfold State.quantRun
  dsimp only
  split
  · refine Canon.sendReport ?_ _ _ _
    refine Canon.ite ?_ ?_
    · refine Canon.quantTo ?_ _ _ _ _ _ _
      refine Canon.quantTo ?_ _ _ _ _ _ _
      refine Canon.quantTo ?_ _ _ _ _ _ _
      exact Canon.ite_snd (h.residuals _ _ _) (Canon.mk_snd h)
    · refine Canon.quantTo ?_ _ _ _ _ _ _
      refine Canon.quantTo ?_ _ _ _ _ _ _
      exact Canon.ite_snd (h.residuals _ _ _) (Canon.mk_snd h)
  · exact h
theorem Canon.execVq_next (h : Canon s u) (t : At) (g : Gate) (vs : BitVec 6) (k : BitVec 3) (a : BitVec 5) (dst : BitVec 3) (sr ef p h₁ : Bool) : NextCanon s (execVq t g vs k a dst sr ef p h₁ u) := by
  unfold execVq
  dsimp only
  refine NextCanon.ite (h.onCore_next fun _ hv => hv) ?_
  refine h.onSlot_next fun _ _ hv => ?_
  refine Canon.ite (hv.reportTime _ _) ?_
  split
  · refine Canon.ite ?_ ?_
    · refine Canon.ran ?_ _
      refine Canon.pmcCore ?_ _ _ _
      refine Canon.pmcCore ?_ _ _ _
      refine Canon.ite ?_ ?_
      · refine Canon.ite ?_ ?_
        · exact ((((Canon.ite ((hv.modCore _ _).reportTime _ _) (hv.quantRun _ _ _)).advance _ _ _ _ _).advance _ _ _ _ _).advance _ _ _ _ _).send _ _ _ _
        · exact (((Canon.ite ((hv.modCore _ _).reportTime _ _) (hv.quantRun _ _ _)).advance _ _ _ _ _).advance _ _ _ _ _).advance _ _ _ _ _
      · exact Canon.ite ((hv.modCore _ _).reportTime _ _) (hv.quantRun _ _ _)
    · exact hv.reportTime _ _
  · exact hv.reportTime _ _
end Sys2Proof.Machine
end
section
/-! The canonical form is kept (R116, R117, R352): the stream slot and its engines. -/
namespace Sys2Proof.Machine
variable {s u : State}
theorem Canon.enqueue (h : Canon s u) (c e : Nat) (t : At) (on : Bool) (a : Act) : Canon s (u.enqueue c e t on a) :=
  Canon.ite ((h.setEngine _ _ _).ran _) (h.setEngine _ _ _)
theorem Canon.streamIssue_next (h : Canon s u) (t : At) (g : Gate) (e : BitVec 2) (act : State → Act) : NextCanon s (streamIssue t g e u act) :=
  h.onSlot_next fun _ _ hv => Canon.ite (hv.stall _ _) (hv.enqueue _ _ _ _ _)
theorem Canon.unlessReserved_next (h : Canon s u) {reserved : Bool} {t : At} {c : Nat} {r : Result} (hr : NextCanon s r) : NextCanon s (unlessReserved reserved t c u r) := by
  unfold unlessReserved
  exact NextCanon.ite (h.onCore_next fun _ hv => hv) hr
theorem Canon.execScopy_next (h : Canon s u) (t : At) (g : Gate) (e : BitVec 2) (dk : BitVec 3) (pl : BitVec 2) (d a b : BitVec 5) : NextCanon s (execScopy t g e dk pl d a b u) :=
  h.unlessReserved_next (h.streamIssue_next _ _ _ _)
theorem Canon.execStile_next (h : Canon s u) (t : At) (g : Gate) (e dst : BitVec 2) (hi : Bool) (k : BitVec 3) (kb : BitVec 6) (pl : BitVec 2) : NextCanon s (execStile t g e dst hi k kb pl u) :=
  h.unlessReserved_next (h.streamIssue_next _ _ _ _)
theorem Canon.execSflag_next (h : Canon s u) (t : At) (g : Gate) (e : BitVec 2) (a : BitVec 5) : NextCanon s (execSflag t g e a u) := h.streamIssue_next _ _ _ _
theorem Canon.execSatom_next (h : Canon s u) (t : At) (g : Gate) (e : BitVec 2) (op : BitVec 4) (w : Bool) (d a b : BitVec 5) : NextCanon s (execSatom t g e op w d a b u) :=
  h.unlessReserved_next (h.streamIssue_next _ _ _ _)
theorem Canon.execSinv_next (h : Canon s u) (t : At) (g : Gate) (e : BitVec 2) (a : BitVec 5) : NextCanon s (execSinv t g e a u) := h.streamIssue_next _ _ _ _
theorem Canon.execSmcast_next (h : Canon s u) (t : At) (g : Gate) (e : BitVec 2) (c d a b : BitVec 5) : NextCanon s (execSmcast t g e c d a b u) :=
  h.streamIssue_next _ _ _ _
theorem Canon.execRecst_next (h : Canon s u) (t : At) (g : Gate) (e : BitVec 2) (a b : BitVec 5) : NextCanon s (execRecst t g e a b u) :=
  h.onSlot_next fun _ _ hv => Canon.ite (hv.stall _ _) (((hv.modCore _ _).send _ _ _ _).enqueue _ _ _ _ _)
theorem Canon.execRecordForm_next (h : Canon s u) (t : At) (core : Nat) : NextCanon s (execRecordForm t core u) := h.onCore_next fun _ hv => hv
theorem Canon.execRecmg_next (h : Canon s u) (t : At) (g : Gate) (e : BitVec 2) (d a b : BitVec 5) : NextCanon s (execRecmg t g e d a b u) :=
  h.streamIssue_next _ _ _ _
theorem Canon.readRows (h : Canon s u) (c e cyc : Nat) (l : List Row) : Canon s (u.readRows c e cyc l).2.2 := h.trans (State.readRows_lands c e cyc l u).canon
theorem Canon.refuse (h : Canon s u) (c e cyc : Nat) (rows : List Row) : Canon s (u.refuse c e cyc rows) := by
  unfold State.refuse
  dsimp only
  refine Canon.setEngine ?_ _ _ _
  split
  · exact h.coreFault _ _
  · exact h
theorem Canon.startNothing (h : Canon s u) (c e cyc : Nat) : Canon s (u.startNothing c e cyc) := h.setEngine _ _ _
theorem Canon.runWorms (h : Canon s u) (c e : Nat) (d : Desc) (ps : List Piece) : Canon s (u.runWorms c e d ps) := by
  obtain ⟨m, hworms⟩ := State.runWorms_only c e d ps u
  rw [hworms]
  exact h.update
theorem Canon.nearRun (h : Canon s u) (c e : Nat) (d : Desc) (cyc : Nat) (rows : List Row) : Canon s (u.nearRun c e d cyc rows) := by
  unfold State.nearRun
  dsimp only
  refine Canon.runWorms (Canon.setEngine ?_ _ _ _) _ _ _ _
  exact Canon.ite_thd (h.readRows _ _ _ _) (Canon.mk_thd h)
theorem Canon.startRuns (h : Canon s u) (c e : Nat) (d : Desc) (cyc : Nat) (l : List Run) : Canon s (u.startRuns c e d cyc l) := by
  induction l generalizing u cyc with
  | nil => exact h.setEngine _ _ _
  | cons r l ih =>
    cases r with
    | far ps => exact h.setEngine _ _ _
    | near rows =>
      rw [State.startRuns_near]
      exact ih (h.nearRun c e d cyc rows) _
theorem Canon.startCopy (h : Canon s u) (c e cyc : Nat) (d : Desc) : Canon s (u.startCopy c e cyc d) :=
  Canon.ite (h.startNothing _ _ _) (Canon.ite (Canon.ite (h.refuse _ _ _ _) (h.startNothing _ _ _)) (h.startRuns _ _ _ _ _))
theorem Canon.startRecord (h : Canon s u) (c e cyc extra addr : Nat) (d : Desc) (data : List Byte) (bad : List Nat) : Canon s (u.startRecord c e cyc extra addr d data bad) := by
  unfold State.startRecord
  dsimp only
  refine Canon.ite ?_ ?_
  · exact Canon.ite (h.refuse _ _ _ _) (h.startNothing _ _ _)
  · exact Canon.ite ((h.setEngine _ _ _).startRuns _ _ _ _ _) ((h.setEngine _ _ _).setEngine _ _ _)
theorem Canon.startOne (h : Canon s u) (c e cyc : Nat) (d : Desc) (p : Piece) : Canon s (u.startOne c e cyc d p) := h.startRuns _ _ _ _ _
theorem Canon.startHead (h : Canon s u) (c e cyc : Nat) : Canon s (u.startHead c e cyc) := by
  unfold State.startHead
  dsimp only
  split
  · refine Canon.ite h ?_
    split
    · exact h.startCopy _ _ _ _
    · exact h.startCopy _ _ _ _
    · exact h.setEngine _ _ _
    · exact Canon.ite (h.startOne _ _ _ _ _) (h.setEngine _ _ _)
    · exact h.startOne _ _ _ _ _
    · refine Canon.ite (Canon.ite (h.refuse _ _ _ _) (h.startNothing _ _ _)) ?_
      refine Canon.startOne ?_ _ _ _ _ _
      refine Canon.setEngine ?_ _ _ _
      exact Canon.ite_fth (h.fetch _ _ _ _ _) (Canon.mk_fth h)
    · exact Canon.ite h (h.startRecord _ _ _ _ _ _ _ _)
    · refine Canon.startRecord ?_ _ _ _ _ _ _ _ _
      refine Canon.ite_thd ?_ ?_
      · refine Canon.ownRead ?_ _ _ _ _
        exact Canon.ite_thd (h.ownRead _ _ _ _) (Canon.mk_thd h)
      · refine Canon.mk_thd ?_
        exact Canon.ite_thd (h.ownRead _ _ _ _) (Canon.mk_thd h)
  · exact h
theorem Canon.execDescriptorStart_next (h : Canon s u) (t : At) (core : Nat) (e : BitVec 2) : NextCanon s (execDescriptorStart t core e u) :=
  h.onCore_next fun _ hv => Canon.ite (Canon.ite ((hv.startHead _ _ _).markStage _ _ _ _) (hv.startHead _ _ _)) hv
theorem Canon.execSflagRelease_next (h : Canon s u) (t : At) (core : Nat) (e : BitVec 2) : NextCanon s (execSflagRelease t core e u) := by
  unfold execSflagRelease
  dsimp only
  refine h.onCore_next fun _ hv => ?_
  split
  · split
    · exact Canon.ite hv (Canon.ite ((Canon.ite (hv.flagEnter _ _ _ _) hv).setEngine _ _ _) (hv.startOne _ _ _ _ _))
    · exact hv
  · exact hv
theorem Canon.writeMembers (h : Canon s u) (o : RemOp) (cyc : Nat) : Canon s (u.writeMembers o cyc) := h.send _ _ _ _
theorem Canon.launchCast (h : Canon s u) (c slot dst pkgs towers : Nat) (o : RemOp) (cyc : Nat) : Canon s (u.launchCast c slot dst pkgs towers o cyc) := by
  unfold State.launchCast
  dsimp only
  refine Canon.ite ((h.writeMembers _ _).finishOp _ _ _ _) ?_
  refine Canon.ite (h.setOp _ _ _) ?_
  refine Canon.ite ?_ ?_
  · split
    · exact (((h.carrierOut _ _).overGroup _ _ _ _).setOp _ _ _).queueFrame _ _ _
    · exact (((h.carrierOut _ _).overGroup _ _ _ _).setOp _ _ _).fallback _ _ _
  · exact (((h.carrierOut _ _).overGroup _ _ _ _).setOp _ _ _).sendAt _ _ _
theorem Canon.relaunch (h : Canon s u) (tower cyc : Nat) : Canon s (u.relaunch tower cyc) := by
  unfold State.relaunch
  dsimp only
  refine h.foldl fun _ _ hv => ?_
  split
  · exact hv.launchCast _ _ _ _ _ _ _
  · exact hv.launch _ _ _ _ _
theorem Canon.reap (h : Canon s u) (c : Nat) : Canon s (u.reap c) := by
  unfold State.reap
  dsimp only
  refine (Canon.ite h (h.modCore _ _)).foldl fun _ _ hv2 => ?_
  split
  · refine Canon.ite ?_ ?_
    · split
      · exact (Canon.ite ((hv2.freeOp _ _).modCore _ _) (hv2.freeOp _ _)).setEngine _ _ _
      · exact hv2.freeOp _ _
    · exact hv2
  · exact hv2
theorem Canon.runSent (h : Canon s u) (c e cyc : Nat) (d : Desc) (p : Piece) : Canon s (u.runSent c e cyc d p) := Canon.ite (h.startRuns _ _ _ _ _) h
theorem Canon.execTagAcquire_next (h : Canon s u) (t : At) (core : Nat) (e : BitVec 2) (slot : BitVec 5) : NextCanon s (execTagAcquire t core e slot u) := by
  unfold execTagAcquire
  dsimp only
  refine h.onCore_next fun _ hv => ?_
  split
  · refine Canon.ite (hv.reap _) ?_
    refine Canon.ite (hv.reap _) ?_
    refine Canon.ite ((((hv.reap _).setEngine _ _ _).setOp _ _ _).runSent _ _ _ _ _) ?_
    split
    · refine Canon.afterOp ?_ _ _
      refine Canon.launchCast ?_ _ _ _ _ _ _ _
      refine Canon.setEngine ?_ _ _ _
      exact Canon.ite_fth ((((hv.reap _).setEngine _ _ _).pmcCore _ _ _).fetch _ _ _ _ _) (Canon.mk_fth (((hv.reap _).setEngine _ _ _).pmcCore _ _ _))
    · refine Canon.afterOp ?_ _ _
      refine Canon.launch ?_ _ _ _ _ _
      refine Canon.setEngine ?_ _ _ _
      exact Canon.ite_fth ((((hv.reap _).setEngine _ _ _).pmcCore _ _ _).fetch _ _ _ _ _) (Canon.mk_fth (((hv.reap _).setEngine _ _ _).pmcCore _ _ _))
    · refine Canon.afterOp ?_ _ _
      refine Canon.launch ?_ _ _ _ _ _
      refine Canon.update ?_
      refine Canon.setEngine ?_ _ _ _
      exact Canon.ite_fth ((((hv.reap _).setEngine _ _ _).pmcCore _ _ _).fetch _ _ _ _ _) (Canon.mk_fth (((hv.reap _).setEngine _ _ _).pmcCore _ _ _))
    · refine Canon.afterOp ?_ _ _
      refine Canon.runSent ?_ _ _ _ _ _
      refine Canon.launch ?_ _ _ _ _ _
      refine Canon.setEngine ?_ _ _ _
      exact Canon.ite_fth ((((hv.reap _).setEngine _ _ _).pmcCore _ _ _).fetch _ _ _ _ _) (Canon.mk_fth (((hv.reap _).setEngine _ _ _).pmcCore _ _ _))
    · refine Canon.afterOp ?_ _ _
      refine Canon.runSent ?_ _ _ _ _ _
      refine Canon.launch ?_ _ _ _ _ _
      refine Canon.setEngine ?_ _ _ _
      exact Canon.ite_fth ((((hv.reap _).setEngine _ _ _).pmcCore _ _ _).fetch _ _ _ _ _) (Canon.mk_fth (((hv.reap _).setEngine _ _ _).pmcCore _ _ _))
    · refine Canon.afterOp ?_ _ _
      refine Canon.launch ?_ _ _ _ _ _
      refine Canon.setEngine ?_ _ _ _
      exact Canon.ite_fth ((((hv.reap _).setEngine _ _ _).pmcCore _ _ _).fetch _ _ _ _ _) (Canon.mk_fth (((hv.reap _).setEngine _ _ _).pmcCore _ _ _))
  · exact hv.reap _
theorem Canon.deliverParts (h : Canon s u) (c e a cyc : Nat) (data : List Byte) (bad : List Nat) (l : List Row) : Canon s (u.deliverParts c e a cyc data bad l) := by
  induction l generalizing u with
  | nil => exact h
  | cons r l ih =>
    refine ih (u := match rowPart a data r with
      | none => u
      | some (q, b) => u.deliver c e { dst := q.dst, dstHalf := q.half } b ((bad.filter fun i => q.src - a ≤ i ∧ i < q.src - a + q.len).map (· - (q.src - a))) cyc) ?_
    split
    · exact h
    · exact h.deliver _ _ _ _ _ _
theorem Canon.arrive (h : Canon s u) (o : RemOp) (data : List Byte) (poison : Bool) (cyc : Nat) : Canon s (u.arrive o data poison cyc) := by
  unfold State.arrive
  dsimp only
  split
  · exact h
  · refine Canon.ite ?_ ?_
    · split
      · exact h.deliverParts _ _ _ _ _ _ _
      · exact h
    · exact h.deliver _ _ _ _ _ _
theorem Canon.applyAtomic (h : Canon s u) (op n a x y : Nat) : Canon s (u.applyAtomic op n a x y).2.2 :=
  Canon.ite_thd (Canon.mk_thd (h.readAt _ _)) (Canon.mk_thd ((h.readAt _ _).writeAt _ _ _))
theorem Canon.localAtomic (h : Canon s u) (c e cyc : Nat) (d : Desc) : Canon s (u.localAtomic c e cyc d).2 := by
  unfold State.localAtomic
  dsimp only
  split
  · split
    · refine Canon.ite_snd (Canon.mk_snd h) ?_
      exact Canon.ite_snd (Canon.mk_snd h) (Canon.mk_snd (((Canon.ite h (h.landCore _ _ _)).applyAtomic _ _ _ _ _).send _ _ _ _))
    · exact h
  · exact h
theorem Canon.deliverAll (h : Canon s u) (c e cyc : Nat) (l : List Piece) : Canon s (u.deliverAll c e cyc l).2 := by
  induction l generalizing u with
  | nil => exact h
  | cons p l ih => exact ih (h.deliver c e p p.data p.poisoned cyc)
theorem Canon.wormsGone (h : Canon s u) (c e seq : Nat) : Canon s (u.wormsGone c e seq) := Canon.ite h h.update
theorem Canon.completeHead (h : Canon s u) (c e cyc : Nat) (st : Status) : Canon s (u.completeHead c e cyc st) := by
  unfold State.completeHead
  dsimp only
  refine Canon.wake ?_ _ _
  refine Canon.pmcCore ?_ _ _ _
  refine Canon.markStage ?_ _ _ _ _
  refine Canon.ite ?_ ?_
  · refine Canon.coreFault ?_ _ _
    split
    · exact ((h.setEngine _ _ _).wormsGone _ _ _).modCore _ _
    · exact (h.setEngine _ _ _).wormsGone _ _ _
  · split
    · exact ((h.setEngine _ _ _).wormsGone _ _ _).modCore _ _
    · exact (h.setEngine _ _ _).wormsGone _ _ _
theorem Canon.completeTransfer (h : Canon s u) (c e cyc : Nat) : Canon s (u.completeTransfer c e cyc) := by
  unfold State.completeTransfer
  dsimp only
  split
  · exact Canon.ite ((h.reap _).completeHead _ _ _ _) (h.reap _)
  · refine Canon.ite ?_ ?_
    · refine Canon.completeHead ?_ _ _ _ _
      refine Canon.deliverAll ?_ _ _ _ _
      exact Canon.ite_snd ((h.reap _).localAtomic _ _ _ _) (Canon.mk_snd (h.reap _))
    · exact h.reap _
  · exact h.reap _
theorem Canon.execTransferComplete_next (h : Canon s u) (t : At) (core : Nat) (e : BitVec 2) : NextCanon s (execTransferComplete t core e u) :=
  NextCanon.ite (.next ((h.at _).ifAwake fun _ hv => (hv.completeTransfer _ _ _).toCycle _ _)) .fault
end Sys2Proof.Machine
end
section
/-! The canonical form is kept (R116, R117, R352): towers, vaults and their ports. -/
namespace Sys2Proof.Machine
variable {s u : State}
theorem Canon.stampIn (h : Canon s u) (t i : Nat) (p : Packet) : Canon s (u.stampIn t i p) := h.setTree _ _ _
theorem Canon.rackIn (h : Canon s u) (i : Nat) (p : Packet) : Canon s (u.rackIn i p) := by
  unfold State.rackIn
  refine Canon.ite h ?_
  split
  · exact h.gatherRack _ _ _
  · exact h
theorem Canon.forwardIn (h : Canon s u) (n r : Nat) (p : Packet) : Canon s (u.forwardIn n r p) :=
  Canon.ite (h.foldl fun _ _ hv => hv.ontoFibre _ _ _) (h.sendAt _ _ _)
theorem Canon.execBarrierArrival_next (h : Canon s u) (t : At) (r : Nat) (p : Packet) : NextCanon s (execBarrierArrival t r p u) := by
  unfold execBarrierArrival
  dsimp only
  refine NextCanon.ite ?_ ?_
  · refine NextCanon.ite (.next (h.at _)) ?_
    refine NextCanon.ite (.next (h.at _)) ?_
    split
    · exact .next ((h.at _).stampIn _ _ _)
    · exact .next ((h.at _).forwardIn _ _ _)
    · exact .next (Canon.ite ((h.at _).rackIn _ _) (h.at _))
  · exact .fault
theorem Canon.execPackageBarrierRelease_next (h : Canon s u) (t : At) (tower : Nat) (id : BitVec 4) : NextCanon s (execPackageBarrierRelease t tower id u) := by
  unfold execPackageBarrierRelease
  refine h.onTower_next fun _ hv => ?_
  split
  · exact Canon.ite (hv.treeRelease _ _ _) hv
  · exact hv
theorem Canon.execDroopDetect_next (h : Canon s u) (t : At) (tower : Nat) : NextCanon s (execDroopDetect t tower u) :=
  h.onTower_next fun _ hv => Canon.ite (hv.settleDroop _ _) ((hv.settleDroop _ _).setTower _ _)
theorem Canon.vaultMapApply (h : Canon s u) (c : Nat) : Canon s (u.vaultMapApply c) := by
  unfold State.vaultMapApply
  dsimp only
  split
  · exact h
  · exact ((h.setArb _ _).wr _ _).putB _ _ _
theorem Canon.vaultQuiet (h : Canon s u) (c : Nat) : Canon s (u.vaultQuiet c) := Canon.ite ((h.vaultMapApply _).putB _ _ _) (h.vaultMapApply _)
theorem Canon.vaultGrantRead (h : Canon s u) (c cyc : Nat) (q : PortReq) : Canon s (u.vaultGrantRead c cyc q) :=
  Canon.ite (h.setArb _ _) (((h.foldl fun _ _ hv => hv.readWords _ _ _ _).setArb _ _).pmcCore _ _ _)
theorem Canon.vaultGrantWrite (h : Canon s u) (c cyc : Nat) (q : PortReq) : Canon s (u.vaultGrantWrite c cyc q) :=
  (((h.vaultWrite _ _ _ _).unmerge _ _).setArb _ _).pmcCore _ _ _
theorem Canon.vaultWriteBack (h : Canon s u) (c cyc : Nat) : Canon s (u.vaultWriteBack c cyc) := by
  unfold State.vaultWriteBack
  dsimp only
  split
  · exact h
  · exact (((((h.setCore _ _).setMark _ _).unmerge _ _).pmcCore _ _ _).setArb _ _).pmcCore _ _ _
theorem Canon.vaultWaits (h : Canon s u) (c : Nat) (reads writes : Bool) : Canon s (u.vaultWaits c reads writes) :=
  Canon.ite (((Canon.ite ((h.bump _ _ _).pmcCore _ _ _) h).bump _ _ _).pmcCore _ _ _) (Canon.ite ((h.bump _ _ _).pmcCore _ _ _) h)
theorem Canon.vaultCycle (h : Canon s u) (c cyc : Nat) (all : List PortReq) (withdraws : Bool) : Canon s (u.vaultCycle c cyc all withdraws) := by
  unfold State.vaultCycle
  dsimp only
  split
  · refine Canon.ite ?_ ?_
    · refine Canon.vaultQuiet ?_ _
      split
      · exact (h.vaultWaits _ _ _).foldl fun _ _ hv2 => Canon.ite hv2 (hv2.pmcCore _ _ _)
      · refine Canon.ite ?_ ?_
        · exact ((h.vaultWaits _ _ _).foldl fun _ _ hv2 => Canon.ite hv2 (hv2.pmcCore _ _ _)).vaultWriteBack _ _
        · exact ((h.vaultWaits _ _ _).foldl fun _ _ hv2 => Canon.ite hv2 (hv2.pmcCore _ _ _)).vaultGrantWrite _ _ _
    · split
      · exact (h.vaultWaits _ _ _).foldl fun _ _ hv2 => Canon.ite hv2 (hv2.pmcCore _ _ _)
      · refine Canon.ite ?_ ?_
        · exact ((h.vaultWaits _ _ _).foldl fun _ _ hv2 => Canon.ite hv2 (hv2.pmcCore _ _ _)).vaultWriteBack _ _
        · exact ((h.vaultWaits _ _ _).foldl fun _ _ hv2 => Canon.ite hv2 (hv2.pmcCore _ _ _)).vaultGrantWrite _ _ _
  · refine Canon.ite ?_ ?_
    · refine Canon.setArb ?_ _ _
      refine Canon.pmcCore ?_ _ _ _
      refine Canon.bump ?_ _ _ _
      split
      · exact (h.vaultWaits _ _ _).foldl fun _ _ hv2 => Canon.ite hv2 (hv2.pmcCore _ _ _)
      · refine Canon.ite ?_ ?_
        · exact ((h.vaultWaits _ _ _).foldl fun _ _ hv2 => Canon.ite hv2 (hv2.pmcCore _ _ _)).vaultWriteBack _ _
        · exact ((h.vaultWaits _ _ _).foldl fun _ _ hv2 => Canon.ite hv2 (hv2.pmcCore _ _ _)).vaultGrantWrite _ _ _
    · refine Canon.vaultGrantRead ?_ _ _ _
      split
      · exact (h.vaultWaits _ _ _).foldl fun _ _ hv2 => Canon.ite hv2 (hv2.pmcCore _ _ _)
      · refine Canon.ite ?_ ?_
        · exact ((h.vaultWaits _ _ _).foldl fun _ _ hv2 => Canon.ite hv2 (hv2.pmcCore _ _ _)).vaultWriteBack _ _
        · exact ((h.vaultWaits _ _ _).foldl fun _ _ hv2 => Canon.ite hv2 (hv2.pmcCore _ _ _)).vaultGrantWrite _ _ _
theorem Canon.execVaultPortGrant_next (h : Canon s u) (t : At) (core : Nat) (reqs : List PortReq) (withdraws : Bool) (upsets : List (Nat × Mark)) : NextCanon s (execVaultPortGrant t core reqs withdraws upsets u) := by
  unfold execVaultPortGrant
  dsimp only
  refine h.onCore_next fun _ hv => ?_
  refine Canon.ite ?_ ?_
  · exact ((hv.foldl fun _ _ hv2 => hv2.setMark _ _).vaultWaits _ _ _).vaultQuiet _
  · exact (hv.foldl fun _ _ hv2 => hv2.setMark _ _).vaultCycle _ _ _ _
theorem Canon.execMergedRead_next (h : Canon s u) (t : At) (core : Nat) (req : PortReq) : NextCanon s (execMergedRead t core req u) :=
  h.onCore_next fun _ hv => Canon.ite (hv.pmcCore _ _ _) hv
theorem Canon.dropWorm (h : Canon s u) (c : Nat) (w : Worm) : Canon s (u.dropWorm c w) := (h.pmcRouter _ _ _).setEngine _ _ _
theorem Canon.takeWorm (h : Canon s u) (c : Nat) (x : Nat × Worm) : Canon s (u.takeWorm c x) := Canon.ite (h.setWorms _ _ _) h
theorem Canon.execWormHop_next (h : Canon s u) (t : At) (core port : Nat) (waiting : List (Nat × Worm)) (credits : List Nat) (headerBad : Bool) : NextCanon s (execWormHop t core port waiting credits headerBad u) := by
  unfold execWormHop
  dsimp only
  refine h.onCore_next fun _ hv => ?_
  split
  · exact Canon.ite (hv.pmcRouter _ _ _) hv
  · refine Canon.ite (((Canon.ite (hv.pmcRouter _ _ _) hv).takeWorm _ _).dropWorm _ _) ?_
    split
    · exact ((((Canon.ite (hv.pmcRouter _ _ _) hv).takeWorm _ _).pmcRouter _ _ _).emit _).setWorms _ _ _
    · exact (((Canon.ite (hv.pmcRouter _ _ _) hv).takeWorm _ _).pmcRouter _ _ _).emit _
theorem Canon.noteEngine (h : Canon s u) (w : Worm) (st : Status) : Canon s (u.noteEngine w st) := Canon.ite (h.setEngine _ _ _) h
theorem Canon.wormRead (h : Canon s u) (c : Nat) (w : Worm) : Canon s (u.wormRead c w) := by
  unfold State.wormRead
  dsimp only
  refine Canon.setWorms ?_ _ _ _
  refine Canon.ite_thd (Canon.mk_thd ((h.freeBytes _).noteEngine _ _)) ?_
  exact Canon.ite_thd (Canon.mk_thd h) (Canon.mk_thd (h.ownRead _ _ _ _))
theorem Canon.wormPoison (h : Canon s u) (w : Worm) (names : Piece → Nat → Bool) : Canon s (u.wormPoison w names) := Canon.ite h (h.setEngine _ _ _)
theorem Canon.wormWrite (h : Canon s u) (c cyc : Nat) (w : Worm) : Canon s (u.wormWrite c cyc w) :=
  (Canon.ite (h.noteEngine _ _) (Canon.ite (((h.landCore _ _ _).vaultWrite _ _ _ _).wormPoison _ _) ((h.landCore _ _ _).vaultWrite _ _ _ _))).setWorms _ _ _
theorem Canon.wormReply (h : Canon s u) (w : Worm) : Canon s (u.wormReply w) := Canon.ite h (h.wormPoison _ _)
theorem Canon.carrierIn (h : Canon s u) (c : Nat) (w : Worm) : Canon s (u.carrierIn c w) := by
  unfold State.carrierIn
  dsimp only
  split
  · exact h
  · refine Canon.ite h ?_
    refine Canon.ite ?_ ?_
    · split
      · exact Canon.ite h (h.setOp _ _ _)
      · exact h
    · split
      · exact Canon.ite h (h.setMarks _ _)
      · exact h
theorem Canon.wormAccess (h : Canon s u) (c cyc : Nat) (w : Worm) : Canon s (u.wormAccess c cyc w) := Canon.ite (h.wormRead _ _) (Canon.ite (h.wormWrite _ _ _) h)
theorem Canon.execWormExit_next (h : Canon s u) (t : At) (core : Nat) (w : Worm) (headerBad : Bool) : NextCanon s (execWormExit t core w headerBad u) := by
  unfold execWormExit
  refine h.onCore_next fun _ hv => ?_
  refine Canon.ite ?_ ?_
  · exact hv.dropWorm _ _
  · exact Canon.ite (Canon.ite (hv.modCore _ _) (hv.wormAccess _ _ _)) (Canon.ite (hv.wormReply _) (Canon.ite (hv.carrierIn _ _) hv))
theorem Canon.execWormTimeout_next (h : Canon s u) (t : At) (core : Nat) (e : BitVec 2) (seq : BitVec 7) : NextCanon s (execWormTimeout t core e seq u) := by
  unfold execWormTimeout
  dsimp only
  refine h.onCore_next fun _ hv => ?_
  split
  · exact hv
  · exact Canon.ite ((hv.setEngine _ _ _).completeHead _ _ _ _) hv
theorem Canon.outbound (h : Canon s u) (tower p plane : Nat) (k : Packet) : Canon s (u.outbound tower p plane k) := by
  unfold State.outbound
  dsimp only
  split
  · exact Canon.ite h (h.launch _ _ _ _ _)
  · exact h.launch _ _ _ _ _
theorem Canon.riser (h : Canon s u) (tower p : Nat) (w : Worm) : Canon s (u.riser tower p w) := (h.setWorms _ _ _).emit _
theorem Canon.execPortBlockRewrite_next (h : Canon s u) (t : At) (tower : Nat) (p : BitVec 4) (layer : BitVec 2) (w : Worm) (plane : BitVec 2) : NextCanon s (execPortBlockRewrite t tower p layer w plane u) := by
  unfold execPortBlockRewrite
  refine h.onTower_next fun _ hv => ?_
  refine Canon.ite ?_ ?_
  · split
    · exact hv.outbound _ _ _ _
    · exact hv.emit _
  · exact hv.riser _ _ _
theorem Canon.endOp (h : Canon s u) (r tag : Nat) (o : RemOp) (st : Status) (cyc : Nat) : Canon s (u.endOp r tag o st cyc) := by
  unfold State.endOp
  dsimp only
  refine Canon.ite ?_ ?_
  · exact h.setOp _ _ _
  · exact Canon.ite (((Canon.ite (h.writeMembers _ _) h).finishOp _ _ _ _).afterOp _ _) ((Canon.ite (h.writeMembers _ _) h).finishOp _ _ _ _)
theorem Canon.failCasts (h : Canon s u) (cyc : Nat) : Canon s (u.failCasts cyc) := h.foldl fun _ _ hv => hv.endOp _ _ _ _ _
theorem Canon.failOpsAs (h : Canon s u) (st : Status) (cyc : Nat) (hit : Nat → RemOp → Bool) : Canon s (u.failOpsAs st cyc hit) :=
  (h.foldl fun _ _ hv => hv.endOp _ _ _ _ _).failCasts _
theorem Canon.failOps (h : Canon s u) (cyc : Nat) (hit : Nat → RemOp → Bool) : Canon s (u.failOps cyc hit) := h.failOpsAs _ _ _
theorem Canon.moveFlits (h : Canon s u) (tower g : Nat) : Canon s (u.moveFlits tower g) := (h.setGroup _ _ _).setGroup _ _ _
theorem Canon.fenceGroup (h : Canon s u) (tower g cyc : Nat) : Canon s (u.fenceGroup tower g cyc) := by
  unfold State.fenceGroup
  dsimp only
  refine Canon.ite h ?_
  refine Canon.ite (h.putF _ _ _) ?_
  refine Canon.ite ?_ ?_
  · exact (((((h.putF _ _ _).outside _ _ _ _).failOps _ _).moveFlits _ _).putF _ _ _).relaunch _ _
  · exact (Canon.ite ((h.putF _ _ _).failOps _ _) ((((h.putF _ _ _).failOps _ _).fenceTower _).failCasts _)).outside _ _ _ _
theorem Canon.cutCrossing (h : Canon s u) (tower cyc : Nat) (by_ : Nat → Nat → Bool) : Canon s (u.cutCrossing tower cyc by_) := h.update
theorem Canon.poisonLoads (h : Canon s u) (tower l p cyc : Nat) : Canon s (u.poisonLoads tower l p cyc) := by
  unfold State.poisonLoads
  dsimp only
  exact h.foldl fun _ _ hv => ((hv.freeBytes _).arrive _ _ _ _).endOp _ _ _ _ _
theorem Canon.fenceCrossing (h : Canon s u) (tower cyc : Nat) (x : Crossing) : Canon s (u.fenceCrossing tower cyc x) := by
  unfold State.fenceCrossing
  split
  · exact (h.cutCrossing _ _ _).fenceCore _ _
  · exact (h.cutCrossing _ _ _).fenceCore _ _
  · exact (((h.cutCrossing _ _ _).poisonLoads _ _ _ _).holdCause _).foldl fun _ _ hv => Canon.ite (hv.fenceGroup _ _ _) hv
  · exact (h.fenceTower _).failCasts _
theorem Canon.bondFail (h : Canon s u) (tower cyc : Nat) (x : Crossing) : Canon s (u.bondFail tower cyc x) := ((h.bump _ _ _).log _ _ _).fenceCrossing _ _ _
theorem Canon.execLayerFlitCrc_next (h : Canon s u) (t : At) (tower : Nat) (crossing : Crossing) (dead : Bool) : NextCanon s (execLayerFlitCrc t tower crossing dead u) :=
  h.onTower_next fun _ hv => Canon.ite (((hv.setTower _ _).bump _ _ _).bondFail _ _ _) ((hv.setTower _ _).bump _ _ _)
theorem Canon.execWirePairDisagree_next (h : Canon s u) (t : At) (tower : Nat) (again : Bool) : NextCanon s (execWirePairDisagree t tower again u) :=
  h.onTower_next fun _ hv => Canon.ite ((hv.setTower _ _).bondFail _ _ _) (hv.setTower _ _)
end Sys2Proof.Machine
end
section
/-! The canonical form is kept (R116, R117, R352): packets on their way and the light of a lane. -/
namespace Sys2Proof.Machine
variable {s u : State}
theorem Canon.refusePacket (h : Canon s u) (r : Nat) (p : Packet) (st : Status) : Canon s (u.refusePacket r p st) := Canon.ite (h.respond _ _) h
theorem Canon.failLane (h : Canon s u) (j cyc : Nat) : Canon s (u.failLane j cyc) :=
  ((h.foldl fun _ _ hv => Canon.ite (Canon.ite hv (hv.setFrames _ _ _)) ((Canon.ite hv (hv.setFrames _ _ _)).setTx _ _)).failOps _ _).foldl fun _ _ hv3 => Canon.ite (hv3.respond _ _) (hv3.refusePacket _ _ _)
end Sys2Proof.Machine
end
section
/-! The canonical form is kept (R116, R117, R352): rings, lasers and their calibration. -/
namespace Sys2Proof.Machine
variable {s u : State}
theorem Canon.failWave (h : Canon s u) (src k : Nat) : Canon s (u.failWave src k) := by
  unfold State.failWave
  dsimp only
  refine Canon.ite h ?_
  refine Canon.ite ?_ ?_
  · exact Canon.ite (((((h.putF _ _ _).holdCause _).log _ _ _).fenceRing _).startFail _) ((((h.putF _ _ _).holdCause _).log _ _ _).fenceRing _)
  · exact Canon.ite ((((h.putF _ _ _).holdCause _).putF _ _ _).startFail _) (((h.putF _ _ _).holdCause _).putF _ _ _)
theorem Canon.park (h : Canon s u) (g : RingId) : Canon s (u.park g) := by
  unfold State.park
  dsimp only
  refine Canon.ite h ?_
  split
  · exact (((h.putF _ _ _).bump _ _ _).log _ _ _).failWave _ _
  · exact (((h.putF _ _ _).bump _ _ _).log _ _ _).failWave _ _
  · exact ((h.putF _ _ _).bump _ _ _).log _ _ _
theorem Canon.rotateBank (h : Canon s u) (j e : Nat) (mods up : Bool) (cyc : Nat) : Canon s (u.rotateBank j e mods up cyc) :=
  Canon.ite h (Canon.ite (((h.setLane _ _).fenceLane _ _).failLane _ _) (((h.setLane _ _).latQueue _ _).latStatus _))
theorem Canon.enterLow (h : Canon s u) (g : RingId) (cyc : Nat) : Canon s (u.enterLow g cyc) := by
  unfold State.enterLow
  dsimp only
  split
  · exact h.rotateBank _ _ _ _ _
  · exact h.rotateBank _ _ _ _ _
  · exact h.log _ _ _
theorem Canon.setCode (h : Canon s u) (g : RingId) (code cyc : Nat) : Canon s (u.setCode g code cyc) :=
  Canon.ite (((h.putF _ _ _).setRing _ _).enterLow _ _) ((h.putF _ _ _).setRing _ _)
theorem Canon.lockAt (h : Canon s u) (g : RingId) (code cyc : Nat) : Canon s (u.lockAt g code cyc) := ((h.setRing _ _).putF _ _ _).setCode _ _ _
theorem Canon.exhaust (h : Canon s u) (g : RingId) : Canon s (u.exhaust g) := by
  unfold State.exhaust
  dsimp only
  split
  · exact (h.putF _ _ _).setRing _ _
  · exact (h.putF _ _ _).setRing _ _
  · exact h
theorem Canon.serve (h : Canon s u) (g : RingId) (quantity trim : ℤ) (cyc : Nat) : Canon s (u.serve g quantity trim cyc) := by
  unfold State.serve
  dsimp only
  refine Canon.ite ?_ ?_
  · exact (((Canon.ite ((h.putF _ _ _).putF _ _ _) (h.putF _ _ _)).setRing _ _).setCode _ _ _).exhaust _
  · exact ((Canon.ite ((h.putF _ _ _).putF _ _ _) (h.putF _ _ _)).setRing _ _).setCode _ _ _
theorem Canon.hopRing (h : Canon s u) (g : RingId) (up : Bool) (cyc : Nat) : Canon s (u.hopRing g up cyc) :=
  Canon.ite (h.park _) (((((h.putF _ _ _).bump _ _ _).bump _ _ _).setRing _ _).setCode _ _ _)
theorem Canon.unhear (h : Canon s u) (src rx k : Nat) : Canon s (u.unhear src rx k) := Canon.ite (h.setRx _ _ _) h
theorem Canon.hopDrop (h : Canon s u) (r t i m cyc : Nat) : Canon s (u.hopDrop r t i m cyc) := (h.unhear _ _ _).hopRing _ _ _
theorem Canon.execRingService_next (h : Canon s u) (t : At) (ring : RingId) (photo ref : Nat) (trim : ℤ) : NextCanon s (execRingService t ring photo ref trim u) := by
  unfold execRingService
  dsimp only
  refine NextCanon.ite ?_ ?_
  · refine NextCanon.ite (.next (h.at _)) ?_
    refine NextCanon.ite ?_ ?_
    · refine .next ?_
      split
      · exact ((h.at _).hopDrop _ _ _ _ _).failCasts _
      · exact (h.at _).serve _ _ _ _
    · exact .next (h.at _)
  · exact .fault
theorem Canon.execReacquireRetry_next (h : Canon s u) (t : At) (ring : RingId) (sight : LockSight) : NextCanon s (execReacquireRetry t ring sight u) := by
  unfold execReacquireRetry
  dsimp only
  refine NextCanon.ite ?_ ?_
  · refine NextCanon.ite (.next (h.at _)) ?_
    refine NextCanon.ite ?_ ?_
    · split
      · exact .next ((((h.at _).bump _ _ _).bump _ _ _).lockAt _ _ _)
      · exact .next (Canon.ite ((((((h.at _).bump _ _ _).bump _ _ _).setRing _ _).park _).failCasts _) ((((h.at _).bump _ _ _).bump _ _ _).setRing _ _))
    · exact .next (h.at _)
  · exact .fault
theorem Canon.execRingAcquisition_next (h : Canon s u) (t : At) (ring : RingId) (sight : LockSight) : NextCanon s (execRingAcquisition t ring sight u) := by
  unfold execRingAcquisition
  dsimp only
  refine NextCanon.ite ?_ ?_
  · refine NextCanon.ite (.next (h.at _)) ?_
    refine .next ?_
    split
    · exact ((((h.at _).putF _ _ _).putF _ _ _).setRing _ _).lockAt _ _ _
    · exact ((((h.at _).putF _ _ _).putF _ _ _).setRing _ _).park _
  · exact .fault
theorem Canon.weightStep (h : Canon s u) (src tr q : Nat) : Canon s (u.weightStep src tr q) := by
  unfold State.weightStep
  dsimp only
  refine Canon.ite (h.foldl fun _ _ hv => hv.putF _ _ _) ?_
  split
  · exact h.putF _ _ _
  · exact h
theorem Canon.execWeightStep_next (h : Canon s u) (t : At) (src : Nat) : NextCanon s (execWeightStep t src u) := by
  unfold execWeightStep
  dsimp only
  refine NextCanon.ite ?_ ?_
  · refine NextCanon.ite (.next (h.at _)) ?_
    refine NextCanon.ite ?_ ?_
    · exact .next (((h.at _).foldl fun _ _ hv2 => hv2.foldl fun _ _ hv3 => hv3.weightStep _ _ _).foldl fun _ _ hv3 => (hv3.putB _ _ _).bump _ _ _)
    · exact .next ((h.at _).foldl fun _ _ hv2 => hv2.foldl fun _ _ hv3 => hv3.weightStep _ _ _)
  · exact .fault
theorem Canon.setTap (h : Canon s u) (tile index : Nat) (v₁ : ℤ) : Canon s (u.setTap tile index v₁) := h.putF _ _ _
theorem Canon.setItem (h : Canon s u) (cls tile index : Nat) (v₁ : ℤ) : Canon s (u.setItem cls tile index v₁) :=
  Canon.ite (Canon.ite h.update (h.setTap _ _ _)) (h.setCal _ _ _ _)
theorem Canon.writeSlot (h : Canon s u) (tile point : Nat) : Canon s (u.writeSlot tile point) := h.update
theorem Canon.writeKept (h : Canon s u) (tile : Nat) : Canon s (u.writeKept tile) := h.foldl fun _ _ hv => Canon.ite (hv.writeSlot _ _) hv
theorem Canon.noteSource (h : Canon s u) (tile source : Nat) : Canon s (u.noteSource tile source) := (h.putF _ _ _).putF _ _ _
theorem Canon.loadSets (h : Canon s u) (tile : Nat) (sets : List (List Byte)) : Canon s (u.loadSets tile sets) := h.foldl fun _ _ hv => hv.setItem _ _ _ _
theorem Canon.chooseCal (h : Canon s u) (tile : Nat) : Canon s (u.chooseCal tile) := by
  unfold State.chooseCal
  dsimp only
  refine Canon.ite (Canon.ite (Canon.ite (h.startFail _) h) (h.noteSource _ _)) ?_
  refine Canon.ite ((h.loadSets _ _).noteSource _ _) ?_
  split
  · exact (h.loadSets _ _).noteSource _ _
  · exact Canon.ite (Canon.ite (h.startFail _) h) (h.noteSource _ _)
theorem Canon.execKeptSetPeriodicWrite_next (h : Canon s u) (t : At) (tile : Nat) : NextCanon s (execKeptSetPeriodicWrite t tile u) :=
  NextCanon.ite (NextCanon.ite (.next (h.at _)) (.next (Canon.ite ((h.at _).writeKept _) (h.at _)))) .fault
theorem Canon.tapped (h : Canon s u) (cls tile index : Nat) : Canon s (u.tapped cls tile index) := h.update
theorem Canon.execCalibrationAdaptation_next (h : Canon s u) (t : At) (item : AdaptItem) (target : ℤ) : NextCanon s (execCalibrationAdaptation t item target u) := by
  unfold execCalibrationAdaptation
  dsimp only
  refine NextCanon.ite ?_ ?_
  · refine NextCanon.ite (.next (h.at _)) ?_
    split
    · exact .next (Canon.ite (((h.at _).setItem _ _ _ _).tapped _ _ _) (h.at _))
    · exact NextCanon.ite (.next (Canon.ite (((h.at _).setTap _ _ _).tapped _ _ _).update (((h.at _).setTap _ _ _).tapped _ _ _))) (.next (h.at _))
  · exact .fault
theorem Canon.spiLine (h : Canon s u) (f c : Nat) : Canon s (u.spiLine f c) := h.emit _
theorem Canon.setQuality (h : Canon s u) (l : MarginLink) (k : Nat) (q : Quality) : Canon s (u.setQuality l k q) := by
  unfold State.setQuality
  split
  · exact h.wr _ _
  · exact h
theorem Canon.execQualityMeasurement_next (h : Canon s u) (t : At) (link : MarginLink) (k : Nat) (q : Quality) : NextCanon s (execQualityMeasurement t link k q u) :=
  NextCanon.ite (.next ((h.at _).ifAwake fun _ hv => hv.setQuality _ _ _)) .fault
theorem Canon.noteMargin (h : Canon s u) (l : MarginLink) (m : ℤ) : Canon s (u.noteMargin l m) := Canon.ite (Canon.ite (h.putF _ _ _) h) (h.update.putF _ _ _)
theorem Canon.raiseLines (h : Canon s u) (l : MarginLink) (n : Nat) (q : List Quality) (rest : List (List Quality)) : Canon s (u.raiseLines l n q rest).2 := by
  induction n generalizing u q rest with
  | zero => exact h
  | succ n ih =>
    have hline := h.foldl (f := fun s x => (s.setCal 5 (x.1 / 8) (lineItem x.1 x.2) (s.line x.1 x.2 + 10)).spiLine x.1 x.2) (l := linkLines l)
      fun _ _ hv => (hv.setCal _ _ _ _).spiLine _ _
    unfold State.raiseLines
    dsimp only
    refine Canon.ite_snd h ?_
    split
    · exact hline
    · exact ih hline _ _
theorem Canon.marginFail (h : Canon s u) (l : MarginLink) : Canon s (u.marginFail l) := by
  unfold State.marginFail
  dsimp only
  split
  · exact (h.bump _ _ _).failWave _ _
  · exact Canon.ite (h.bump _ _ _) ((h.bump _ _ _).fenceLane _ _)
  · exact Canon.ite (h.bump _ _ _) ((h.bump _ _ _).fenceFibre _ _)
theorem Canon.execMarginTest_next (h : Canon s u) (t : At) (link : MarginLink) (found : List Quality) (locked : Bool) (raised : List (List Quality)) : NextCanon s (execMarginTest t link found locked raised u) := by
  unfold execMarginTest
  dsimp only
  refine NextCanon.ite ?_ ?_
  · refine NextCanon.ite (.next (h.at _)) ?_
    refine .next ?_
    refine Canon.ite ?_ ?_
    · refine Canon.marginFail ?_ _
      refine Canon.ite ?_ ?_
      · refine Canon.bump ?_ _ _ _
        refine Canon.ite ?_ ?_
        · exact ((((h.at _).raiseLines _ _ _ _).foldl fun _ _ hv3 => hv3.setQuality _ _ _).noteMargin _ _).free.log _ _ _
        · exact ((((h.at _).raiseLines _ _ _ _).foldl fun _ _ hv3 => hv3.setQuality _ _ _).noteMargin _ _).free
      · refine Canon.ite ?_ ?_
        · exact ((((h.at _).raiseLines _ _ _ _).foldl fun _ _ hv3 => hv3.setQuality _ _ _).noteMargin _ _).free.log _ _ _
        · exact ((((h.at _).raiseLines _ _ _ _).foldl fun _ _ hv3 => hv3.setQuality _ _ _).noteMargin _ _).free
    · refine Canon.ite ?_ ?_
      · refine Canon.bump ?_ _ _ _
        refine Canon.ite ?_ ?_
        · exact ((((h.at _).raiseLines _ _ _ _).foldl fun _ _ hv3 => hv3.setQuality _ _ _).noteMargin _ _).free.log _ _ _
        · exact ((((h.at _).raiseLines _ _ _ _).foldl fun _ _ hv3 => hv3.setQuality _ _ _).noteMargin _ _).free
      · refine Canon.ite ?_ ?_
        · exact ((((h.at _).raiseLines _ _ _ _).foldl fun _ _ hv3 => hv3.setQuality _ _ _).noteMargin _ _).free.log _ _ _
        · exact ((((h.at _).raiseLines _ _ _ _).foldl fun _ _ hv3 => hv3.setQuality _ _ _).noteMargin _ _).free
  · exact .fault
theorem Canon.failInput (h : Canon s u) (f : Nat) : Canon s (u.failInput f) := by
  unfold State.failInput
  dsimp only
  refine Canon.ite ?_ ?_
  · exact ((h.putB _ _ _).log _ _ _).foldl fun _ _ hv3 => (hv3.failWave _ _).failWave _ _
  · exact ((h.putB _ _ _).log _ _ _).foldl fun _ _ hv3 => Canon.ite hv3 (hv3.marginFail _)
theorem Canon.execLaserCheck_next (h : Canon s u) (t : At) (sight : LaserSight) (measured : List ℤ) : NextCanon s (execLaserCheck t sight measured u) := by
  unfold execLaserCheck
  dsimp only
  refine NextCanon.ite (.next (h.at _)) ?_
  refine NextCanon.ite (.next (h.at _)) ?_
  refine .next ?_
  refine Canon.foldl ?_ fun _ _ hv4 => Canon.ite ((hv4.putF _ _ _).putF _ _ _) (Canon.ite (((hv4.putF _ _ _).putF _ _ _).putB _ _ _) (((hv4.putF _ _ _).putF _ _ _).failInput _))
  refine Canon.ite ?_ ?_
  · exact (((h.at _).update.phaseTo _).foldl fun _ _ hv3 => hv3.emit _).foldl fun _ _ hv4 => hv4.foldl fun _ _ hv5 => hv5.spiLine _ _
  · exact ((h.at _).update.phaseTo _).foldl fun _ _ hv3 => hv3.emit _
end Sys2Proof.Machine
end
section
/-! The canonical form is kept (R116, R117, R352): optical links and their flits. -/
namespace Sys2Proof.Machine
variable {s u : State}
theorem Canon.countBad (h : Canon s u) (l : Link) (r : Nat) : Canon s (u.countBad l r) := by
  unfold State.countBad
  split
  · exact (h.bump _ _ _).pmcRing _ _ _
  · exact (h.bump _ _ _).pmcRing _ _ _
  · exact (h.bump _ _ _).pmcRing _ _ _
  · exact (h.bump _ _ _).pmcRing _ _ _
theorem Canon.countFlit (h : Canon s u) (l : Link) (r : Nat) (f : Flit) (sight : FlitSight) : Canon s (u.countFlit l r f sight) := by
  unfold State.countFlit
  dsimp only
  refine Canon.ite ?_ ?_
  · refine Canon.countBad ?_ _ _
    split
    · exact h
    · exact h
    · exact h.bump _ _ _
  · split
    · exact h
    · exact h
    · exact h.bump _ _ _
theorem Canon.misread (h : Canon s u) (r rx k m cyc : Nat) : Canon s (u.misread r rx k m cyc) := by
  unfold State.misread
  dsimp only
  refine Canon.ite h ?_
  refine Canon.ite ?_ ?_
  · exact h.hopDrop _ _ _ _ _
  · exact Canon.ite (((Canon.ite (h.setRx _ _ _) h).foldl fun _ _ hv2 => hv2.unhear _ _ _).hopRing _ _ _) (Canon.ite (h.setRx _ _ _) h)
theorem Canon.rightRead (h : Canon s u) (r rx k : Nat) : Canon s (u.rightRead r rx k) :=
  Canon.ite ((Canon.ite ((h.unhear _ _ _).setRing _ _) (h.unhear _ _ _)).setRing _ _) (Canon.ite ((h.unhear _ _ _).setRing _ _) (h.unhear _ _ _))
theorem Canon.identify (h : Canon s u) (r rx : Nat) (f : Flit) (sight : FlitSight) (cyc : Nat) : Canon s (u.identify r rx f sight cyc) :=
  h.foldl fun _ _ hv => Canon.ite hv (Canon.ite (hv.rightRead _ _ _) (hv.misread _ _ _ _ _))
theorem Canon.frameTo (h : Canon s u) (e d : Nat) (f : Frame) : Canon s (u.frameTo e d f) := by
  unfold State.frameTo
  dsimp only
  split
  · exact h.fallback _ _ _
  · exact h.queueFrame _ _ _
theorem Canon.forwardFrame (h : Canon s u) (n : Nat) (f : Frame) : Canon s (u.forwardFrame n f) := by
  unfold State.forwardFrame
  dsimp only
  refine Canon.ite (h.frameTo _ _ _) ?_
  split
  · exact (h.bump _ _ _).refusePacket _ _ _
  · split
    · exact Canon.ite ((h.bump _ _ _).refusePacket _ _ _) (Canon.ite ((h.bump _ _ _).refusePacket _ _ _) (Canon.ite (h.ontoFibre _ _ _) (h.frameTo _ _ _)))
    · exact (h.bump _ _ _).refusePacket _ _ _
theorem Canon.forward (h : Canon s u) (x : Nat) (p : Packet) : Canon s (u.forward x p) := by
  unfold State.forward
  dsimp only
  split
  · exact Canon.ite ((h.bump _ _ _).refusePacket _ _ _) (Canon.ite (h.ontoFibre _ _ _) (h.sendAt _ _ _))
  · exact Canon.ite (h.refusePacket _ _ _) (Canon.ite h (Canon.ite ((h.bump _ _ _).refusePacket _ _ _) (h.sendAt _ _ _)))
theorem Canon.overTower (h : Canon s u) (rx vc : Nat) (p : Packet) : Canon s (u.overTower rx vc p) := by
  unfold State.overTower
  dsimp only
  split
  · exact h
  · refine Canon.overGroup ?_ _ _ _ _
    refine Canon.ite ?_ ?_
    · split
      · exact Canon.ite h (h.setOp _ _ _)
      · exact h
    · exact h
theorem Canon.takeIn (h : Canon s u) (l : Link) (rx : Nat) (p : Packet) : Canon s (u.takeIn l rx p) := by
  unfold State.takeIn
  split
  · exact Canon.ite (h.forwardFrame _ _) (Canon.ite h (h.forward _ _))
  · split
    · refine Canon.ite h ?_
      split
      · exact Canon.ite h (Canon.ite (h.ontoFibre _ _ _) ((h.bump _ _ _).refusePacket _ _ _))
      · exact h
    · exact h.overTower _ _ _
  · exact h
theorem Canon.ingestTo (h : Canon s u) (rx : Nat) : Canon s (u.ingestTo rx) :=
  Canon.ite h ((Canon.ite h ((h.bump _ _ _).pmcRing _ _ _)).update.foldl fun _ _ hv3 => hv3.setRx _ _ _)
theorem Canon.keepFlit (h : Canon s u) (l : Link) (rx : Nat) : Canon s (u.keepFlit l rx) := by
  unfold State.keepFlit
  dsimp only
  split
  · exact h.update.setRx _ _ _
  · exact h.setRx _ _ _
theorem Canon.header (h : Canon s u) (l : Link) (rx : Nat) (f : Flit) : Canon s (u.header l rx f) := by
  unfold State.header
  dsimp only
  split
  · exact Canon.ite ((h.setRx _ _ _).countBad _ _) (Canon.ite ((h.keepFlit _ _).setRx _ _ _) (h.setRx _ _ _))
  · refine Canon.ite ((h.setRx _ _ _).countBad _ _) ?_
    refine Canon.ite ((h.setRx _ _ _).pmcRing _ _ _) ?_
    refine Canon.ite ?_ ?_
    · refine Canon.takeIn ?_ _ _ _
      split
      · exact ((h.keepFlit _ _).setRx _ _ _).pmcRing _ _ _
      · exact ((h.keepFlit _ _).setRx _ _ _).pmcRing _ _ _
    · split
      · exact ((h.keepFlit _ _).setRx _ _ _).pmcRing _ _ _
      · exact ((h.keepFlit _ _).setRx _ _ _).pmcRing _ _ _
theorem Canon.dataFlit (h : Canon s u) (l : Link) (rx : Nat) (f : Flit) : Canon s (u.dataFlit l rx f) := by
  unfold State.dataFlit
  dsimp only
  refine Canon.ite ?_ ?_
  · split
    · exact h.setRx _ _ _
    · exact (h.setRx _ _ _).pmcRing _ _ _
  · split
    · refine Canon.setRx ?_ _ _ _
      split
      · exact (h.keepFlit _ _).pmcRing _ _ _
      · exact (h.keepFlit _ _).pmcRing _ _ _
      · exact (h.keepFlit _ _).pmcRing _ _ _
    · refine Canon.ite ?_ ?_
      · refine Canon.takeIn ?_ _ _ _
        refine Canon.setRx ?_ _ _ _
        split
        · exact (h.keepFlit _ _).pmcRing _ _ _
        · exact (h.keepFlit _ _).pmcRing _ _ _
        · exact (h.keepFlit _ _).pmcRing _ _ _
      · refine Canon.setRx ?_ _ _ _
        split
        · exact (h.keepFlit _ _).pmcRing _ _ _
        · exact (h.keepFlit _ _).pmcRing _ _ _
        · exact (h.keepFlit _ _).pmcRing _ _ _
theorem Canon.execFlitReceive_next (h : Canon s u) (t : At) (link : Link) (rx : Nat) (flit : Flit) (sight : FlitSight) :
    NextCanon s (execFlitReceive t link rx flit sight u) := by
  have hcount := (h.at t).countFlit link rx flit sight
  unfold execFlitReceive
  dsimp only
  refine NextCanon.ite (NextCanon.ite (.next (h.at _)) ?_) .fault
  cases link with
  | ring r =>
    have hin := hcount.ingestTo rx
    refine NextCanon.ite (.next (Canon.setRx (Canon.ite hin (hin.identify _ _ _ _ _)) _ _ _)) ?_
    refine NextCanon.ite (.next (Canon.ite ((hin.identify _ _ _ _ _).failCasts _) hin)) (NextCanon.ite (.next hin) (.next ?_))
    exact Canon.ite ((hin.setRx _ _ _).header _ _ _) ((hin.setRx _ _ _).dataFlit _ _ _)
  | _ =>
    refine NextCanon.ite (.next (hcount.setRx _ _ _)) (NextCanon.ite (.next hcount) (NextCanon.ite (.next hcount) (.next ?_)))
    exact Canon.ite ((hcount.setRx _ _ _).header _ _ _) ((hcount.setRx _ _ _).dataFlit _ _ _)
theorem Canon.reportSent (h : Canon s u) (x : Nat × Nat × Nat × Link × Nat) : Canon s (u.reportSent x) := h.setRx _ _ _
theorem Canon.execLinkControlSend_next (h : Canon s u) (t : At) (link : Link) : NextCanon s (execLinkControlSend t link u) := by
  unfold execLinkControlSend
  dsimp only
  refine NextCanon.ite ?_ ?_
  · refine NextCanon.ite (.next (h.at _)) ?_
    split
    · exact .next (h.at _)
    · refine NextCanon.ite (.next (h.at _)) ?_
      refine .next ?_
      refine Canon.emit ?_ _
      refine Canon.setTx ?_ _ _
      refine Canon.foldl ?_ fun _ _ hv2 => hv2.reportSent _
      refine Canon.foldl ?_ fun _ _ hv2 => Canon.ite (hv2.setRx _ _ _) hv2
      split
      · exact (h.at _).ingestTo _
      · exact (h.at _).drainFibre _ _
      · exact h.at _
  · exact .fault
theorem Canon.sendIdle (h : Canon s u) (l : Link) : Canon s (u.sendIdle l) := by
  unfold State.sendIdle
  split
  · exact h.emit _
  · exact h.emit _
  · exact h.emit _
  · exact h.emit _
theorem Canon.dropWaiting (h : Canon s u) (x : Nat) : Canon s (u.dropWaiting x) :=
  (h.setQueue _ _ _).foldl fun _ _ hv => Canon.ite (hv.bump _ _ _) ((hv.bump _ _ _).refusePacket _ _ _)
theorem Canon.linkFail (h : Canon s u) (l : Link) (rx cyc : Nat) : Canon s (u.linkFail l rx cyc) := by
  unfold State.linkFail
  dsimp only
  split
  · exact (Canon.ite (((((h.setTx _ _).bump _ _ _).log _ _ _).fenceRing _).startFail _) (((((h.setTx _ _).bump _ _ _).log _ _ _).fenceRing _).holdCause _)).failOps _ _
  · exact ((h.setTx _ _).fenceLane _ _).failLane _ _
  · exact (((h.setTx _ _).fenceFibre _ _).dropWaiting _).failOps _ _
  · exact (((h.setTx _ _).fenceFibre _ _).dropWaiting _).failOps _ _
theorem Canon.resend (h : Canon s u) (l : Link) (seq : Nat) : Canon s (u.resend l seq) := Canon.ite h ((h.setTx _ _).foldl fun _ _ hv2 => hv2.emit _)
theorem Canon.countReplay (h : Canon s u) (l : Link) (timeout : Bool) : Canon s (u.countReplay l timeout) := by
  unfold State.countReplay
  split
  · exact (h.bump _ _ _).pmcRing _ _ _
  · exact (h.bump _ _ _).pmcRing _ _ _
  · exact (h.bump _ _ _).pmcRing _ _ _
  · exact h.pmcRing _ _ _
theorem Canon.freeReplay (h : Canon s u) (l : Link) : Canon s (u.freeReplay l) := h.setTx _ _
theorem Canon.applyEntry (h : Canon s u) (heard : Link) (rx cyc : Nat) (e : CtlEntry) : Canon s (u.applyEntry heard rx cyc e) := by
  unfold State.applyEntry
  dsimp only
  split
  · exact h
  · refine Canon.ite ((h.setTx _ _).freeReplay _) ?_
    refine Canon.ite (Canon.ite ((h.setTx _ _).linkFail _ _ _) (((h.setTx _ _).resend _ _).countReplay _ _)) ?_
    refine Canon.ite ?_ ?_
    · split
      · exact (h.setTx _ _).drainFibre _ _
      · exact h.setTx _ _
    · exact h
theorem Canon.execLinkControlReceive_next (h : Canon s u) (t : At) (link : Link) (rx : Nat) (entries : List CtlEntry) : NextCanon s (execLinkControlReceive t link rx entries u) :=
  NextCanon.ite (.next ((h.at _).ifAwake fun _ hv => hv.foldl fun _ _ hv2 => hv2.applyEntry _ _ _ _)) .fault
theorem Canon.execAckTimeout_next (h : Canon s u) (t : At) (link : Link) (silent : List Nat) : NextCanon s (execAckTimeout t link silent u) := by
  unfold execAckTimeout
  dsimp only
  refine NextCanon.ite ?_ ?_
  · refine NextCanon.ite (.next (h.at _)) ?_
    split
    · exact .next (h.at _)
    · exact NextCanon.ite (.next (h.at _)) (.next (((((h.at _).setTx _ _).resend _ _).countReplay _ _).foldl fun _ _ hv4 => hv4.linkFail _ _ _))
  · exact .fault
end Sys2Proof.Machine
end
section
/-! The canonical form is kept (R116, R117, R352): arbiters of vaults and channels. -/
namespace Sys2Proof.Machine
variable {s u : State}
theorem Canon.mapApply (h : Canon s u) (a : Arbiter) : Canon s (u.mapApply a) := by
  unfold State.mapApply
  dsimp only
  split
  · exact h
  · exact ((h.setArb _ _).wr _ _).putB _ _ _
theorem Canon.arbQuiet (h : Canon s u) (a : Arbiter) : Canon s (u.arbQuiet a) := Canon.ite ((h.mapApply _).putB _ _ _) (h.mapApply _)
theorem Canon.freeze (h : Canon s u) (a : Arbiter) (cyc : Nat) : Canon s (u.freeze a cyc) := Canon.ite (h.putB _ _ _) ((h.putB _ _ _).arbQuiet _)
theorem Canon.mapWrite (h : Canon s u) (a : Arbiter) (v₁ : Word) : Canon s (u.mapWrite a v₁) := Canon.ite ((h.setArb _ _).putB _ _ _) (h.log _ _ _)
theorem Canon.onArb_next (h : Canon s u) {t : At} {a : Arbiter} {f : State → State} (hf : ∀ v, Canon s v → Canon s (f v)) : NextCanon s (onArb t a u f) := by
  unfold onArb
  exact NextCanon.ite (.next ((h.at _).ifAwake hf)) .fault
theorem Canon.execArbFreezeSet_next (h : Canon s u) (t : At) (arb : Arbiter) : NextCanon s (execArbFreezeSet t arb u) := h.onArb_next fun _ hv => hv.freeze _ _
theorem Canon.execArbMapWrite_next (h : Canon s u) (t : At) (arb : Arbiter) (value : BitVec 64) : NextCanon s (execArbMapWrite t arb value u) :=
  h.onArb_next fun _ hv => hv.mapWrite _ _
theorem Canon.execArbMapApply_next (h : Canon s u) (t : At) (arb : Arbiter) : NextCanon s (execArbMapApply t arb u) :=
  h.onArb_next fun _ hv => Canon.ite hv (hv.arbQuiet _)
theorem Canon.dropAt (h : Canon s u) (r cyc : Nat) (p : Packet) : Canon s (u.dropAt r cyc p) := by
  unfold State.dropAt
  dsimp only
  refine Canon.ite ?_ ?_
  · split
    · exact Canon.ite (h.bump _ _ _) ((h.bump _ _ _).endOp _ _ _ _ _)
    · exact (h.bump _ _ _).refusePacket _ _ _
  · exact (h.bump _ _ _).refusePacket _ _ _
theorem Canon.purge (h : Canon s u) (r cyc : Nat) : Canon s (u.purge r cyc) :=
  h.foldl fun _ _ hv => Canon.ite hv ((hv.setQueue _ _ _).foldl fun _ _ hv2 => hv2.dropAt _ _ _)
theorem Canon.startTimer (h : Canon s u) (r : Nat) (p : Packet) : Canon s (u.startTimer r p) := by
  unfold State.startTimer
  dsimp only
  refine Canon.ite ?_ ?_
  · split
    · exact Canon.ite h (h.setOp _ _ _)
    · exact h
  · exact h
theorem Canon.waitSlot (h : Canon s u) (r held : Nat) : Canon s (u.waitSlot r held) :=
  Canon.ite (((h.bump _ _ _).pmcRing _ _ _).bump _ _ _) ((h.bump _ _ _).pmcRing _ _ _)
theorem Canon.execTxArbGrant_next (h : Canon s u) (t : At) (r : Nat) (ready : Bool) : NextCanon s (execTxArbGrant t r ready u) := by
  unfold execTxArbGrant
  dsimp only
  refine NextCanon.ite ?_ ?_
  · refine NextCanon.ite (.next (h.at _)) ?_
    refine NextCanon.ite (.next (Canon.ite ((h.at _).purge _ _) (((h.at _).purge _ _).waitSlot _ _))) ?_
    refine NextCanon.ite (.next (((h.at _).purge _ _).arbQuiet _)) ?_
    split
    · exact .next (Canon.ite (((h.at _).purge _ _).arbQuiet _) ((((h.at _).purge _ _).arbQuiet _).sendIdle _))
    · split
      · exact .next ((h.at _).purge _ _)
      · refine NextCanon.ite ?_ ?_
        · exact .next ((((Canon.ite (((h.at _).purge _ _).waitSlot _ _) ((h.at _).purge _ _)).setTx _ _).bump _ _ _).pmcRing _ _ _)
        · exact .next (((((((Canon.ite (((h.at _).purge _ _).waitSlot _ _) ((h.at _).purge _ _)).setQueue _ _ _).setArb _ _).transmit _ _ _).pmcRing _ _ _).pmcRing _ _ _).startTimer _ _)
  · exact .fault
end Sys2Proof.Machine
end
section
/-! The canonical form is kept (R116, R117, R352): lattice controllers and lanes. -/
namespace Sys2Proof.Machine
variable {s u : State}
theorem Canon.latDiscard (h : Canon s u) (n p mask : Nat) : Canon s (u.latDiscard n p mask) := (h.bump _ _ _).log _ _ _
theorem Canon.execLatrForward_next (h : Canon s u) (t : At) (tile : Nat) (cmd : BitVec 64) (at_ : Nat) : NextCanon s (execLatrForward t tile cmd at_ u) := by
  unfold execLatrForward
  dsimp only
  refine NextCanon.ite ?_ ?_
  · refine NextCanon.ite (.next (h.at _)) ?_
    refine NextCanon.ite (.next ((h.at _).log _ _ _)) ?_
    refine NextCanon.ite (.next ((Canon.ite ((h.at _).bump _ _ _) (h.at _)).latDiscard _ _ _)) ?_
    refine NextCanon.ite (.next (Canon.ite ((h.at _).bump _ _ _) (h.at _))) ?_
    refine NextCanon.ite ?_ ?_
    · exact .next ((Canon.ite ((h.at _).bump _ _ _) (h.at _)).latDiscard _ _ _)
    · exact .next (((Canon.ite ((h.at _).bump _ _ _) (h.at _)).latQueue _ _).latStatus _)
  · exact .fault
theorem Canon.execRequestBoundary_next (h : Canon s u) (t : At) (tile : Nat) : NextCanon s (execRequestBoundary t tile u) := by
  unfold execRequestBoundary
  dsimp only
  refine NextCanon.ite ?_ ?_
  · refine NextCanon.ite ?_ ?_
    · exact .next (h.at _)
    · exact .next ((((h.at _).setLattice _ _).foldl fun _ _ hv3 => hv3.foldl fun _ _ hv4 => Canon.ite hv4 (hv4.putF _ _ _)).latStatus _)
  · exact .fault
theorem Canon.moveBank (h : Canon s u) (j e : Nat) (mods up : Bool) : Canon s (u.moveBank j e mods up) :=
  (h.foldl fun _ _ hv => (Canon.ite ((hv.putF _ _ _).putF _ _ _) (hv.putF _ _ _)).setRing _ _).putF _ _ _
theorem Canon.laneStart (h : Canon s u) (n b : Nat) (x : Nat × Nat) : Canon s (u.laneStart n b x) := by
  unfold State.laneStart
  dsimp only
  refine Canon.ite ?_ ?_
  · exact h
  · exact ((((Canon.ite ((h.putF _ _ _).putF _ _ _) h).foldl fun _ _ hv2 => (hv2.moveBank _ _ _ _).bump _ _ _).putF _ _ _).setLane _ _).emit _
theorem Canon.execStartBoundary_next (h : Canon s u) (t : At) (tile : Nat) : NextCanon s (execStartBoundary t tile u) := by
  unfold execStartBoundary
  dsimp only
  refine NextCanon.ite ?_ ?_
  · refine NextCanon.ite ?_ ?_
    · exact .next (h.at _)
    · exact NextCanon.ite (.next (h.at _)) (.next (((h.at _).setLattice _ _).foldl fun _ _ hv3 => hv3.foldl fun _ _ hv4 => hv4.laneStart _ _ _))
  · exact .fault
theorem Canon.restartBank (h : Canon s u) (j e : Nat) (mods : Bool) : Canon s (u.restartBank j e mods) :=
  h.foldl fun _ _ hv => Canon.ite hv (((hv.putF _ _ _).putF _ _ _).setRing _ _)
theorem Canon.hear (h : Canon s u) (j e : Nat) (channels : List Nat) : Canon s (u.hear j e channels) := by
  unfold State.hear
  dsimp only
  split
  · exact h.putF _ _ _
  · exact (Canon.ite ((h.restartBank _ _ _).restartBank _ _ _) (h.restartBank _ _ _)).setLane _ _
theorem Canon.trainLane (h : Canon s u) (j : Nat) : Canon s (u.trainLane j) := h.foldl fun _ _ hv => hv.emit _
theorem Canon.execShiftersSettled_next (h : Canon s u) (t : At) (tile : Nat) (heard : List (Nat × Nat × List Nat)) : NextCanon s (execShiftersSettled t tile heard u) := by
  unfold execShiftersSettled
  dsimp only
  refine NextCanon.ite ?_ ?_
  · exact NextCanon.ite (.next (h.at _)) (.next (((h.at _).foldl fun _ _ hv2 => (hv2.putF _ _ _).trainLane _).foldl fun _ _ hv3 => hv3.hear _ _ _))
  · exact .fault
theorem Canon.settleActive (h : Canon s u) (tile : Nat) : Canon s (u.settleActive tile) := (h.setLattice _ _).latStatus _
theorem Canon.execLaneReopen_next (h : Canon s u) (t : At) (tile : Nat) (relocked : List Nat) : NextCanon s (execLaneReopen t tile relocked u) := by
  unfold execLaneReopen
  dsimp only
  refine NextCanon.ite ?_ ?_
  · refine NextCanon.ite ?_ ?_
    · exact .next (h.at _)
    · exact .next (((h.at _).foldl fun _ _ hv2 => hv2.foldl fun _ _ hv3 => Canon.ite hv3 (Canon.ite (hv3.putF _ _ _) ((hv3.putF _ _ _).bump _ _ _))).settleActive _)
  · exact .fault
theorem Canon.execLaneLateRelock_next (h : Canon s u) (t : At) (lane : BitVec 5) : NextCanon s (execLaneLateRelock t lane u) :=
  NextCanon.ite (.next (h.at _)) (.next (Canon.ite (((h.at _).putF _ _ _).settleActive _) (h.at _)))
theorem Canon.execLaneFenceTimeout_next (h : Canon s u) (t : At) (lane : BitVec 5) : NextCanon s (execLaneFenceTimeout t lane u) :=
  NextCanon.ite (.next (h.at _)) (NextCanon.ite (.next ((((h.at _).fenceLane _ _).failLane _ _).settleActive _)) (.next (h.at _)))
theorem Canon.execLaneFrameStart_next (h : Canon s u) (t : At) (lane : BitVec 5) (e : Nat) : NextCanon s (execLaneFrameStart t lane e u) := by
  unfold execLaneFrameStart
  dsimp only
  refine NextCanon.ite ?_ ?_
  · refine NextCanon.ite (.next (h.at _)) ?_
    split
    · exact .next (Canon.ite ((h.at _).sendIdle _) (h.at _))
    · refine NextCanon.ite (.next (h.at _)) ?_
      refine NextCanon.ite (.next (((h.at _).setFrames _ _ _).queueFrame _ _ _)) ?_
      refine NextCanon.ite ?_ ?_
      · exact .next (((h.at _).setFrames _ _ _).fallback _ _ _)
      · exact NextCanon.ite (.next (h.at _)) (.next ((((((h.at _).setFrames _ _ _).transmit _ _ _).emit _).pmcRing _ _ _).startTimer _ _))
  · exact .fault
end Sys2Proof.Machine
end
section
/-! The canonical form is kept (R116, R117, R352): the HBM and its channels. -/
namespace Sys2Proof.Machine
variable {s u : State}
theorem Canon.channelWait (h : Canon s u) (k c held : Nat) : Canon s (u.channelWait k c held) := Canon.ite ((h.bump _ _ _).bump _ _ _) (h.bump _ _ _)
theorem Canon.channelGrant (h : Canon s u) (k c : Nat) (q : PortReq) : Canon s (u.channelGrant k c q) :=
  Canon.ite ((h.setArb _ _).writeAt _ _ _) (Canon.ite (h.setArb _ _) ((h.setArb _ _).lineCode _ _))
theorem Canon.channelWriteBack (h : Canon s u) (k c : Nat) : Canon s (u.channelWriteBack k c) := by
  unfold State.channelWriteBack
  dsimp only
  split
  · exact h
  · exact Canon.ite (((h.setArb _ _).unmergeLines _ _).setMark _ _) h
theorem Canon.execHbmChannelGrant_next (h : Canon s u) (t : At) (k c : Nat) (reqs : List PortReq) (withdraws : Bool) (upset : Mark) : NextCanon s (execHbmChannelGrant t k c reqs withdraws upset u) := by
  unfold execHbmChannelGrant
  dsimp only
  refine NextCanon.ite ?_ ?_
  · refine NextCanon.ite (.next (h.at _)) ?_
    refine NextCanon.ite ?_ ?_
    · exact .next (Canon.ite (((h.at _).foldl fun _ _ hv2 => hv2.bump _ _ _).channelWait _ _ _) ((h.at _).foldl fun _ _ hv2 => hv2.bump _ _ _))
    · refine NextCanon.ite (.next (((h.at _).foldl fun _ _ hv2 => hv2.bump _ _ _).arbQuiet _)) ?_
      split
      · refine .next ?_
        refine Canon.ite ?_ ?_
        · exact (Canon.ite (((h.at _).foldl fun _ _ hv2 => hv2.bump _ _ _).channelWait _ _ _) ((h.at _).foldl fun _ _ hv2 => hv2.bump _ _ _)).arbQuiet _
        · exact (Canon.ite (((h.at _).foldl fun _ _ hv2 => hv2.bump _ _ _).channelWait _ _ _) ((h.at _).foldl fun _ _ hv2 => hv2.bump _ _ _)).channelWriteBack _ _
      · refine NextCanon.ite ?_ ?_
        · exact .next (((Canon.ite (((h.at _).foldl fun _ _ hv2 => hv2.bump _ _ _).channelWait _ _ _) ((h.at _).foldl fun _ _ hv2 => hv2.bump _ _ _)).bump _ _ _).setArb _ _)
        · refine .next ?_
          refine Canon.channelGrant ?_ _ _ _
          refine Canon.ite ?_ ?_
          · exact Canon.ite (((h.at _).foldl fun _ _ hv2 => hv2.bump _ _ _).channelWait _ _ _) ((h.at _).foldl fun _ _ hv2 => hv2.bump _ _ _)
          · exact (Canon.ite (((h.at _).foldl fun _ _ hv2 => hv2.bump _ _ _).channelWait _ _ _) ((h.at _).foldl fun _ _ hv2 => hv2.bump _ _ _)).setMark _ _
  · exact .fault
theorem Canon.execHbmMerge_next (h : Canon s u) (t : At) (k c : Nat) (req : PortReq) : NextCanon s (execHbmMerge t k c req u) :=
  NextCanon.ite (NextCanon.ite (.next (h.at _)) (.next (Canon.ite ((h.at _).bump _ _ _) (h.at _)))) .fault
theorem Canon.execHbmRefresh_next (h : Canon s u) (t : At) (k c : Nat) (group : BitVec 2) : NextCanon s (execHbmRefresh t k c group u) :=
  NextCanon.ite (NextCanon.ite (.next (h.at _)) (NextCanon.ite (.next (h.at _)) (.next ((h.at _).setArb _ _)))) .fault
theorem Canon.scrubSlot (h : Canon s u) (k p : Nat) (writes : Bool) : Canon s (u.scrubSlot k p writes) := Canon.ite ((h.setArb _ _).unmergeLines _ _) (h.setArb _ _)
theorem Canon.execScrubRead_next (h : Canon s u) (t : At) (k : Nat) (upset : Mark) : NextCanon s (execScrubRead t k upset u) := by
  unfold execScrubRead
  dsimp only
  refine NextCanon.ite ?_ ?_
  · refine NextCanon.ite (.next (h.at _)) ?_
    refine NextCanon.ite (.next (h.at _)) ?_
    refine NextCanon.ite (.next (h.at _)) ?_
    refine .next ?_
    refine Canon.ite ?_ ?_
    · refine Canon.bump ?_ _ _ _
      refine Canon.putF ?_ _ _ _
      split
      · exact ((Canon.ite ((h.at _).scrubSlot _ _ _) (((h.at _).scrubSlot _ _ _).setMark _ _)).bump _ _ _).setMark _ _
      · exact ((Canon.ite ((h.at _).scrubSlot _ _ _) (((h.at _).scrubSlot _ _ _).setMark _ _)).bump _ _ _).setMark _ _
      · exact (((Canon.ite ((h.at _).scrubSlot _ _ _) (((h.at _).scrubSlot _ _ _).setMark _ _)).bump _ _ _).log _ _ _).setMark _ _
      · exact Canon.ite ((h.at _).scrubSlot _ _ _) (((h.at _).scrubSlot _ _ _).setMark _ _)
    · refine Canon.putF ?_ _ _ _
      split
      · exact ((Canon.ite ((h.at _).scrubSlot _ _ _) (((h.at _).scrubSlot _ _ _).setMark _ _)).bump _ _ _).setMark _ _
      · exact ((Canon.ite ((h.at _).scrubSlot _ _ _) (((h.at _).scrubSlot _ _ _).setMark _ _)).bump _ _ _).setMark _ _
      · exact (((Canon.ite ((h.at _).scrubSlot _ _ _) (((h.at _).scrubSlot _ _ _).setMark _ _)).bump _ _ _).log _ _ _).setMark _ _
      · exact Canon.ite ((h.at _).scrubSlot _ _ _) (((h.at _).scrubSlot _ _ _).setMark _ _)
  · exact .fault
theorem Canon.execHbmInitialization_next (h : Canon s u) (t : At) (k : Nat) : NextCanon s (execHbmInitialization t k u) := by
  unfold execHbmInitialization
  dsimp only
  refine NextCanon.ite (NextCanon.ite (.next (h.at _)) (NextCanon.ite (.next (h.at _)) (.next (Canon.putB (Canon.phaseTo ?_ _) _ _ _)))) .fault
  exact fun hs => canonical_filter (h.at t hs) _ _
end Sys2Proof.Machine
end
section
/-! The canonical form is kept (R116, R117, R352): the fabric. -/
namespace Sys2Proof.Machine
variable {s u : State}
theorem Canon.answer (h : Canon s u) (r : Nat) (p : Packet) (st : Status) (aux : Nat) (data : List Byte) (poison : Bool) : Canon s (u.answer r p st aux data poison) := by
  unfold State.answer
  dsimp only
  refine Canon.ite ((h.overTower _ _ _).emit _) ?_
  refine Canon.ite ?_ ?_
  · split
    · refine Canon.sendLattice ?_ _ _ _ _
      split
      · exact h.overGroup _ _ _ _
      · exact h
    · refine Canon.bump ?_ _ _ _
      split
      · exact h.overGroup _ _ _ _
      · exact h
  · refine Canon.respond ?_ _ _
    split
    · exact h.overGroup _ _ _ _
    · exact h
theorem Canon.deny (h : Canon s u) (r : Nat) (p : Packet) (st : Status) : Canon s (u.deny r p st) := (Canon.ite ((h.bump _ _ _).pmcRing _ _ _) h).answer _ _ _ _ _ _
theorem Canon.denyAt (h : Canon s u) (r : Nat) (p : Packet) (st : Status) (core : Option Nat) : Canon s (u.denyAt r p st core) := by
  unfold State.denyAt
  split
  · exact Canon.ite ((h.coreFault _ _).deny _ _ _) (h.deny _ _ _)
  · exact h.deny _ _ _
theorem Canon.settle (h : Canon s u) (a cyc : Nat) : Canon s (u.settle a cyc) := by
  unfold State.settle
  split
  · exact h.landCore _ _ _
  · exact h
theorem Canon.holdPacket (h : Canon s u) (r : Nat) (p : Packet) (x : Arbiter) : Canon s (u.holdPacket r p x) := by
  unfold State.holdPacket
  dsimp only
  split
  · exact h.modCore _ _
  · exact h.setArb _ _
theorem Canon.answerLines (h : Canon s u) (r cyc : Nat) (p : Packet) (a n : Nat) : Canon s (u.answerLines r cyc p a n) := by
  unfold State.answerLines
  dsimp only
  refine Canon.ite (h.deny _ _ _) ?_
  split
  · exact h.holdPacket _ _ _
  · exact ((h.settle _ _).readAt _ _).answer _ _ _ _ _ _
theorem Canon.setFetch (h : Canon s u) (k e : Nat) (f : Fetch) : Canon s (u.setFetch k e f) := h.update
theorem Canon.serveLoad (h : Canon s u) (r cyc : Nat) (p : Packet) (a : Nat) : Canon s (u.serveLoad r cyc p a) := by
  unfold State.serveLoad
  dsimp only
  split
  · exact h.answerLines _ _ _ _ _
  · exact Canon.ite (h.answerLines _ _ _ _ _) (Canon.ite (h.setFetch _ _ _) ((h.putB _ _ _).setFetch _ _ _))
theorem Canon.takeLoad (h : Canon s u) (r cyc : Nat) (p : Packet) : Canon s (u.takeLoad r cyc p) := by
  unfold State.takeLoad
  split
  · exact h.denyAt _ _ _ _
  · exact h.answer _ _ _ _ _ _
  · exact h.serveLoad _ _ _ _
theorem Canon.onTarget_next (h : Canon s u) {t : At} {r : Nat} {p : Packet} {cls op last : Nat} {f : State → State} (hf : ∀ v, Canon s v → Canon s (f v)) :
    NextCanon s (onTarget t r p cls op last u f) := by
  unfold onTarget
  dsimp only
  refine NextCanon.ite (NextCanon.ite (.next (h.at _)) (NextCanon.ite (.next (hf _ ((h.at _).pmcRing _ _ _))) (NextCanon.ite (.next ?_) (.next (h.at _))))) .fault
  exact ((h.at _).pmcRing _ _ _).deny _ _ _
theorem Canon.execLoad_next (h : Canon s u) (t : At) (r : Nat) (p : Packet) : NextCanon s (execLoad t r p u) := h.onTarget_next fun _ hv => hv.takeLoad _ _ _
theorem Canon.storeAt (h : Canon s u) (r cyc : Nat) (p : Packet) (a : Nat) : Canon s (u.storeAt r cyc p a) := by
  unfold State.storeAt
  dsimp only
  refine Canon.ite (h.deny _ _ _) ?_
  split
  · exact h.holdPacket _ _ _
  · exact ((h.settle _ _).writeAt _ _ _).answer _ _ _ _ _ _
theorem Canon.takeStore (h : Canon s u) (r cyc : Nat) (p : Packet) : Canon s (u.takeStore r cyc p) := by
  unfold State.takeStore
  split
  · exact h.denyAt _ _ _ _
  · exact h.deny _ _ _
  · exact h.storeAt _ _ _ _
theorem Canon.execStore_next (h : Canon s u) (t : At) (r : Nat) (p : Packet) : NextCanon s (execStore t r p u) := h.onTarget_next fun _ hv => hv.takeStore _ _ _
theorem Canon.castFenced (h : Canon s u) (r : Nat) (q : Packet) : Canon s (u.castFenced r q) := (h.bump _ _ _).respond _ _
theorem Canon.castCopy (h : Canon s u) (r n : Nat) (q : Packet) : Canon s (u.castCopy r n q) := by
  unfold State.castCopy
  dsimp only
  split
  · exact h.castFenced _ _
  · refine Canon.ite h ?_
    refine Canon.ite (h.castFenced _ _) ?_
    split
    · exact h.setQueue _ _ _
    · exact (h.setOp _ _ _).ontoFibre _ _ _
theorem Canon.castCopies (h : Canon s u) (r n : Nat) (p : Packet) : Canon s (u.castCopies r n p) := by
  unfold State.castCopies
  split
  · exact h
  · exact h.foldl fun _ _ hv => hv.castCopy _ _ _
theorem Canon.pumpCast (h : Canon s u) (r n : Nat) : Canon s (u.pumpCast r n) := by
  unfold State.pumpCast
  split
  · exact h
  · exact (h.setQueue _ _ _).castCopy _ _ _
theorem Canon.execMstore_next (h : Canon s u) (t : At) (r : Nat) (p : Packet) : NextCanon s (execMstore t r p u) := by
  unfold execMstore
  split
  · exact .next ((h.at _).ifAwake fun _ hv => Canon.ite (hv.castCopies _ _ _) hv)
  · exact h.onTarget_next fun _ hv => hv.takeStore _ _ _
theorem Canon.remember (h : Canon s u) (x : CacheEntry) : Canon s (u.remember x) := h.update
theorem Canon.answerAtomic (h : Canon s u) (r : Nat) (p : Packet) (old st : Nat) : Canon s (u.answerAtomic r p old st) := h.answer _ _ _ _ _ _
theorem Canon.takeAtomic (h : Canon s u) (r cyc : Nat) (p : Packet) : Canon s (u.takeAtomic r cyc p) := by
  unfold State.takeAtomic
  dsimp only
  split
  · exact h.denyAt _ _ _ _
  · exact h.deny _ _ _
  · refine Canon.ite (h.deny _ _ _) ?_
    refine Canon.ite (h.answer _ _ _ _ _ _) ?_
    split
    · exact (h.pmcRing _ _ _).answerAtomic _ _ _ _
    · exact h.holdPacket _ _ _
    · exact ((((h.settle _ _).applyAtomic _ _ _ _ _).remember _).pmcRing _ _ _).answerAtomic _ _ _ _
theorem Canon.execAtomic_next (h : Canon s u) (t : At) (r : Nat) (p : Packet) : NextCanon s (execAtomic t r p u) := h.onTarget_next fun _ hv => hv.takeAtomic _ _ _
theorem Canon.execFlagPacket_next (h : Canon s u) (t : At) (r : Nat) (p : Packet) : NextCanon s (execFlagPacket t r p u) :=
  h.onTarget_next fun _ hv => Canon.ite (hv.deny _ _ _) (Canon.ite (hv.deny _ _ _) (Canon.ite (hv.deny _ _ _) (hv.modCore _ _)))
theorem Canon.setInv (h : Canon s u) (i : Nat) (v₁ : InvRun) : Canon s (u.setInv i v₁) := h.update
theorem Canon.serveCopyld (h : Canon s u) (r cyc : Nat) (p : Packet) (a : Nat) : Canon s (u.serveCopyld r cyc p a) := by
  unfold State.serveCopyld
  dsimp only
  refine Canon.serveLoad ?_ _ _ _ _
  split
  · exact (h.wr _ _).putF _ _ _
  · exact h
theorem Canon.takeCopyld (h : Canon s u) (r cyc : Nat) (p : Packet) : Canon s (u.takeCopyld r cyc p) := by
  unfold State.takeCopyld
  split
  · exact h.denyAt _ _ _ _
  · exact h.deny _ _ _
  · split
    · exact h.setInv _ _
    · exact h.serveCopyld _ _ _ _
theorem Canon.execCopyld_next (h : Canon s u) (t : At) (r : Nat) (p : Packet) : NextCanon s (execCopyld t r p u) := h.onTarget_next fun _ hv => hv.takeCopyld _ _ _
theorem Canon.originate (h : Canon s u) {v : State} {r tag : Nat} {o : RemOp} (hv : u.originate r tag o = some v) : Canon s v := by
  unfold State.originate at hv
  obtain ⟨q, -, rfl⟩ := Option.map_eq_some_iff.1 hv
  exact (h.setOp _ _ _).sendAt _ _ _
theorem Canon.pumpInv (h : Canon s u) (r i n : Nat) : Canon s (u.pumpInv r i n) := by
  induction n generalizing u with
  | zero => exact h
  | succ n ih =>
    unfold State.pumpInv
    split
    · split
      · exact h
      · exact ih (Canon.getD (h.setInv _ _) fun _ hv => (h.setInv _ _).originate hv)
    · exact h
theorem Canon.startInv (h : Canon s u) (r i : Nat) (p : Packet) : Canon s (u.startInv r i p) := by
  unfold State.startInv
  dsimp only
  refine Canon.ite ?_ ?_
  · exact (((h.foldl fun _ _ hv => hv.log _ _ _).wr _ _).wr _ _).answer _ _ _ _ _ _
  · exact ((((h.foldl fun _ _ hv => hv.log _ _ _).wr _ _).putB _ _ _).setInv _ _).pumpInv _ _ _
theorem Canon.runWaiting (h : Canon s u) (r i cyc : Nat) (l : List Packet) : Canon s (u.runWaiting r i cyc l) := by
  induction l generalizing u with
  | nil => exact h
  | cons p l ih =>
    unfold State.runWaiting
    split
    · exact h.setInv _ _
    · refine ih (Canon.ite (h.startInv _ _ _) ?_)
      split
      · exact h.serveCopyld _ _ _ _
      · exact h.denyAt _ _ _ _
      · exact h.deny _ _ _
theorem Canon.holderDone (h : Canon s u) (r i h₁ cyc : Nat) (st : Status) : Canon s (u.holderDone r i h₁ cyc st) := by
  unfold State.holderDone
  dsimp only
  split
  · exact h
  · exact Canon.ite ((h.setInv _ _).pumpInv _ _ _) ((((h.update.wr _ _).putB _ _ _).answer _ _ _ _ _ _).runWaiting _ _ _ _)
theorem Canon.execInv_next (h : Canon s u) (t : At) (r : Nat) (p : Packet) : NextCanon s (execInv t r p u) := by
  unfold execInv
  refine h.onTarget_next fun _ hv => ?_
  split
  · exact hv.denyAt _ _ _ _
  · exact hv.deny _ _ _
  · split
    · exact hv.deny _ _ _
    · split
      · exact hv.setInv _ _
      · exact hv.startInv _ _ _
theorem Canon.execInvh_next (h : Canon s u) (t : At) (r : Nat) (p : Packet) : NextCanon s (execInvh t r p u) := by
  unfold execInvh
  dsimp only
  refine h.onTarget_next fun _ hv => ?_
  split
  · exact hv.deny _ _ _
  · refine Canon.ite ?_ ?_
    · exact hv.deny _ _ _
    · exact Canon.ite (hv.deny _ _ _) ((hv.foldl fun _ _ hv2 => Canon.ite ((hv2.putB _ _ _).setFetch _ _ _) (hv2.putB _ _ _)).answer _ _ _ _ _ _)
theorem Canon.copyldDone (h : Canon s u) (k e off cyc : Nat) (st : Status) (data : List Byte) : Canon s (u.copyldDone k e off cyc st data) := by
  unfold State.copyldDone
  dsimp only
  split
  · exact h.holdPacket _ _ _
  · refine Canon.ite ((Canon.ite (h.writeAt _ _ _) h).setFetch _ _ _) ?_
    refine Canon.ite ?_ ?_
    · exact (Canon.ite ((Canon.ite (h.writeAt _ _ _) h).bump _ _ _) (Canon.ite (h.writeAt _ _ _) h)).setFetch _ _ _
    · split
      · exact (((Canon.ite (h.writeAt _ _ _) h).putB _ _ _).setFetch _ _ _).foldl fun _ _ hv3 => hv3.answer _ _ _ _ _ _
      · exact (((((Canon.ite (h.writeAt _ _ _) h).putB _ _ _).setFetch _ _ _).putB _ _ _).bump _ _ _).foldl fun _ _ hv4 => Canon.ite (hv4.takeCopyld _ _ _) (hv4.takeLoad _ _ _)
theorem Canon.retake (h : Canon s u) (r cyc : Nat) (p : Packet) : Canon s (u.retake r cyc p) := by
  unfold State.retake
  refine Canon.ite (h.copyldDone _ _ _ _ _ _) ?_
  split
  · exact h.takeLoad _ _ _
  · exact h.takeStore _ _ _
  · exact h.takeStore _ _ _
  · exact h.takeCopyld _ _ _
  · exact h.takeAtomic _ _ _
theorem Canon.execRefetch_next (h : Canon s u) (t : At) (k e : Nat) : NextCanon s (execRefetch t k e u) := by
  unfold execRefetch
  dsimp only
  refine NextCanon.ite ?_ ?_
  · refine NextCanon.ite (.next (h.at _)) ?_
    refine NextCanon.ite (.next (h.at _)) ?_
    split
    · exact .next (h.at _)
    · refine .next ?_
      split
      · next _ hv =>
          exact (((h.at _).setFetch _ _ _).originate hv)
      · exact (((h.at _).setFetch _ _ _).bump _ _ _).copyldDone _ _ _ _ _ _
  · exact .fault
end Sys2Proof.Machine
end
section
/-! The canonical form is kept (R116, R117, R352): the configuration store and the image. -/
namespace Sys2Proof.Machine
variable {s u : State}
theorem Canon.setBank (h : Canon s u) (b : Bool) (k : Bank) : Canon s (u.setBank b k) := Canon.ite h.update h.update
theorem Canon.forceWrite (h : Canon s u) (a : Nat) (v₁ : Word) : Canon s (u.forceWrite a v₁) := h.foldl fun _ _ hv => Canon.ite (hv.putF _ _ _) hv
theorem Canon.override (h : Canon s u) (tile : Nat) : Canon s (u.override tile) := h.foldl fun _ _ hv => hv.setItem _ _ _ _
end Sys2Proof.Machine
end
section
/-! The canonical form is kept (R116, R117, R352): die-to-die links. -/
namespace Sys2Proof.Machine
variable {s u : State}
theorem Canon.d2dReported (h : Canon s u) (tower g : Nat) (dir : Dir) : Canon s (u.d2dReported tower g dir) := h.setGroup _ _ _
theorem Canon.d2dEmit (h : Canon s u) (tower g : Nat) (dir : Dir) (f : D2dFrame) : Canon s (u.d2dEmit tower g dir f) := (h.emit _).d2dReported _ _ _
theorem Canon.drainBuf (h : Canon s u) (tower g : Nat) (dir : Dir) (cyc : Nat) : Canon s (u.drainBuf tower g dir cyc) :=
  Canon.ite (((h.settleDroop _ _).setGroup _ _ _).bump _ _ _) ((h.settleDroop _ _).setGroup _ _ _)
theorem Canon.d2dSend (h : Canon s u) (tower g : Nat) (dir : Dir) : Canon s (u.d2dSend tower g dir) := by
  unfold State.d2dSend
  dsimp only
  split
  · exact Canon.ite ((((h.setGroup _ _ _).bump _ _ _).d2dEmit _ _ _ _).emit _) (((h.setGroup _ _ _).bump _ _ _).d2dEmit _ _ _ _)
  · split
    · exact h.d2dEmit _ _ _ _
    · exact Canon.ite (((h.setGroup _ _ _).d2dEmit _ _ _ _).emit _) ((h.setGroup _ _ _).d2dEmit _ _ _ _)
theorem Canon.onD2d_next (h : Canon s u) {t : At} {tower g : Nat} {f : State → State} (hf : ∀ v, Canon s v → Canon s (f v)) : NextCanon s (onD2d t tower g u f) := by
  unfold onD2d
  exact NextCanon.ite (.next ((h.at _).ifAwake hf)) .fault
theorem Canon.execD2dFrameSend_next (h : Canon s u) (t : At) (tower g : Nat) (dir : Dir) : NextCanon s (execD2dFrameSend t tower g dir u) := by
  unfold execD2dFrameSend
  dsimp only
  refine h.onD2d_next fun _ hv => ?_
  split
  · exact (hv.drainBuf _ _ _ _).d2dSend _ _ _
  · exact hv.emit _
  · exact hv
theorem Canon.markTower (h : Canon s u) (tower : Nat) : Canon s (u.markTower tower) := by
  unfold State.markTower
  split
  · exact h.d2dPut _ _ _ _ _
  · exact h
theorem Canon.d2dReport (h : Canon s u) (tower g : Nat) (dir : Dir) (f : D2dFrame) : Canon s (u.d2dReport tower g dir f) := h.setGroup _ _ _
theorem Canon.trainFail (h : Canon s u) (tower g cyc : Nat) : Canon s (u.trainFail tower g cyc) :=
  Canon.ite (((h.putF _ _ _).putF _ _ _).fenceGroup _ _ _) ((h.putF _ _ _).putF _ _ _)
theorem Canon.groupDown (h : Canon s u) (tower g cyc : Nat) : Canon s (u.groupDown tower g cyc) := by
  unfold State.groupDown
  dsimp only
  refine Canon.ite ?_ ?_
  · refine Canon.ite ?_ ?_
    · refine Canon.ite ?_ ?_
      · exact ((((h.setGroup _ _ _).putF _ _ _).putF _ _ _).trainFail _ _ _).putF _ _ _
      · exact (((h.setGroup _ _ _).putF _ _ _).putF _ _ _).trainFail _ _ _
    · exact (h.setGroup _ _ _).putF _ _ _
  · exact h
theorem Canon.execD2dFrameReceive_next (h : Canon s u) (t : At) (tower g : Nat) (dir : Dir) (f : D2dFrame) : NextCanon s (execD2dFrameReceive t tower g dir f u) := by
  unfold execD2dFrameReceive
  dsimp only
  refine h.onD2d_next fun _ hv => ?_
  refine Canon.ite (Canon.ite (hv.drainBuf _ _ _ _) hv) ?_
  refine Canon.ite ((Canon.ite (hv.drainBuf _ _ _ _) hv).groupDown _ _ _) ?_
  refine Canon.ite ((Canon.ite (hv.drainBuf _ _ _ _) hv).setGroup _ _ _) ?_
  refine Canon.ite ?_ ?_
  · exact (Canon.ite (hv.drainBuf _ _ _ _) hv).groupDown _ _ _
  · exact (Canon.ite ((Canon.ite (hv.drainBuf _ _ _ _) hv).setGroup _ _ _) (Canon.ite (hv.drainBuf _ _ _ _) hv)).d2dReport _ _ _ _
theorem Canon.execD2dReplayTimeout_next (h : Canon s u) (t : At) (tower g : Nat) (dir : Dir) : NextCanon s (execD2dReplayTimeout t tower g dir u) := by
  unfold execD2dReplayTimeout
  dsimp only
  refine h.onD2d_next fun _ hv => ?_
  split
  · exact Canon.ite (hv.setGroup _ _ _) hv
  · exact hv
theorem Canon.deskew (h : Canon s u) (tower g : Nat) (l : List (Nat × Nat × Nat × Nat)) : Canon s (u.deskew tower g l) := h.foldl fun _ _ hv => hv.putF _ _ _
theorem Canon.train (h : Canon s u) (tower g cyc : Nat) (w : TrainSight) : Canon s (u.train tower g cyc w) := by
  unfold State.train
  dsimp only
  split
  · exact (h.putF _ _ _).trainFail _ _ _
  · refine Canon.ite ?_ ?_
    · refine Canon.relaunch ?_ _ _
      refine Canon.d2dPut ?_ _ _ _ _ _
      refine Canon.deskew ?_ _ _ _
      refine Canon.ite ?_ ?_
      · exact ((((((h.putF _ _ _).setGroup _ _ _).putF _ _ _).putF _ _ _).putF _ _ _).putF _ _ _).putF _ _ _
      · exact (((((((h.putF _ _ _).setGroup _ _ _).putF _ _ _).putF _ _ _).putF _ _ _).putF _ _ _).putF _ _ _).outside _ _ _ _
    · exact (h.putF _ _ _).trainFail _ _ _
theorem Canon.trainThree (h : Canon s u) (tower g cyc : Nat) (w : TrainSight) : Canon s (u.trainThree tower g cyc w) :=
  Canon.ite (((h.setGroup _ _ _).update.putF _ _ _).putF _ _ _) ((h.setGroup _ _ _).trainFail _ _ _)
theorem Canon.execD2dTraining_next (h : Canon s u) (t : At) (tower g : Nat) (sight : TrainSight) : NextCanon s (execD2dTraining t tower g sight u) :=
  h.onD2d_next fun _ hv => Canon.ite hv (Canon.ite (hv.train _ _ _ _) (Canon.ite hv (hv.trainThree _ _ _ _)))
theorem Canon.execTrainingStepTimeout_next (h : Canon s u) (t : At) (tower g : Nat) (step : TrainStep) : NextCanon s (execTrainingStepTimeout t tower g step u) :=
  h.onD2d_next fun _ hv => Canon.ite ((hv.setGroup _ _ _).trainFail _ _ _) hv
theorem Canon.execD2dRetrain_next (h : Canon s u) (t : At) (tower g : Nat) (sight : TrainSight) : NextCanon s (execD2dRetrain t tower g sight u) :=
  h.onD2d_next fun _ hv => Canon.ite hv (Canon.ite ((hv.bump _ _ _).groupDown _ _ _) (((hv.bump _ _ _).groupDown _ _ _).train _ _ _ _))
theorem Canon.capGo (h : Canon s u) (cyc : Nat) : Canon s (u.capGo cyc) := by
  unfold State.capGo
  refine h.foldl fun _ _ hv => ?_
  refine Canon.ite hv ?_
  split
  · exact hv.train _ _ _ _
  · exact hv.trainFail _ _ _
  · exact hv
theorem Canon.settleGroups (h : Canon s u) (cyc : Nat) : Canon s (u.settleGroups cyc) := h.foldl fun _ _ hv => Canon.ite ((hv.putF _ _ _).fenceGroup _ _ _) hv
theorem Canon.fixCap (h : Canon s u) (cyc : Nat) : Canon s (u.fixCap cyc) := by
  unfold State.fixCap
  dsimp only
  refine Canon.ite ?_ ?_
  · refine Canon.ite ?_ ?_
    · exact (((h.update.foldl fun _ _ hv2 => (hv2.putF _ _ _).putB _ _ _).phaseTo _).settleGroups _).capGo _
    · exact ((h.update.foldl fun _ _ hv2 => (hv2.putF _ _ _).putB _ _ _).phaseTo _).settleGroups _
  · exact ((((h.update.foldl fun _ _ hv2 => (hv2.putF _ _ _).putB _ _ _).phaseTo _).log _ _ _).foldl fun _ _ hv5 => Canon.ite (hv5.putF _ _ _) hv5).startFail _
theorem Canon.execCapabilityWordFixed_next (h : Canon s u) (t : At) : NextCanon s (execCapabilityWordFixed t u) :=
  NextCanon.ite (.next (h.at _)) (.next (Canon.ite ((h.at _).fixCap _) (h.at _)))
theorem Canon.bondGroup (h : Canon s u) (tower cyc : Nat) (x : Crossing × Nat) : Canon s (u.bondGroup tower cyc x) :=
  Canon.ite (Canon.ite ((h.bump _ _ _).bump _ _ _) (h.bump _ _ _)) ((h.foldl fun _ _ hv => hv.outside _ _ _ _).fenceCrossing _ _ _)
theorem Canon.execBondTest_next (h : Canon s u) (t : At) (tower : Nat) (failing : List (Crossing × Nat)) : NextCanon s (execBondTest t tower failing u) :=
  h.onTower_next fun _ hv => Canon.ite (hv.foldl fun _ _ hv2 => hv2.bondGroup _ _ _) hv
theorem Canon.execTileReset_next (h : Canon s u) (t : At) (tile : Nat) : NextCanon s (execTileReset t tile u) := by
  unfold execTileReset
  dsimp only
  refine NextCanon.ite ?_ ?_
  · refine NextCanon.ite (.next (h.at _)) ?_
    refine NextCanon.ite (.next (h.at _)) ?_
    refine .next ?_
    refine Canon.ite ?_ ?_
    · exact ((h.at _).foldl fun _ _ hv2 => (hv2.setTower _ _).foldl fun _ _ hv4 => Canon.ite (hv4.putF _ _ _) hv4).failOpsAs _ _ _
    · exact (((h.at _).foldl fun _ _ hv2 => (hv2.setTower _ _).foldl fun _ _ hv4 => Canon.ite (hv4.putF _ _ _) hv4).failOpsAs _ _ _).halt _
  · exact .fault
end Sys2Proof.Machine
end
section
/-! The canonical form is kept (R116, R117, R352): the time base. -/
namespace Sys2Proof.Machine
variable {s u : State}
theorem Canon.holdOver (h : Canon s u) (n : Nat) : Canon s (u.holdOver n) := Canon.ite h (((h.putB _ _ _).putB _ _ _).wr _ _)
theorem Canon.refLoss (h : Canon s u) (ref : Nat) (lost : Option Fld) : Canon s (u.refLoss ref lost) := by
  unfold State.refLoss
  dsimp only
  split
  · refine Canon.holdCause ?_ _
    refine Canon.log ?_ _ _ _
    refine h.foldl fun _ _ hv => ?_
    split
    · exact (hv.holdOver _).raiseBit _ _
    · exact hv.holdOver _
  · refine Canon.halt ?_ _
    refine Canon.log ?_ _ _ _
    refine h.foldl fun _ _ hv => ?_
    split
    · exact (hv.holdOver _).raiseBit _ _
    · exact hv.holdOver _
  · refine Canon.halt ?_ _
    refine Canon.log ?_ _ _ _
    refine h.foldl fun _ _ hv => ?_
    split
    · exact (hv.holdOver _).raiseBit _ _
    · exact hv.holdOver _
  · refine Canon.startFail ?_ _
    refine Canon.log ?_ _ _ _
    refine h.foldl fun _ _ hv => ?_
    split
    · exact (hv.holdOver _).raiseBit _ _
    · exact hv.holdOver _
  · refine Canon.log ?_ _ _ _
    refine h.foldl fun _ _ hv => ?_
    split
    · exact (hv.holdOver _).raiseBit _ _
    · exact hv.holdOver _
theorem Canon.execRefclkLoss_next (h : Canon s u) (t : At) : NextCanon s (execRefclkLoss t u) :=
  NextCanon.ite (.next (h.at _)) (.next (Canon.ite ((h.at _).refLoss _ _) (h.at _)))
theorem Canon.todIn (h : Canon s u) (n : Nat) (ok : Bool) (next : Nat) : Canon s (u.todIn n ok next) := Canon.ite (h.setTime _ _) ((h.setTime _ _).bump _ _ _)
theorem Canon.execTodMessage_next (h : Canon s u) (t : At) (preamble flags : BitVec 8) (nextSync : BitVec 64) (check : BitVec 16) (stopBit : Bool) : NextCanon s (execTodMessage t preamble flags nextSync check stopBit u) :=
  NextCanon.ite (.next (h.at _)) (.next (Canon.ite ((h.at _).foldl fun _ _ hv2 => hv2.todIn _ _ _) (h.at _)))
theorem Canon.edgeOk (h : Canon s u) (n : Nat) : Canon s (u.edgeOk n) := (h.setTime _ _).wr _ _
theorem Canon.edgeTod (h : Canon s u) (n : Nat) : Canon s (u.edgeTod n).1 := Canon.ite_fst (Canon.mk_fst (h.setTime _ _)) (Canon.mk_fst (h.setTime _ _))
theorem Canon.staleCopies (h : Canon s u) (n : Nat) : Canon s (u.staleCopies n) := h.foldl fun _ _ hv => hv.setTower _ _
theorem Canon.edgeAt (h : Canon s u) (n : Nat) : Canon s (u.edgeAt n).1 := by
  unfold State.edgeAt
  dsimp only
  refine Canon.ite_fst (Canon.mk_fst h) ?_
  refine Canon.ite_fst ?_ ?_
  · split
    · exact Canon.ite_fst (Canon.mk_fst (((h.setTime _ _).edgeOk _).staleCopies _)) (Canon.mk_fst h)
    · exact Canon.mk_fst h
  · exact Canon.ite_fst (Canon.mk_fst ((((h.edgeOk _).edgeTod _).setTime _ _).putB _ _ _)) (Canon.mk_fst (h.bump _ _ _))
theorem Canon.edges (h : Canon s u) : Canon s u.edges.1 := by
  unfold State.edges
  exact Canon.foldl_fst (p := (u, false, false)) h fun x n hx => hx.edgeAt n
theorem Canon.execSyncEdge_next (h : Canon s u) (t : At) : NextCanon s (execSyncEdge t u) := by
  unfold execSyncEdge
  dsimp only
  refine NextCanon.ite (.next (h.at _)) ?_
  refine NextCanon.ite ?_ ?_
  · refine .next ?_
    refine Canon.ite ?_ ?_
    · exact (Canon.ite (((h.at _).edges.foldl fun _ _ hv3 => hv3.markTower _).refLoss _ _) ((h.at _).edges.foldl fun _ _ hv3 => hv3.markTower _)).refLoss _ _
    · exact Canon.ite (((h.at _).edges.foldl fun _ _ hv3 => hv3.markTower _).refLoss _ _) ((h.at _).edges.foldl fun _ _ hv3 => hv3.markTower _)
  · exact .next (h.at _)
theorem Canon.execSyncMissed_next (h : Canon s u) (t : At) : NextCanon s (execSyncMissed t u) := by
  unfold execSyncMissed
  dsimp only
  refine NextCanon.ite (.next (h.at _)) (.next (Canon.ite (Canon.refLoss ?_ _ _) ?_))
  · exact Canon.foldl_fst (h.at t) fun x n hx => Canon.ite_fst ((hx.setTime _ _).bump _ _ _) hx
  · exact Canon.foldl_fst (h.at t) fun x n hx => Canon.ite_fst ((hx.setTime _ _).bump _ _ _) hx
theorem Canon.execDisciplineTimeout_next (h : Canon s u) (t : At) : NextCanon s (execDisciplineTimeout t u) :=
  NextCanon.ite (.next (h.at _)) (.next (Canon.ite ((h.at _).startFail _) (h.at _)))
theorem Canon.execTimeMark_next (h : Canon s u) (t : At) (tower : Nat) (mark : BitVec 64) : NextCanon s (execTimeMark t tower mark u) :=
  h.onTower_next fun _ hv => Canon.ite ((hv.log _ _ _).refLoss _ _) (hv.setTower _ _)
theorem Canon.ratioWrite (h : Canon s u) (n : Nat) (v₁ : Word) : Canon s (u.ratioWrite n v₁) :=
  Canon.ite (h.log _ _ _) (Canon.ite (h.update.putB _ _ _) ((h.update.putB _ _ _).startRatio _))
theorem Canon.execRatioWrite_next (h : Canon s u) (t : At) (n : Nat) (value : BitVec 64) : NextCanon s (execRatioWrite t n value u) :=
  NextCanon.ite (.next ((h.at _).ifAwake fun _ hv => hv.ratioWrite _ _)) .fault
theorem Canon.ratioDone (h : Canon s u) (n : Nat) : Canon s (u.ratioDone n) := by
  unfold State.ratioDone
  dsimp only
  split
  · exact h
  · exact Canon.ite ((h.update.putF _ _ _).putF _ _ _) (((h.update.putF _ _ _).putF _ _ _).startRatio _)
theorem Canon.execRatioChangeComplete_next (h : Canon s u) (t : At) : NextCanon s (execRatioChangeComplete t u) :=
  .next ((h.at _).ifAwake fun _ hv => hv.foldl fun _ _ hv2 => hv2.ratioDone _)
end Sys2Proof.Machine
end
section
/-! The canonical form is kept (R116, R117, R352): the host port. -/
namespace Sys2Proof.Machine
variable {s u : State}
theorem Canon.rxDrop (h : Canon s u) : Canon s u.rxDrop := h.bump _ _ _
theorem Canon.toServer (h : Canon s u) (v₁ type number offset stream : Nat) (payload : List Byte) : Canon s (u.toServer v₁ type number offset stream payload) :=
  Canon.ite (h.emit _) h
theorem Canon.execHostPortLinkUp_next (h : Canon s u) (t : At) (up : Bool) : NextCanon s (execHostPortLinkUp t up u) :=
  NextCanon.ite (.next (h.at _)) (.next (Canon.ite (h.at _) ((h.at _).putB _ _ _)))
theorem Canon.execArpRequest_next (h : Canon s u) (t : At) (ip : BitVec 32) (fromMac : BitVec 48) (fromIp : BitVec 32) : NextCanon s (execArpRequest t ip fromMac fromIp u) :=
  NextCanon.ite (.next (h.at _)) (.next (Canon.ite (h.at _) (Canon.ite ((h.at _).emit _) (h.at _).rxDrop)))
theorem Canon.execNeighbourSolicitation_next (h : Canon s u) (t : At) (target : BitVec 128) (fromMac : BitVec 48) (fromIp : BitVec 128) : NextCanon s (execNeighbourSolicitation t target fromMac fromIp u) :=
  NextCanon.ite (.next (h.at _)) (.next (Canon.ite (h.at _) (Canon.ite ((h.at _).emit _) (h.at _).rxDrop)))
theorem Canon.execEchoRequest_next (h : Canon s u) (t : At) (v6 : Bool) (target fromIp : BitVec 128) (body : List Byte) : NextCanon s (execEchoRequest t v6 target fromIp body u) :=
  NextCanon.ite (.next (h.at _)) (.next (Canon.ite (h.at _) (Canon.ite ((h.at _).emit _) (h.at _).rxDrop)))
theorem Canon.execFrameDiscard_next (h : Canon s u) (t : At) (kind : FrameKind) : NextCanon s (execFrameDiscard t kind u) := by
  unfold execFrameDiscard
  dsimp only
  refine NextCanon.ite (.next (h.at _)) ?_
  refine .next ?_
  refine Canon.ite (h.at _) ?_
  split
  · exact Canon.ite (h.at _).rxDrop (h.at _)
  · exact (h.at _).rxDrop
theorem Canon.pumpHostFlags (h : Canon s u) (n : Nat) : Canon s (u.pumpHostFlags n) := by
  induction n generalizing u with
  | zero => exact h
  | succ n ih =>
    unfold State.pumpHostFlags
    split
    · refine ih ?_
      split
      · next _ hv => exact (Canon.ite (h.update.bump _ _ _) h.update).originate hv
      · exact (Canon.ite (h.update.bump _ _ _) h.update).bump _ _ _
    · exact h
theorem Canon.hostFlag (h : Canon s u) (job core flag due : Nat) : Canon s (u.hostFlag job core flag due) := h.update.pumpHostFlags _
theorem Canon.setShard (h : Canon s u) (x : Shard) : Canon s (u.setShard x) := h.update
theorem Canon.dropShard (h : Canon s u) (stream shard : Nat) : Canon s (u.dropShard stream shard) := h.update
theorem Canon.requestShard (h : Canon s u) (x : Shard) : Canon s (u.requestShard x) := h.toServer _ _ _ _ _ _
theorem Canon.newShard (h : Canon s u) (rel stream shard : Nat) : Canon s (u.newShard rel stream shard) := Canon.ite h (h.update.requestShard _)
theorem Canon.shardFlag (h : Canon s u) (stream due : Nat) : Canon s (u.shardFlag stream due) := h.hostFlag _ _ _ _
theorem Canon.abandonShard (h : Canon s u) (stream shard : Nat) : Canon s (u.abandonShard stream shard) := (((h.dropShard _ _).shardFlag _ _).bump _ _ _).holdCause _
theorem Canon.shardDone (h : Canon s u) (x : Shard) : Canon s (u.shardDone x) := ((h.wr _ _).dropShard _ _).shardFlag _ _
theorem Canon.ingestDone (h : Canon s u) (stream shard off n : Nat) (st : Status) : Canon s (u.ingestDone stream shard off n st) := by
  unfold State.ingestDone
  dsimp only
  split
  · exact h
  · exact Canon.ite (h.abandonShard _ _) (Canon.ite (h.shardDone _) (h.setShard _))
theorem Canon.execShardData_next (h : Canon s u) (t : At) (stream shard offset : Nat) (data : List Byte) (incarnation : BitVec 32) : NextCanon s (execShardData t stream shard offset data incarnation u) := by
  unfold execShardData
  dsimp only
  refine NextCanon.ite ?_ ?_
  · refine NextCanon.ite (.next (h.at _)) ?_
    refine .next ?_
    split
    · exact (h.at _).rxDrop
    · exact Canon.ite (h.at _).rxDrop (Canon.ite (h.at _).rxDrop ((h.at _).setShard _))
  · exact .fault
theorem Canon.issueIngest (h : Canon s u) (x : Shard) (tag : Nat) : Canon s (u.issueIngest x tag) := by
  unfold State.issueIngest
  dsimp only
  split
  · exact h
  · split
    · exact (h.bump _ _ _).abandonShard _ _
    · next _ hv =>
        exact (h.originate hv).setShard _
theorem Canon.execIngestStoreIssue_next (h : Canon s u) (t : At) (stream shard tag : Nat) : NextCanon s (execIngestStoreIssue t stream shard tag u) := by
  unfold execIngestStoreIssue
  dsimp only
  refine NextCanon.ite ?_ ?_
  · refine NextCanon.ite (.next (h.at _)) ?_
    refine .next ?_
    split
    · exact h.at _
    · exact Canon.ite ((h.at _).issueIngest _ _) (h.at _)
  · exact .fault
theorem Canon.execShardRetransmit_next (h : Canon s u) (t : At) (stream shard : Nat) : NextCanon s (execShardRetransmit t stream shard u) := by
  unfold execShardRetransmit
  dsimp only
  refine NextCanon.ite ?_ ?_
  · refine NextCanon.ite (.next (h.at _)) ?_
    refine .next ?_
    split
    · exact h.at _
    · exact Canon.ite (((h.at _).setShard _).requestShard _) (h.at _)
  · exact .fault
theorem Canon.execShardAbandon_next (h : Canon s u) (t : At) (stream shard : Nat) : NextCanon s (execShardAbandon t stream shard u) := by
  unfold execShardAbandon
  dsimp only
  refine NextCanon.ite ?_ ?_
  · refine NextCanon.ite (.next (h.at _)) ?_
    refine .next ?_
    split
    · exact h.at _
    · exact Canon.ite ((h.at _).abandonShard _ _) (h.at _)
  · exact .fault
theorem Canon.setEgress (h : Canon s u) (x : Egress) : Canon s (u.setEgress x) := h.update
theorem Canon.endEgress (h : Canon s u) (e : Nat) : Canon s (u.endEgress e) := h.update.hostFlag _ _ _ _
theorem Canon.abandonEgress (h : Canon s u) (e : Nat) : Canon s (u.abandonEgress e) := (h.endEgress _).bump _ _ _
theorem Canon.flushEgress (h : Canon s u) (e n : Nat) : Canon s (u.flushEgress e n) := by
  induction n generalizing u with
  | zero => exact h
  | succ n ih =>
    unfold State.flushEgress
    split
    · exact h
    · split
      · exact h
      · exact ih ((h.setEgress _).toServer _ _ _ _ _ _)
theorem Canon.egressDone (h : Canon s u) (e inst off : Nat) (st : Status) (data : List Byte) : Canon s (u.egressDone e inst off st data) := by
  unfold State.egressDone
  split
  · exact h
  · exact Canon.ite h (Canon.ite (h.abandonEgress _) (Canon.ite h ((h.setEgress _).flushEgress _ _)))
theorem Canon.issueEgress (h : Canon s u) (x : Egress) (tag : Nat) : Canon s (u.issueEgress x tag) := by
  unfold State.issueEgress
  dsimp only
  split
  · exact (h.bump _ _ _).abandonEgress _
  · next _ hv =>
      exact (h.originate hv).setEgress _
theorem Canon.execEgressLoadIssue_next (h : Canon s u) (t : At) (e tag : Nat) : NextCanon s (execEgressLoadIssue t e tag u) := by
  unfold execEgressLoadIssue
  dsimp only
  refine NextCanon.ite ?_ ?_
  · refine NextCanon.ite (.next (h.at _)) ?_
    refine .next ?_
    split
    · exact h.at _
    · exact Canon.ite ((h.at _).issueEgress _ _) (h.at _)
  · exact .fault
theorem Canon.execEgrAck_next (h : Canon s u) (t : At) (e inst bytes : Nat) (incarnation : BitVec 32) : NextCanon s (execEgrAck t e inst bytes incarnation u) := by
  unfold execEgrAck
  dsimp only
  refine NextCanon.ite ?_ ?_
  · refine NextCanon.ite (.next (h.at _)) ?_
    refine .next ?_
    refine Canon.ite (h.at _).rxDrop ?_
    split
    · exact (h.at _).rxDrop
    · exact Canon.ite (h.at _).rxDrop (Canon.ite (((h.at _).wr _ _).endEgress _) (Canon.ite ((h.at _).setEgress _) (h.at _)))
  · exact .fault
theorem Canon.execEgressRetransmit_next (h : Canon s u) (t : At) (e : Nat) : NextCanon s (execEgressRetransmit t e u) := by
  unfold execEgressRetransmit
  dsimp only
  refine NextCanon.ite ?_ ?_
  · refine NextCanon.ite (.next (h.at _)) ?_
    refine .next ?_
    split
    · exact h.at _
    · exact Canon.ite ((h.at _).setEgress _) (h.at _)
  · exact .fault
theorem Canon.execEgressTimeout_next (h : Canon s u) (t : At) (e : Nat) : NextCanon s (execEgressTimeout t e u) := by
  unfold execEgressTimeout
  dsimp only
  refine NextCanon.ite ?_ ?_
  · refine NextCanon.ite (.next (h.at _)) ?_
    refine .next ?_
    split
    · exact h.at _
    · exact Canon.ite ((h.at _).abandonEgress _) (h.at _)
  · exact .fault
theorem Canon.startEgress (h : Canon s u) (n e : Nat) : Canon s (u.startEgress n e) := Canon.ite (Canon.ite (h.bump _ _ _) h.update) h
theorem Canon.hostStep (h : Canon s u) (n rel : Nat) (first : Bool) : Canon s (u.hostStep n rel first) :=
  (h.foldl fun _ _ hv => Canon.ite (Canon.ite (hv.foldl fun _ _ hv2 => hv2.newShard _ _ _) (hv.newShard _ _ _)) hv).foldl fun _ _ hv2 => hv2.startEgress _ _
theorem Canon.hostHold (h : Canon s u) : Canon s u.hostHold := h.update.foldl fun _ _ hv2 => hv2.abandonEgress _
theorem Canon.hostDone (h : Canon s u) (o : RemOp) (st : Status) (data : List Byte) : Canon s (u.hostDone o st data) := by
  unfold State.hostDone
  dsimp only
  refine Canon.pumpHostFlags ?_ _
  split
  · exact h.ingestDone _ _ _ _ _
  · exact h.egressDone _ _ _ _ _
  · exact h
end Sys2Proof.Machine
end
section
/-! The canonical form is kept (R116, R117, R352): answers to operations. -/
namespace Sys2Proof.Machine
variable {s u : State}
theorem Canon.tagFreed (h : Canon s u) (r core cyc : Nat) : Canon s (u.tagFreed r core cyc) := by
  unfold State.tagFreed
  refine Canon.ite (h.afterOp _ _) ?_
  refine Canon.ite (h.pumpHostFlags _) ?_
  split
  · exact h.pumpCast _ _
  · exact h.foldl fun _ _ hv => Canon.ite (hv.pumpInv _ _ _) hv
theorem Canon.hostEnd (h : Canon s u) (r cyc : Nat) (o : RemOp) (st : Status) (answer : Packet) : Canon s (u.hostEnd r cyc o st answer) := by
  unfold State.hostEnd
  dsimp only
  split
  · exact h
  · exact Canon.ite (h.respond _ _) (Canon.ite (h.hostDone _ _ _) (Canon.ite (h.holderDone _ _ _ _ _) (h.copyldDone _ _ _ _ _ _)))
theorem Canon.endHosted (h : Canon s u) (r tag cyc : Nat) (o : RemOp) (st : Status) (answer : Packet) : Canon s (u.endHosted r tag cyc o st answer) :=
  ((Canon.ite ((Canon.ite (h.bump _ _ _) h).setOp _ _ _) ((Canon.ite (h.bump _ _ _) h).freeOp _ _)).hostEnd _ _ _ _ _).tagFreed _ _ _
theorem Canon.castAnswer (h : Canon s u) (r cyc : Nat) (o : RemOp) (p : Packet) : Canon s (u.castAnswer r cyc o p) :=
  Canon.ite ((h.bump _ _ _).setOp _ _ _) (Canon.ite (h.endOp _ _ _ _ _) (h.setOp _ _ _))
theorem Canon.recordPeer (h : Canon s u) (o : RemOp) (p : Packet) : Canon s (u.recordPeer o p) := Canon.ite (h.putF _ _ _) h
theorem Canon.lateAnswer (h : Canon s u) (r cyc tag : Nat) (o : RemOp) : Canon s (u.lateAnswer r cyc tag o) :=
  Canon.ite (((h.bump _ _ _).freeOp _ _).tagFreed _ _ _) ((h.bump _ _ _).setOp _ _ _)
theorem Canon.takeResponse (h : Canon s u) (r cyc : Nat) (p : Packet) : Canon s (u.takeResponse r cyc p) := by
  unfold State.takeResponse
  dsimp only
  split
  · exact h.bump _ _ _
  · refine Canon.ite (h.lateAnswer _ _ _ _) ?_
    refine Canon.ite ?_ ?_
    · exact h.endHosted _ _ _ _ _ _
    · exact Canon.ite (h.castAnswer _ _ _ _) (((Canon.ite ((h.recordPeer _ _).arrive _ _ _ _) (h.recordPeer _ _)).endOp _ _ _ _ _).tagFreed _ _ _)
theorem Canon.execResponse_next (h : Canon s u) (t : At) (r : Nat) (p : Packet) : NextCanon s (execResponse t r p u) :=
  NextCanon.ite (NextCanon.ite (.next (h.at _)) (.next (Canon.ite ((h.at _).takeResponse _ _ _) (h.at _)))) .fault
theorem Canon.endNow (h : Canon s u) (r tag cyc : Nat) (o : RemOp) (st : Status) : Canon s (u.endNow r tag cyc o st) :=
  Canon.ite (h.endHosted _ _ _ _ _ _) ((h.endOp _ _ _ _ _).tagFreed _ _ _)
theorem Canon.sendAgain (h : Canon s u) (r tag cyc : Nat) (o : RemOp) : Canon s (u.sendAgain r tag cyc o) := by
  unfold State.sendAgain
  dsimp only
  refine Canon.ite ?_ ?_
  · split
    · exact Canon.ite (((h.bump _ _ _).setOp _ _ _).ontoFibre _ _ _) ((h.bump _ _ _).endNow _ _ _ _ _)
    · exact h.bump _ _ _
  · refine Canon.ite (((h.bump _ _ _).setOp _ _ _).sendAt _ _ _) ?_
    split
    · exact ((h.bump _ _ _).bump _ _ _).endNow _ _ _ _ _
    · exact Canon.ite (((h.bump _ _ _).bump _ _ _).endNow _ _ _ _ _) (((h.bump _ _ _).setOp _ _ _).sendAt _ _ _)
theorem Canon.execAttemptTimeout_next (h : Canon s u) (t : At) (r tag : Nat) : NextCanon s (execAttemptTimeout t r tag u) := by
  unfold execAttemptTimeout
  dsimp only
  refine NextCanon.ite ?_ ?_
  · refine NextCanon.ite (.next (h.at _)) ?_
    split
    · exact .next (h.at _)
    · exact .next (Canon.ite (h.at _) (Canon.ite ((h.at _).sendAgain _ _ _ _) ((h.at _).endNow _ _ _ _ _)))
  · exact .fault
theorem Canon.execTagRelease_next (h : Canon s u) (t : At) (r tag : Nat) : NextCanon s (execTagRelease t r tag u) := by
  unfold execTagRelease
  dsimp only
  refine NextCanon.ite ?_ ?_
  · refine NextCanon.ite (.next (h.at _)) ?_
    split
    · exact .next (h.at _)
    · exact .next (Canon.ite (h.at _) (Canon.ite ((h.at _).endHosted _ _ _ _ _ _) (Canon.ite (((h.at _).freeOp _ _).tagFreed _ _ _) (h.at _))))
  · exact .fault
theorem Canon.takeFrame (h : Canon s u) (e cyc : Nat) (f : Frame) : Canon s (u.takeFrame e cyc f) := by
  unfold State.takeFrame
  dsimp only
  refine Canon.ite (h.forwardFrame _ _) ?_
  refine Canon.ite ?_ ?_
  · exact ((h.overTower _ _ _).pmcRing _ _ _).takeStore _ _ _
  · exact Canon.ite (((h.overTower _ _ _).pmcRing _ _ _).takeStore _ _ _) (Canon.ite ((h.overTower _ _ _).takeResponse _ _ _) (h.overTower _ _ _))
theorem Canon.execFrameReceive_next (h : Canon s u) (t : At) (lane : BitVec 5) (e : Nat) (f : Frame) : NextCanon s (execFrameReceive t lane e f u) := by
  unfold execFrameReceive
  dsimp only
  refine NextCanon.ite ?_ ?_
  · refine NextCanon.ite (.next (h.at _)) ?_
    refine .next ?_
    refine Canon.ite (h.at _) ?_
    refine Canon.ite ?_ ?_
    · exact ((h.at _).bump _ _ _).pmcRing _ _ _
    · exact Canon.ite (((h.at _).bump _ _ _).pmcRing _ _ _) (Canon.ite ((h.at _).takeFrame _ _ _) (h.at _))
  · exact .fault
end Sys2Proof.Machine
end
section
/-! The canonical form is kept (R116, R117, R352): boot and reset. -/
namespace Sys2Proof.Machine
variable {s u : State}
theorem Canon.cleared (h : Canon s u) : Canon s u.cleared := ((h.update.putF _ _ _).wr _ _).wr _ _
theorem Canon.enterBoot (h : Canon s u) : Canon s u.enterBoot := h.cleared.enter _
theorem Canon.raiseInc (h : Canon s u) : Canon s u.raiseInc := (Canon.ite h.update h.update).putF _ _ _
theorem Canon.numberLog (h : Canon s u) : Canon s u.numberLog := h.putF _ _ _
theorem Canon.bootFrom (h : Canon s u) (b : Bool) : Canon s (u.bootFrom b) :=
  Canon.ite ((((h.putB _ _ _).putF _ _ _).putF _ _ _).startFail _) (((h.putB _ _ _).putF _ _ _).putF _ _ _)
theorem Canon.tryBanks (h : Canon s u) (errs : List (Nat × Nat)) (l : List Bool) : Canon s (u.tryBanks errs l) := by
  induction l generalizing u with
  | nil => exact h.startFail 1
  | cons b l ih =>
    unfold State.tryBanks
    dsimp only
    exact Canon.ite ((h.putF _ _ _).bootFrom _) (ih (h.putF _ _ _))
theorem Canon.selectBank (h : Canon s u) (named : Option Bool) (errs : List (Nat × Nat)) : Canon s (u.selectBank named errs) :=
  ((((h.phaseTo _).putB _ _ _).putF _ _ _).putF _ _ _).tryBanks _ _
theorem Canon.runBoot (h : Canon s u) (named : Option Bool) (sight : BootSight) : Canon s (u.runBoot named sight) :=
  Canon.ite (h.update.raiseInc.numberLog.startFail _) (h.update.raiseInc.numberLog.selectBank _ _)
theorem Canon.reboot (h : Canon s u) (flags : Nat) : Canon s (u.reboot flags) := Canon.ite h (h.enterBoot.update.runBoot _ _)
theorem Canon.unpowered (_ : Canon s u) : Canon s u.unpowered := fun _ => ⟨rfl, rfl⟩
theorem Canon.execPowerOn_next (h : Canon s u) (t : At) : NextCanon s (execPowerOn t u) := .next (Canon.ite (h.at _).unpowered.enterBoot (h.at _))
theorem Canon.execPowerRemoval_next (h : Canon s u) (t : At) : NextCanon s (execPowerRemoval t u) := .next (h.at _).unpowered
theorem Canon.execResetNAssert_next (h : Canon s u) (t : At) : NextCanon s (execResetNAssert t u) := by
  unfold execResetNAssert
  dsimp only
  exact .next (Canon.ite (h.at _).update (h.at _).update.enterBoot)
theorem Canon.execResetNRelease_next (h : Canon s u) (t : At) (straps : BitVec 6) (sight : BootSight) : NextCanon s (execResetNRelease t straps sight u) := by
  unfold execResetNRelease
  dsimp only
  exact NextCanon.ite (.next (h.at _)) (.next (Canon.ite ((h.at _).update.runBoot _ _) (h.at _).update))
end Sys2Proof.Machine
end
section
/-! The canonical form is kept (R116, R117, R352): route tables and epochs. -/
namespace Sys2Proof.Machine
variable {s u : State}
theorem Canon.routeRefused (h : Canon s u) (a : Nat) (v₁ : Word) : Canon s (u.routeRefused a v₁) := h.log _ _ _
theorem Canon.flipWrite (h : Canon s u) (v₁ : Word) : Canon s (u.flipWrite v₁) := Canon.ite (h.routeRefused _ _) (((h.putF _ _ _).putF _ _ _).putB _ _ _)
theorem Canon.execFlipCaratWrite_next (h : Canon s u) (t : At) (value : BitVec 64) : NextCanon s (execFlipCaratWrite t value u) :=
  .next ((h.at _).ifAwake fun _ hv => hv.flipWrite _)
theorem Canon.flip (h : Canon s u) : Canon s u.flip := ((((h.putF _ _ _).putF _ _ _).putB _ _ _).putB _ _ _).update
theorem Canon.execRouteFlip_next (h : Canon s u) (t : At) : NextCanon s (execRouteFlip t u) :=
  NextCanon.ite (.next (h.at _)) (.next (Canon.ite (h.at _).flip (h.at _)))
theorem Canon.execBankLockEnd_next (h : Canon s u) (t : At) : NextCanon s (execBankLockEnd t u) :=
  NextCanon.ite (.next (h.at _)) (.next (Canon.ite ((h.at _).putB _ _ _) (h.at _)))
theorem Canon.routeWrite (h : Canon s u) (r b d : Nat) (v₁ : Word) : Canon s (u.routeWrite r b d v₁) := Canon.ite (h.routeRefused _ _) (h.wr _ _)
theorem Canon.execRouteTableWrite_next (h : Canon s u) (t : At) (r : Nat) (b : Bool) (d : Nat) (value : BitVec 64) : NextCanon s (execRouteTableWrite t r b d value u) :=
  NextCanon.ite (.next ((h.at _).ifAwake fun _ hv => hv.routeWrite _ _ _ _)) .fault
end Sys2Proof.Machine
end
section
/-! The canonical form is kept (R116, R117, R352): the boundary of a step. -/
namespace Sys2Proof.Machine
variable {s u : State}
theorem Canon.setSel (h : Canon s u) (slot v₁ : Nat) : Canon s (u.setSel slot v₁) := h.putF _ _ _
theorem Canon.setRun (h : Canon s u) (r n : Nat) : Canon s (u.setRun r n) := h.putF _ _ _
theorem Canon.evalRule (h : Canon s u) (cyc step : Nat) (poisoned : Bool) (n : Nat) (r : VRule) : Canon s (u.evalRule cyc step poisoned n r) :=
  Canon.ite (((h.settle _ _).onyxRead _ _).setRun _ _) (((h.settle _ _).onyxRead _ _).bump _ _ _)
theorem Canon.evalSlot (h : Canon s u) (slot : Nat) : Canon s (u.evalSlot slot) := by
  unfold State.evalSlot
  dsimp only
  split
  · exact h
  · exact (h.update.bump _ _ _).foldl fun _ _ hv2 => hv2.setRun _ _
theorem Canon.evaluate (h : Canon s u) (cyc step : Nat) (poisoned : List Nat) : Canon s (u.evaluate cyc step poisoned) :=
  ((h.foldl fun _ _ hv => hv.evalRule _ _ _ _ _).foldl fun _ _ hv2 => hv2.evalSlot _).putF _ _ _
theorem Canon.takeMessage (h : Canon s u) (m : BMsg) : Canon s (u.takeMessage m) := h.update
theorem Canon.sendMessage (h : Canon s u) (m : BMsg) : Canon s (u.sendMessage m) := (h.takeMessage _).sendAt _ _ _
theorem Canon.tryForm (h : Canon s u) : Canon s u.tryForm := Canon.ite h (Canon.ite (h.putF _ _ _) ((h.putF _ _ _).update.sendMessage _))
theorem Canon.execTowerStepTreeComplete_next (h : Canon s u) (t : At) (tower : Nat) : NextCanon s (execTowerStepTreeComplete t tower u) := by
  unfold execTowerStepTreeComplete
  dsimp only
  refine h.onTower_next fun _ hv => ?_
  split
  · exact hv
  · exact Canon.ite ((hv.setTower _ _).sendAt _ _ _) hv
theorem Canon.execTowerArrival_next (h : Canon s u) (t : At) (tower : Nat) (stamp : BitVec 64) : NextCanon s (execTowerArrival t tower stamp u) :=
  h.onTower_next fun _ hv => Canon.ite hv.update.tryForm hv
theorem Canon.execBoundaryMessage_next (h : Canon s u) (t : At) (pkg : Nat) (stamp : BitVec 64) (hold : Nat) (request : Bool) (d : Nat) (digest : BitVec 32) : NextCanon s (execBoundaryMessage t pkg stamp hold request d digest u) :=
  NextCanon.ite (NextCanon.ite (.next (h.at _)) (.next (Canon.ite ((h.at _).takeMessage _) (h.at _)))) .fault
theorem Canon.execVariantEvaluation_next (h : Canon s u) (t : At) (poisoned : List Nat) : NextCanon s (execVariantEvaluation t poisoned u) := by
  unfold execVariantEvaluation
  dsimp only
  refine NextCanon.ite (.next (h.at _)) ?_
  split
  · exact .next (h.at _)
  · exact NextCanon.ite (.next ((h.at _).evaluate _ _ _).update.tryForm) (.next (h.at _))
theorem Canon.enterHold (h : Canon s u) (diff : Option Nat) : Canon s (u.enterHold diff) := by
  unfold State.enterHold
  dsimp only
  refine Canon.enter ?_ _
  refine Canon.update ?_
  refine Canon.hostHold ?_
  refine Canon.putF ?_ _ _ _
  refine Canon.putF ?_ _ _ _
  refine Canon.wr ?_ _ _
  refine Canon.ite ?_ ?_
  · refine Canon.holdCause ?_ _
    refine Canon.ite ?_ ?_
    · refine Canon.raiseBit ?_ _ _
      refine Canon.holdCause ?_ _
      split
      · exact (((h.wr _ _).holdCause _).raiseBit _ _).log _ _ _
      · exact h.wr _ _
    · split
      · exact (((h.wr _ _).holdCause _).raiseBit _ _).log _ _ _
      · exact h.wr _ _
  · refine Canon.ite ?_ ?_
    · refine Canon.raiseBit ?_ _ _
      refine Canon.holdCause ?_ _
      split
      · exact (((h.wr _ _).holdCause _).raiseBit _ _).log _ _ _
      · exact h.wr _ _
    · split
      · exact (((h.wr _ _).holdCause _).raiseBit _ _).log _ _ _
      · exact h.wr _ _
theorem Canon.advanceSteps (h : Canon s u) : Canon s u.advanceSteps := h.foldl fun _ _ hv => hv.wr _ _
theorem Canon.lateFault (h : Canon s u) : Canon s u.lateFault := by
  unfold State.lateFault
  split
  · exact Canon.ite (h.sendMessage _) h
  · exact h
theorem Canon.newStepFaults (h : Canon s u) : Canon s u.newStepFaults := h.foldl fun _ _ hv => hv.setCore _ _
theorem Canon.releaseCore (h : Canon s u) (cyc c : Nat) : Canon s (u.releaseCore cyc c) := Canon.ite ((h.setCore _ _).release _ _) (h.setCore _ _)
theorem Canon.releaseStep (h : Canon s u) (cyc : Nat) : Canon s (u.releaseStep cyc) := by
  unfold State.releaseStep
  dsimp only
  refine Canon.ite ?_ ?_
  · refine Canon.tryForm ?_
    refine Canon.hostStep ?_ _ _ _
    refine Canon.update ?_
    refine Canon.foldl ?_ fun _ _ hv4 => (hv4.setTower _ _).foldl fun _ _ hv6 => hv6.releaseCore _ _
    refine Canon.newStepFaults ?_
    refine Canon.advanceSteps ?_
    refine Canon.putF ?_ _ _ _
    refine Canon.putF ?_ _ _ _
    refine Canon.putF ?_ _ _ _
    refine Canon.bump ?_ _ _ _
    refine Canon.ite ?_ ?_
    · exact ((((((h.foldl fun _ _ hv => hv.setSel _ _).wr _ _).wr _ _).bump _ _ _).bump _ _ _).bump _ _ _).raise _ _ _
    · exact (((h.foldl fun _ _ hv => hv.setSel _ _).wr _ _).wr _ _).bump _ _ _
  · refine Canon.hostStep ?_ _ _ _
    refine Canon.update ?_
    refine Canon.foldl ?_ fun _ _ hv4 => (hv4.setTower _ _).foldl fun _ _ hv6 => hv6.releaseCore _ _
    refine Canon.newStepFaults ?_
    refine Canon.advanceSteps ?_
    refine Canon.putF ?_ _ _ _
    refine Canon.putF ?_ _ _ _
    refine Canon.putF ?_ _ _ _
    refine Canon.bump ?_ _ _ _
    refine Canon.ite ?_ ?_
    · exact ((((((h.foldl fun _ _ hv => hv.setSel _ _).wr _ _).wr _ _).bump _ _ _).bump _ _ _).bump _ _ _).raise _ _ _
    · exact (((h.foldl fun _ _ hv => hv.setSel _ _).wr _ _).wr _ _).bump _ _ _
theorem Canon.execStepRelease_next (h : Canon s u) (t : At) : NextCanon s (execStepRelease t u) := by
  unfold execStepRelease
  dsimp only
  refine NextCanon.ite (.next (h.at _)) ?_
  refine NextCanon.ite ?_ ?_
  · refine NextCanon.ite ?_ ?_
    · exact .next (Canon.ite ((h.at _).tryForm.lateFault.enterHold _) (Canon.ite ((h.at _).tryForm.lateFault.releaseStep _) (h.at _).tryForm.lateFault))
    · exact .next (h.at _).tryForm
  · exact .next (h.at _)
theorem Canon.execStepTimeout_next (h : Canon s u) (t : At) : NextCanon s (execStepTimeout t u) :=
  NextCanon.ite (.next (h.at _)) (.next (Canon.ite ((((h.at _).log _ _ _).raiseBit _ _).halt _) (h.at _)))
end Sys2Proof.Machine
end
section
/-! The canonical form is kept (R116, R117, R352): what waits at an arbiter goes on. -/
namespace Sys2Proof.Machine
variable {s u : State}
theorem Canon.runAccess (h : Canon s u) (c cyc : Nat) (x : Access) : Canon s (u.runAccess c cyc x) := by
  unfold State.runAccess
  split
  · exact Canon.ite h (h.sldRead _ _ _ _)
  · exact Canon.ite h (h.vldRead _ _ _ _)
  · exact Canon.ite h (h.vdqRead _ _ _ _ _ _ _)
  · exact Canon.ite h (h.quantRun _ _ _)
  · exact Canon.ite h (h.vaultWrite _ _ _ _)
  · exact h.wormAccess _ _ _
  · exact h.retake _ _ _
theorem Canon.runAccesses (h : Canon s u) (c rd wr : Nat) (l : List Access) : Canon s (u.runAccesses c rd wr l) := by
  induction l generalizing u rd wr with
  | nil => exact h
  | cons x l ih =>
    unfold State.runAccesses
    exact Canon.ite (ih (h.update.runAccess _ _ _) _ _) (ih (h.update.runAccess _ _ _) _ _)
theorem Canon.thaw (h : Canon s u) (a : Arbiter) (cyc : Nat) : Canon s (u.thaw a cyc) := by
  unfold State.thaw
  dsimp only
  refine Canon.ite ((h.putB _ _ _).putB _ _ _) ?_
  split
  · exact Canon.ite (((h.putB _ _ _).putB _ _ _).setArb _ _) (((((h.putB _ _ _).putB _ _ _).setArb _ _).modCore _ _).runAccesses _ _ _ _).update
  · exact Canon.ite (((h.putB _ _ _).putB _ _ _).setArb _ _) (((((h.putB _ _ _).putB _ _ _).setArb _ _).setArb _ _).foldl fun _ _ hv3 => hv3.retake _ _ _)
  · exact ((h.putB _ _ _).putB _ _ _).setArb _ _
theorem Canon.execArbFreezeClear_next (h : Canon s u) (t : At) (arb : Arbiter) : NextCanon s (execArbFreezeClear t arb u) := h.onArb_next fun _ hv => hv.thaw _ _
end Sys2Proof.Machine
end
section
/-! The canonical form is kept (R116, R117, R352): units and their transitions. -/
namespace Sys2Proof.Machine
variable {s u : State}
theorem Canon.setUnit (h : Canon s u) (u₁ v₁ : Nat) : Canon s (u.setUnit u₁ v₁) := h.putF _ _ _
theorem Canon.freezeAll (h : Canon s u) (cyc : Nat) (l : List Arbiter) : Canon s (u.freezeAll cyc l) := h.foldl fun _ _ hv => hv.freeze _ _
theorem Canon.thawAll (h : Canon s u) (cyc : Nat) (l : List Arbiter) : Canon s (u.thawAll cyc l) := h.foldl fun _ _ hv => hv.thaw _ _
theorem Canon.unfence (h : Canon s u) (r : Nat) : Canon s (u.unfence r) := by
  unfold State.unfence
  dsimp only
  split
  · exact (((h.foldl fun _ _ hv => (hv.wr _ _).putB _ _ _).putF _ _ _).retarget _).foldl fun _ _ hv3 => hv3.setLattice _ _
  · exact ((h.foldl fun _ _ hv => (hv.wr _ _).putB _ _ _).putF _ _ _).retarget _
theorem Canon.fenceEnd (h : Canon s u) (r : Nat) : Canon s (u.fenceEnd r) := by
  unfold State.fenceEnd
  split
  · exact (h.fenceRing _).fenceLat _
  · exact h.fenceRing _
theorem Canon.powerDownTower (h : Canon s u) (t : Nat) : Canon s (u.powerDownTower t) := by
  unfold State.powerDownTower
  dsimp only
  refine Canon.setTower (Canon.foldl ?_ fun _ _ hv => hv.putB _ _ _) _ _
  exact fun hs => canonical_filter (h hs) _ _
theorem Canon.dropStack (h : Canon s u) (k : Nat) : Canon s (u.dropStack k) := fun hs => canonical_filter (h hs) _ _
theorem Canon.stopUnit (h : Canon s u) (u₁ : Nat) : Canon s (u.stopUnit u₁) := by
  unfold State.stopUnit
  dsimp only
  refine Canon.ite ?_ ?_
  · exact (h.fenceEnd _).foldl fun _ _ hv2 => Canon.ite (hv2.putF _ _ _) hv2
  · exact Canon.ite (h.foldl fun _ _ hv => Canon.ite (hv.putF _ _ _) hv) h
theorem Canon.unitOff (h : Canon s u) (u₁ : Nat) : Canon s (u.unitOff u₁) := Canon.ite (((h.setUnit _ _).bump _ _ _).powerDownTower _) ((h.setUnit _ _).bump _ _ _)
theorem Canon.freezeUnit (h : Canon s u) (cyc u₁ : Nat) : Canon s (u.freezeUnit cyc u₁) := (h.setUnit _ _).freezeAll _ _
theorem Canon.endStop (h : Canon s u) (u₁ : Nat) : Canon s (u.endStop u₁) := (h.stopUnit _).unitOff _
theorem Canon.stopGroups (h : Canon s u) (cyc : Nat) (l : List (List Nat)) : Canon s (u.stopGroups cyc l).1 := by
  induction l generalizing u with
  | nil => exact h
  | cons x l ih =>
    unfold State.stopGroups
    dsimp only
    exact Canon.ite_fst h (Canon.ite_fst (h.foldl fun _ _ hv => hv.freezeUnit _ _) (Canon.ite_fst (ih (h.foldl fun _ _ hv => hv.endStop _)) h))
theorem Canon.beginDisable (h : Canon s u) (cyc u₁ : Nat) : Canon s (u.beginDisable cyc u₁) := Canon.ite ((h.setUnit _ _).stopGroups _ _) (h.freezeUnit _ _)
theorem Canon.stopTile (h : Canon s u) (cyc n : Nat) : Canon s (u.stopTile cyc n) := by
  unfold State.stopTile
  dsimp only
  refine Canon.ite (h.stopGroups _ _) ?_
  refine Canon.ite ((h.stopGroups _ _).freezeAll _ _) ?_
  refine Canon.ite (h.stopGroups _ _) ?_
  refine Canon.ite ?_ ?_
  · exact (h.stopGroups _ _).foldl fun _ _ hv2 => hv2.fenceEnd _
  · exact Canon.ite (h.stopGroups _ _) ((((h.stopGroups _ _).unitOff _).foldl fun _ _ hv2 => hv2.dropStack _).thawAll _ _)
theorem Canon.unitOn (h : Canon s u) (cyc u₁ : Nat) : Canon s (u.unitOn cyc u₁) :=
  Canon.ite (((((h.setUnit _ _).bump _ _ _).thawAll _ _).unfence _).setTower _ _) (((h.setUnit _ _).bump _ _ _).thawAll _ _)
theorem Canon.startUnit (h : Canon s u) (u₁ : Nat) : Canon s (u.startUnit u₁) :=
  Canon.ite ((h.setUnit _ _).foldl fun _ _ hv2 => Canon.ite ((hv2.setGroup _ _ _).putF _ _ _) hv2) (h.setUnit _ _)
theorem Canon.endStart (h : Canon s u) (cyc u₁ : Nat) : Canon s (u.endStart cyc u₁) := Canon.ite (h.endStop _) (h.unitOn _ _)
theorem Canon.startGroups (h : Canon s u) (cyc : Nat) (l : List (List Nat)) : Canon s (u.startGroups cyc l).1 := by
  induction l generalizing u with
  | nil => exact h
  | cons x l ih =>
    unfold State.startGroups
    dsimp only
    exact Canon.ite_fst h (Canon.ite_fst (h.foldl fun _ _ hv => hv.startUnit _) (Canon.ite_fst (ih (h.foldl fun _ _ hv => hv.endStart _ _)) h))
theorem Canon.ringsAnew (h : Canon s u) (n : Nat) : Canon s (u.ringsAnew n) := h.foldl fun _ _ hv => Canon.ite hv (hv.putF _ _ _)
theorem Canon.beginTile (h : Canon s u) (cyc n : Nat) : Canon s (u.beginTile cyc n) :=
  (((((h.setUnit _ _).freezeAll _ _).foldl fun _ _ hv => hv.unfence _).ringsAnew _).update.chooseCal _).override _
theorem Canon.startTile (h : Canon s u) (cyc n : Nat) : Canon s (u.startTile cyc n) := by
  unfold State.startTile
  dsimp only
  exact Canon.ite (Canon.ite (((h.thawAll _ _).startGroups _ _).unitOn _ _) ((h.thawAll _ _).startGroups _ _)) h
theorem Canon.beginEnable (h : Canon s u) (cyc u₁ : Nat) : Canon s (u.beginEnable cyc u₁) := Canon.ite (h.beginTile _ _) (h.startUnit _)
theorem Canon.unitRefused (h : Canon s u) (u₁ : Nat) : Canon s (u.unitRefused u₁) := h.log _ _ _
theorem Canon.carryOut (h : Canon s u) (cyc u₁ v₁ : Nat) : Canon s (u.carryOut cyc u₁ v₁) :=
  Canon.ite (Canon.ite h (h.beginEnable _ _)) (Canon.ite h (h.beginDisable _ _))
theorem Canon.unitRequest (h : Canon s u) (cyc u₁ v₁ : Nat) : Canon s (u.unitRequest cyc u₁ v₁) := by
  unfold State.unitRequest
  dsimp only
  refine Canon.ite ?_ ?_
  · exact h.unitRefused _
  · exact Canon.ite (h.putF _ _ _) (Canon.ite ((h.putF _ _ _).unitRefused _) (Canon.ite ((h.putF _ _ _).putF _ _ _) ((h.putF _ _ _).carryOut _ _ _)))
theorem Canon.onUnit_next (h : Canon s u) {t : At} {unit : Nat} {f : State → State} (hf : ∀ v, Canon s v → Canon s (f v)) : NextCanon s (onUnit t unit u f) := by
  unfold onUnit
  exact NextCanon.ite (.next ((h.at _).ifAwake hf)) .fault
theorem Canon.execUnitEnable_next (h : Canon s u) (t : At) (u₁ : Nat) : NextCanon s (execUnitEnable t u₁ u) := h.onUnit_next fun _ hv => hv.unitRequest _ _ _
theorem Canon.execUnitDisable_next (h : Canon s u) (t : At) (u₁ : Nat) : NextCanon s (execUnitDisable t u₁ u) := h.onUnit_next fun _ hv => hv.unitRequest _ _ _
theorem Canon.moveUnit (h : Canon s u) (cyc u₁ : Nat) : Canon s (u.moveUnit cyc u₁) :=
  Canon.ite (Canon.ite (h.stopTile _ _) (Canon.ite (h.endStop _) h)) (Canon.ite (Canon.ite (h.startTile _ _) (Canon.ite (h.endStart _ _) h)) h)
theorem Canon.unitEnd (h : Canon s u) (cyc u₁ : Nat) : Canon s (u.unitEnd cyc u₁) :=
  Canon.ite (Canon.ite (h.moveUnit _ _) (Canon.ite ((h.moveUnit _ _).putF _ _ _) (((h.moveUnit _ _).putF _ _ _).carryOut _ _ _))) h
end Sys2Proof.Machine
end
section
/-! The canonical form is kept (R116, R117, R352): the configuration space. -/
namespace Sys2Proof.Machine
variable {s u : State}
theorem Canon.cfgRefused (h : Canon s u) (a size : Nat) : Canon s (u.cfgRefused a size) := h.log _ _ _
theorem Canon.cfgAccess (h : Canon s u) (a : Nat) : Canon s (u.cfgAccess a).2 := Canon.ite_snd (Canon.mk_snd (h.cfgRefused _ _)) (Canon.mk_snd h)
theorem Canon.fieldWrite (h : Canon s u) (a : Nat) (v₁ : Word) (hold : Bool) (f : FieldRow) : Canon s (u.fieldWrite a v₁ hold f) := by
  unfold State.fieldWrite
  split
  · exact h
  · exact h.putF _ _ _
  · exact Canon.ite (h.putF _ _ _) h
  · exact h.wr _ _
theorem Canon.plainWrite (h : Canon s u) (a : Nat) (v₁ : Word) (hold : Bool) : Canon s (u.plainWrite a v₁ hold) :=
  Canon.ite ((h.foldl fun _ _ hv => hv.fieldWrite _ _ _ _).cfgRefused _ _) (h.foldl fun _ _ hv => hv.fieldWrite _ _ _ _)
theorem Canon.pmcMode (h : Canon s u) : Canon s u.pmcMode := h.countTags.update
theorem Canon.thermClamp (h : Canon s u) : Canon s u.thermClamp := ((h.putF _ _ _).putF _ _ _).putF _ _ _
theorem Canon.deskWrite (h : Canon s u) (n tw g d word taps : Nat) (v₁ : Word) : Canon s (u.deskWrite n tw g d word taps v₁) := h.update
theorem Canon.arbCtrlWrite (h : Canon s u) (cyc a : Nat) (arb : Arbiter) (v₁ : Word) (hold : Bool) : Canon s (u.arbCtrlWrite cyc a arb v₁ hold) := by
  unfold State.arbCtrlWrite
  dsimp only
  refine Canon.ite ?_ ?_
  · exact (h.plainWrite _ _ _).putB _ _ _
  · exact Canon.ite (((h.plainWrite _ _ _).putB _ _ _).freeze _ _) (((h.plainWrite _ _ _).putB _ _ _).thaw _ _)
theorem Canon.noteLoaded (h : Canon s u) (n : Nat) (phase setting : Option Nat) : Canon s (u.noteLoaded n phase setting) := h.setLattice _ _
/-- A write at a special address. -/
theorem Canon.specialWrite (h : Canon s u) {v : State} {cyc a base : Nat} {ix : List Nat} {w : Word} {hold : Bool} (hv : u.specialWrite cyc a base ix w hold = some v) :
    Canon s v := by
  have hplain := h.plainWrite a w hold
  have hnote : ∀ n p q, Canon s (if hold then (u.plainWrite a w hold).noteLoaded n p q else u.plainWrite a w hold) := fun n p q => Canon.ite (hplain.noteLoaded n p q) hplain
  unfold State.specialWrite at hv
  split at hv
  · split at hv
    · cases hv; exact h.flipWrite w
    · split at hv
      · cases hv; exact hplain.thermClamp
      · split at hv
        · cases hv; exact (h.countTags.plainWrite a w hold).pmcMode
        · cases hv
  · split at hv
    · cases hv; exact h.ratioWrite _ w
    · split at hv
      · cases hv; exact h.unitRequest cyc _ _
      · split at hv
        · cases hv; exact h.arbCtrlWrite cyc a _ w hold
        · split at hv
          · cases hv; exact h.mapWrite _ w
          · split at hv
            · cases hv; exact hplain.putF _ _ _
            · cases hv
  · split at hv
    · cases hv; exact h.arbCtrlWrite cyc a _ w hold
    · split at hv
      · cases hv; exact h.mapWrite _ w
      · split at hv
        · cases hv; exact h.arbCtrlWrite cyc a _ w hold
        · split at hv
          · cases hv; exact h.mapWrite _ w
          · split at hv
            · cases hv; exact hnote _ _ _
            · split at hv
              · cases hv; exact Canon.ite h (h.cfgRefused a 8)
              · cases hv
  · split at hv
    · cases hv; exact h.routeWrite _ _ _ w
    · split at hv
      · cases hv; exact hnote _ _ _
      · split at hv
        · cases hv; exact hnote _ _ _
        · cases hv
  · split at hv
    · cases hv; exact Canon.ite (h.deskWrite _ _ _ _ _ _ w) (h.cfgRefused a 8)
    · cases hv
  · split at hv
    · cases hv; exact Canon.ite (h.deskWrite _ _ _ _ _ _ w) (h.cfgRefused a 8)
    · cases hv
  · cases hv
theorem Canon.cfgWrite (h : Canon s u) (cyc a : Nat) (v₁ : Word) (hold : Bool) : Canon s (u.cfgWrite cyc a v₁ hold) := by
  unfold State.cfgWrite
  split
  · exact h.cfgRefused _ _
  · split
    · exact h
    · split
      · next _ hv =>
          exact (h.specialWrite hv)
      · exact h.plainWrite _ _ _
theorem Canon.bringCfg (h : Canon s u) (cyc a : Nat) : Canon s (u.bringCfg cyc a) := by
  unfold State.bringCfg
  split
  · exact h.toCycle _ _
  · exact Canon.ite h.countTags h
theorem Canon.execConfigWrite_next (h : Canon s u) (t : At) (addr size : Nat) (value : BitVec 64) : NextCanon s (execConfigWrite t addr size value u) :=
  .next (Canon.ite (h.at _) (Canon.ite ((h.at _).cfgRefused _ _) (((h.at _).bringCfg _ _).cfgWrite _ _ _ _)))
theorem Canon.execPmcCount_next (h : Canon s u) (t : At) : NextCanon s (execPmcCount t u) := .next ((h.at _).ifAwake fun _ hv => (hv.countTags.putF _ _ _).pmcMode)
theorem Canon.execPmcWindow_next (h : Canon s u) (t : At) : NextCanon s (execPmcWindow t u) := .next ((h.at _).ifAwake fun _ hv => (hv.countTags.putF _ _ _).pmcMode)
theorem Canon.execPmcFreeze_next (h : Canon s u) (t : At) : NextCanon s (execPmcFreeze t u) := .next ((h.at _).ifAwake fun _ hv => (hv.countTags.putF _ _ _).pmcMode)
theorem Canon.execPmcWindowEdge_next (h : Canon s u) (t : At) : NextCanon s (execPmcWindowEdge t u) := .next ((h.at _).ifAwake fun _ hv => hv.pmcMode)
end Sys2Proof.Machine
end
section
/-! The canonical form is kept (R116, R117, R352): fetch and issue of bundles, and sampling. -/
namespace Sys2Proof.Machine
variable {s u : State}
theorem Canon.slotMeaning_next (h : Canon s u) (i : Instr) : NextCanon s (slotMeaning i u) := by
  unfold slotMeaning
  split
  · exact h.execNop_next _ _ _
  · exact h.execAdd_next _ _ _ _ _
  · exact h.execSub_next _ _ _ _ _
  · exact h.execAnd_next _ _ _ _ _
  · exact h.execOr_next _ _ _ _ _
  · exact h.execXor_next _ _ _ _ _
  · exact h.execShl_next _ _ _ _ _
  · exact h.execShr_next _ _ _ _ _
  · exact h.execSar_next _ _ _ _ _
  · exact h.execMul_next _ _ _ _ _
  · exact h.execMin_next _ _ _ _ _
  · exact h.execMax_next _ _ _ _ _
  · exact h.execAddi_next _ _ _ _ _
  · exact h.execAndi_next _ _ _ _ _
  · exact h.execOri_next _ _ _ _ _
  · exact h.execXori_next _ _ _ _ _
  · exact h.execShli_next _ _ _ _ _
  · exact h.execShri_next _ _ _ _ _
  · exact h.execSari_next _ _ _ _ _
  · exact h.execMovi_next _ _ _ _
  · exact h.execInsl_next _ _ _ _ _
  · exact h.execInsh_next _ _ _ _ _
  · exact h.execCmp_next _ _ _ _ _ _
  · exact h.execCmpi_next _ _ _ _ _ _
  · exact h.execPlog_next _ _ _ _ _ _
  · exact h.execSld_next _ _ _ _ _
  · exact h.execSst_next _ _ _ _ _
  · exact h.execSrd_next _ _ _ _
  · exact h.execVsel_next _ _ _ _
  · exact h.execCapc_next _ _ _ _
  · exact h.execBr_next _ _ _
  · exact h.execBnz_next _ _ _ _
  · exact h.execBz_next _ _ _ _
  · exact h.execJr_next _ _ _
  · exact h.execLoop_next _ _ _ _ _
  · exact h.execLoopi_next _ _ _ _ _
  · exact h.execWaitt_next _ _ _ _
  · exact h.execWaitse_next _ _ _ _
  · exact h.execBar_next _ _ _ _ _
  · exact h.execFset_next _ _ _ _
  · exact h.execFclr_next _ _ _
  · exact h.execFwait_next _ _ _ _
  · exact h.execFtest_next _ _ _ _
  · exact h.execFence_next _ _
  · exact h.execLatr_next _ _ _ _
  · exact h.execStep_next _ _ _
  · exact h.execHalt_next _ _
  · exact h.execMma_next _ _ _ _ _ _ _ _ _
  · exact h.execMmac_next _ _ _ _ _ _ _ _ _ _
  · exact h.execAccrd_next _ _ _ _ _ _ _
  · exact h.execAccwr_next _ _ _ _ _ _ _
  · exact h.execAccclr_next _ _ _
  · exact h.execVadd_next _ _ _ _ _ _
  · exact h.execVsub_next _ _ _ _ _ _
  · exact h.execVmul_next _ _ _ _ _ _
  · exact h.execVfma_next _ _ _ _ _ _
  · exact h.execVmin_next _ _ _ _ _ _
  · exact h.execVmax_next _ _ _ _ _ _
  · exact h.execVcmp_next _ _ _ _ _ _
  · exact h.execVselm_next _ _ _ _ _
  · exact h.execVexp2_next _ _ _ _
  · exact h.execVlog2_next _ _ _ _
  · exact h.execVrcp_next _ _ _ _
  · exact h.execVrsq_next _ _ _ _
  · exact h.execVrsum_next _ _ _ _
  · exact h.execVrmax_next _ _ _ _
  · exact h.execVbcl_next _ _ _ _ _
  · exact h.execVbcs_next _ _ _ _
  · exact h.execVext_next _ _ _ _ _
  · exact h.execVpack_next _ _ _ _ _
  · exact h.execVunpk_next _ _ _ _ _
  · exact h.execVld_next _ _ _ _ _
  · exact h.execVst_next _ _ _ _ _
  · exact h.execVdq_next _ _ _ _ _
  · exact h.execVq_next _ _ _ _ _ _ _ _ _ _
  · exact h.execScopy_next _ _ _ _ _ _ _ _
  · exact h.execStile_next _ _ _ _ _ _ _ _
  · exact h.execSflag_next _ _ _ _
  · exact h.execSatom_next _ _ _ _ _ _ _ _
  · exact h.execSinv_next _ _ _ _
  · exact h.execSmcast_next _ _ _ _ _ _ _
  · exact h.execRecst_next _ _ _ _ _
  · exact h.execRecmg_next _ _ _ _ _ _
  · exact .next h
theorem Canon.runSlot (h : Canon s u) (i : Option Instr) : Canon s (u.runSlot i) := by
  cases i with
  | none => exact h
  | some i =>
    unfold State.runSlot
    dsimp only
    split
    · next _ hv => exact h.slotMeaning_next i _ hv
    · exact h
theorem Canon.loopEnd (h : Canon s u) (c pc : Nat) (l : List Nat) : Canon s (u.loopEnd c pc l) := by
  induction l generalizing u with
  | nil => exact h.modCore _ _
  | cons j l ih =>
    unfold State.loopEnd
    dsimp only
    exact Canon.ite (Canon.ite ((h.putF _ _ _).modCore _ _) (ih (h.putF _ _ _))) (ih h)
theorem Canon.tag (h : Canon s u) (c cyc pc bundle : Nat) (ctl m v₁ st : Option Instr) : Canon s (u.tag c cyc pc bundle ctl m v₁ st) :=
  Canon.ite (h.putF _ _ _) (Canon.ite ((h.putF _ _ _).bump _ _ _) ((h.putF _ _ _).setCore _ _))
theorem Canon.tagWait (h : Canon s u) (c : Nat) : Canon s (u.tagWait c) := by
  unfold State.tagWait
  dsimp only
  refine Canon.ite h ?_
  split
  · exact Canon.ite h (h.setCore _ _)
  · exact h
theorem Canon.fetch1 (h : Canon s u) (t : At) (c : Nat) (ue : Bool) : Canon s (u.fetch1 t c ue) := by
  unfold State.fetch1
  dsimp only
  refine Canon.ite ((((Canon.ite (h.setMark _ _) h).modCore _ _).coreFault _ _).fenceCore _ _) ?_
  refine Canon.ite ((Canon.ite (h.setMark _ _) h).stall _ _) ?_
  refine Canon.ite (((Canon.ite (h.setMark _ _) h).waits _ _ _).modCore _ _) ?_
  refine Canon.modCore ?_ _ _
  refine Canon.pmcCore ?_ _ _ _
  refine Canon.runSlot ?_ _
  refine Canon.runSlot ?_ _
  refine Canon.runSlot ?_ _
  refine Canon.tagWait ?_ _
  refine Canon.runSlot ?_ _
  refine Canon.modCore ?_ _ _
  refine Canon.tag ?_ _ _ _ _ _ _ _ _
  refine Canon.ite ?_ ?_
  · exact ((Canon.ite (h.setMark _ _) h).countGoverned _ _).putF _ _ _
  · exact (((Canon.ite (h.setMark _ _) h).countGoverned _ _).putF _ _ _).loopEnd _ _ _
theorem Canon.execBundleFetch_next (h : Canon s u) (t : At) (core : Nat) (found : Mark) : NextCanon s (execBundleFetch t core found u) :=
  h.onCore_next fun _ hv => Canon.ite ((Canon.ite hv ((hv.reap _).wake _ _)).fetch1 _ _ _) (Canon.ite hv ((hv.reap _).wake _ _))
theorem Canon.execGovernorIssue_next (h : Canon s u) (t : At) (core : Nat) : NextCanon s (execGovernorIssue t core u) := by
  unfold execGovernorIssue
  dsimp only
  refine h.onCore_next fun _ hv => ?_
  split
  · exact hv
  · split
    · exact (hv.setCore _ _).runSlot _
    · exact (hv.setCore _ _).runSlot _
    · exact Canon.ite ((hv.setCore _ _).fetch1 _ _ _) (hv.setCore _ _)
theorem Canon.keepSample (h : Canon s u) (t cyc : Nat) (b : List Byte) : Canon s (u.keepSample t cyc b) :=
  Canon.ite (h.bump _ _ _) (Canon.ite (h.setTower _ _) (((h.setTower _ _).putF _ _ _).putF _ _ _))
theorem Canon.execSampleSend_next (h : Canon s u) (t : At) (core : Nat) : NextCanon s (execSampleSend t core u) := by
  unfold execSampleSend
  dsimp only
  refine h.onCore_next fun _ hv => ?_
  split
  · exact hv
  · exact Canon.ite ((hv.setCore _ _).keepSample _ _ _) hv
end Sys2Proof.Machine
end
section
/-! The canonical form is kept (R116, R117, R352): housekeeping. -/
namespace Sys2Proof.Machine
variable {s u : State}
theorem Canon.ringsOff (h : Canon s u) : Canon s u.ringsOff := (h.putF _ _ _).foldl fun _ _ hv => (hv.putF _ _ _).putF _ _ _
theorem Canon.trip (h : Canon s u) (source : Nat) (reading : ℤ) : Canon s (u.trip source reading) := by
  unfold State.trip
  dsimp only
  refine Canon.ite ?_ ?_
  · exact h
  · exact (((((((((h.putF _ _ _).putF _ _ _).putF _ _ _).log _ _ _).enter _).update.putB _ _ _).putB _ _ _).foldl fun _ _ hv5 => hv5.putF _ _ _).foldl fun _ _ hv6 => hv6.foldl fun _ _ hv7 => Canon.ite (hv7.putF _ _ _) hv7).ringsOff
theorem Canon.dilate (h : Canon s u) : Canon s u.dilate := by
  unfold State.dilate
  dsimp only
  refine Canon.ite ?_ ?_
  · exact (((((h.putF _ _ _).putF _ _ _).putF _ _ _).putF _ _ _).putF _ _ _).putF _ _ _
  · exact ((((((h.putF _ _ _).putF _ _ _).putF _ _ _).putF _ _ _).putF _ _ _).putF _ _ _).log _ _ _
theorem Canon.calibrate (h : Canon s u) : Canon s u.calibrate := Canon.ite (h.foldl fun _ _ hv => Canon.ite ((hv.chooseCal _).override _) hv) h
theorem Canon.endRound (h : Canon s u) : Canon s u.endRound := by
  unfold State.endRound
  extract_lets v warm o w
  have hw : Canon s w := h.dilate.calibrate.update
  clear_value w warm
  cases warm with
  | nil => exact hw
  | cons x warm => exact Canon.ite (hw.update.logAt _ _ _ _) hw
theorem Canon.post (h : Canon s u) (ch : Nat) (valid excluded : Bool) (v₁ : ℤ) : Canon s (u.post ch valid excluded v₁) := h.wr _ _
theorem Canon.diodeSlot (h : Canon s u) (ch : Nat) (x : HkSample) : Canon s (u.diodeSlot ch x) := by
  unfold State.diodeSlot
  dsimp only
  refine Canon.ite ?_ ?_
  · exact (Canon.ite ((h.update.post _ _ _ _).log _ _ _) (h.update.post _ _ _ _)).trip _ _
  · exact Canon.ite ((h.update.post _ _ _ _).log _ _ _) (h.update.post _ _ _ _)
theorem Canon.laserSlot (h : Canon s u) (n : Nat) (x : HkSample) : Canon s (u.laserSlot n x) := by
  unfold State.laserSlot
  dsimp only
  refine Canon.post ?_ _ _ _ _
  refine h.foldl fun _ _ hv => ?_
  refine Canon.ite ?_ ?_
  · exact Canon.ite ((Canon.ite ((hv.putF _ _ _).raiseBit _ _) (hv.putF _ _ _)).log _ _ _) (Canon.ite ((hv.putF _ _ _).raiseBit _ _) (hv.putF _ _ _))
  · exact hv.putF _ _ _
theorem Canon.thermSlot (h : Canon s u) (ch : Nat) (x : HkSample) : Canon s (u.thermSlot ch x) := Canon.ite (h.post _ _ _ _) (h.free.post _ _ _ _)
theorem Canon.execHousekeepingSlot_next (h : Canon s u) (t : At) (ch : BitVec 8) (sample : HkSample) : NextCanon s (execHousekeepingSlot t ch sample u) := by
  unfold execHousekeepingSlot
  dsimp only
  refine .next ?_
  refine Canon.ite (h.at _) ?_
  refine Canon.ite ?_ ?_
  · refine Canon.endRound ?_
    refine Canon.ite ?_ ?_
    · exact (h.at _).update.diodeSlot _ _
    · exact Canon.ite ((h.at _).update.thermSlot _ _) (Canon.ite ((h.at _).update.laserSlot _ _) ((h.at _).update.post _ _ _ _))
  · refine Canon.ite ?_ ?_
    · exact (h.at _).update.diodeSlot _ _
    · exact Canon.ite ((h.at _).update.thermSlot _ _) (Canon.ite ((h.at _).update.laserSlot _ _) ((h.at _).update.post _ _ _ _))
theorem Canon.execHbmTempRead_next (h : Canon s u) (t : At) (k temp : Nat) : NextCanon s (execHbmTempRead t k temp u) := by
  unfold execHbmTempRead
  dsimp only
  refine NextCanon.ite ?_ ?_
  · exact .next (Canon.ite (h.at _) (Canon.ite ((((h.at _).putF _ _ _).putB _ _ _).update.trip _ _) (((h.at _).putF _ _ _).putB _ _ _).update))
  · exact .fault
theorem Canon.execLaserFaultN_next (h : Canon s u) (t : At) : NextCanon s (execLaserFaultN t u) :=
  .next (Canon.ite (((h.at _).update.log _ _ _).holdCause _) (h.at _).update)
end Sys2Proof.Machine
end
section
/-! The canonical form is kept (R116, R117, R352): the start of the device. -/
namespace Sys2Proof.Machine
variable {s u : State}
theorem Canon.writeRecords (h : Canon s u) (cyc stage : Nat) : Canon s (u.writeRecords cyc stage) := h.foldl fun _ _ hv => (hv.cfgWrite _ _ _ _).update
theorem Canon.fenceMapped (h : Canon s u) (e : FenceEl) : Canon s (u.fenceMapped e) := by
  unfold State.fenceMapped
  dsimp only
  split
  · exact Canon.ite (h.putB _ _ _) h
  · exact Canon.ite (((h.markTowerFenced _).markRing _).fenceLat _) h
  · exact Canon.ite (h.putF _ _ _) h
  · exact Canon.ite (h.putF _ _ _) h
  · exact h
theorem Canon.applyFences (h : Canon s u) : Canon s u.applyFences := ((h.update.foldl fun _ _ hv => hv.fenceMapped _).retarget _).foldl fun _ _ hv2 => hv2.putB _ _ _
theorem Canon.unitsOn (h : Canon s u) : Canon s u.unitsOn := h.foldl fun _ _ hv => Canon.ite hv ((hv.setUnit _ _).bump _ _ _)
theorem Canon.groupsTrain (h : Canon s u) : Canon s u.groupsTrain := h.foldl fun _ _ hv => Canon.ite ((hv.setGroup _ _ _).putF _ _ _) hv
theorem Canon.timesBegin (h : Canon s u) : Canon s u.timesBegin := h.foldl fun _ _ hv => hv.setTime _ _
theorem Canon.parkEngines (h : Canon s u) : Canon s u.parkEngines := h.foldl fun _ _ hv => hv.foldl fun _ _ hv2 => hv2.park _
theorem Canon.zeroVaults (h : Canon s u) : Canon s u.zeroVaults := fun hs => canonical_filter (h hs) _ _
theorem Canon.bringUp (h : Canon s u) (cyc : Nat) : Canon s (u.bringUp cyc) :=
  ((((h.writeRecords _ _).enter _).phaseTo _).applyFences.unitsOn.timesBegin.phaseTo _).groupsTrain.zeroVaults.parkEngines.update
theorem Canon.execBringupEntry_next (h : Canon s u) (t : At) : NextCanon s (execBringupEntry t u) := .next (Canon.ite ((h.at _).bringUp _) (h.at _))
theorem Canon.defaultTaps (h : Canon s u) (tile : Nat) : Canon s (u.defaultTaps tile) :=
  h.foldl fun _ _ hv => hv.foldl fun _ _ hv2 => Canon.ite hv2 (hv2.foldl fun _ _ hv3 => (hv3.wr _ _).foldl fun _ _ hv4 => hv4.wr _ _)
theorem Canon.coldRing (h : Canon s u) (tile cyc : Nat) (items : List CalItem) (g : RingId) : Canon s (u.coldRing tile cyc items g) := by
  unfold State.coldRing
  dsimp only
  refine Canon.ite h ?_
  split
  · exact h.park _
  · exact ((h.putF _ _ _).setRing _ _).lockAt _ _ _
theorem Canon.execColdCalibration_next (h : Canon s u) (t : At) (tile : Nat) (items : List CalItem) : NextCanon s (execColdCalibration t tile items u) := by
  unfold execColdCalibration
  dsimp only
  refine NextCanon.ite ?_ ?_
  · refine NextCanon.ite ?_ ?_
    · exact .next (h.at _)
    · exact .next (((((((h.at _).defaultTaps _).foldl fun _ _ hv2 => hv2.setItem _ _ _ _).foldl fun _ _ hv3 => hv3.coldRing _ _ _ _).noteSource _ _).writeSlot _ _).override _)
  · exact .fault
theorem Canon.trainFrame (h : Canon s u) (x : Nat) : Canon s (u.trainFrame x) := (h.putF _ _ _).emit _
theorem Canon.execTrainingBeacon_next (h : Canon s u) (t : At) : NextCanon s (execTrainingBeacon t u) :=
  .next (Canon.ite ((h.at _).foldl fun _ _ hv2 => hv2.trainFrame _) (h.at _))
theorem Canon.trainFibre (h : Canon s u) (x delay farPkg farFibre : Nat) : Canon s (u.trainFibre x delay farPkg farFibre) := by
  unfold State.trainFibre
  dsimp only
  refine Canon.ite ?_ ?_
  · exact (((h.putF _ _ _).putF _ _ _).putF _ _ _).fenceFibre _ _
  · exact Canon.ite ((((h.putF _ _ _).putF _ _ _).putF _ _ _).fenceFibre _ _) ((((h.putF _ _ _).putF _ _ _).putF _ _ _).putF _ _ _)
theorem Canon.execFibreTraining_next (h : Canon s u) (t : At) (x delay farPkg farFibre : Nat) : NextCanon s (execFibreTraining t x delay farPkg farFibre u) :=
  NextCanon.ite (.next (Canon.ite ((Canon.ite ((h.at _).phaseTo _) (h.at _)).trainFibre _ _ _ _) (h.at _))) .fault
theorem Canon.startHalt (h : Canon s u) (cause haltCause : Nat) : Canon s (u.startHalt cause haltCause) := ((h.putF _ _ _).logStart _).halt _
theorem Canon.loadRoutes (h : Canon s u) (l : List Byte) : Canon s (u.loadRoutes l) := h.foldl fun _ _ hv => hv.foldl fun _ _ hv2 => hv2.wr _ _
theorem Canon.loadJobs (h : Canon s u) (l : List Byte) : Canon s (u.loadJobs l) :=
  h.foldl fun _ _ hv => (((hv.putB _ _ _).wr _ _).wr _ _).foldl fun _ _ hv3 => (hv3.forceWrite _ _).forceWrite _ _
theorem Canon.clearImem (h : Canon s u) : Canon s u.clearImem := fun hs => canonical_filter (h hs) _ _
theorem Canon.loadProg (h : Canon s u) (l : List Byte) (ps : List Prog) (step : Nat) (p : Prog) : Canon s (u.loadProg l ps step p) :=
  (((((h.setBytes _ _).putB _ _ _).putF _ _ _).putF _ _ _).wr _ _).wr _ _
theorem Canon.loadProgs (h : Canon s u) (l : List Byte) (step : Nat) : Canon s (u.loadProgs l step) :=
  (h.clearImem.foldl fun _ _ hv => hv.wr _ _).foldl fun _ _ hv2 => hv2.loadProg _ _ _ _
theorem Canon.loadData (h : Canon s u) (l : List Byte) : Canon s (u.loadData l) := h.foldl fun _ _ hv => hv.writeAt _ _ _
theorem Canon.loadVariants (h : Canon s u) : Canon s u.loadVariants := by
  unfold State.loadVariants
  dsimp only
  split
  · exact (h.update.foldl fun _ _ hv2 => hv2.wr _ _).foldl fun _ _ hv2 => hv2.wr _ _
  · exact (h.update.foldl fun _ _ hv2 => hv2.setSel _ _).foldl fun _ _ hv2 => hv2.setRun _ _
theorem Canon.phaseZero (h : Canon s u) : Canon s u.phaseZero := h.foldl fun _ _ hv => Canon.ite hv ((((hv.putF _ _ _).putF _ _ _).putF _ _ _).setLane _ _)
theorem Canon.loadImage (h : Canon s u) (cyc : Nat) : Canon s (u.loadImage cyc) :=
  (((((h.loadRoutes _).loadJobs _).loadProgs _ _).loadData _).writeRecords _ _).loadVariants.phaseZero.update
theorem Canon.execLoadEntry_next (h : Canon s u) (t : At) (badBlocks : List Nat) : NextCanon s (execLoadEntry t badBlocks u) := by
  unfold execLoadEntry
  dsimp only
  refine .next ?_
  refine Canon.ite ?_ ?_
  · refine Canon.ite ?_ ?_
    · exact ((((h.at _).foldl fun _ _ hv2 => hv2.writeKept _).enter _).phaseTo _).startHalt _ _
    · exact ((((h.at _).foldl fun _ _ hv2 => hv2.writeKept _).enter _).phaseTo _).loadImage _
  · exact h.at _
end Sys2Proof.Machine
end
section
/-! The canonical form is kept (R116, R117, R352): the rack join. -/
namespace Sys2Proof.Machine
variable {s u : State}
theorem Canon.joinFail (h : Canon s u) (cause member : Nat) : Canon s (u.joinFail cause member) := (h.log _ _ _).startHalt _ _
theorem Canon.armCores (h : Canon s u) (cyc base : Nat) : Canon s (u.armCores cyc base) := h.foldl fun _ _ hv => hv.setCore _ _
theorem Canon.tryJoin (h : Canon s u) (cyc : Nat) : Canon s (u.tryJoin cyc) := Canon.ite h (Canon.ite ((h.putF _ _ _).joinFail _ _) ((h.putF _ _ _).armCores _ _))
theorem Canon.setOneToOne (h : Canon s u) (n : Nat) : Canon s (u.setOneToOne n) := Canon.ite h (h.ratioWrite _ _)
theorem Canon.enterJoin (h : Canon s u) (cyc : Nat) : Canon s (u.enterJoin cyc) := (((h.enter _).phaseTo _).update.putF _ _ _).tryJoin _
theorem Canon.execJoinEntry_next (h : Canon s u) (t : At) : NextCanon s (execJoinEntry t u) :=
  .next (Canon.ite (Canon.ite ((h.at _).enterJoin _) ((h.at _).foldl fun _ _ hv2 => hv2.setOneToOne _)) (h.at _))
theorem Canon.sendJoin (h : Canon s u) (p : Nat) : Canon s (u.sendJoin p) := by
  unfold State.sendJoin
  dsimp only
  split
  · exact h.sendAt _ _ _
  · exact h.bump _ _ _
theorem Canon.execJoinMessageSend_next (h : Canon s u) (t : At) : NextCanon s (execJoinMessageSend t u) :=
  .next (Canon.ite ((h.at _).foldl fun _ _ hv2 => hv2.sendJoin _).update (h.at _))
theorem Canon.takeJoin (h : Canon s u) (cyc : Nat) (digest : List Byte) (proposal inc pkg : Nat) : Canon s (u.takeJoin cyc digest proposal inc pkg) :=
  Canon.ite (h.joinFail _ _) (Canon.ite (Canon.ite (h.joinFail _ _) h) (((h.putF _ _ _).wr _ _).update.tryJoin _))
theorem Canon.execJoinMessage_next (h : Canon s u) (t : At) (digest : List Byte) (proposal : Nat) (incarnation : BitVec 32) (pkg : Nat) : NextCanon s (execJoinMessage t digest proposal incarnation pkg u) :=
  NextCanon.ite (.next (Canon.ite ((h.at _).log _ _ _) (Canon.ite ((h.at _).takeJoin _ _ _ _ _) (h.at _)))) .fault
theorem Canon.execJoinTimeout_next (h : Canon s u) (t : At) : NextCanon s (execJoinTimeout t u) := .next (Canon.ite ((h.at _).joinFail _ _) (h.at _))
theorem Canon.zeroAccs (h : Canon s u) : Canon s u.zeroAccs := h.update
theorem Canon.enterRun (h : Canon s u) : Canon s u.enterRun := by
  unfold State.enterRun
  dsimp only
  refine Canon.ite ?_ ?_
  · exact ((((h.zeroAccs.enter _).phaseTo _).wr _ _).update.hostStep _ _ _).tryForm
  · exact (((h.zeroAccs.enter _).phaseTo _).wr _ _).update.hostStep _ _ _
theorem Canon.execRunEntry_next (h : Canon s u) (t : At) : NextCanon s (execRunEntry t u) := .next (Canon.ite (h.at _).enterRun (h.at _))
end Sys2Proof.Machine
end
section
/-! The canonical form is kept (R116, R117, R352): the logs. -/
namespace Sys2Proof.Machine
variable {s u : State}
theorem Canon.execLogRecordWrite_next (h : Canon s u) (t : At) (code : BitVec 16) (source : BitVec 32) (args : List (BitVec 64)) : NextCanon s (execLogRecordWrite t code source args u) :=
  .next (Canon.ite (h.at _) ((h.at _).log _ _ _))
theorem Canon.execLogMergeFlush_next (h : Canon s u) (t : At) (code : BitVec 16) (source : BitVec 32) : NextCanon s (execLogMergeFlush t code source u) :=
  .next (Canon.ite (h.at _) ((h.at _).flushMerge _ _))
theorem Canon.execPersistentLogWrite_next (h : Canon s u) (t : At) : NextCanon s (execPersistentLogWrite t u) := by
  unfold execPersistentLogWrite
  dsimp only
  split
  · exact .next (h.at _)
  · exact .next (Canon.ite (h.at _) (h.at _).update)
theorem Canon.execWatchdogExpiry_next (h : Canon s u) (t : At) : NextCanon s (execWatchdogExpiry t u) :=
  .next (Canon.ite (h.at _) (Canon.ite ((((h.at _).putB _ _ _).log _ _ _).halt _) (((h.at _).putB _ _ _).log _ _ _)))
end Sys2Proof.Machine
end
section
/-! The canonical form is kept (R116, R117, R352): management requests. -/
namespace Sys2Proof.Machine
variable {s u : State}
theorem Canon.reply (h : Canon s u) (type status number : Nat) (payload : List Byte) : Canon s (u.reply type status number payload) := h.emit _
theorem Canon.accept (h : Canon s u) (type status number : Nat) (payload : List Byte) : Canon s (u.accept type status number payload) := h.update.reply _ _ _ _
theorem Canon.onSigned (h : Canon s u) {type : Nat} {allowed : Bool} {q : Signed} {f : State → Nat × List Byte × State} {g : State → State}
    (hf : ∀ v, Canon s v → Canon s (f v).2.2) (hg : ∀ v, Canon s v → Canon s (g v)) : Canon s (u.onSigned type allowed q f g) := by
  have hdone := hf u h
  unfold State.onSigned
  generalize f u = r at hdone
  obtain ⟨st, b, v⟩ := r
  have haccept := Canon.accept hdone type st q.number b
  dsimp only
  refine Canon.ite h (Canon.ite (h.reply _ _ _ _) (Canon.ite (h.reply _ _ _ _) (Canon.ite ((h.log _ _ _).reply _ _ _ _) (Canon.ite (h.reply _ _ _ _) ?_))))
  exact Canon.ite (hdone.reply _ _ _ _) (Canon.ite (hg _ haccept) haccept)
theorem Canon.bring (h : Canon s u) (cyc : Nat) (l : List MgmtPlace) : Canon s (u.bring cyc l) := (Canon.ite h.countTags h).foldl fun _ _ hv2 => hv2.toCycle _ _
theorem Canon.directRead (h : Canon s u) (a : Nat) : Canon s (u.directRead a).2.2 := by
  unfold State.directRead
  dsimp only
  split
  · exact h
  · exact h
  · exact h
  · exact h.onyxRead _ _
theorem Canon.directWrite (h : Canon s u) (a : Nat) (v₁ : Word) : Canon s (u.directWrite a v₁) := by
  unfold State.directWrite
  split
  · exact (h.setBytes _ _).setMark _ _
  · exact h.writeAt _ _ _
theorem Canon.mgmtRead (h : Canon s u) (l : List MgmtPlace) : Canon s (u.mgmtRead l).2.2 := by
  induction l generalizing u with
  | nil => exact h
  | cons p l ih =>
    cases p with
    | cfg a => exact ih (h.cfgAccess a)
    | data a => exact ih (h.directRead a)
theorem Canon.execRead_next (h : Canon s u) (t : At) (number : Nat) (addr : BitVec 64) (count : Nat) : NextCanon s (execRead t number addr count u) :=
  .next (Canon.ite (h.at _) (Canon.ite ((h.at _).reply _ _ _ _) (Canon.ite ((h.at _).reply _ _ _ _) ((((h.at _).bring _ _).mgmtRead _).reply _ _ _ _))))
theorem Canon.cfgPut (h : Canon s u) (cyc a : Nat) (v₁ : Word) : Canon s (u.cfgPut cyc a v₁) := Canon.ite (h.cfgRefused _ _) (h.cfgWrite _ _ _ _)
theorem Canon.mgmtWrite (h : Canon s u) (cyc : Nat) (l : List (MgmtPlace × Word)) : Canon s (u.mgmtWrite cyc l) := by
  induction l generalizing u with
  | nil => exact h
  | cons x l ih =>
    obtain ⟨p, w⟩ := x
    cases p with
    | cfg a => exact ih (h.cfgPut _ _ _)
    | data a => exact ih (h.directWrite _ _)
theorem Canon.execWrite_next (h : Canon s u) (t : At) (req : Signed) (pairs : List (BitVec 64 × BitVec 64)) : NextCanon s (execWrite t req pairs u) :=
  .next ((h.at t).onSigned (fun _ hv => Canon.ite_thd hv (Canon.ite_thd hv ((hv.bring _ _).mgmtWrite _ _))) fun _ hv => hv)
theorem Canon.tryRestart (h : Canon s u) : Canon s u.tryRestart := by
  unfold State.tryRestart
  dsimp only
  split
  · exact h
  · exact Canon.ite h (h.update.reboot _)
theorem Canon.execRestart_next (h : Canon s u) (t : At) (req : Signed) (flags : BitVec 32) : NextCanon s (execRestart t req flags u) := by
  refine .next ((h.at t).onSigned (fun _ hv => hv) fun _ hv => ?_)
  have hpending := hv.foldl (f := fun s u => s.putF (Reg.onxUnit u) F.onxUnitPending 0) (l := List.range Config.units) fun _ _ hw => hw.putF _ _ _
  exact (Canon.ite (hpending.putB _ _ _) hpending).update.tryRestart
theorem Canon.execUnitTransitionEnd_next (h : Canon s u) (t : At) (u₁ : Nat) : NextCanon s (execUnitTransitionEnd t u₁ u) :=
  h.onUnit_next fun _ hv => (hv.unitEnd _ _).tryRestart
theorem Canon.endUpdate (h : Canon s u) (u₁ : Update) (result : Nat) : Canon s (u.endUpdate u₁ result) :=
  Canon.ite ((((h.putF _ _ _).putB _ _ _).log _ _ _).update.putB _ _ _).tryRestart (((h.putF _ _ _).putB _ _ _).log _ _ _).update
theorem Canon.beginUpdate (h : Canon s u) (header : List Byte) (eraseOk : Bool) : Canon s (u.beginUpdate header eraseOk).2.2 := by
  unfold State.beginUpdate
  dsimp only
  refine Canon.ite_thd (Canon.mk_thd h) ?_
  refine Canon.ite_thd (Canon.mk_thd (h.putF _ _ _)) ?_
  refine Canon.ite_thd (Canon.mk_thd (h.putF _ _ _)) ?_
  exact Canon.ite_thd (Canon.mk_thd ((((h.putF _ _ _).putF _ _ _).putB _ _ _).update.setBank _ _)) (Canon.mk_thd ((((h.putF _ _ _).putF _ _ _).putB _ _ _).update.endUpdate _ _))
theorem Canon.execUpdBegin_next (h : Canon s u) (t : At) (req : Signed) (header : List Byte) (eraseOk : Bool) : NextCanon s (execUpdBegin t req header eraseOk u) :=
  .next ((h.at t).onSigned (fun _ hv => hv.beginUpdate _ _) fun _ hv => hv)
theorem Canon.writeSegment (h : Canon s u) (u₁ : Update) (block offset : Nat) (data : List Byte) : Canon s (u.writeSegment u₁ block offset data) :=
  Canon.ite ((h.setBank _ _).update.bump _ _ _) (h.setBank _ _).update
theorem Canon.execUpdData_next (h : Canon s u) (t : At) (number session block offset : Nat) (data : List Byte) (flashOk : Bool) : NextCanon s (execUpdData t number session block offset data flashOk u) := by
  unfold execUpdData
  dsimp only
  refine .next ?_
  refine Canon.ite (h.at _) ?_
  refine Canon.ite ((h.at _).reply _ _ _ _) ?_
  split
  · exact (h.at _).reply _ _ _ _
  · exact Canon.ite ((h.at _).reply _ _ _ _) (Canon.ite (((h.at _).writeSegment _ _ _ _).reply _ _ _ _) (((h.at _).reply _ _ _ _).endUpdate _ _))
theorem Canon.execUpdEnd_next (h : Canon s u) (t : At) (req : Signed) (session : Nat) : NextCanon s (execUpdEnd t req session u) := by
  refine .next ((h.at t).onSigned (fun _ hv => ?_) fun _ hv => hv)
  split
  · exact hv
  · exact hv.update
theorem Canon.execUpdateFinish_next (h : Canon s u) (t : At) (flashOk : Bool) : NextCanon s (execUpdateFinish t flashOk u) := by
  unfold execUpdateFinish
  dsimp only
  split
  · exact .next (h.at _)
  · refine NextCanon.ite (.next (h.at _)) ?_
    refine .next ?_
    refine Canon.ite ((h.at _).endUpdate _ _) ?_
    refine Canon.ite ?_ ?_
    · exact (h.at _).endUpdate _ _
    · exact Canon.ite ((h.at _).endUpdate _ _) (Canon.ite ((h.at _).endUpdate _ _) (((h.at _).setBank _ _).endUpdate _ _))
theorem Canon.execUpdAbandon_next (h : Canon s u) (t : At) (req : Signed) (session : Nat) : NextCanon s (execUpdAbandon t req session u) := by
  refine .next ((h.at t).onSigned (fun _ hv => ?_) fun _ hv => ?_)
  · split
    · exact hv
    · exact hv
  · split
    · exact hv.endUpdate _ _
    · exact hv
theorem Canon.quote (h : Canon s u) (nonce : List Byte) : Canon s (u.quote nonce).2 := Canon.ite_snd (Canon.mk_snd h) h.free
theorem Canon.execQuote_next (h : Canon s u) (t : At) (number : Nat) (nonce : List Byte) : NextCanon s (execQuote t number nonce u) := by
  unfold execQuote
  dsimp only
  refine .next ?_
  refine Canon.ite (h.at _) ?_
  refine Canon.ite (h.at _) ?_
  refine Canon.ite ?_ ?_
  · exact (h.at _).reply _ _ _ _
  · exact Canon.ite (((h.at _).update.bump _ _ _).reply _ _ _ _) ((((h.at _).update.quote _).update.bump _ _ _).reply _ _ _ _)
end Sys2Proof.Machine
end
section
/-! The canonical form is kept (R116, R117, R352): the sideband and the test access port. -/
namespace Sys2Proof.Machine
variable {s u : State}
theorem Canon.execI3cPrivateWrite_next (h : Canon s u) (t : At) (bytes : List Byte) : NextCanon s (execI3cPrivateWrite t bytes u) := by
  unfold execI3cPrivateWrite
  dsimp only
  refine .next ?_
  refine Canon.ite ?_ ?_
  · split
    · exact h.at _
    · exact (h.at _).update
  · exact h.at _
theorem Canon.execI3cPrivateRead_next (h : Canon s u) (t : At) (count : Nat) : NextCanon s (execI3cPrivateRead t count u) :=
  .next (Canon.ite ((h.at _).update.emit _) (h.at _))
theorem Canon.execDynamicAddressAssign_next (h : Canon s u) (t : At) (assign : AddrAssign) : NextCanon s (execDynamicAddressAssign t assign u) := by
  unfold execDynamicAddressAssign
  dsimp only
  refine .next ?_
  refine Canon.ite ?_ ?_
  · split
    · exact (h.at _).update
    · exact Canon.ite (h.at _).update (h.at _)
  · exact h.at _
theorem Canon.execJtagInstruction_next (h : Canon s u) (t : At) (tap : Tap) : NextCanon s (execJtagInstruction t tap u) := by
  unfold execJtagInstruction
  dsimp only
  refine .next ?_
  refine Canon.ite (h.at _) ?_
  split
  · exact (h.at _).update.emit _
  · exact (h.at _).update.emit _
  · exact (h.at _).update
end Sys2Proof.Machine
end
section
/-! The canonical form is kept (R116, R117, R352): telemetry. -/
namespace Sys2Proof.Machine
variable {s u : State}
theorem Canon.execTelemetrySnapshot_next (h : Canon s u) (t : At) : NextCanon s (execTelemetrySnapshot t u) :=
  .next (Canon.ite ((h.at _).update.putB _ _ _) (h.at _))
theorem Canon.execSnapshotComplete_next (h : Canon s u) (t : At) : NextCanon s (execSnapshotComplete t u) := by
  unfold execSnapshotComplete
  dsimp only
  refine NextCanon.ite (.next (h.at _)) ?_
  split
  · exact .next (h.at _)
  · exact .next ((((h.at _).update.putF _ _ _).putF _ _ _).putB _ _ _)
end Sys2Proof.Machine
end
section
/-! The canonical form is kept (R116, R117, R352): every command, and so every step. -/
namespace Sys2Proof.Machine
variable {s u : State}
theorem Canon.exec_next (h : Canon s u) (i : Instr) : NextCanon s (exec i u) := by
  unfold exec
  split
  · exact h.execPowerOn_next _
  · exact h.execPowerRemoval_next _
  · exact h.execResetNAssert_next _
  · exact h.execResetNRelease_next _ _ _
  · exact h.execBringupEntry_next _
  · exact h.execColdCalibration_next _ _ _
  · exact h.execHbmInitialization_next _ _
  · exact h.execDisciplineTimeout_next _
  · exact h.execD2dTraining_next _ _ _ _
  · exact h.execTrainingStepTimeout_next _ _ _ _
  · exact h.execCapabilityWordFixed_next _
  · exact h.execBondTest_next _ _ _
  · exact h.execLaserCheck_next _ _ _
  · exact h.execRingAcquisition_next _ _ _
  · exact h.execMarginTest_next _ _ _ _ _
  · exact h.execKeptSetPeriodicWrite_next _ _
  · exact h.execTrainingBeacon_next _
  · exact h.execFibreTraining_next _ _ _ _ _
  · exact h.execLoadEntry_next _ _
  · exact h.execJoinEntry_next _
  · exact h.execJoinMessageSend_next _
  · exact h.execJoinMessage_next _ _ _ _ _
  · exact h.execJoinTimeout_next _
  · exact h.execRunEntry_next _
  · exact h.execBundleFetch_next _ _ _
  · exact h.execSampleSend_next _ _
  · exact h.execNop_next _ _ _
  · exact h.execAdd_next _ _ _ _ _
  · exact h.execSub_next _ _ _ _ _
  · exact h.execAnd_next _ _ _ _ _
  · exact h.execOr_next _ _ _ _ _
  · exact h.execXor_next _ _ _ _ _
  · exact h.execShl_next _ _ _ _ _
  · exact h.execShr_next _ _ _ _ _
  · exact h.execSar_next _ _ _ _ _
  · exact h.execMul_next _ _ _ _ _
  · exact h.execMin_next _ _ _ _ _
  · exact h.execMax_next _ _ _ _ _
  · exact h.execAddi_next _ _ _ _ _
  · exact h.execAndi_next _ _ _ _ _
  · exact h.execOri_next _ _ _ _ _
  · exact h.execXori_next _ _ _ _ _
  · exact h.execShli_next _ _ _ _ _
  · exact h.execShri_next _ _ _ _ _
  · exact h.execSari_next _ _ _ _ _
  · exact h.execMovi_next _ _ _ _
  · exact h.execInsl_next _ _ _ _ _
  · exact h.execInsh_next _ _ _ _ _
  · exact h.execCmp_next _ _ _ _ _ _
  · exact h.execCmpi_next _ _ _ _ _ _
  · exact h.execPlog_next _ _ _ _ _ _
  · exact h.execSld_next _ _ _ _ _
  · exact h.execSst_next _ _ _ _ _
  · exact h.execSrd_next _ _ _ _
  · exact h.execVsel_next _ _ _ _
  · exact h.execCapc_next _ _ _ _
  · exact h.execBr_next _ _ _
  · exact h.execBnz_next _ _ _ _
  · exact h.execBz_next _ _ _ _
  · exact h.execJr_next _ _ _
  · exact h.execLoop_next _ _ _ _ _
  · exact h.execLoopi_next _ _ _ _ _
  · exact h.execWaitt_next _ _ _ _
  · exact h.execWaittRelease_next _ _
  · exact h.execWaitse_next _ _ _ _
  · exact h.execBar_next _ _ _ _ _
  · exact h.execBarrierTreeRelease_next _ _ _
  · exact h.execBarrierArrival_next _ _ _
  · exact h.execPackageBarrierRelease_next _ _ _
  · exact h.execFset_next _ _ _ _
  · exact h.execFlagLand_next _ _
  · exact h.execFclr_next _ _ _
  · exact h.execFwait_next _ _ _ _
  · exact h.execFtest_next _ _ _ _
  · exact h.execFence_next _ _
  · exact h.execLatr_next _ _ _ _
  · exact h.execStep_next _ _ _
  · exact h.execHalt_next _ _
  · exact h.execMma_next _ _ _ _ _ _ _ _ _
  · exact h.execGovernorIssue_next _ _
  · exact h.execArrayFoldWrite_next _ _
  · exact h.execMmac_next _ _ _ _ _ _ _ _ _ _
  · exact h.execChecksumResult_next _ _
  · exact h.execAccrd_next _ _ _ _ _ _ _
  · exact h.execAccwr_next _ _ _ _ _ _ _
  · exact h.execAccclr_next _ _ _
  · exact h.execVadd_next _ _ _ _ _ _
  · exact h.execVsub_next _ _ _ _ _ _
  · exact h.execVmul_next _ _ _ _ _ _
  · exact h.execVfma_next _ _ _ _ _ _
  · exact h.execVmin_next _ _ _ _ _ _
  · exact h.execVmax_next _ _ _ _ _ _
  · exact h.execVcmp_next _ _ _ _ _ _
  · exact h.execVselm_next _ _ _ _ _
  · exact h.execVexp2_next _ _ _ _
  · exact h.execVlog2_next _ _ _ _
  · exact h.execVrcp_next _ _ _ _
  · exact h.execVrsq_next _ _ _ _
  · exact h.execVrsum_next _ _ _ _
  · exact h.execVrmax_next _ _ _ _
  · exact h.execVbcl_next _ _ _ _ _
  · exact h.execVbcs_next _ _ _ _
  · exact h.execVext_next _ _ _ _ _
  · exact h.execVpack_next _ _ _ _ _
  · exact h.execVunpk_next _ _ _ _ _
  · exact h.execVld_next _ _ _ _ _
  · exact h.execVst_next _ _ _ _ _
  · exact h.execVdq_next _ _ _ _ _
  · exact h.execVq_next _ _ _ _ _ _ _ _ _ _
  · exact h.execScopy_next _ _ _ _ _ _ _ _
  · exact h.execStile_next _ _ _ _ _ _ _ _
  · exact h.execSflag_next _ _ _ _
  · exact h.execSflagRelease_next _ _ _
  · exact h.execSatom_next _ _ _ _ _ _ _ _
  · exact h.execSinv_next _ _ _ _
  · exact h.execSmcast_next _ _ _ _ _ _ _
  · exact h.execRecst_next _ _ _ _ _
  · exact h.execRecordForm_next _ _
  · exact h.execRecmg_next _ _ _ _ _ _
  · exact h.execDescriptorStart_next _ _ _
  · exact h.execTagAcquire_next _ _ _ _
  · exact h.execTransferComplete_next _ _ _
  · exact h.execDroopDetect_next _ _
  · exact h.execVaultPortGrant_next _ _ _ _ _
  · exact h.execMergedRead_next _ _ _
  · exact h.execWormExit_next _ _ _ _
  · exact h.execWormTimeout_next _ _ _ _
  · exact h.execPortBlockRewrite_next _ _ _ _ _ _
  · exact h.execLayerFlitCrc_next _ _ _ _
  · exact h.execWirePairDisagree_next _ _ _
  · exact h.execRingService_next _ _ _ _ _
  · exact h.execReacquireRetry_next _ _ _
  · exact h.execFlitReceive_next _ _ _ _ _
  · exact h.execLinkControlSend_next _ _
  · exact h.execLinkControlReceive_next _ _ _ _
  · exact h.execAckTimeout_next _ _ _
  · exact h.execWeightStep_next _ _
  · exact h.execTxArbGrant_next _ _ _
  · exact h.execLatrForward_next _ _ _ _
  · exact h.execRequestBoundary_next _ _
  · exact h.execStartBoundary_next _ _
  · exact h.execShiftersSettled_next _ _ _
  · exact h.execLaneReopen_next _ _ _
  · exact h.execLaneLateRelock_next _ _
  · exact h.execLaneFenceTimeout_next _ _
  · exact h.execFrameReceive_next _ _ _ _
  · exact h.execD2dFrameReceive_next _ _ _ _ _
  · exact h.execD2dReplayTimeout_next _ _ _ _
  · exact h.execD2dRetrain_next _ _ _ _
  · exact h.execTileReset_next _ _
  · exact h.execSyncEdge_next _
  · exact h.execTimeMark_next _ _ _
  · exact h.execTodMessage_next _ _ _ _ _ _
  · exact h.execRefclkLoss_next _
  · exact h.execFlipCaratWrite_next _ _
  · exact h.execRouteFlip_next _
  · exact h.execBankLockEnd_next _
  · exact h.execRouteTableWrite_next _ _ _ _ _
  · exact h.execArbFreezeSet_next _ _
  · exact h.execArbFreezeClear_next _ _
  · exact h.execArbMapWrite_next _ _ _
  · exact h.execArbMapApply_next _ _
  · exact h.execHbmChannelGrant_next _ _ _ _ _ _
  · exact h.execHbmMerge_next _ _ _ _
  · exact h.execHbmRefresh_next _ _ _ _
  · exact h.execHbmTempRead_next _ _ _
  · exact h.execScrubRead_next _ _ _
  · exact h.execLoad_next _ _ _
  · exact h.execStore_next _ _ _
  · exact h.execMstore_next _ _ _
  · exact h.execInv_next _ _ _
  · exact h.execInvh_next _ _ _
  · exact h.execCopyld_next _ _ _
  · exact h.execAtomic_next _ _ _
  · exact h.execFlagPacket_next _ _ _
  · exact h.execResponse_next _ _ _
  · exact h.execAttemptTimeout_next _ _ _
  · exact h.execTagRelease_next _ _ _
  · exact h.execRefetch_next _ _ _
  · exact h.execTowerStepTreeComplete_next _ _
  · exact h.execTowerArrival_next _ _ _
  · exact h.execBoundaryMessage_next _ _ _ _ _ _ _
  · exact h.execStepRelease_next _
  · exact h.execStepTimeout_next _
  · exact h.execVariantEvaluation_next _ _
  · exact h.execShardData_next _ _ _ _ _ _
  · exact h.execIngestStoreIssue_next _ _ _ _
  · exact h.execShardRetransmit_next _ _ _
  · exact h.execShardAbandon_next _ _ _
  · exact h.execEgressLoadIssue_next _ _ _
  · exact h.execEgrAck_next _ _ _ _ _
  · exact h.execEgressRetransmit_next _ _
  · exact h.execEgressTimeout_next _ _
  · exact h.execArpRequest_next _ _ _ _
  · exact h.execNeighbourSolicitation_next _ _ _ _
  · exact h.execEchoRequest_next _ _ _ _ _
  · exact h.execFrameDiscard_next _ _
  · exact h.execRead_next _ _ _ _
  · exact h.execWrite_next _ _ _
  · exact h.execUpdBegin_next _ _ _ _
  · exact h.execUpdData_next _ _ _ _ _ _ _
  · exact h.execUpdEnd_next _ _ _
  · exact h.execUpdateFinish_next _ _
  · exact h.execUpdAbandon_next _ _ _
  · exact h.execRestart_next _ _ _
  · exact h.execQuote_next _ _ _
  · exact h.execLogRecordWrite_next _ _ _ _
  · exact h.execLogMergeFlush_next _ _ _
  · exact h.execPersistentLogWrite_next _
  · exact h.execWatchdogExpiry_next _
  · exact h.execHousekeepingSlot_next _ _ _
  · exact h.execLaserFaultN_next _
  · exact h.execUnitEnable_next _ _
  · exact h.execUnitDisable_next _ _
  · exact h.execUnitTransitionEnd_next _ _
  · exact h.execRatioWrite_next _ _ _
  · exact h.execPmcCount_next _
  · exact h.execPmcWindow_next _
  · exact h.execPmcFreeze_next _
  · exact h.execPmcWindowEdge_next _
  · exact h.execTelemetrySnapshot_next _
  · exact h.execSnapshotComplete_next _
  · exact h.execI3cPrivateWrite_next _ _
  · exact h.execI3cPrivateRead_next _ _
  · exact h.execDynamicAddressAssign_next _ _
  · exact h.execJtagInstruction_next _ _
  · exact h.execConfigWrite_next _ _ _ _
  · exact h.execSyncMissed_next _
  · exact h.execWormHop_next _ _ _ _ _ _
  · exact h.execD2dFrameSend_next _ _ _ _
  · exact h.execLaneFrameStart_next _ _ _
  · exact h.execHostPortLinkUp_next _ _
  · exact h.execRatioChangeComplete_next _
  · exact h.execQualityMeasurement_next _ _ _ _
  · exact h.execCalibrationAdaptation_next _ _ _
/-- Settles O6: a command meets a state in canonical form and, by `Canon.exec_next`, leaves one; a machine that waits for no command stays as it is. -/
theorem memoryStaysCanonical : Obligations.MemoryStaysCanonical := by
  unfold Obligations.MemoryStaysCanonical
  intro s u hs hstep
  unfold step at hstep
  split at hstep
  · cases hstep
    exact hs
  · exact (Canon.refl s).update.exec_next _ u hstep hs
end Sys2Proof.Machine
end
